-- ==== Sys2Proof/Word.lean ====
section
/-! DEFINITION. Word.lean: the words the module's registers hold and the numbers that name its cores. -/

namespace Sys2Proof

/-- A 64-bit register word. -/
abbrev U64 := BitVec 64
/-- One byte of memory. -/
abbrev Byte := BitVec 8
/-- A core number: 0 to 127 compute cores, 128 to 143 hub cores (07 R278, R283 `CORE_ID`). -/
abbrev CoreId := Fin 144
/-- A compute core's number. -/
abbrev ComputeId := Fin 128
/-- A fabric port P0 to P23 (11 R389). -/
abbrev PortId := Fin 24
/-- A quadrant Q0 to Q3. -/
abbrev QuadId := Fin 4
/-- A mailbox MB0 to MB7 (15 R533). -/
abbrev MailId := Fin 8

end Sys2Proof
end

