-- ==== Sys2Proof/Syntax.lean ====
section
/-! DEFINITION. Syntax.lean: the commands the module takes, one constructor for each row of the opcode table, and the
packets, slips and samples that are their operands. -/

namespace Sys2Proof

/-- State of a call number in the catalogue (11 R400). -/
inductive CatState where
  | active | reserve | withdrawn
deriving DecidableEq, Repr

/-- One catalogue entry with the route data from which this router derives its ports (11 R400, R404). -/
structure CatEntry where
  call : BitVec 20
  shelf : BitVec 32
  edition : BitVec 16
  state : CatState
  /-- minimal ports towards the call number -/
  minPorts : BitVec 24
  /-- non-minimal ports -/
  nonMin : BitVec 24
  /-- the deterministic port -/
  det : PortId
  /-- links to the module on a minimal route -/
  dist : BitVec 5
deriving DecidableEq, Repr

/-- A catalogue update (11 R400), or one packet's part of it (R390; log 83). -/
structure CatUpdate where
  gen : BitVec 32
  tact : U64
  entries : List CatEntry
  /-- shelf mark of the time root (11 R422), once the catalogue names one -/
  root : Option (BitVec 32)
  /-- another packet of the same update follows -/
  more : Bool
deriving DecidableEq, Repr

/-- What a packet carries after its header flit. -/
inductive Body where
  /-- payload flits, 64 bytes each: hall data, plan units, LEDGER messages (12 R462) -/
  | flits (bytes : List Byte)
  /-- HELLO (11 R401, 16 R566): shelf mark, call number, edition, catalogue generation, rank, and whether the module is fit -/
  | hello (shelf : BitVec 32) (call : BitVec 20) (ed : BitVec 16) (gen : BitVec 32) (rank : BitVec 3) (fit : Bool)
  /-- MGMT claim of the catalogue (11 R402) -/
  | claim (rank : BitVec 3) (shelf : BitVec 32)
  /-- MGMT catalogue update (11 R400) -/
  | update (u : CatUpdate)
  /-- MGMT report of a port's coming up or going down: reporter's shelf mark and port, the neighbour's shelf mark, if it is known,
  and whether the neighbour is fit (11 R401, 16 R566) -/
  | port (shelf : BitVec 32) (p : BitVec 5) (far : Option (BitVec 32)) (up fit : Bool)
  /-- MGMT frame of the Curators: broker slack, fencing reports and call slips (14 R519, 11 R434) -/
  | words (tag : BitVec 8) (ws : List U64)
deriving DecidableEq, Repr

/-- A packet: the header flit of 11 R395 and its body. -/
structure Packet where
  ty : BitVec 5
  vc : BitVec 3
  mark : Bool
  watch : Bool
  pmask : BitVec 4
  dcall : BitVec 20
  ded : BitVec 16
  hops : BitVec 8
  scall : BitVec 20
  sed : BitVec 16
  jobkey : BitVec 16
  plan : BitVec 12
  /-- word +0x10: OFFSET and SPACE, the unit number, or ECHO -/
  w2 : U64
  tag : BitVec 32
  ngran : BitVec 3
  aop : BitVec 4
  asz : BitVec 2
  status : BitVec 7
  which : Bool
  arg0 : U64
  arg1 : U64
  lseq : BitVec 12
  lack : BitVec 12
  ackv : Bool
  cvc : BitVec 3
  ccnt : BitVec 8
  pcrc : BitVec 32
  lcrc : BitVec 32
  /-- a bit R395 does not show is set -/
  rsv : Bool
  body : Body
deriving DecidableEq, Repr

/-- Which major of the address instructions a word has: 0x02, 0x03 or 0x04 (06 R205). -/
inductive AddrMajor where
  | reg | imm | move
deriving DecidableEq, Repr

/-- A physical fault inside a TMMA4, which the environment brings about (02 R53, R55; 03 R84, R85). -/
inductive Upset where
  /-- bits of the value that leaves a column of an array (64 the margin sum, 65 the absolute sum) are flipped for a row of
  tile q, in the first run or in the repeat -/
  | cell (rep : Bool) (q : BitVec 2) (row : BitVec 8) (col : Fin 66) (flips : BitVec 64)
  /-- the residue check of an accumulator addition fails for a row of tile q -/
  | residue (rep : Bool) (q : BitVec 2) (row : BitVec 8)
  /-- an ECC error in the tile state read: single-bit (corrected) or double-bit -/
  | ecc (double : Bool)
deriving DecidableEq, Repr

/-- A core's part of the stage 6 tests: arrays that failed, and whether its carrel, L1 or tile file failed (16 R566). -/
abbrev CoreTest := CoreId × BitVec 4 × Bool

/-- A memory that carries SECDED ECC over each 64-bit word (08 R293). -/
inductive MemUnit where
  | hbm | l2 | carrel | l1d
deriving DecidableEq, Repr

/-- An ECC error of a memory: the word's physical address / 8, and whether it is a double-bit error (08 R293). -/
structure MemErr where
  unit : MemUnit
  word : Nat
  double : Bool
deriving DecidableEq, Repr

/-- The core that runs an instruction which reads the tile state, and the ECC errors those reads meet, true a double-bit one (03 R84). -/
structure TileReader where
  core : CoreId
  ecc : List Bool
deriving DecidableEq, Repr

/-- The core that runs an LD, and the ECC errors found in memory up to its read, in any of its words (08 R293; log 77). -/
structure MemReader where
  core : CoreId
  errs : List MemErr
deriving DecidableEq, Repr

/-- The commands, one for each row of the opcode table. A core's instruction names the core and carries the bits of its word that its
row leaves open, with a prefix word where it has one; an event carries what the environment brings (a sample, a packet, the result of a test).
An instruction that reads the tile state, and LD, carry with the core the ECC errors their reads meet. Rows with operands stand first, in the table's order, and rows
without any after them. -/
inductive Instr where
  /-- TCFG (R90): Waits for all earlier tile work, then applies a new shape to a tile register or accumulator tile, clearing it if the shape changes. -/
  | tcfg (c : CoreId) (f : BitVec 26)
  /-- TLD (R98): Loads the rows of a tile register from memory, with an optional scale side, semaphore wait and HI/LO split. -/
  | tld (c : CoreId) (p : Option (BitVec 26)) (hi : BitVec 17) (lo : BitVec 7)
  /-- TST (R98): Stores the rows of a tile register to memory. -/
  | tst (c : TileReader) (p : Option (BitVec 26)) (hi : BitVec 17) (lo : BitVec 7)
  /-- ZLD (R99): Loads an accumulator tile as raw bits into a fresh physical tile and clears its zero tag. -/
  | zld (c : CoreId) (hi : BitVec 17) (lo : BitVec 7)
  /-- ZST (R99): Stores an accumulator tile as raw bits, or zeros for a zero-tagged tile. -/
  | zst (c : TileReader) (hi : BitVec 17) (lo : BitVec 7)
  /-- TLW (R107): Gathers a weight source, its scales and the captured column mask into a free staging buffer. -/
  | tlw (c : CoreId) (f : BitVec 26)
  /-- TLW_DELIVERY (R40): From clk W0, after the last row of every earlier TMMA4 has entered, writes weight row k into cell row k as a wavefront over 64 clk. -/
  | tlwDelivery (c : TileReader)
  /-- TMMA4 (R111): Feeds the live rows of four tile registers through the arrays and accumulates the products into four accumulator tiles. -/
  | tmma4 (c : CoreId) (f : BitVec 26) (us : List Upset)
  /-- TMMA4_COMPLETE (R72): A TMMA4 completes when the last rows of all four tiles have been handed over; its fresh tiles are mapped and the old ones freed. -/
  | tmma4Complete (c : CoreId)
  /-- TSTZ (R117): Stores an accumulator tile with conversion, amax and counting, in row-major, column-major or folio layout. -/
  | tstz (c : TileReader) (p : Option (BitVec 26)) (f : BitVec 26)
  /-- TZERO_T (R120): Writes zero bytes to a tile register and sets its scale bytes to 0x7F. -/
  | tzeroT (c : CoreId) (f : BitVec 23)
  /-- TZERO_Z (R120): Sets the zero tag of an accumulator tile. -/
  | tzeroZ (c : CoreId) (f : BitVec 23)
  /-- TMOV (R120): Copies a tile register and its scale side to another of equal shape. -/
  | tmov (c : TileReader) (f : BitVec 23)
  /-- ZMOV (R120): Copies an accumulator tile into a fresh physical tile and maps the destination to it. -/
  | zmov (c : TileReader) (f : BitVec 23)
  /-- NCH_AMAXCLR (R159): A write sets the amax of the named channel on this core to +0. -/
  | nchAmaxclr (c : CoreId) (rd : BitVec 4)
  /-- SETVL (R167): Sets VTYPE and VL = min(request, VLMAX) and writes VL to a D register. -/
  | setvl (c : CoreId) (f : BitVec 23)
  /-- PLOG (R172): Performs a logic operation on all 256 bits of two predicate registers. -/
  | plog (c : CoreId) (f : BitVec 23)
  /-- VECTOR_INTEGER_OP (R173): Executes a major 0x19 integer arithmetic, logic, shift, compare, move, widen or narrow operation on active elements. -/
  | vectorIntegerOp (c : CoreId) (f : BitVec 26)
  /-- VECTOR_FP_OP (R175): Executes a major 0x1A floating-point arithmetic, FMA or compare operation, rounding once. -/
  | vectorFpOp (c : CoreId) (f : BitVec 26)
  /-- VECTOR_TRANSCENDENTAL (R178): Executes VFDIV, VFSQRT, VFRCP, VFRSQRT, VFEXP, VFEXP2, VFLOG2 or VFTANH with the specified rounding and special cases. -/
  | vectorTranscendental (c : CoreId) (hi : BitVec 15) (fn : BitVec 3) (lo : BitVec 6)
  /-- VECTOR_REDUCTION (R177): Combines active elements by the fixed tree over VLMAX positions, then with the initial value. -/
  | vectorReduction (c : CoreId) (f : BitVec 26)
  /-- VECTOR_PERMUTE (R173): Executes VSLIDEUP, VSLIDEDN, VPERM, VCOMPRESS, VINDEX or VPCNT. -/
  | vectorPermute (c : CoreId) (f : BitVec 26)
  /-- VCVT (R179): A vector conversion carrying a numeric class, rounded and counted as a converting operation. -/
  | vcvt (c : CoreId) (p : Option (BitVec 26)) (f : BitVec 26)
  /-- VECTOR_LOAD_STORE (R181): A unit-stride or strided vector load or store performing active elements in increasing order. -/
  | vectorLoadStore (c : CoreId) (f : BitVec 26)
  /-- VECTOR_GATHER_SCATTER (R181): A gather or scatter by index vector performing active elements in increasing order. -/
  | vectorGatherScatter (c : CoreId) (f : BitVec 26)
  /-- VECTOR_STRUCTURE_LOAD_STORE (R184): VLD2/3/4 or VST2/3/4 moving interleaved fields to or from register groups. -/
  | vectorStructureLoadStore (c : CoreId) (f : BitVec 26)
  /-- INTEGER_REGISTER_OP (R211): Executes a major 0x00 integer operation, including divide with its fixed results. -/
  | integerRegisterOp (c : CoreId) (f : BitVec 26)
  /-- INTEGER_IMMEDIATE_OP (R213): Executes a major 0x01 operation with IMM14, including LDI. -/
  | integerImmediateOp (c : CoreId) (x : Option (BitVec 26)) (f : BitVec 26)
  /-- ADDRESS_OP (R214): Executes ADDA, SUBA, DIFA, the A-register compares, ADDAI, SHLAI, SHRAI, LEAPC or a transfer. -/
  | addressOp (c : CoreId) (m : AddrMajor) (x : Option (BitVec 26)) (f : BitVec 26)
  /-- LD (R208): Loads a D register by an addressing mode, with size and extension. -/
  | ld (c : MemReader) (x : Option (BitVec 26)) (f : BitVec 26)
  /-- ST (R208): Stores a D register by an addressing mode. -/
  | st (c : CoreId) (x : Option (BitVec 26)) (f : BitVec 26)
  /-- LDA_STA (R209): Loads or stores an A register. -/
  | ldaSta (c : CoreId) (x : Option (BitVec 26)) (f : BitVec 26)
  /-- BRANCH (R227): Compares two D registers and branches by COND. -/
  | branch (c : CoreId) (f : BitVec 26)
  /-- BRANCH_ON_ZERO (R227): Compares a D register with zero and branches by COND. -/
  | branchOnZero (c : CoreId) (f : BitVec 26)
  /-- JMP (R227): Transfers control by a displacement. -/
  | jmp (c : CoreId) (f : BitVec 26)
  /-- JMPR (R229): Transfers control to A[AT]. -/
  | jmpr (c : CoreId) (f : BitVec 23)
  /-- CALL (R228): Pushes the return address below A15 and transfers control by a displacement. -/
  | call (c : CoreId) (f : BitVec 26)
  /-- CALLR (R228): Pushes the return address and transfers control to A[AT]. -/
  | callr (c : CoreId) (f : BitVec 23)
  /-- RET (R229): Pops the return address from A15 and transfers control to it. -/
  | ret (c : CoreId) (f : BitVec 23)
  /-- SCALAR_ATOMIC (R215): Performs an integer atomic read-modify-write at the home of its address. -/
  | scalarAtomic (c : CoreId) (f : BitVec 26)
  /-- AFADD (R216): Performs a floating-point atomic add and sets XSTAT.NONREP. -/
  | afadd (c : CoreId) (hi : BitVec 16) (lo : BitVec 6)
  /-- CSEL (R217): Selects D[RA] or D[RB] by D[RC]. -/
  | csel (c : CoreId) (f : BitVec 26)
  /-- NOP (R205): Does nothing. -/
  | nop (c : CoreId)
  /-- MTC (R232): Writes a D register to a CSR that has no behaviour of its own, field by field under the access codes. -/
  | mtc (c : CoreId) (f : BitVec 26)
  /-- DEVICE_REGISTER_WRITE (R285): An aligned store to a device register that has no behaviour of its own. -/
  | deviceRegisterWrite (c : CoreId) (off : BitVec 24) (wide : Bool) (v : U64)
  /-- FIXED_POINT_MAC (R220): Executes AMAC, AMSU, AMUL, AMACM or AMSUM into an 80-bit accumulator. -/
  | fixedPointMac (c : CoreId) (f : BitVec 26)
  /-- ACCUMULATOR_ARITHMETIC (R221): Executes AADD.A, ASUB.A, ACLR, ANEG, AABS, ASHL, ASHR or ALDQ. -/
  | accumulatorArithmetic (c : CoreId) (f : BitVec 26)
  /-- ACCUMULATOR_MOVE (R222): Executes AMVD, ARDL, ARDH, AWRL or AWRH. -/
  | accumulatorMove (c : CoreId) (f : BitVec 26)
  /-- SCALAR_FP_OP (R224): Executes a scalar floating-point operation on F registers. -/
  | scalarFpOp (c : CoreId) (f : BitVec 26)
  /-- FLD_FST (R225): Loads or stores an F register. -/
  | fldFst (c : CoreId) (f : BitVec 26)
  /-- FP_MOVE_CONVERT (R226): Executes FCVT, FMVDF, FMVFD, FCVTI or ICVTF. -/
  | fpMoveConvert (c : CoreId) (f : BitVec 26)
  /-- RPT (R235): Executes the prefixed instruction count times without interruption. -/
  | rpt (c : CoreId) (p : BitVec 25) (x : Option (BitVec 26)) (w : BitVec 32)
  /-- RPTI (R236): Executes the prefixed instruction count times, counting RCNT down and allowing events between iterations. -/
  | rpti (c : CoreId) (p : BitVec 25) (x : Option (BitVec 26)) (w : BitVec 32)
  /-- GLOSS (R249): Invokes a gloss entry, running its micro-ops in slot order and committing all results at once. -/
  | gloss (c : CoreId) (f : BitVec 26)
  /-- GL_WORD (R247): A write stores the selected header or micro-op word and clears the entry's VALID bit unless locked. -/
  | glWord (c : CoreId) (rd : BitVec 4)
  /-- GL_CTL_COMMIT (R247): Writing 1 checks the selected entry and sets VALID or reports ERR. -/
  | glCtlCommit (c : CoreId) (rd : BitVec 4)
  /-- GL_LOCK (R248): Writing 1 to a bit locks that gloss entry until reset. -/
  | glLock (c : CoreId) (rd : BitVec 4)
  /-- BREAKPOINT_HALT (R254): An armed breakpoint matching the next instruction halts the core before it and reports through MB7. -/
  | breakpointHalt (c : CoreId)
  /-- CALLG (R262): Calls through a gate, checking it, storing the return frame and changing the ring. -/
  | callg (c : CoreId) (f : BitVec 22)
  /-- RETG (R263): Returns from a gate call to the caller ring, refusing a more privileged return. -/
  | retg (c : CoreId) (f : BitVec 22)
  /-- RTE (R273): Returns to the linked context under the sealed-ring rule, refilling a spilled bank. -/
  | rte (c : CoreId) (f : BitVec 22)
  /-- MFB (R270): Reads one register of the linked or an explicit bank into a D register. -/
  | mfb (c : CoreId) (f : BitVec 22)
  /-- MTB (R271): Writes one register of the linked or an explicit bank, with the restrictions on ST, PC and ELINK. -/
  | mtb (c : CoreId) (f : BitVec 22)
  /-- GMS (R274): Sets ST.GM. -/
  | gms (c : CoreId) (f : BitVec 22)
  /-- GMC (R274): Clears ST.GM. -/
  | gmc (c : CoreId) (f : BitVec 22)
  /-- WAIT (R281): Stalls issue until XPEND is non-zero. -/
  | wait (c : CoreId) (f : BitVec 22)
  /-- ELINK_WRITE (R272): A write to ELINK, which can only raise the sealed ring and set BANK while invalid. -/
  | elinkWrite (c : CoreId) (rd : BitVec 4)
  /-- ST_WRITE (R274): A write to ST changes only GM. -/
  | stWrite (c : CoreId) (rd : BitVec 4)
  /-- XSEND (R278): A write of a core number sets XPEND.IC of that core. -/
  | xsend (c : CoreId) (rd : BitVec 4)
  /-- XTIMER_WRITE (R283): A write sets the timer compare and clears XPEND.TIMER. -/
  | xtimerWrite (c : CoreId) (rd : BitVec 4)
  /-- TIMER_EVENT (R278): Hall time reaches XTIMER after a first synchronisation, setting XPEND.TIMER. -/
  | timerEvent (c : CoreId)
  /-- TAKE_ASYNC_EVENT (R266): At an instruction boundary an eligible pending event is taken as an exception to its route ring. -/
  | takeAsyncEvent (c : CoreId)
  /-- WATCHDOG (R275): A masked interval exceeds the watchdog limit, and the Curator posts one WATCHDOG notice. -/
  | watchdog (c : CoreId)
  /-- FENCE (R305): Holds later accesses until earlier ones have values or are accepted, and with HALL acknowledged. -/
  | fence (c : CoreId) (f : BitVec 22)
  /-- DCZL (R298): Zeroes a 128-byte line without fetching. -/
  | dczl (c : CoreId) (f : BitVec 22)
  /-- PREF (R300): Prefetches a line into L1D or L2 without faulting. -/
  | pref (c : CoreId) (f : BitVec 22)
  /-- ICSYNC (R306): Invalidates the core's L1I and waits for earlier instructions to retire. -/
  | icsync (c : CoreId) (f : BitVec 22)
  /-- TLBI (R290): Invalidates TLB entries of the core and its stream engines. -/
  | tlbi (c : CoreId) (f : BitVec 22)
  /-- TSPEC_BEGIN (R309): Opens a speculative task with a commit step and abort address. -/
  | tspecBegin (c : CoreId) (f : BitVec 22)
  /-- TSPEC_COMMIT (R313): Ends the open task, committing it at once if its step has sealed or S is all ones. -/
  | tspecCommit (c : CoreId) (f : BitVec 22)
  /-- TSPEC_ABORT (R314): Aborts the open task and continues at the next instruction. -/
  | tspecAbort (c : CoreId) (f : BitVec 22)
  /-- TSPEC_WAIT (R315): Waits until a task has committed or aborted and writes the outcome. -/
  | tspecWait (c : CoreId) (f : BitVec 22)
  /-- TASK_ABORT_REDIRECT (R314): At the next instruction boundary at the task's ring the core discards unretired instructions and continues at the abort address. -/
  | taskAbortRedirect (c : CoreId)
  /-- SSTART (R338): Starts a stream on an engine, checking the header and, in VALIDATED mode, every block. -/
  | sstart (c : CoreId) (f : BitVec 22)
  /-- SRESUME (R355): Returns a HALTED engine to RUNNING from its halting granule. -/
  | sresume (c : CoreId) (f : BitVec 22)
  /-- SCANCEL (R356): Stops a stream from issuing; in-flight reads are discarded and the engine ends with END 1. -/
  | scancel (c : CoreId) (f : BitVec 22)
  /-- SWAIT (R339): Waits until the engine is not RUNNING and writes SEe_STAT. -/
  | swait (c : CoreId) (f : BitVec 22)
  /-- SWAITB (R339): Waits until a block of the current stream has completed and writes 1, or writes 0 at once if it cannot. -/
  | swaitb (c : CoreId) (f : BitVec 22)
  /-- STREAM_BLOCK_ISSUE (R323): A block issues its granules once its window, FREEW and BWAIT conditions allow. -/
  | streamBlockIssue (c : CoreId) (e : Fin 2)
  /-- GRANULE_LANDS (R327): A granule's read returns and its destination bytes are accepted at home. -/
  | granuleLands (c : CoreId) (e : Fin 2) (blk : BitVec 16) (g : Nat)
  /-- STREAM_BLOCK_COMPLETE (R328): A block whose granules have landed completes, adding counts, recording LASTBLK and signalling its pair and barrier. -/
  | streamBlockComplete (c : CoreId) (e : Fin 2)
  /-- STREAM_HALT (R353): After a granule faults and the others land, the engine enters HALTED, writes the halt record and sets XPEND.SH. -/
  | streamHalt (c : CoreId) (e : Fin 2)
  /-- SEMSIG (R341): Adds one to the named side of a semaphore pair. -/
  | semsig (c : CoreId) (f : BitVec 22)
  /-- SEMWAIT (R341): Waits until the named side is non-zero, subtracts one and writes 1, or 0 when poisoned. -/
  | semwait (c : CoreId) (f : BitVec 22)
  /-- SEM_PAIR_WRITE (R362): A write to SEM_PAIRn sets its counts and POISON, taking effect for every waiter at once. -/
  | semPairWrite (c : CoreId) (n : BitVec 3) (rd : BitVec 4)
  /-- BARA (R344): Adds one arrival at a module barrier after earlier stores are accepted. -/
  | bara (c : CoreId) (f : BitVec 22)
  /-- BARW (R345): Waits until the barrier has released the generation of the core's latest arrival. -/
  | barw (c : CoreId) (f : BitVec 22)
  /-- BARCFG (R344): Sets COUNT of a barrier and clears its arrival counter. -/
  | barcfg (c : CoreId) (f : BitVec 22)
  /-- BARGEN (R345): Writes the barrier's GEN to a D register. -/
  | bargen (c : CoreId) (f : BitVec 22)
  /-- GSUBMIT (R375): Submits a gather job descriptor to a group of gather engines. -/
  | gsubmit (c : CoreId) (f : BitVec 22)
  /-- GCANCEL (R384): Cancels a job the core submitted, recording END 1. -/
  | gcancel (c : CoreId) (f : BitVec 22)
  /-- GATHER_POSITION (R376): An engine handles one position: GATHER, SCATTER or SCATTER-ADD of one row. -/
  | gatherPosition (e : Fin 32)
  /-- GATHER_JOB_COMPLETE (R383): A job whose positions are all complete writes its record and signals its pair and barrier. -/
  | gatherJobComplete (id : Nat)
  /-- GATHER_JOB_REFUSED (R382): After a remote refusal and the landing of issued accesses, the job ends with END 2 and FAILPOS. -/
  | gatherJobRefused (id : Nat)
  /-- PORT_TRAINED (R389): All four lanes of a port train and the port comes up, exchanging HELLO. -/
  | portTrained (p : PortId)
  /-- PORT_TRAINING_RETRY (R389): A port that did not train retries every 10 ms. -/
  | portTrainingRetry (p : PortId)
  /-- PORT_DOWN (R427): A port receiving no good flit for 16 µs, or whose retry fails, goes down and drops its unacknowledged packets. -/
  | portDown (p : PortId)
  /-- LINK_REPLAY (R394): When the oldest unacknowledged packet has waited 1 µs, the sender replays from it. -/
  | linkReplay (p : PortId)
  /-- LINK_ACK (R394): The receiver acknowledges the highest LSEQ accepted in order at least every 0.5 µs. -/
  | linkAck (p : PortId)
  /-- LIVE (R423): A received LIVE packet gives a time exchange and corrects hall time, stepping it at first synchronisation. -/
  | live (p : PortId) (k : Packet)
  /-- LIVE_SEND (R427): Every up port sends LIVE at least every 2 µs. -/
  | liveSend (p : PortId)
  /-- HELLO (R401): A received HELLO records the neighbour's shelf mark, identity, generation and rank. -/
  | hello (p : PortId) (k : Packet)
  /-- CATALOGUE_CLAIM (R402): A received MGMT claim is adopted and forwarded when lower than any heard. -/
  | catalogueClaim (p : PortId) (k : Packet)
  /-- CATALOGUER_ELECTED (R402): A claimant that hears no lower claim for 1 ms becomes cataloguer and announces generation 1. -/
  | cataloguerElected (u : CatUpdate)
  /-- CATALOGUE_UPDATE (R400): A received catalogue update newer than any held is recorded and forwarded. -/
  | catalogueUpdate (p : Option PortId) (k : Packet)
  /-- MODULE_SUSPECT (R428): When every port of a module is reported down, the cataloguer holds it suspect and sends two PROBEs. -/
  | moduleSuspect (call : BitVec 20)
  /-- MODULE_WITHDRAWN (R428): With no probe answer within 100 µs, the cataloguer declares the module withdrawn and issues an update. -/
  | moduleWithdrawn (call : BitVec 20) (u : CatUpdate)
  /-- PROBE (R428): A router answers a PROBE with PROBERESP whatever the module's state. -/
  | probe (p : PortId) (k : Packet)
  /-- PROBERESP (R428): A probe answer reaches the cataloguer and keeps the module from withdrawal. -/
  | proberesp (p : PortId) (k : Packet)
  /-- PACKET_FORWARD (R404): A router checks a received packet's edition and forwards it by its VC's routing. -/
  | packetForward (p : PortId) (k : Packet)
  /-- RDREQ (R409): A target endpoint checks and performs a hall read, optionally setting watches. -/
  | rdreq (p : PortId) (k : Packet)
  /-- WRREQ (R409): A target endpoint checks and performs a hall write and sends WRACK. -/
  | wrreq (p : PortId) (k : Packet)
  /-- ATOMREQ (R409): A target endpoint checks and performs an atomic and sends ATOMRESP. -/
  | atomreq (p : PortId) (k : Packet)
  /-- RDRESP (R406): Read data returns to the requester and completes its access. -/
  | rdresp (p : PortId) (k : Packet)
  /-- WRACK (R406): A write acknowledgement completes the requester's write. -/
  | wrack (p : PortId) (k : Packet)
  /-- ATOMRESP (R406): The old value of an atomic returns to the requester. -/
  | atomresp (p : PortId) (k : Packet)
  /-- REFUSE (R406): A refusal ends an access with cause 0x0A, a stream halt or a gather job end. -/
  | refuse (p : Option PortId) (k : Packet)
  /-- WATCHREL (R411): Drops a watch without a break. -/
  | watchrel (p : PortId) (k : Packet)
  /-- WATCHBREAK (R411): A watched line was written, and the requester's task is aborted. -/
  | watchbreak (p : PortId) (k : Packet)
  /-- REQUEST_TIMEOUT (R410): A hall request unanswered within FE_CTL.TMO ends as a refusal. -/
  | requestTimeout (tag : BitVec 32)
  /-- PLAN_GO (R414): An 8-byte store queues a plan trigger naming a plan, mark and unit range. -/
  | planGo (c : CoreId) (v : U64)
  /-- REDUCE (R417): A router combines a reduce unit from its inputs in plan order and sends it on or writes it at the root. -/
  | reduce (p : PortId) (k : Packet)
  /-- MCAST (R418): A multicast unit is written locally, digested and sent to each child. -/
  | mcast (p : PortId) (k : Packet)
  /-- HARRIVE (R419): A hall barrier arrival is counted and forwarded, and at the root triggers HRELEASE. -/
  | harrive (p : PortId) (k : Packet)
  /-- HRELEASE (R419): A hall barrier release carrying time T is forwarded down the tree. -/
  | hrelease (p : PortId) (k : Packet)
  /-- HALL_BARRIER_ARRIVE (R419): At hall time T a member arrives at its module barrier. -/
  | hallBarrierArrive (p : BitVec 12)
  /-- LG_START (R468): Opens the given step when the engine is IDLE and nothing has sealed. -/
  | lgStart (c : CoreId) (k : U64)
  /-- LG_SEAL_GO (R446): Writing 1 requests the seal of the open step, with DIRTY, or is held or ignored by state. -/
  | lgSealGo (c : CoreId) (dirty : Bool)
  /-- VOTE (R462): A received VOTE message from a child is combined. -/
  | vote (p : PortId) (k : Packet)
  /-- OUTCOME (R451): A received OUTCOME is forwarded to every child at once. -/
  | outcome (p : PortId) (k : Packet)
  /-- LG_POST_UWR (R455): Reads the tag sums at LG_UWRBUF and starts the UWRUP combination. -/
  | lgPostUwr (c : CoreId)
  /-- LG_POST_ROOTDONE (R459): Starts sending DIGUP messages of the sent digests. -/
  | lgPostRootdone (c : CoreId)
  /-- LG_POST_RECVDONE (R460): Marks the whole copy received so the concordance verdict can be formed. -/
  | lgPostRecvdone (c : CoreId)
  /-- LG_POST_TWIN (R465): Adds TWIN3 and TWINX to the pending entry. -/
  | lgPostTwin (c : CoreId) (t3 : BitVec 16) (tx : BitVec 16)
  /-- DIGUP (R459): A child's sent digests are added and forwarded, and at the root become the expected digest. -/
  | digup (p : PortId) (k : Packet)
  /-- DIGDOWN (R459): Expected digests are received and forwarded to every child. -/
  | digdown (p : PortId) (k : Packet)
  /-- UWRUP (R464): Tag sums from a child are combined and forwarded; the root computes the ratios. -/
  | uwrup (p : PortId) (k : Packet)
  /-- RATIODN (R464): Ratios are received, forwarded and written into the previous step's entry. -/
  | ratiodn (p : PortId) (k : Packet)
  /-- SV_CMD_BUILD (R476): Marks the accession build started; APH becomes 1. -/
  | svCmdBuild (c : CoreId)
  /-- SV_CMD_BUILT (R476): Marks plan 2,046 released; APH becomes 2. -/
  | svCmdBuilt (c : CoreId)
  /-- SV_CMD_HELD (R476): Marks the accession held; ASTEP becomes the step. -/
  | svCmdHeld (c : CoreId)
  /-- SV_CMD_ABANDON (R476): Abandons the accession; APH becomes 0. -/
  | svCmdAbandon (c : CoreId)
  /-- SV_CMD_DEPOSITED (R480): Marks the deposit written; DSTEP becomes ASTEP. -/
  | svCmdDeposited (c : CoreId)
  /-- SV_REWIND (R500): Makes an earlier step the open step, restoring keys and profile and abandoning later tasks. -/
  | svRewind (c : CoreId) (k : U64)
  /-- PHASE (R516): On the phase master, names a phase to take effect now or at a hall time. -/
  | phase (c : CoreId) (f : BitVec 22)
  /-- FREQUENCY_LOOP_TICK (R512): Every 1 ms the Curator raises or lowers the frequency target by 25 MHz from the average input power. -/
  | frequencyLoopTick (w : BitVec 16)
  /-- DROOP_TRIP (R523): A quadrant rail more than 4 % below setpoint trips the detector and the stretcher lengthens periods. -/
  | droopTrip (q : Fin 5) (d : BitVec 8)
  /-- DROOP_CLEAR (R523): The rail has stood less than 3 % below setpoint for 100 ns and the detector clears. -/
  | droopClear (q : Fin 5)
  /-- POWER_MEASUREMENT (R513): Each 1 µs input measurement starts or ends the 2,800 W full stretch. -/
  | powerMeasurement (w : BitVec 16)
  /-- AVERAGE_LIMITER_TICK (R513): Every 100 µs the 10 ms average deepens or withdraws the 2,400 W limiter stretch. -/
  | averageLimiterTick (w : BitVec 16)
  /-- CAP_STRETCH_TICK (R514): In fixed-frequency mode each 1 ms measurement deepens, holds or withdraws the cap stretch. -/
  | capStretchTick (w : BitVec 16)
  /-- THERMAL_READ (R529): Every 100 µs junction sensors are read and throttling applied or withdrawn. -/
  | thermalRead (t : BitVec 8)
  /-- ARRAY_GATE_OPEN (R526): At T plus the call-number offset a quadrant's closed array gate opens and ramping begins. -/
  | arrayGateOpen (q : QuadId)
  /-- RAMP_STEP (R527): Every 250 hall-ns the quadrant's ramp step advances until feeding is unrestricted. -/
  | rampStep (q : QuadId)
  /-- PW_JOBTAG (R528): A write sets the job tag and restarts PW_ENERGY from 0. -/
  | pwJobtag (c : CoreId) (v : U64)
  /-- UNDERVOLTAGE_LOCKOUT (R530): Input below 36.0 V stops conversion and loses all state. -/
  | undervoltageLockout (mv : BitVec 16)
  /-- OVERVOLTAGE_SHUTDOWN (R530): Input above 44.0 V stops conversion and latches the trip. -/
  | overvoltageShutdown (mv : BitVec 16)
  /-- THERMTRIP (R530): A junction above 110 °C stops conversion and latches THERMTRIP_N low. -/
  | thermtrip (t : BitVec 8)
  /-- MB_DOOR (R536): Writing POST captures the slip in the request area, or sets LOST while BUSY. -/
  | mbDoor (c : CoreId) (mb : MailId) (v : U64)
  /-- MB_NPOP (R535): Writing 1 removes the oldest notice. -/
  | mbNpop (c : CoreId) (mb : MailId) (v : U64)
  /-- MANAGEMENT_FRAME (R538): An EtherType 0x88B5 frame on the management port is handled as a post to MB1. -/
  | managementFrame (bs : List Byte)
  /-- SLIP_ANSWERED (R537): The Curator writes the response area, sets DONE and clears BUSY. -/
  | slipAnswered (mb : MailId)
  /-- OWN_QUERY (R544): Returns the owner's source key, standing, lease left and challenge. -/
  | ownQuery (mb : MailId)
  /-- OWN_CLAIM (R548): Claims ownership: renews for the owner, answers HELD against a live lease, or joins a contest. -/
  | ownClaim (mb : MailId)
  /-- OWN_RENEW (R549): Renews the owner's 2 s lease. -/
  | ownRenew (mb : MailId)
  /-- OWN_RELEASE (R550): Ends ownership and every grant and posts OWNER notices. -/
  | ownRelease (mb : MailId)
  /-- OWN_GRANT (R544): The owner grants command groups to a mailbox. -/
  | ownGrant (mb : MailId)
  /-- OWN_FORCE (R551): A valid signed token makes its sender owner at once. -/
  | ownForce (mb : MailId)
  /-- OWN_KEYSET (R552): Installs or replaces the force key. -/
  | ownKeyset (mb : MailId)
  /-- INFO (R566): Returns serial, grade, live arrays, firmware, bring-up stage and fault. -/
  | info (mb : MailId)
  /-- ARRAY_MAP (R544): Returns TU_LIVE of every compute core. -/
  | arrayMap (mb : MailId)
  /-- BOOKPLATE (R574): Returns a 4 KiB part of the identity certificate. -/
  | bookplate (mb : MailId)
  /-- QUOTE (R576): Forms a signed quote of the measurements with a nonce, or returns its next part. -/
  | quote (mb : MailId)
  /-- FN_QUERY (R544): Returns FN_STATUS. -/
  | fnQuery (mb : MailId)
  /-- FN_DISABLE (R555): Stops intake of a function, drains it up to the limit, aborts the rest and disables it. -/
  | fnDisable (mb : MailId)
  /-- FN_DRAIN_END (R555): Draining ends when work is done or the drain limit passes; remaining work is aborted and the function disabled. -/
  | fnDrainEnd (fn : Fin 10)
  /-- FN_ENABLE (R544): Enables a disabled function. -/
  | fnEnable (mb : MailId)
  /-- FN_RESET (R554): Disables, resets and optionally re-enables a function. -/
  | fnReset (mb : MailId)
  /-- FN_RESET_DONE (R554): A function reset completes, clearing its state, and the function returns to ENABLED or stays disabled. -/
  | fnResetDone (fn : Fin 10)
  /-- DEV_RESET (R544): Answers OK and schedules a device reset 1 ms later. -/
  | devReset (mb : MailId)
  /-- CORE_STOPREC (R559): Returns a core's stop record. -/
  | coreStoprec (mb : MailId)
  /-- CORE_RESTART (R560): Starts a stopped core at an entry in ring 0, bank B0. -/
  | coreRestart (mb : MailId)
  /-- CORE_STOP (R544): Stops a core with reason command. -/
  | coreStop (mb : MailId)
  /-- WDOG (R275): Sets the watchdog limit. -/
  | wdog (mb : MailId)
  /-- DBG_HALT (R560): Stops a core as a breakpoint does. -/
  | dbgHalt (mb : MailId)
  /-- DBG_RESUME (R560): Resumes a halted core at its next step. -/
  | dbgResume (mb : MailId)
  /-- PW_MODE (R544): Sets FIXED, BRKEN, SHARE and PMCORE of PW_CTL. -/
  | pwMode (mb : MailId)
  /-- PW_OPP (R518): Writes a phase table entry's FREQ and SHARE. -/
  | pwOpp (mb : MailId)
  /-- PW_GROUP (R520): Sets the broker group, group total and floor. -/
  | pwGroup (mb : MailId)
  /-- PW_SHARESET (R522): Sets the tokens of the next step. -/
  | pwShareset (mb : MailId)
  /-- PW_READ (R544): Returns the power and clock block. -/
  | pwRead (mb : MailId)
  /-- FAB_SHELF (R397): Delivers the chassis number, cataloguer rank and reserve mark. -/
  | fabShelf (mb : MailId)
  /-- FAB_LAYOUT (R403): Forwards shelf mark to call number pairs to the cataloguer. -/
  | fabLayout (mb : MailId)
  /-- PLAN_WRITE (R413): Writes plan table entries, all or none, refusing plans with queued or held units. -/
  | planWrite (mb : MailId)
  /-- PLAN_READ (R544): Returns plan table entries. -/
  | planRead (mb : MailId)
  /-- CAT_READ (R544): Returns catalogue entries. -/
  | catRead (mb : MailId)
  /-- WITHDRAW (R505): Requests the planned withdrawal of this module. -/
  | withdraw (mb : MailId)
  /-- MB_BIND (R534): Binds or unbinds a remote mailbox to a call number and job key. -/
  | mbBind (mb : MailId)
  /-- MAILBOX_BINDING_EXPIRY (R534): A binding ends after 10 s without a post. -/
  | mailboxBindingExpiry (mb : MailId)
  /-- WEED_READ (R544): Returns the weeding record. -/
  | weedRead (mb : MailId)
  /-- WEED_CLEAR (R544): With a valid token, clears a unit's weeding record. -/
  | weedClear (mb : MailId)
  /-- FTEST (R488): Starts one field-test cycle now. -/
  | ftest (mb : MailId)
  /-- STANDBY_SET (R493): Sets the address of the standby image. -/
  | standbySet (mb : MailId)
  /-- HBM_MODE (R563): Chooses the interleave mode for the next HBM training. -/
  | hbmMode (mb : MailId)
  /-- TELEM_READ (R561): Returns the latest telemetry record. -/
  | telemRead (mb : MailId)
  /-- TELEM_LATCH (R561): Schedules telemetry latches at a hall time and period. -/
  | telemLatch (mb : MailId)
  /-- LEDGER_READ (R562): Returns bytes of a ledger entry. -/
  | ledgerRead (mb : MailId)
  /-- FW_UPDATE_BEGIN (R569): Checks ownership or token and erases the staging region. -/
  | fwUpdateBegin (mb : MailId)
  /-- FW_UPDATE_DATA (R569): Writes image data into the staging region. -/
  | fwUpdateData (mb : MailId)
  /-- FW_UPDATE_END (R569): Verifies the staged image and copies it into the image slot. -/
  | fwUpdateEnd (mb : MailId)
  /-- POWER_GOOD (R564): Input at least 38.0 V, PWR_EN asserted and MOD_RESET_N deasserted come to hold together, causing a device reset. -/
  | powerGood (mv : BitVec 16) (straps : BitVec 8)
  /-- MOD_RESET_N (R591): A low level of at least 1 µs holds the module in device reset until deassertion. -/
  | modResetN (ns : BitVec 32)
  /-- CURATOR_BOOT (R564): Stage 2: Curator self-test, management port and flash records. -/
  | curatorBoot (ok : Bool)
  /-- CALIBRATION (R564): Stage 3: rail, droop detectors and sensors are calibrated. -/
  | calibration (ok : Bool)
  /-- HBM_TRAINING (R564): Stage 4: HBM is trained, L2 invalidated and HBM zeroed. -/
  | hbmTraining (bad : Option (Fin 12))
  /-- CARREL_ZEROING (R564): Stage 5: carrels, tile state and L1s are initialised. -/
  | carrelZeroing (bad : Option (Fin 64))
  /-- SELF_TEST (R564): Stage 6: known-answer and march tests, weeding failures. -/
  | selfTest (bad : Option (Fin 64)) (tests : List CoreTest)
  /-- LINK_TRAINING_STAGE (R565): Stage 7 ends when every port with a partner trains or 14.0 s pass. -/
  | linkTrainingStage (partners : BitVec 24)
  /-- HUB_BOOT_FETCH (R573): A fetched hub boot image is checked, written, measured into MR2, and hub core 128 started. -/
  | hubBootFetch (img : Option (List Byte))
  /-- HUB_BOOT_RETRY (R573): After a failed fetch the Curator retries every 10 s. -/
  | hubBootRetry (img : Option (List Byte))
  /-- HALL_REF_EDGE (R600): A 1PPS edge is time-stamped and judged good, setting or clearing REFLOCK. -/
  | hallRefEdge (n : BitVec 32)
  /-- HALL_REF_TIME_CODE (R599): A 16-byte time code message names the next second. -/
  | hallRefTimeCode (bs : List Byte)
  /-- READ_VIN (R595): Returns the input voltage. -/
  | readVin (mv : BitVec 16)
  /-- READ_IIN (R595): Returns the input current. -/
  | readIin (ma : BitVec 32)
  /-- READ_TEMPERATURE_2 (R595): Returns the coolant inlet temperature. -/
  | readTemperature2 (t : BitVec 8)
  /-- READ_TEMPERATURE_3 (R595): Returns the coolant outlet temperature. -/
  | readTemperature3 (t : BitVec 8)
  /-- READ_PIN (R595): Returns the input power. -/
  | readPin (mw : BitVec 32)
  /-- EXTEST (R601): Drives the boundary cells while MOD_RESET_N is held low. -/
  | extest (cells : BitVec 21)
  /-- SAMPLE_PRELOAD (R601): Samples the pins into the boundary scan register. -/
  | samplePreload (ext : BitVec 21)
  /-- BYPASS (R601): Selects the 1-bit bypass register. -/
  | bypass (code : BitVec 8)
  /-- MBX (R602): At Update-DR the Curator performs an 8-byte access to the MB7 window. -/
  | mbx (dr : BitVec 82)
  /-- ILLEGAL_INSTRUCTION (R11): An instruction word whose encoding no chapter allocates, or that is not allowed on the issuing core, raises illegal instruction, cause 0x01. -/
  | illegalInstruction (c : CoreId) (w : BitVec 32)
  /-- TLD_COMPLETE (R102): A TLD or TLW with SEMEN completes, subtracting its reserved unit from FILL and adding one to FREE of its pair, which can release a waiting stream block. -/
  | tldComplete (c : CoreId)
  /-- MEAN_SLACK (R521): A broker group member's mean slack message arrives on VC 5 and, once every member's mean is held, the cap or share reassignment is run. -/
  | meanSlack (p : PortId) (k : Packet)
  /-- UNDERVOLTAGE_LOCKOUT_CLEAR (R530): The input rises above 37.0 V and the undervoltage trip clears, leaving the module in standby until power-good. -/
  | undervoltageLockoutClear (mv : BitVec 16)
  /-- INPUT_PRESENT (R588): The input at J3 rises above 20 V and the standby domain is supplied, making PMBus, sensors and sideband drivers live. -/
  | inputPresent (mv : BitVec 16)
  /-- VIN_WARNING (R597): The input voltage leaves 38.0–42.0 V and the VIN_OV_WARNING or VIN_UV_WARNING bit latches, driving ALERT_N low. -/
  | vinWarning (mv : BitVec 16)
  /-- HT_HOLDOVER (R424): 16 µs without a valid exchange, or the loss of the parent port, enters holdover. -/
  | htHoldover
  /-- HT_SYNC_LOST (R424): After HOLDMS ms in holdover, SYNC is cleared. -/
  | htSyncLost
  /-- CATALOGUE_UPDATE_APPLY (R400): At TACT a router applies a held update to every later check and route. -/
  | catalogueUpdateApply
  /-- PLAN_TRIGGER (R414): A queued trigger reads its units and injects contributions, sends multicast units or arrives at a hall barrier. -/
  | planTrigger
  /-- VOTE_SEND (R449): Once its own request, its children's votes and the previous entry's STATE 2 are in, a member sends VOTE or decides the outcome at the root. -/
  | voteSend
  /-- SEALED_OUTCOME_APPLY (R452): At T of a SEALED outcome the engine latches statistics, writes the entry, commits tasks, sets keys and profile, and arrives at the step barrier. -/
  | sealedOutcomeApply
  /-- REPLAY_OUTCOME_APPLY (R453): At T of a REPLAY outcome the engine discards statistics, aborts tasks, restores the profile, posts notices and flushes the plans. -/
  | replayOutcomeApply
  /-- REPLAY_QUIET_FLUSH (R453): At T + QUIET the plans are flushed again and the engine arrives at the step barrier. -/
  | replayQuietFlush
  /-- FIELD_TEST_WINDOW_END (R489): After WINDOW ms the test window ends and the step barrier is reached. -/
  | fieldTestWindowEnd
  /-- RESERVE_TEST_CYCLE (R488): A reserve completes a stressed test cycle and updates its qualification. -/
  | reserveTestCycle
  /-- PHASE_TAKES_EFFECT (R518): A phase takes effect, setting the cap share and frequency bound and making a synchronised start. -/
  | phaseTakesEffect
  /-- PLL_RELOCKED (R509): The idle PLL finishes relocking to the new frequency. -/
  | pllRelocked
  /-- VOLTAGE_RAMP_DONE (R509): A compute rail voltage ramp reaches its target. -/
  | voltageRampDone
  /-- FREQUENCY_SWITCH (R510): After relock, ramp and 10 µs of clear droop, the clock switches to the new frequency. -/
  | frequencySwitch
  /-- FREQUENCY_INCREASE_ABANDONED (R525): An increase that waited 1 ms for the droop rule is abandoned and the voltage ramps back. -/
  | frequencyIncreaseAbandoned
  /-- BROKER_MEAN_TIMEOUT (R521): A member's mean missing after 1 ms lets the interval pass without change. -/
  | brokerMeanTimeout
  /-- OWNERSHIP_CONTEST_CLOSE (R548): After 1 ms the contest closes and the highest standing, then lowest key, wins. -/
  | ownershipContestClose
  /-- LEASE_EXPIRY (R550): A lease not renewed expires, leaving no owner and ending every grant. -/
  | leaseExpiry
  /-- DEVICE_RESET (R564): A device reset clears the module and restarts bring-up from stage 1. -/
  | deviceReset
  /-- TELEMETRY_LATCH_TAKEN (R561): At the named hall time a telemetry record is latched. -/
  | telemetryLatchTaken
  /-- PWR_EN_DEASSERT (R591): Deasserting PWR_EN stops main conversion within 10 µs. -/
  | pwrEnDeassert
  /-- INPUT_REMOVED (R588): Input below 20 V for 100 ms is removal and clears every standby latch. -/
  | inputRemoved
  /-- FIRMWARE_VERIFY (R567): Stage 1: the mask ROM verifies the firmware image and extends MR0. -/
  | firmwareVerify
  /-- READY (R564): Stage 8: glosses loaded, cores prepared, READY driven high. -/
  | ready
  /-- RECOVERY_LOADER (R570): Installs a valid staged image or serves INFO and FW_UPDATE only. -/
  | recoveryLoader
  /-- HALL_REF_LOSS (R600): 1.5 s without an edge clears REFLOCK. -/
  | hallRefLoss
  /-- CLEAR_FAULTS (R598): Clears every latched PMBus bit whose condition has ended. -/
  | clearFaults
  /-- CAPABILITY (R595): Returns 0xB0. -/
  | capability
  /-- OT_FAULT_LIMIT (R595): Returns 110 °C. -/
  | otFaultLimit
  /-- VIN_OV_FAULT_LIMIT (R595): Returns 44.0 V. -/
  | vinOvFaultLimit
  /-- VIN_OV_WARN_LIMIT (R595): Returns 42.0 V. -/
  | vinOvWarnLimit
  /-- VIN_UV_WARN_LIMIT (R595): Returns 38.0 V. -/
  | vinUvWarnLimit
  /-- VIN_UV_FAULT_LIMIT (R595): Returns 36.0 V. -/
  | vinUvFaultLimit
  /-- STATUS_WORD (R598): Returns the summary status word. -/
  | statusWord
  /-- STATUS_INPUT (R595): Returns the latched input status bits. -/
  | statusInput
  /-- STATUS_TEMPERATURE (R595): Returns the latched temperature status bits. -/
  | statusTemperature
  /-- READ_TEMPERATURE_1 (R595): Returns the hottest junction temperature. -/
  | readTemperature1
  /-- PMBUS_REVISION (R595): Returns 0x33. -/
  | pmbusRevision
  /-- MFR_ID (R595): Returns CHERUKEL. -/
  | mfrId
  /-- MFR_MODEL (R595): Returns the part number. -/
  | mfrModel
  /-- MFR_SERIAL (R595): Returns the serial number. -/
  | mfrSerial
  /-- IDCODE (R601): Selects the 32-bit identification register. -/
  | idcode
  /-- TAP_RESET (R601): TRST_N or TAP reset returns the TAP to reset with IDCODE selected. -/
  | tapReset
  /-- IMAGE_SLOT_VERIFIED (R569): The copy of a staged image into the image slot finishes and is verified, a DONE_LONG notice is posted, and a device reset follows when requested. -/
  | imageSlotVerified
deriving DecidableEq, Repr

end Sys2Proof
end

