-- ==== Sys2Proof/Decode.lean ====
section
/-! DEFINITION. Decode.lean: the command a word of the opcode table spells. No row of the table gives bits: every command comes from outside
with its operands, so no word spells one. -/

namespace Sys2Proof

/-- The command a word spells by the table's bits. -/
def decodeTableWord (_nbits _w : Nat) : Option Instr := none

end Sys2Proof
end

