-- ==== Sys2Proof/Machine/Bits.lean ====
section
/-! DEFINITION. Machine/Bits.lean: bit fields, sign extension, byte order and the canonical sorted lists that memory,
tile registers and sets are held in. -/

namespace Sys2Proof.Machine

/-- Bits [lo+n-1:lo] of a number, as a number. -/
def bitsOf (x lo n : Nat) : Nat := x >>> lo % 2 ^ n

/-- The field [lo+n-1:lo] of a word, as a number. -/
def fld {w : Nat} (x : BitVec w) (lo n : Nat) : Nat := x.toNat >>> lo % 2 ^ n

/-- Bit i of a word. -/
def bit {w : Nat} (x : BitVec w) (i : Nat) : Bool := x.getLsbD i

/-- The mask of the field [lo+n-1:lo] in a 64-bit word. -/
def fmask (lo n : Nat) : U64 := BitVec.ofNat 64 ((2 ^ n - 1) <<< lo)

/-- A 64-bit word with its field [lo+n-1:lo] replaced by v (taken modulo 2^n). -/
def setFld (x : U64) (lo n v : Nat) : U64 :=
  (x &&& ~~~(fmask lo n)) ||| BitVec.ofNat 64 ((v % 2 ^ n) <<< lo)

/-- A 64-bit word with bit i set to b. -/
def setBit (x : U64) (i : Nat) (b : Bool) : U64 := setFld x i 1 (cond b 1 0)

/-- The w-bit two's-complement reading of a number. -/
def sx (w x : Nat) : Int := if x % 2 ^ w < 2 ^ (w - 1) then Int.ofNat (x % 2 ^ w) else Int.ofNat (x % 2 ^ w) - Int.ofNat (2 ^ w)

/-- An integer as a 64-bit word, modulo 2^64. -/
def w64 (i : Int) : U64 := BitVec.ofInt 64 i

/-- A number as a 64-bit word. -/
def n64 (n : Nat) : U64 := BitVec.ofNat 64 n

/-- An integer modulo 2^n as a number. -/
def wrapN (n : Nat) (i : Int) : Nat := (i % (Int.ofNat (2 ^ n))).toNat

/-- The number the n lowest bytes hold, little-endian (06 R207, R208; the spec's byte order is little-endian, 00). -/
def leNat : List Byte → Nat
  | [] => 0
  | b :: bs => b.toNat + 256 * leNat bs

/-- The n little-endian bytes of a number. -/
def leBytes : Nat → Nat → List Byte
  | 0, _ => []
  | n + 1, x => BitVec.ofNat 8 x :: leBytes n (x / 256)

/-- A truth value as 0 or 1. -/
def b01 (b : Bool) : Nat := cond b 1 0

/-- A list's element, or a default. -/
def nth {α : Type} (d : α) : List α → Nat → α
  | [], _ => d
  | x :: _, 0 => x
  | _ :: xs, n + 1 => nth d xs n

/-- A vector's element by number, or a default beyond its end. -/
def vget {α : Type} {n : Nat} (v : Vector α n) (i : Nat) (d : α) : α := if h : i < n then v[i] else d

/-- A vector with its element i replaced (unchanged beyond its end). -/
def vput {α : Type} {n : Nat} (v : Vector α n) (i : Nat) (x : α) : Vector α n := if h : i < n then v.set i x h else v

/-- A vector with a function applied to every element. -/
def vmap {α β : Type} {n : Nat} (f : α → β) (v : Vector α n) : Vector β n := Vector.ofFn (fun i => f (v.get i))

/-- The value at a key of a sparse list, or the value unlisted keys have. -/
def spGet {β : Type} (d : β) : List (Nat × β) → Nat → β
  | [], _ => d
  | (k, v) :: m, a => if k = a then v else if a < k then d else spGet d m a

/-- A sparse list with the value at a key set: keys stay strictly rising and no entry equals the default. -/
def spSet {β : Type} [DecidableEq β] (d : β) : List (Nat × β) → Nat → β → List (Nat × β)
  | [], a, v => if v = d then [] else [(a, v)]
  | (k, x) :: m, a, v =>
    if a < k then (if v = d then (k, x) :: m else (a, v) :: (k, x) :: m)
    else if a = k then (if v = d then m else (a, v) :: m)
    else (k, x) :: spSet d m a v

/-- Consecutive keys from a with the listed values, the default ones left out. -/
def spFrom {β : Type} [DecidableEq β] (d : β) : Nat → List β → List (Nat × β)
  | _, [] => []
  | a, v :: vs => if v = d then spFrom d (a + 1) vs else (a, v) :: spFrom d (a + 1) vs

/-- A sparse list with consecutive keys from a set to the listed values. -/
def spSetAll {β : Type} [DecidableEq β] (d : β) (m : List (Nat × β)) (a : Nat) (vs : List β) : List (Nat × β) :=
  m.filter (fun x => decide (x.1 < a)) ++ (spFrom d a vs ++ m.filter (fun x => decide (a + vs.length ≤ x.1)))

/-- The values at n consecutive keys from a. -/
def spRead {β : Type} (d : β) (m : List (Nat × β)) (a : Nat) : Nat → List β
  | 0 => []
  | n + 1 => spGet d m a :: spRead d m (a + 1) n

/-- The canonical form of a sparse list: keys strictly rising above lo, no default listed. -/
def spWf {β : Type} [DecidableEq β] (d : β) : Nat → List (Nat × β) → Bool
  | _, [] => true
  | lo, (k, v) :: m => decide (lo ≤ k) && decide (v ≠ d) && spWf d (k + 1) m

/-- A sorted set of numbers with one number added. -/
def setAdd (x : Nat) : List Nat → List Nat
  | [] => [x]
  | y :: ys => if x < y then x :: y :: ys else if x = y then y :: ys else y :: setAdd x ys

/-- A sorted set of numbers with one number removed. -/
def setDel (x : Nat) (l : List Nat) : List Nat := l.filter (fun y => decide (y ≠ x))

/-- An element put before the first one it does not come after. -/
def insBy {α : Type} (le : α → α → Bool) (x : α) : List α → List α
  | [] => [x]
  | y :: ys => if le x y then x :: y :: ys else y :: insBy le x ys

/-- A list in order. -/
def sortBy {α : Type} (le : α → α → Bool) (l : List α) : List α := l.foldr (insBy le) []

/-- The numbers lo, lo + 1, … of a range of n. -/
def rng (lo n : Nat) : List Nat := (List.range n).map (fun i => lo + i)

/-- The floor of an integer division by a positive number. -/
def fdiv (a : Int) (b : Nat) : Int := Int.fdiv a (Int.ofNat b)

/-- The smallest multiple count: a divided by b, rounded up. -/
def cdiv (a b : Nat) : Nat := (a + b - 1) / b

/-- The number of bits a number needs: 0 for 0, else its floor of log2 plus 1. -/
def nbits (x : Nat) : Nat := if x = 0 then 0 else Nat.log2 x + 1

/-- How many times a bit is set in the n lowest bits. -/
def popN : Nat → Nat → Nat
  | 0, _ => 0
  | n + 1, x => x % 2 + popN n (x / 2)

end Sys2Proof.Machine
end

