-- ==== Sys2Proof/Machine/Num.lean ====
section
/-! DEFINITION. Machine/Num.lean: exact values, the floating-point formats and rounding (04 R126 to R144). -/

namespace Sys2Proof.Machine

/-- A value read from a number format: NaN, an infinity, or (−1)^neg × m × 2^e exactly. -/
inductive FV where
  | nan
  | inf (neg : Bool)
  | fin (neg : Bool) (m : Nat) (e : Int)
deriving DecidableEq, Repr

/-- What a format does with its all-ones exponent (04 R126). -/
inductive Special where
  /-- infinity and NaN as in FP64 -/
  | ieee
  /-- E4M3: NaN only at fraction 111 -/
  | e4m3
  /-- no infinity, no NaN -/
  | finite
deriving DecidableEq, Repr

/-- A floating-point format: exponent bits, fraction bits, bias, special codes (04 R126). -/
structure Fmt where
  eb : Nat
  fb : Nat
  bias : Nat
  sp : Special
deriving DecidableEq, Repr

/-- 04 R126: FP64. -/
def fp64 : Fmt := ⟨11, 52, 1023, .ieee⟩
/-- 04 R126: FP32. -/
def fp32 : Fmt := ⟨8, 23, 127, .ieee⟩
/-- 04 R126: BF16. -/
def bf16 : Fmt := ⟨8, 7, 127, .ieee⟩
/-- 04 R126: FP16. -/
def fp16 : Fmt := ⟨5, 10, 15, .ieee⟩
/-- 04 R126: E4M3. -/
def fE4M3 : Fmt := ⟨4, 3, 7, .e4m3⟩
/-- 04 R126: E5M2. -/
def fE5M2 : Fmt := ⟨5, 2, 15, .ieee⟩
/-- 04 R126: E3M2. -/
def fE3M2 : Fmt := ⟨3, 2, 3, .finite⟩
/-- 04 R126: E2M3. -/
def fE2M3 : Fmt := ⟨2, 3, 1, .finite⟩
/-- 04 R126: E2M1. -/
def fE2M1 : Fmt := ⟨2, 1, 1, .finite⟩
/-- 02 R32: the column format, 10-bit exponent with bias 511 and a 32-bit fraction. -/
def fCol : Fmt := ⟨10, 32, 511, .ieee⟩

/-- Bits of a format's code. -/
def Fmt.width (f : Fmt) : Nat := 1 + f.eb + f.fb

/-- The canonical NaN of a format, sign 0 (04 R127). -/
def Fmt.qnan (f : Fmt) : Nat :=
  match f.sp with
  | .ieee => if f.eb = 5 ∧ f.fb = 2 then 0x7F else (2 ^ f.eb - 1) <<< f.fb ||| 1 <<< (f.fb - 1)
  | .e4m3 => 0x7F
  | .finite => 0

/-- The code of +infinity of a format that has one. -/
def Fmt.infCode (f : Fmt) : Nat := (2 ^ f.eb - 1) <<< f.fb

/-- The magnitude code of the largest finite value (04 R126). -/
def Fmt.maxCode (f : Fmt) : Nat :=
  match f.sp with
  | .ieee => (2 ^ f.eb - 1) <<< f.fb - 1
  | .e4m3 => 0x7E
  | .finite => 2 ^ (f.eb + f.fb) - 1

/-- The exponent of the subnormal spacing. -/
def Fmt.qmin (f : Fmt) : Int := 1 - Int.ofNat f.bias - Int.ofNat f.fb

/-- The value of a format's code (04 R126, R128). -/
def decodeF (f : Fmt) (x : Nat) : FV :=
  let fr := x % 2 ^ f.fb
  let ex := x >>> f.fb % 2 ^ f.eb
  let s := x >>> (f.eb + f.fb) % 2 == 1
  if ex == 2 ^ f.eb - 1 && f.sp == .ieee then (if fr == 0 then .inf s else .nan)
  else if f.sp == .e4m3 && ex == 15 && fr == 7 then .nan
  else if ex == 0 then .fin s fr f.qmin
  else .fin s (2 ^ f.fb + fr) (f.qmin + Int.ofNat ex - 1)

/-- A rounding mode (04 R133); SR carries its 32-bit draw. -/
inductive RMode where
  | rne | rtz | rdn | rup
  | sr (r : Nat)
deriving DecidableEq, Repr

/-- NUM_MODE.VRM as a mode (04 R162). -/
def vrmMode (v : Nat) : RMode :=
  match v with
  | 0 => .rne
  | 1 => .rtz
  | 2 => .rdn
  | _ => .rup

/-- m / 2^sh rounded to an integer by a mode for a value of the given sign, and whether it was inexact. -/
def roundShift (mode : RMode) (neg : Bool) (m sh : Nat) : Nat × Bool :=
  let q := m >>> sh
  let r := m % 2 ^ sh
  let up : Bool :=
    match mode with
    | .rne => decide (2 * r > 2 ^ sh) || (decide (2 * r = 2 ^ sh) && q % 2 == 1)
    | .rtz => false
    | .rdn => neg && decide (r ≠ 0)
    | .rup => !neg && decide (r ≠ 0)
    | .sr d => decide (d < r * 2 ^ 32 / 2 ^ sh)
  (if up then q + 1 else q, decide (r ≠ 0))

/-- Round m × 2^e to p bits of precision with spacing at least 2^qmin: (q, qe, inexact) with value q × 2^qe. -/
def roundPrec (p : Nat) (qmin : Option Int) (mode : RMode) (neg : Bool) (m : Nat) (e : Int) : Nat × Int × Bool :=
  let q0 := Int.ofNat (nbits m) + e - Int.ofNat p
  let qe := match qmin with
    | some q => max q0 q
    | none => q0
  if qe ≤ e then (m * 2 ^ (e - qe).toNat, qe, false)
  else
    let r := roundShift mode neg m (qe - e).toNat
    (r.1, qe, r.2)

/-- The magnitude code, with unbounded exponent, of a value rounded to a format, and whether it was inexact (04 R135). -/
def roundCode (f : Fmt) (mode : RMode) (neg : Bool) (m : Nat) (e : Int) : Nat × Bool :=
  if m = 0 then (0, false)
  else
    let r := roundPrec (f.fb + 1) (some f.qmin) mode neg m e
    ((r.2.1 - f.qmin).toNat * 2 ^ f.fb + r.1, r.2.2)

/-- A sign bit and a magnitude code as a code. -/
def Fmt.signed (f : Fmt) (neg : Bool) (mag : Nat) : Nat := if neg then 2 ^ (f.eb + f.fb) + mag else mag

/-- IEEE sticky flags as NUM_FLAGS places them: NV 1, DZ 2, OF 4, UF 8, NX 16 (04 R162). -/
abbrev FFlags := BitVec 5
/-- 04 R162: NV. -/
def fNV : FFlags := 1
/-- 04 R162: DZ. -/
def fDZ : FFlags := 2
/-- 04 R162: OF. -/
def fOF : FFlags := 4
/-- 04 R162: UF. -/
def fUF : FFlags := 8
/-- 04 R162: NX. -/
def fNX : FFlags := 16

/-- Whether a non-zero value is tiny after rounding to the format's precision with an unbounded exponent (04 R134). -/
def isTiny (f : Fmt) (mode : RMode) (neg : Bool) (m : Nat) (e : Int) : Bool :=
  let r := roundPrec (f.fb + 1) none mode neg m e
  decide (Int.ofNat (nbits r.1) + r.2.1 - 1 < 1 - Int.ofNat f.bias)

/-- Deliver an exact value in a format under a mode, with its flags (04 R134): scalar and vector arithmetic. -/
def deliver (f : Fmt) (mode : RMode) (v : FV) : Nat × FFlags :=
  match v with
  | .nan => (f.qnan, 0)
  | .inf s => (f.signed s f.infCode, 0)
  | .fin s m e =>
    let r := roundCode f mode s m e
    if r.1 > f.maxCode then
      let toInf : Bool := match mode with
        | .rne => true
        | .rtz => false
        | .rdn => s
        | .rup => !s
        | .sr _ => true
      (f.signed s (if toInf then f.infCode else f.maxCode), fOF ||| fNX)
    else
      (f.signed s r.1,
        (if r.2 then fNX else 0) ||| (if decide (m ≠ 0) && r.2 && isTiny f mode s m e then fUF else 0))

/-- The sign of a value. -/
def FV.neg : FV → Bool
  | .nan => false
  | .inf s => s
  | .fin s _ _ => s

/-- Whether a value is finite. -/
def FV.isFin : FV → Bool
  | .fin _ _ _ => true
  | _ => false

/-- Whether a value is a NaN. -/
def FV.isNan : FV → Bool
  | .nan => true
  | _ => false

/-- Whether a value is a zero. -/
def FV.isZero : FV → Bool
  | .fin _ m _ => m == 0
  | _ => false

/-- A value with its sign changed. -/
def FV.negate : FV → FV
  | .nan => .nan
  | .inf s => .inf (!s)
  | .fin s m e => .fin (!s) m e

/-- A value's magnitude. -/
def FV.mag : FV → FV
  | .nan => .nan
  | .inf _ => .inf false
  | .fin _ m e => .fin false m e

/-- The exact product (IEEE 754 rules; infinity times zero is NaN) (02 R34). -/
def FV.mul : FV → FV → FV
  | .nan, _ => .nan
  | _, .nan => .nan
  | .inf a, .inf b => .inf (a != b)
  | .inf a, .fin b m _ => if m == 0 then .nan else .inf (a != b)
  | .fin a m _, .inf b => if m == 0 then .nan else .inf (a != b)
  | .fin a m e, .fin b n f => .fin (a != b) (m * n) (e + f)

/-- A finite value's signed significand at a lower or equal exponent. -/
def scaledInt (s : Bool) (m : Nat) (e lo : Int) : Int :=
  let x := Int.ofNat (m * 2 ^ (e - lo).toNat)
  if s then -x else x

/-- The exact sum; zn is the sign of an exact zero sum of values of different sign (02 R34, 03 R112). -/
def FV.add (zn : Bool) : FV → FV → FV
  | .nan, _ => .nan
  | _, .nan => .nan
  | .inf a, .inf b => if a == b then .inf a else .nan
  | .inf a, .fin _ _ _ => .inf a
  | .fin _ _ _, .inf b => .inf b
  | .fin a m e, .fin b n f =>
    let lo := min e f
    let x := scaledInt a m e lo + scaledInt b n f lo
    if x = 0 then .fin (if a == b then a else zn) 0 lo
    else .fin (decide (x < 0)) x.natAbs lo

/-- Exact comparison of two values that are not NaN: a < b. -/
def FV.lt (a b : FV) : Bool :=
  match a, b with
  | .nan, _ => false
  | _, .nan => false
  | .inf s, .inf t => s && !t
  | .inf s, .fin _ _ _ => s
  | .fin _ _ _, .inf t => !t
  | .fin s m e, .fin t n f =>
    let lo := min e f
    decide (scaledInt s m e lo < scaledInt t n f lo)

/-- Exact equality of value (−0 equals +0; a NaN equals nothing). -/
def FV.eq (a b : FV) : Bool := !a.isNan && !b.isNan && !a.lt b && !b.lt a

/-- An integer as an exact value. -/
def FV.ofInt (i : Int) : FV := .fin (decide (i < 0)) i.natAbs 0

/-- A value multiplied by 2^k. -/
def FV.shift (v : FV) (k : Int) : FV :=
  match v with
  | .fin s m e => .fin s m (e + k)
  | x => x

/-- The value a format code holds after rounding to nearest-even, overflowing to infinity (02 R32, 03 R111). -/
def roundVal (f : Fmt) (v : FV) : FV :=
  match v with
  | .fin s m e =>
    let r := roundCode f .rne s m e
    if r.1 > f.maxCode then .inf s else decodeF f (f.signed s r.1)
  | x => x

/-- The integer a finite value rounds to by a mode, and whether that was inexact. -/
def roundInt (mode : RMode) (s : Bool) (m : Nat) (e : Int) : Int × Bool :=
  let r := if 0 ≤ e then (m * 2 ^ e.toNat, false) else roundShift mode s m (-e).toNat
  (if s then -(Int.ofNat r.1) else Int.ofNat r.1, r.2)

/-- The floating-point format of a format code of 03 R86 that has one. -/
def fmtOf (code : Nat) : Option Fmt :=
  match code with
  | 0x0 => some bf16
  | 0x1 => some fp16
  | 0x2 => some fE4M3
  | 0x3 => some fE5M2
  | 0x4 => some fE4M3
  | 0x5 => some fE5M2
  | 0x6 => some fE3M2
  | 0x7 => some fE2M3
  | 0x8 => some fE2M1
  | 0x9 => some fE2M1
  | 0xB => some fp64
  | 0xC => some fp32
  | 0x10 => some fE3M2
  | 0x11 => some fE2M3
  | _ => none

/-- Bits of an element of a format code as it is stored (03 R86, 04 R130; 0x10 and 0x11 packed, 6 bits). -/
def codeBits (code : Nat) : Nat :=
  match code with
  | 0x0 => 16
  | 0x1 => 16
  | 0x8 => 4
  | 0x9 => 4
  | 0xB => 64
  | 0xC => 32
  | 0xD => 32
  | 0x10 => 6
  | 0x11 => 6
  | _ => 8

/-- Whether a format code is an MX format (03 R86, 09 R330). -/
def isMX (code : Nat) : Bool := (4 ≤ code && code ≤ 8) || code == 0x10 || code == 0x11

/-- emax of an MX element format (04 R138). -/
def mxEmax (code : Nat) : Int :=
  match code with
  | 0x4 => 8
  | 0x5 => 15
  | 0x6 => 4
  | 0x10 => 4
  | _ => 2

/-- The value of raw element bits of a format code, integers included; bits above the element are ignored (04 R130). -/
def decodeCode (code x : Nat) : FV :=
  match fmtOf code with
  | some f => decodeF f (x % 2 ^ f.width)
  | none => if code = 0xA then FV.ofInt (sx 8 x) else FV.ofInt (sx 32 x)

/-- The value of an element under an E8M0 scale (04 R131). -/
def withScale (v : FV) (sc : Nat) : FV := if sc = 0xFF then .nan else v.shift (Int.ofNat sc - 127)

/-- What a conversion counts an element as (04 R136). -/
inductive CvClass where
  | plain | nan | sat | flush
deriving DecidableEq, Repr

/-- The stored code of a finite value of a code that is neither NaN nor flushed specially. DESIGN CHOICE (log 42): a value scaled beyond
FP64's range follows the overflow treatment of the other formats with infinities; in an MX block every overflow stores the largest
finite value and counts nothing, also one that the clamp of the block scale at 127 brings about. -/
def cvFloat (f : Fmt) (nonsat : Bool) (mx : Bool) (mode : RMode) (s : Bool) (m : Nat) (e : Int) : Nat × CvClass :=
  let r := roundCode f mode s m e
  if r.1 > f.maxCode then
    if nonsat && !mx && f.sp == .ieee then (f.signed s f.infCode, .sat)
    else if nonsat && !mx && f.sp == .e4m3 then (f.qnan, .nan)
    else (f.signed s f.maxCode, if mx then .plain else .sat)
  else (f.signed s r.1, if r.1 = 0 && decide (m ≠ 0) then .flush else .plain)

/-- Clamp an integer to w-bit two's complement. -/
def clampW (w : Nat) (x : Int) : Int := max (-(2 ^ (w - 1) : Int)) (min x (2 ^ (w - 1) - 1 : Int))

/-- Convert a value to a format code outside an MX block: stored bits and how it counts (04 R135, R136). -/
def convert (code : Nat) (nonsat : Bool) (mode : RMode) (v : FV) : Nat × CvClass :=
  match fmtOf code with
  | some f =>
    match v with
    | .nan => if f.sp == .finite then (0, .nan) else (f.qnan, .nan)
    | .inf s =>
      if f.sp == .ieee then (f.signed s f.infCode, .plain)
      else if f.sp == .e4m3 && nonsat then (f.qnan, .nan)
      else (f.signed s f.maxCode, .sat)
    | .fin s m e => cvFloat f nonsat false mode s m e
  | none =>
    let w := if code = 0xA then 8 else 32
    match v with
    | .nan => (0, .nan)
    | .inf s => (wrapN w (if s then -(2 ^ (w - 1) : Int) else (2 ^ (w - 1) - 1 : Int)), .sat)
    | .fin s m e =>
      let r := (roundInt mode s m e).1
      let k := clampW w r
      (wrapN w k, if k ≠ r then .sat else if k = 0 && decide (m ≠ 0) then .flush else .plain)

/-- floor(log2 of a non-zero magnitude). -/
def log2Floor (m : Nat) (e : Int) : Int := Int.ofNat (nbits m) - 1 + e

/-- The larger magnitude of two finite magnitudes. -/
def maxMag (a b : FV) : FV := if a.lt b then b else a

/-- An MX block on output: scale, elements and how each counts (04 R138); modes are the elements' rounding modes. -/
def mxBlock (code : Nat) (vs : List FV) (modes : List RMode) : Nat × List (Nat × CvClass) :=
  match fmtOf code with
  | none => (0, [])
  | some f =>
    if vs.all FV.isFin then
      let x : Int := match vs.foldl (fun a v => maxMag a v.mag) (.fin false 0 0) with
        | .fin _ m e => if m = 0 then 0 else max (-127) (min (log2Floor m e - mxEmax code) 127)
        | _ => 0
      ((x + 127).toNat, (vs.zip modes).map (fun vm => match vm.1 with
        | .fin s m e => cvFloat f false true vm.2 s m (e - x)
        | _ => (0, .nan)))
    else (0xFF, vs.map (fun _ => (0, .nan)))

/-- One round of the keyed draw (04 R140). -/
def srRound (kx : U64 × U64) : U64 × U64 :=
  let x := kx.2 + kx.1
  let x := x ^^^ (x >>> 31)
  let x := x * 0xE7037ED1A0B428DB#64
  let x := x ^^^ (x >>> 29)
  (kx.1 + 0x6A09E667F3BCC909#64, x)

/-- The 32-bit draw sr_bits(step, chan, idx) (04 R140). -/
def srBits (step : U64) (chan : Nat) (idx : U64) : Nat :=
  let k := (step * 0x9E3779B97F4A7C15#64) ^^^ n64 chan
  (srRound (srRound (srRound (srRound (k, idx))))).2.toNat >>> 32

/-- The hi part of the split of R74 under the SAT treatment (04 R137), as a BF16 code. -/
def splitHi (v : FV) : Nat := (convert 0x0 false .rne v).1

/-- The lo part of the split of R74, as a BF16 code with its class: the SAT treatment is the hi part's only, so lo follows the overflow
treatment given; +0 for an infinite or NaN value, where an infinite one counts as saturated and a NaN as NaN (04 R135 to R137). -/
def splitLo (nonsat : Bool) (v : FV) : Nat × CvClass :=
  match v with
  | .fin _ _ _ => convert 0x0 nonsat .rne (v.add false (decodeF bf16 (splitHi v)).negate)
  | .inf _ => (0, .sat)
  | .nan => (0, .nan)

/-- INT4 or INT8 expansion by scale and zero point: (q − z) × s rounded into the target (04 R143, R144). -/
def expandSZ (code : Nat) (q : Int) (word : Nat) : Nat × CvClass :=
  convert code false .rne
    (match (FV.ofInt (q - sx 8 (bitsOf word 16 8))).mul (decodeF bf16 (bitsOf word 0 16)) with
     | .inf s => (match fmtOf code with
        | some f => if f.sp == .ieee then .fin s (2 ^ 200) 0 else .inf s
        | none => .inf s)
     | x => x)

/-- The product of an E8M0 code's value: an MX scale as an exact value (04 R131). -/
def e8m0 (c : Nat) : FV := if c = 0xFF then .nan else .fin false 1 (Int.ofNat c - 127)

end Sys2Proof.Machine
end

