-- ==== Sys2Proof/Machine/Trans.lean ====
section
/-! DEFINITION. Machine/Trans.lean: square root, division and the transcendentals, formed exactly enough that one
rounding of the result is the rounding of the exact function value (05 R178). A value that is not exact carries a
sticky lowest bit. -/

namespace Sys2Proof.Machine

/-- The bits of ⌊√n⌋ from 2^(k-1) down, given the part r already found. -/
def isqrtLoop (n : Nat) : Nat → Nat → Nat
  | 0, r => r
  | k + 1, r =>
    let c := r + 2 ^ k
    isqrtLoop n k (if c * c ≤ n then c else r)

/-- ⌊√n⌋. -/
def isqrt (n : Nat) : Nat := isqrtLoop n (nbits n / 2 + 1) 0

/-- a × 2^k with a sticky lowest bit set when the true value is not exact. -/
def sticky (exact : Bool) (neg : Bool) (a : Nat) (e : Int) : FV :=
  .fin neg (2 * a + (if exact then 0 else 1)) (e - 1)

/-- The quotient of two finite values, the divisor not zero, with a sticky bit. -/
def divExact (s : Bool) (m : Nat) (e : Int) (n : Nat) (f : Int) : FV :=
  let k := nbits n + 80
  sticky (m * 2 ^ k % n == 0) s (m * 2 ^ k / n) (e - f - Int.ofNat k)

/-- The square root of a positive finite value, with a sticky bit. -/
def sqrtExact (m : Nat) (e : Int) : FV :=
  let p := (e % 2).toNat
  let x := m * 2 ^ p * 2 ^ 160
  let r := isqrt x
  sticky (r * r == x) false r ((e - Int.ofNat p) / 2 - 80)

/-- The reciprocal square root of a positive finite value, with a sticky bit. -/
def rsqrtExact (m : Nat) (e : Int) : FV :=
  let p := (e % 2).toNat
  let x := m * 2 ^ p
  let k := nbits x + 80
  let r := isqrt (2 ^ (2 * k) / x)
  sticky (r * r * x == 2 ^ (2 * k)) false r (-((e - Int.ofNat p) / 2) - Int.ofNat k)

/-- Bits of the fixed-point work. -/
def fxP : Nat := 224

/-- 1 in fixed point. -/
def fxOne : Int := 2 ^ fxP

/-- The product of two fixed-point numbers. -/
def fxMul (a b : Int) : Int := fdiv (a * b) (2 ^ fxP)

/-- The odd powers' sum z + z³/3 + z⁵/5 + … in fixed point: term is z^(2i+1), z2 is z². -/
def atanhLoop (z2 : Int) : Nat → Int → Nat → Int
  | 0, _, _ => 0
  | n + 1, term, i => fdiv term (2 * i + 1) + atanhLoop z2 n (fxMul term z2) (i + 1)

/-- 2 × artanh(z) for a fixed-point z of magnitude at most 1/3. -/
def atanh2 (z : Int) : Int := 2 * atanhLoop (fxMul z z) 76 z 0

/-- ln 2 in fixed point. -/
def fxLn2 : Int := atanh2 (fdiv fxOne 3)

/-- The exponential series from its i-th term on. -/
def expLoop (r : Int) : Nat → Int → Nat → Int
  | 0, _, _ => 0
  | n + 1, term, i => term + expLoop r n (fdiv (fxMul term r) (i + 1)) (i + 1)

/-- exp of a fixed-point number of magnitude below 1. -/
def fxExp (r : Int) : Int := expLoop r 60 fxOne 0

/-- A finite value in fixed point, rounded down. -/
def toFx (s : Bool) (m : Nat) (e : Int) : Int :=
  let k := e + Int.ofNat fxP
  let x := if 0 ≤ k then Int.ofNat (m * 2 ^ k.toNat) else Int.ofNat (m >>> (-k).toNat)
  if s then -x else x

/-- exp of y + k ln 2 as an inexact value, y in fixed point. -/
def expVal (y : Int) (k : Int) : FV := sticky false false (fxExp y).toNat (k - Int.ofNat fxP)

/-- A finite value no further than 2^11 from zero, so that exp of it is far outside every format it is used in. -/
def clampMag (s : Bool) (m : Nat) (e : Int) : Bool × Nat × Int :=
  if log2Floor m e ≥ 11 then (s, 1, 11) else (s, m, e)

/-- exp of a non-zero finite value. -/
def expExact (s : Bool) (m : Nat) (e : Int) : FV :=
  let c := clampMag s m e
  let x := toFx c.1 c.2.1 c.2.2
  let k := fdiv x fxLn2.toNat
  -- a value too small for the fixed point still makes the result differ from 1
  if x = 0 then (if s then .fin false (2 ^ fxP - 1) (-(Int.ofNat fxP)) else sticky false false (2 ^ fxP) (-(Int.ofNat fxP)))
  else expVal (x - k * fxLn2) k

/-- 2 to the power of a finite value. -/
def exp2Exact (s : Bool) (m : Nat) (e : Int) : FV :=
  let c := clampMag s m e
  let x := toFx c.1 c.2.1 c.2.2
  let k := fdiv x (2 ^ fxP)
  let r := x - k * fxOne
  if m = 0 then .fin false 1 0
  else if r = 0 && x ≠ 0 then .fin false 1 k
  else if x = 0 then (if s then .fin false (2 ^ fxP - 1) (-(Int.ofNat fxP)) else sticky false false (2 ^ fxP) (-(Int.ofNat fxP)))
  else expVal (fxMul r fxLn2) k

/-- log2 of a positive finite value. -/
def log2Exact (m : Nat) (e : Int) : FV :=
  let n := nbits m - 1
  if m = 2 ^ n then FV.ofInt (Int.ofNat n + e)
  else
    let num := (Int.ofNat m - 2 ^ n) * fxOne
    let z := fdiv num (m + 2 ^ n)
    let l := fdiv (atanh2 z * fxOne) fxLn2.toNat
    let t := l + (Int.ofNat n + e) * fxOne
    if t < 0 then sticky false true ((-t).toNat - 1) (-(Int.ofNat fxP)) else sticky false false t.toNat (-(Int.ofNat fxP))

/-- tanh of a non-zero finite value. -/
def tanhExact (s : Bool) (m : Nat) (e : Int) : FV :=
  let l := log2Floor m e
  if l < -13 then .fin s (m * 2 ^ 64 - 1) (e - 64)
  else if l ≥ 8 then .fin s (2 ^ fxP - 1) (-(Int.ofNat fxP))
  else
    let x := 2 * toFx false m e
    let k := fdiv x fxLn2.toNat
    let t := fxExp (x - k * fxLn2) * 2 ^ k.toNat
    sticky false s (fdiv ((t - fxOne) * fxOne) (t + fxOne).toNat).toNat (-(Int.ofNat fxP))

end Sys2Proof.Machine
end

