-- ==== Sys2Proof/Machine/Float.lean ====
section
/-! DEFINITION. Machine/Float.lean: one element of scalar and vector floating-point arithmetic (05 R173 to R178,
06 R224, R226). -/

namespace Sys2Proof.Machine

/-- A NaN result: the canonical NaN, with NV unless an operand was already a NaN (04 R127, R134). -/
def nanOut (f : Fmt) (hadNan : Bool) : Nat × FFlags := (f.qnan, if hadNan then 0 else fNV)

/-- Deliver an exact result; a NaN that no operand carried signals NV. -/
def deliverNV (f : Fmt) (mode : RMode) (hadNan : Bool) (v : FV) : Nat × FFlags :=
  match v with
  | .nan => nanOut f hadNan
  | x => deliver f mode x

/-- The sign of an exact zero sum under a mode (IEEE 754). -/
def zeroSign (mode : RMode) : Bool := mode == .rdn

/-- a + b (05 R175). -/
def fAdd (f : Fmt) (mode : RMode) (a b : FV) : Nat × FFlags :=
  deliverNV f mode (a.isNan || b.isNan) (a.add (zeroSign mode) b)

/-- a × b. -/
def fMul (f : Fmt) (mode : RMode) (a b : FV) : Nat × FFlags :=
  deliverNV f mode (a.isNan || b.isNan) (a.mul b)

/-- d + a × b, rounded once (05 R175). -/
def fFma (f : Fmt) (mode : RMode) (d a b : FV) : Nat × FFlags :=
  deliverNV f mode (a.isNan || b.isNan || d.isNan) (d.add (zeroSign mode) (a.mul b))

/-- Whether −0 or a smaller value comes first: the order of VFMIN and VFMAX (05 R175). -/
def minOrder (a b : FV) : Bool := a.lt b || (a.isZero && b.isZero && a.neg && !b.neg)

/-- The smaller (or larger) of two values' codes; the canonical NaN when either is a NaN (05 R175). -/
def fMinMax (f : Fmt) (isMax : Bool) (x y : Nat) : Nat × FFlags :=
  let a := decodeF f x
  let b := decodeF f y
  if a.isNan || b.isNan then (f.qnan, 0)
  else if isMax then (if minOrder a b then y else x, 0) else (if minOrder b a then y else x, 0)

/-- a ÷ b (05 R178). -/
def fDiv (f : Fmt) (mode : RMode) (a b : FV) : Nat × FFlags :=
  match a, b with
  | .nan, _ => nanOut f true
  | _, .nan => nanOut f true
  | .inf _, .inf _ => nanOut f false
  | .inf s, .fin t _ _ => deliver f mode (.inf (s != t))
  | .fin s _ _, .inf t => deliver f mode (.fin (s != t) 0 0)
  | .fin s m e, .fin t n g =>
    if n = 0 then (if m = 0 then nanOut f false else ((deliver f mode (.inf (s != t))).1, fDZ))
    else deliver f mode (divExact (s != t) m e n g)

/-- √a (05 R178). -/
def fSqrt (f : Fmt) (mode : RMode) (a : FV) : Nat × FFlags :=
  match a with
  | .nan => nanOut f true
  | .inf s => if s then nanOut f false else deliver f mode (.inf false)
  | .fin s m e => if m = 0 then deliver f mode a else if s then nanOut f false else deliver f mode (sqrtExact m e)

/-- 1 ÷ a to nearest-even (05 R178). -/
def fRcp (f : Fmt) (a : FV) : Nat × FFlags :=
  match a with
  | .nan => nanOut f true
  | .inf s => deliver f .rne (.fin s 0 0)
  | .fin s m e => if m = 0 then ((deliver f .rne (.inf s)).1, fDZ) else deliver f .rne (divExact s 1 0 m e)

/-- 1 ÷ √a to nearest-even (05 R178). -/
def fRsqrt (f : Fmt) (a : FV) : Nat × FFlags :=
  match a with
  | .nan => nanOut f true
  | .inf s => if s then nanOut f false else deliver f .rne (.fin false 0 0)
  | .fin s m e =>
    if m = 0 then ((deliver f .rne (.inf s)).1, fDZ) else if s then nanOut f false else deliver f .rne (rsqrtExact m e)

/-- exp a to nearest-even (05 R178). -/
def fExp (f : Fmt) (a : FV) : Nat × FFlags :=
  match a with
  | .nan => nanOut f true
  | .inf s => deliver f .rne (if s then .fin false 0 0 else .inf false)
  | .fin s m e => deliver f .rne (if m = 0 then .fin false 1 0 else expExact s m e)

/-- 2^a to nearest-even (05 R178). -/
def fExp2 (f : Fmt) (a : FV) : Nat × FFlags :=
  match a with
  | .nan => nanOut f true
  | .inf s => deliver f .rne (if s then .fin false 0 0 else .inf false)
  | .fin s m e => deliver f .rne (exp2Exact s m e)

/-- log2 a to nearest-even (05 R178). -/
def fLog2 (f : Fmt) (a : FV) : Nat × FFlags :=
  match a with
  | .nan => nanOut f true
  | .inf s => if s then nanOut f false else deliver f .rne (.inf false)
  | .fin s m e =>
    if m = 0 then ((deliver f .rne (.inf true)).1, fDZ) else if s then nanOut f false else deliver f .rne (log2Exact m e)

/-- tanh a to nearest-even (05 R178). -/
def fTanh (f : Fmt) (a : FV) : Nat × FFlags :=
  match a with
  | .nan => nanOut f true
  | .inf s => deliver f .rne (.fin s 1 0)
  | .fin s m e => deliver f .rne (if m = 0 then a else tanhExact s m e)

/-- |a| or −a: a NaN gives the canonical NaN (04 R127). -/
def fSignOp (f : Fmt) (isAbs : Bool) (a : FV) : Nat × FFlags :=
  match a with
  | .nan => (f.qnan, 0)
  | x => deliver f .rne (if isAbs then x.mag else x.negate)

/-- One element of FUNCT 0x00 to 0x0F and 0x14 of 05 R173, floating-point column: d is the old destination. -/
def fpArith (funct : Nat) (f : Fmt) (mode : RMode) (d x y : Nat) : Nat × FFlags :=
  let a := decodeF f x
  let b := decodeF f y
  match funct with
  | 0x00 => fAdd f mode a b
  | 0x01 => fAdd f mode a b.negate
  | 0x02 => fMul f mode a b
  | 0x03 => fFma f mode (decodeF f d) a b
  | 0x04 => fFma f mode (decodeF f d) a.negate b
  | 0x05 => fMinMax f false x y
  | 0x06 => fMinMax f true x y
  | 0x07 => fSignOp f true a
  | 0x08 => fDiv f mode a b
  | 0x09 => fSqrt f mode a
  | 0x0A => fRcp f a
  | 0x0B => fRsqrt f a
  | 0x0C => fExp f a
  | 0x0D => fExp2 f a
  | 0x0E => fLog2 f a
  | 0x0F => fTanh f a
  | _ => fSignOp f false a

/-- One element of the compares 0x10 to 0x12: VFCMPEQ quiet, VFCMPLT and VFCMPLE signalling (05 R175). -/
def fpCompare (funct : Nat) (f : Fmt) (x y : Nat) : Bool × FFlags :=
  let a := decodeF f x
  let b := decodeF f y
  let isN := a.isNan || b.isNan
  match funct with
  | 0x10 => (a.eq b, 0)
  | 0x11 => (a.lt b, if isN then fNV else 0)
  | _ => (a.lt b || a.eq b, if isN then fNV else 0)

/-- FCVTI: a value rounded to a signed 64-bit integer (06 R226). -/
def fToInt (mode : RMode) (a : FV) : U64 × FFlags :=
  match a with
  | .nan => (0, fNV)
  | .inf s => (if s then 0x8000000000000000#64 else 0x7FFFFFFFFFFFFFFF#64, fNV)
  | .fin s m e =>
    let r := roundInt mode s m e
    let k := clampW 64 r.1
    (w64 k, if k ≠ r.1 then fNV else if r.2 then fNX else 0)

end Sys2Proof.Machine
end

