-- ==== Sys2Proof/Config.lean ====
section
/-! DEFINITION. Config.lean: the values the spec leaves open, as constants without a body. Nothing can evaluate one or
prove a value of it, so a claim holds whatever it is. -/

namespace Sys2Proof

/-- A free number, fresh for each count of State.free (log 1): which of the results the spec allows is taken. -/
opaque Config.freeNat : Nat → Nat

/-- The call numbers of the modules whose PW_CAP.GROUP has a value: how a module knows its broker group is not stated (14 R520;
log 65). -/
opaque Config.groupMembers : Nat → List Nat

/-- What a standby image in memory holds for a call number, from its address: plan table entries, and the values of ledger engine
registers and of fabric endpoint registers by offset. Its layout is not stated (13 R493, R496; log 70). -/
opaque Config.standbyImage : List (Nat × Byte) → Nat → Nat → List (Nat × List U64) × List (Nat × U64) × List (Nat × U64)

/-- The flash as it left manufacture, by address (16 R566; log 66). -/
opaque Config.factoryFlash : Nat → Byte

/-- Whether an SLH-DSA-SHA2-256s signature verifies: key, message, signature (16 R567; log 66). -/
opaque Config.vendorVerify : List Byte → List Byte → List Byte → Bool

/-- The vendor key hash fused at manufacture, 32 bytes (16 R567; log 66). -/
opaque Config.vendorHash : List Byte

/-- Whether an SLH-DSA-SHA2-128f signature verifies: key, message, signature (15 R551; log 66). -/
opaque Config.tokenVerify : List Byte → List Byte → List Byte → Bool

/-- The SLH-DSA-SHA2-128f signature of a message under the identity key, 17,088 bytes (16 R576; log 66). -/
opaque Config.quoteSign : List Byte → List Byte

/-- The weeding record as WEED_READ returns it and MR1 measures it, from the arrays weeded of each core and the cores parked: its
layout is not stated (13 R485, 15 R544; log 71). -/
opaque Config.weedRecord : List Nat → List Nat → List Byte

/-- The 16 bytes CAT_READ returns for a call number, from its shelf mark, edition and state (0 unassigned, 1 ACTIVE, 2 RESERVE,
3 WITHDRAWN): their layout is not stated (15 R544; log 71). -/
opaque Config.catBytes : Nat → Nat → Nat → Nat → List Byte

/-- Which of the LINEAR11 words for a value PMBus answers with, by the number of the choice (17 R595; log 72). -/
opaque Config.linearChoice : Int → Nat

/-- The bookplate certificate in DER (16 R574; log 66). -/
opaque Config.bookplate : List Byte

/-- Free (log 67): whether a child of a reduce plan sends FP32 partial sums; its own plan entry's WFMT says so (11 R412), and how a parent knows
it is not stated. -/
opaque Config.childSendsFp32 : Nat → Nat → Bool

end Sys2Proof
end

