-- ==== Sys2Proof/Machine/CoreState.lean ====
section
/-! DEFINITION. Machine/CoreState.lean: the state of one Ahnor-2 core with its tile unit, vector unit and stream
engines (02 to 09). A CSR is held as its 64-bit register word; each field's docstring gives chapter, rule, width and
reset value. -/

namespace Sys2Proof.Machine

/-- Counts of a converting operation or of one counter set (04 R155, R162). -/
structure Counts where
  /-- 04 R162: `NCH_ELEMS`, elements converted, 48 bits, saturating. Reset: 0. -/
  elems : BitVec 48
  /-- 04 R162: `NCH_SAT`, 32 bits, saturating. Reset: 0. -/
  sat   : BitVec 32
  /-- 04 R162: `NCH_FLUSH`, 32 bits, saturating. Reset: 0. -/
  flush : BitVec 32
  /-- 04 R162: `NCH_NAN`, 32 bits, saturating. Reset: 0. -/
  nan   : BitVec 32
  /-- 04 R162: `NCH_AMAX`, FP32 amax of a channel, 32 bits; +0 for a format set. Reset: +0. -/
  amax  : BitVec 32
deriving DecidableEq, Repr

/-- The counter set of nothing. -/
def Counts.zero : Counts := { elems := 0, sat := 0, flush := 0, nan := 0, amax := 0 }

/-- What a hall access asks for (11 R406). -/
inductive HallOp where
  /-- read `len` bytes; `watch` sets a watch for a task (08 R310, 11 R411) -/
  | read (len : Nat) (watch : Bool)
  /-- write these bytes; pm marks poisoned flits -/
  | write (data : List Byte) (pm : Nat)
  /-- an atomic of R215: OP, access size, operand, compare value -/
  | atomic (op size : Nat) (opnd cmp : U64)
deriving DecidableEq, Repr

/-- A hall memory access: the global address of R286 and what is asked. -/
structure HallReq where
  addr : U64
  op   : HallOp
deriving DecidableEq, Repr

/-- What a hall access came back with. -/
inductive HallRes where
  /-- data or old value, with PMASK: bit i says that payload flit i is poisoned (11 R395) -/
  | ok (data : List Byte) (pmask : Nat)
  /-- refused with a code (11 R406); also a timeout (R410) -/
  | refused (code : Nat)
deriving DecidableEq, Repr

/-- One register bank B0 to B3 (07 R257). -/
structure Bank where
  /-- 07 R257, 06 R195: A0 to A14 of the bank, 64 bits each. Reset: 0 (R199). -/
  a : Vector U64 15
  /-- 07 R257, 06 R195: D0 to D15 of the bank, 64 bits each. Reset: 0 (R199). -/
  d : Vector U64 16
  /-- 07 R283: ST.RING of the bank's context, 2 bits. Reset: 0; DESIGN CHOICE 0 for banks other than B0 (log 5). -/
  ring : BitVec 2
  /-- 07 R283: ST.GM of the bank's context, 1 bit. Reset: 1; DESIGN CHOICE 1 for banks other than B0 (log 5). -/
  gm : Bool
  /-- 07 R257: PC of the bank's context, 64 bits, a multiple of 4. Reset: 0; the entry address comes with CORE_RESTART (R572). -/
  pc : U64
  /-- 07 R283: ECAUSE word CODE 8, SUBC 8, ASYNC 1. Reset: 0. -/
  ecause : U64
  /-- 07 R283: EINFO, 64 bits. Reset: 0. -/
  einfo : U64
  /-- 07 R283: ELINK word BANK 2, SRING 2, SPILLED 1, VALID 1. Reset: 0. -/
  elink : U64
deriving DecidableEq, Repr

/-- The ring registers of a core (07 R282, R283; 06 R231). -/
structure RingRegs where
  /-- 07 R257: the banks B0 to B3. -/
  banks : Vector Bank 4
  /-- 07 R283: ST.BANK, the current bank, 2 bits. Reset: 0. -/
  cur : BitVec 2
  /-- 07 R283: BANKS.BUSY, 3 bits. Reset: 0x1. -/
  busy : BitVec 3
  /-- 07 R283: GATEBASE, 64-bit word, BASE [47:12]. Reset: 0. -/
  gatebase : U64
  /-- 07 R283: XVEC0 to XVEC2, 64-bit words, ADDR [63:2]. Reset: 0. -/
  xvec : Vector U64 3
  /-- 07 R283: SSP0 to SSP2, 64-bit words, PTR [47:9]. Reset: 0. -/
  ssp : Vector U64 3
  /-- 07 R283: SSLIM0 to SSLIM2, 64-bit words, PTR [47:9]. Reset: 0. -/
  sslim : Vector U64 3
  /-- 07 R283: XROUTE0, 2 bits for each cause 0x00 to 0x1F. Reset: 0 but ROUTE18 1. -/
  xroute0 : U64
  /-- 07 R283: XROUTE1, 2 bits for each cause 0x20 to 0x3F. Reset: 0. -/
  xroute1 : U64
  /-- 07 R283: XPEND word TIMER, IC, CN, SH, MC. Reset: 0. -/
  xpend : U64
  /-- 07 R283: XTIMER, 64 bits. Reset: 0. -/
  xtimer : U64
  /-- 06 R231: SLIM0 to SLIM3, 64 bits each. Reset: 0. -/
  slim : Vector U64 4
  /-- 06 R198, 07 R283: SP0 to SP3, the A15 of each ring, 64 bits each. Reset: 0. -/
  sp : Vector U64 4
  /-- 07 R277: EINFO of the latest machine check pending, 64 bits. Reset: 0 (the model's own field for what R277 reports). -/
  mcInfo : U64
  /-- 07 R277, 09 R354: EINFO of the latest stream halt, 64 bits. Reset: 0 (the model's own field for what R277 reports). -/
  shInfo : U64
deriving DecidableEq, Repr

/-- Why a core is stopped (07 R276; 15 R559; 06 R254). -/
inductive StopReason where
  | mask | spill | refill | command | fence
deriving DecidableEq, Repr

/-- Whether a core executes (07 R276, 06 R254). -/
inductive RunState where
  /-- executing -/
  | running
  /-- stopped, with its reason -/
  | stopped (r : StopReason)
  /-- halted for debug before the instruction at its PC -/
  | halted
  /-- parked by weeding (13 R485): it is not restarted -/
  | parked
deriving DecidableEq, Repr

/-- The stop record the Curator holds for a core (07 R276, 15 R559). -/
structure StopRec where
  /-- 07 R276: 1 when a record is held. -/
  valid : Bool
  /-- 07 R276: cause, 8 bits. -/
  cause : BitVec 8
  /-- 07 R276: subcause, 8 bits. -/
  subc : BitVec 8
  /-- 07 R276: resume address, 64 bits. -/
  pc : U64
  /-- 07 R276: ring, 2 bits. -/
  ring : BitVec 2
  /-- 07 R276: bank, 2 bits. -/
  bank : BitVec 2
  /-- 07 R276: reason. -/
  reason : StopReason
  /-- 15 R559: hall time of the stop, 64 bits. -/
  time : U64
deriving DecidableEq, Repr

/-- The execution registers of a core (06). -/
structure ExecRegs where
  /-- 06 R195, R199: ACC0 to ACC7, 80 bits each. Reset: 0. -/
  acc : Vector (BitVec 80) 8
  /-- 06 R242: RCNT, COUNT 32 bits. Reset: 0. -/
  rcnt : BitVec 32
  /-- 06 R242: RSTAT word VALID, KIND. Reset: 0. -/
  rstat : U64
  /-- 06 R244, R252: the gloss table, 32 entries of 17 words of 64 bits. Reset: 0. -/
  glTab : Vector U64 544
  /-- 06 R252: GL_SEL word ENTRY 5, SLOT 4, HDR 1. Reset: 0. -/
  glSel : U64
  /-- 06 R252: GL_CTL.ERR, 3 bits. Reset: 0. -/
  glErr : BitVec 3
  /-- 06 R252: GL_LOCK, 32 bits. Reset: 0. -/
  glLock : BitVec 32
  /-- 06 R252: GL_FAULT word SLOT 4, ENTRY 5, VALID 1. Reset: 0. -/
  glFault : U64
  /-- 06 R245: temporaries G0 to G7 of a running gloss, 64 bits each. Reset: 0. -/
  gtmp : Vector U64 8
  /-- 06 R253: the quadrant's clk count at the function reset, which CYCLE counts from, 64 bits. Reset: 0. -/
  cycBase : U64
  /-- 06 R253: INSTRET, 64 bits. Reset: 0. -/
  instret : U64
  /-- 06 R253: XSTAT.NONREP, 1 bit. Reset: 0. -/
  nonrep : Bool
  /-- 06 R253: DBG_BP0 to DBG_BP3, words EN, ADDR [63:2]. Reset: 0. -/
  dbgBp : Vector U64 4
  /-- 06 R253: DBG_CTL.STEP, 1 bit. Reset: 0. -/
  dbgStep : Bool
  /-- 06 R254: a resumed core passes the breakpoint it halted at, 1 bit. Reset: 0 (the model's own field, log 14). -/
  bpSkip : Bool
  /-- 05 R190, 06 R240: the next instruction is the first after an RTE, 1 bit. Reset: 0 (the model's own field). -/
  afterRte : Bool
  /-- 07 R276: whether the core runs. Reset: stopped with reason command (R572). -/
  run : RunState
  /-- 15 R559: the stop record. Reset: none. -/
  stop : StopRec
  /-- 07 R275: module time at which the running masked interval began. Reset: none. -/
  maskFrom : Option Nat
  /-- 07 R275: the interval's WATCHDOG notice has been posted, 1 bit. Reset: 0. -/
  wdPosted : Bool
  /-- 11 R406: hall accesses of the instruction being executed that have been answered. Reset: none. -/
  hlog : List (HallReq × HallRes)
  /-- 11 R406: the tag of the hall access the core waits for. Reset: none. -/
  hwait : Option (BitVec 32)
deriving DecidableEq, Repr

/-- The vector registers of a core (05). -/
structure VecRegs where
  /-- 05 R163, R164: V0 to V31, 2,048 bits each; F0 to F31 are bits [63:0]. Reset: F part 0 (06 R199), the rest DESIGN CHOICE 0 (log 4). -/
  v : Vector (BitVec 2048) 32
  /-- 05 R165: P0 to P7, 256 bits each. Reset: DESIGN CHOICE 0 (log 4). -/
  p : Vector (BitVec 256) 8
  /-- 05 R194: VL, 12 bits. Reset: 0. -/
  vl : BitVec 12
  /-- 05 R194: VTYPE word SEW 2, LMUL 2, HF 1 (VLMAXR is derived from it). Reset: 0. -/
  vtype : U64
  /-- 05 R194: VRESUME word INDEX 11, SUBC 8, VALID 1. Reset: 0. -/
  vresume : U64
  /-- 05 R194: VFADDR, 64 bits. Reset: 0. -/
  vfaddr : U64
deriving DecidableEq, Repr

/-- The numeric registers of a core (04 R161, R162). -/
structure NumRegs where
  /-- 04 R162: NUM_MODE word PROF, OVF, VRM. Reset: PROF 1, the rest 0. -/
  mode : U64
  /-- 04 R162: NPROF_S word C0FMT 4, C0SR 1. Reset: 0. -/
  profS : U64
  /-- 04 R162: NPROF_G word C0FMT 4, C0SR 1. Reset: 0. -/
  profG : U64
  /-- 04 R162: NUM_FLAGS NV, DZ, OF, UF, NX. Reset: 0. -/
  flags : BitVec 5
  /-- 04 R162: FXCTL word SAT, RND 2, FXOV. Reset: SAT 1, RND 2, FXOV 0. -/
  fxctl : U64
  /-- 04 R162: NLAST word. Reset: 0. -/
  nlast : U64
  /-- 04 R162: NSR_STEP, 64 bits. Reset: 0. -/
  srStep : U64
  /-- 04 R162: NSR_BASE, 64 bits. Reset: 0. -/
  srBase : U64
  /-- 04 R162: NCH_SEL word INDEX 6, FMTSET 1. Reset: 0. -/
  chSel : U64
  /-- 04 R155: the 64 channel counter sets. Reset: 0. -/
  chans : Vector Counts 64
  /-- 04 R155: the 16 format counter sets. Reset: 0. -/
  fmts : Vector Counts 16
deriving DecidableEq, Repr

/-- A cached translation (08 R290). -/
structure TlbEntry where
  /-- 08 R288: VA[47:12]. -/
  vpn : Nat
  /-- 08 R288: level of the leaf, 1 to 3. -/
  level : Nat
  /-- 08 R290: XLAT_CTL.ASID at the fill, 16 bits. -/
  asid : Nat
  /-- 08 R288: the leaf entry, 64 bits. -/
  leaf : U64
deriving DecidableEq, Repr

/-- A line a cache holds (08 R295). -/
structure CacheLine where
  /-- 08 R295: the tag: physical address / 128 -/
  line : Nat
  /-- 08 R295: bit j: 32-byte sector j is valid -/
  valid : BitVec 4
  /-- 08 R295: bit j: sector j is not yet written back to HBM (an L2 slice only) -/
  dirty : BitVec 4
  /-- 08 R293: bit j: 64-bit word j of this copy is poisoned (an L1D only; the poison of a home is State.poison) -/
  pois : BitVec 16
deriving DecidableEq, Repr

/-- One detector stream of the stride prefetcher (08 R299). -/
structure Detector where
  /-- address of the load instruction -/
  key : U64
  /-- the previous address -/
  last : U64
  /-- the previous stride (none before the second access) -/
  stride : Option U64
  /-- confirmed -/
  conf : Bool
deriving DecidableEq, Repr

/-- A signal a stream or gather of a task holds until its commit (09 R358, 10 R385). -/
inductive Signal where
  /-- add one to the pair's fill count -/
  | fill (pair : Nat)
  /-- arrive at a module barrier -/
  | barrier (bid : Nat)
  /-- write a completion record -/
  | record (addr : Nat) (bytes : List Byte)
deriving DecidableEq, Repr

/-- State of a task number (08 R309). -/
inductive TaskSt where
  | free | opened | ended
deriving DecidableEq, Repr

/-- One speculative task (08 R309 to R315). -/
structure Task where
  /-- 08 R319: free, open, or ended and pending. Reset: free. -/
  st : TaskSt
  /-- 08 R310: ring that executed TSPEC.BEGIN, 2 bits. Reset: 0. -/
  ring : BitVec 2
  /-- 08 R309: commit step S, 64 bits. Reset: 0. -/
  step : U64
  /-- 08 R309: abort address, 64 bits. Reset: 0. -/
  abortAt : U64
  /-- 08 R312: order of opening. Reset: 0. -/
  ord : Nat
  /-- 08 R310, R311: bytes held in speculative sectors, by physical address. Reset: none. -/
  writes : List (Nat × Option Byte)
  /-- 08 R293, R311: words, physical address / 8, whose held bytes are poisoned. Reset: none. -/
  pois : List Nat
  /-- 08 R310: lines read, physical address / 128. Reset: none. -/
  reads : List Nat
  /-- 08 R310: remote lines watched: (call, SPACE and OFFSET / 128, tag). Reset: none. -/
  watches : List (Nat × Nat × Nat)
  /-- 04 R156: numeric counts held with the task: (channel, format, counts). Reset: none. -/
  counts : List (Nat × Nat × Counts)
  /-- 09 R358: signals held with the task. Reset: none. -/
  signals : List Signal
  /-- 08 R315: outcome of the last task of this number: committed. Reset: 0. -/
  committed : Bool
deriving DecidableEq, Repr

/-- Translation, cache and task state of a core (08). -/
structure MemRegs where
  /-- 08 R319: XLAT_ROOT word BASE [47:12]. Reset: 0. -/
  root : U64
  /-- 08 R319: XLAT_CTL word EN, ASID [31:16]. Reset: 0. -/
  xctl : U64
  /-- 08 R319: PF_CTL word EN, DEG 2. Reset: EN 1, DEG 1. -/
  pfctl : U64
  /-- 08 R290: the fully associative TLB, at most 64 entries. Reset: none. -/
  tlb : List TlbEntry
  /-- 08 R290: the TLB behind it, 2,048 entries, 4 ways. Reset: none. -/
  tlb2 : List TlbEntry
  /-- 08 R295, R302: the lines of the L1D, 128 sets of 4 ways. Reset: none. -/
  l1d : List CacheLine
  /-- 08 R295, R306: the lines of the L1I, 128 sets of 4 ways. Reset: none. -/
  l1i : List CacheLine
  /-- 08 R299: at most 16 detector streams, most recently used first. Reset: none. -/
  dets : List Detector
  /-- 08 R309: tasks 0 to 3. -/
  tasks : Vector Task 4
  /-- 08 R319: TSPEC_STAT.ABORTED, 4 bits. Reset: 0. -/
  aborted : BitVec 4
  /-- 08 R319: TSPEC_STAT.REASON, 3 bits. Reset: 0. -/
  reason : BitVec 3
  /-- 08 R312: tasks opened so far on this core. Reset: 0 (the model's own field). -/
  taskSeq : Nat
  /-- 08 R314: an open task was aborted: (ring, abort address) of the redirection still to come. Reset: none. -/
  redirect : Option (BitVec 2 × U64)
deriving DecidableEq, Repr

/-- A tile register T0 to T7 (03 R82, R83). -/
structure TileReg where
  /-- 03 R92: TSHAPEn word ROWS 9, RBYTES 8, FMT 4. Reset: 256 rows, 128 bytes, BF16. -/
  shape : U64
  /-- 03 R82: rows of 128 bytes; byte b of row r at key 128 r + b, unlisted bytes 0. Reset: all zero. -/
  rows : List (Nat × Byte)
  /-- 03 R83, R91: the byte an unlisted scale byte reads as. Reset: 0x7F. -/
  sdef : Byte
  /-- 03 R82: scale side, 256 rows of 8 bytes; byte b of row r at key 8 r + b. Reset: every byte 0x7F. -/
  scale : List (Nat × Byte)
deriving DecidableEq, Repr

/-- An accumulator tile Z0 to Z7 (03 R82). -/
structure ZTile where
  /-- 03 R92: ZSHAPEn word ROWS 9, ZFMT 2, ZTAG 1. Reset: 256 rows, FP32, ZTAG 1. -/
  shape : U64
  /-- 03 R82: the mapped physical tile: element n of row r at key 64 r + n, unlisted elements 0. Reset: all zero. -/
  data : List (Nat × U64)
deriving DecidableEq, Repr

/-- A set of weights: loaded in the arrays or staged (03 R82, R105). -/
structure Weights where
  /-- 03 R86: weight format, 4 bits. Reset: BF16. -/
  fmt : BitVec 4
  /-- 03 R105: expanded weight source, 8 KiB, unlisted bytes 0. Reset: 0. -/
  bytes : List (Nat × Byte)
  /-- 03 R106: block scales, 512 bytes, unlisted bytes 0. Reset: 0. -/
  scales : List (Nat × Byte)
  /-- 02 R46: bound column mask, 64 bits. Reset: all ones. -/
  live : U64
deriving DecidableEq, Repr

/-- The feeding of one tile of a TMMA4 (02 R38, R70; 03 R114, R115). -/
structure TileFeed where
  /-- the array that takes the tile -/
  arr : Nat
  /-- the clk in which the tile's first live row enters cell row 0; none while it is not fed -/
  clk : Option Nat
  /-- the fresh physical tile claimed at its first hand-over -/
  phys : Option Nat
  /-- committed before its TMMA4 completes (03 R115) -/
  done : Bool
deriving DecidableEq, Repr

/-- An accepted, incomplete TMMA4 (03 R94, R110, R111): what it captured and how far its tiles have come. -/
structure Tmma where
  /-- TG: T0 to T3 or T4 to T7 -/
  tg : Bool
  /-- ZG: Z0 to Z3 or Z4 to Z7 -/
  zg : Bool
  /-- the source rows its mask leaves live, ascending (02 R44) -/
  rows : List Nat
  /-- its four tile registers as they stand in program order -/
  src : List TileReg
  /-- the weights it runs on -/
  w : Weights
  /-- the physical faults that strike it -/
  us : List Upset
  /-- clk of its acceptance -/
  at' : Nat
  /-- a row failed its check and the instruction runs once more (02 R55) -/
  rep : Bool
  /-- its four tiles -/
  feeds : List TileFeed
deriving DecidableEq, Repr

/-- What a margin failure records (02 R68). -/
structure MgFail where
  array : Nat
  row : Nat
  tile : Nat
  int : Bool
deriving DecidableEq, Repr

/-- An accepted, incomplete tile instruction (03 R82, R113). -/
inductive TileOp where
  /-- a TLD: the register and what it held before -/
  | tld (reg : Nat) (old : TileReg)
  /-- a TZERO T or TMOV executed behind others: the register and what it held before -/
  | tset (reg : Nat) (old : TileReg)
  /-- a ZLD, ZMOV or TZERO Z executed behind others: the tile, what it held and the physical tile it was mapped to before -/
  | zset (reg : Nat) (old : ZTile) (phys : Nat)
  /-- a TLW: its staging buffer and whether it has been delivered -/
  | tlw (buf : Nat) (delivered : Bool)
  /-- a TMMA4 -/
  | tmma (x : Tmma)
deriving DecidableEq, Repr

/-- An entry of the tile instruction queue. -/
structure TileEntry where
  pc : U64
  op : TileOp
  /-- the semaphore pair a unit is reserved on (03 R102) -/
  sem : Option Nat
  /-- the tile count of R70 before its first tile -/
  cnt : Nat
deriving DecidableEq, Repr

/-- The tile unit of a compute core (02, 03). -/
structure TileRegs where
  /-- 02 R64: TU_LIVE.FUSED, 4 bits. Reset: read from fuses; DESIGN CHOICE 0, the 512-array part (log 6). -/
  fused : BitVec 4
  /-- 02 R64: TU_LIVE.WEEDED, 4 bits. Reset: from the weeding record, empty at reset. -/
  weeded : BitVec 4
  /-- 02 R64: TU_LIVE.SUSPECT, 4 bits. Reset: 0. -/
  suspect : BitVec 4
  /-- 02 R65: MG_CTL word T 5, TRAP 1. Reset: T 0x0E, TRAP 1. -/
  mgctl : U64
  /-- 02 R66: MG_STAT word UNRES, TRANS, TCOUNT 16, UCOUNT 16, UNCHK 16. Reset: 0. -/
  mgstat : U64
  /-- 02 R68: MG_LOG word. Reset: 0. -/
  mglog : U64
  /-- 02 R69: MG_PC, 64 bits. Reset: 0. -/
  mgpc : U64
  /-- 02 R70: the tile count s. Reset: 0. -/
  count : Nat
  /-- 02 R71: the clk from which each array can take the next tile's first row. Reset: 0. -/
  feedAt : Vector Nat 4
  /-- 02 R39, R42: the clk from which rows may enter after the latest TLW's delivery. Reset: 0. -/
  pathAt : Nat
  /-- 03 R82: T0 to T7. -/
  t : Vector TileReg 8
  /-- 03 R82: Z0 to Z7. -/
  z : Vector ZTile 8
  /-- 03 R82, R114: the physical tile, 0 to 11, each of Z0 to Z7 is mapped to. Reset: DESIGN CHOICE n for Zn (log 11). -/
  zmap : Vector Nat 8
  /-- 03 R93: Mm_COL, 64 bits each. Reset: all ones. -/
  mcol : Vector U64 4
  /-- 03 R93: Mm_ROWj at 4m + j, 64 bits each. Reset: all ones. -/
  mrow : Vector U64 16
  /-- 02 R43: the weights loaded in the arrays. Reset: BF16 +0, every column live. -/
  w : Weights
  /-- 03 R82, R107, R108: the two weight staging buffers. Reset: empty. -/
  bufs : Vector (Option Weights) 2
  /-- 03 R108: the buffer that supplied the weights of the latest retired TLW, which is kept. Reset: none. -/
  cur : Option Nat
  /-- 03 R82, R124: what the four operand cache entries hold: tile register and its group of 16 rows. Reset: DESIGN CHOICE nothing (log 11). -/
  opCache : Vector (Option (Nat × Nat)) 4
  /-- 03 R82, R124: the row each array's reuse latch holds: tile register and row. Reset: DESIGN CHOICE nothing (log 11). -/
  latch : Vector (Option (Nat × Nat)) 4
  /-- 03 R82: the tile instruction queue, oldest first, at most 16. Reset: empty. -/
  queue : List TileEntry
  /-- 15 R556: the semaphore pair for which the TLD or TLW at the PC waits (the model's own field). Reset: none. -/
  waitPair : Option Nat
  /-- 03 R125: TU_STAT word ZSAT, UE, CE 16, RESTART 16. Reset: 0. -/
  tustat : U64
  /-- 03 R125: TAMAX word AMAX 32, CHAN 6, VALID 1. Reset: 0. -/
  tamax : U64
deriving DecidableEq, Repr

/-- What a granule has read: the address of its first source byte, that byte's place in the run, its source bytes, each with whether it
is poisoned, the first block of 32 elements it takes part in, and the bytes of AUX for its elements with their address (09 R327, R332). -/
structure GranSrc where
  va : U64
  lo : Nat
  bytes : List (Byte × Bool)
  first : Nat
  sva : U64
  side : List (Byte × Bool)
deriving DecidableEq, Repr

/-- An element read of a block with an MX destination: its number, raw bits and source scale, and whether each is poisoned (09 R327). -/
structure ElemRead where
  num : Nat
  raw : Nat
  scale : Nat
  bad : Bool
  badScale : Bool
deriving DecidableEq, Repr

/-- A block a stream has issued and not completed (09 R323, R328). -/
structure BlockProg where
  /-- block index -/
  blk : Nat
  /-- its descriptor, 16 words; none when it could not be read or is inconsistent (R329) -/
  ws : List U64
  /-- its descriptor passed and its granules may be issued -/
  ok : Bool
  /-- granules landed, with their counts -/
  landed : List (Nat × Counts)
  /-- a FREE unit was taken for it (R341) -/
  freeTaken : Bool
  /-- granules that have read their source, with what they read (R348) -/
  reads : List (Nat × GranSrc)
  /-- source elements read of a block with an MX destination (R327) -/
  elems : List ElemRead
  /-- tile pairs swapped of an in-place square block (10 R372) -/
  swapped : List Nat
deriving DecidableEq, Repr

/-- A granule's fault (09 R353). -/
structure GranFault where
  blk : Nat
  gran : Nat
  subc : Nat
  addr : U64
deriving DecidableEq, Repr

/-- A stream engine (09 R320, R361). -/
structure StreamEng where
  /-- 09 R362: SEe_PROT.MODE, 1 bit. Reset: 0. -/
  prot : Bool
  /-- 09 R362: SEe_STAT word. Reset: 0. -/
  stat : U64
  /-- 09 R362: SEe_LIST, 64 bits. Reset: 0. -/
  list : U64
  /-- 09 R362: SEe_HREC word BLOCK 16, SUBC 8, VALID 1. Reset: 0. -/
  hrec : U64
  /-- 09 R362: SEe_HPOS word I1 to I4. Reset: 0. -/
  hpos : U64
  /-- 09 R362: SEe_HOFF, OFF0 24 bits. Reset: 0. -/
  hoff : U64
  /-- 09 R362: SEe_HADDR, 64 bits. Reset: 0. -/
  haddr : U64
  /-- 09 R321: captured protection mode, 1 bit. Reset: 0. -/
  cmode : Bool
  /-- 09 R321: captured XLAT_ROOT, 64 bits. Reset: 0. -/
  croot : U64
  /-- 09 R321: captured XLAT_CTL, 64 bits. Reset: 0. -/
  cxctl : U64
  /-- 09 R321: captured NUM_MODE (profile and overflow treatment), 64 bits. Reset: 0. -/
  cmod : U64
  /-- 09 R321: captured profile register, 64 bits. Reset: 0. -/
  cprof : U64
  /-- 09 R321: captured NSR_STEP, 64 bits. Reset: 0. -/
  csr : U64
  /-- 09 R324: header NBLK, 16 bits. Reset: 0. -/
  nblk : Nat
  /-- 09 R324: header CREN and CREC. Reset: none. -/
  crec : Option U64
  /-- 09 R323: next block to issue. Reset: 0. -/
  nextBlk : Nat
  /-- 09 R323: issued, incomplete blocks, oldest first. Reset: none. -/
  blocks : List BlockProg
  /-- 09 R343: a block found its pair poisoned: no later block issues and the stream ends when the earlier ones complete. -/
  poisoned : Bool
  /-- 08 R310: order number of the task the stream belongs to. Reset: 0 (the model's own field). -/
  tord : Nat
  /-- 09 R340: granules landed. Reset: 0. -/
  gran : Nat
  /-- 09 R353: granule faults not yet halted on. Reset: none. -/
  faults : List GranFault
  /-- 09 R353: the granules in flight when a granule faulted: no other issues; none while every granule of an issued block may. Reset: none. -/
  inflight : Option (List (Nat × Nat))
  /-- 09 R356: cancelled and waiting for what is in flight. Reset: 0. -/
  cancelled : Bool
  /-- 09 R340: the stream's end, once decided: END, REASON and the record's bytes, until the record is written. Reset: none. -/
  ending : Option (Nat × Nat × List Byte)
  /-- 09 R340: the record write failed and is what SRESUME performs again. Reset: 0. -/
  recPend : Bool
  /-- 09 R334: the engine's TLB. Reset: none. -/
  tlb : List TlbEntry
  /-- 11 R406: answered hall accesses of granules in flight. Reset: none. -/
  hlog : List (HallReq × HallRes)
deriving DecidableEq, Repr

/-- Stream engines, semaphore pairs and holdings of a compute core (09). -/
structure StreamRegs where
  /-- 09 R320: SE0, SE1. -/
  eng : Vector StreamEng 2
  /-- 09 R362: SEM_PAIR0 to SEM_PAIR7 words FILL 16, FREE 16, POISON, OVF. Reset: 0. -/
  sem : Vector U64 8
  /-- 09 R342: units reserved on each pair. Reset: 0. -/
  resv : Vector Nat 8
  /-- 09 R362: HOLD0_BASE to HOLD7_BASE words EN, RD, WR, MINR 2, BASE. Reset: 0. -/
  holdBase : Vector U64 8
  /-- 09 R362: HOLD0_LIM to HOLD7_LIM words LIMIT. Reset: 0. -/
  holdLim : Vector U64 8
  /-- 09 R345: generation of each barrier the core's latest BARA joined. Reset: none. -/
  bara : Vector (Option (BitVec 16)) 16
deriving DecidableEq, Repr

/-- One core. -/
structure Core where
  /-- 07: ring registers. -/
  rr : RingRegs
  /-- 06: execution registers. -/
  ex : ExecRegs
  /-- 05: vector registers. -/
  vec : VecRegs
  /-- 04: numeric registers. -/
  num : NumRegs
  /-- 08: translation, caches and tasks. -/
  mm : MemRegs
  /-- 02, 03: the tile unit (no meaning on a hub core, R608). -/
  tile : TileRegs
  /-- 09: streams and pairs (a hub core has none, R608; its barrier arrivals are here too). -/
  str : StreamRegs
deriving DecidableEq, Repr

/-- A bank after reset (07 R260). -/
def Bank.reset : Bank :=
  { a := Vector.replicate 15 0, d := Vector.replicate 16 0, ring := 0, gm := true, pc := 0,
    ecause := 0, einfo := 0, elink := 0 }

/-- The ring registers after reset (07 R260, R283). -/
def RingRegs.reset : RingRegs :=
  { banks := Vector.replicate 4 Bank.reset, cur := 0, busy := 1, gatebase := 0, xvec := Vector.replicate 3 0,
    ssp := Vector.replicate 3 0, sslim := Vector.replicate 3 0, xroute0 := 0x1000000000000#64, xroute1 := 0,
    xpend := 0, xtimer := 0, slim := Vector.replicate 4 0, sp := Vector.replicate 4 0, mcInfo := 0, shInfo := 0 }

/-- No stop record. -/
def StopRec.none : StopRec :=
  { valid := false, cause := 0, subc := 0, pc := 0, ring := 0, bank := 0, reason := .command, time := 0 }

/-- The execution registers after reset (06 R199, R242, R252, R253; 07 R276). -/
def ExecRegs.reset : ExecRegs :=
  { acc := Vector.replicate 8 0, rcnt := 0, rstat := 0, glTab := Vector.replicate 544 0, glSel := 0, glErr := 0,
    glLock := 0, glFault := 0, gtmp := Vector.replicate 8 0, cycBase := 0, instret := 0, nonrep := false,
    dbgBp := Vector.replicate 4 0, dbgStep := false, bpSkip := false, afterRte := false,
    run := .stopped .command, stop := StopRec.none, maskFrom := none, wdPosted := false, hlog := [], hwait := none }

/-- The vector registers after reset (05 R166, R194; 06 R199). -/
def VecRegs.reset : VecRegs :=
  { v := Vector.replicate 32 0, p := Vector.replicate 8 0, vl := 0, vtype := 0, vresume := 0, vfaddr := 0 }

/-- The numeric registers after reset (04 R162). -/
def NumRegs.reset : NumRegs :=
  { mode := 1, profS := 0, profG := 0, flags := 0, fxctl := 5, nlast := 0, srStep := 0, srBase := 0, chSel := 0,
    chans := Vector.replicate 64 Counts.zero, fmts := Vector.replicate 16 Counts.zero }

/-- No task. -/
def Task.none : Task :=
  { st := .free, ring := 0, step := 0, abortAt := 0, ord := 0, writes := [], pois := [], reads := [], watches := [], counts := [],
    signals := [], committed := false }

/-- Translation, caches and tasks after reset (08 R301, R319). -/
def MemRegs.reset : MemRegs :=
  { root := 0, xctl := 0, pfctl := 3, tlb := [], tlb2 := [], l1d := [], l1i := [], dets := [], tasks := Vector.replicate 4 Task.none,
    aborted := 0, reason := 0, taskSeq := 0, redirect := none }

/-- A tile register after reset (03 R83). -/
def TileReg.reset : TileReg := { shape := 0x00800100#64, rows := [], sdef := 0x7F#8, scale := [] }

/-- An accumulator tile after reset (03 R83). -/
def ZTile.reset : ZTile := { shape := 0x04000100#64, data := [] }

/-- The arrays' weights after reset (02 corner case under R42). -/
def Weights.reset : Weights := { fmt := 0, bytes := [], scales := [], live := 0xFFFFFFFFFFFFFFFF#64 }

/-- The tile unit after reset (02 R64 to R69; 03 R83, R125). -/
def TileRegs.reset : TileRegs :=
  { fused := 0, weeded := 0, suspect := 0, mgctl := 0x10E#64, mgstat := 0, mglog := 0, mgpc := 0, count := 0,
    feedAt := Vector.replicate 4 0, pathAt := 0, t := Vector.replicate 8 TileReg.reset, z := Vector.replicate 8 ZTile.reset,
    zmap := Vector.ofFn (fun i => i.val),
    mcol := Vector.replicate 4 0xFFFFFFFFFFFFFFFF#64, mrow := Vector.replicate 16 0xFFFFFFFFFFFFFFFF#64,
    w := Weights.reset, bufs := Vector.replicate 2 none, cur := none, opCache := Vector.replicate 4 none,
    latch := Vector.replicate 4 none, queue := [], waitPair := none, tustat := 0, tamax := 0 }

/-- A stream engine after reset (09 R362). -/
def StreamEng.reset : StreamEng :=
  { prot := false, stat := 0, list := 0, hrec := 0, hpos := 0, hoff := 0, haddr := 0, cmode := false, croot := 0,
    cxctl := 0, cmod := 0, cprof := 0, csr := 0, nblk := 0, crec := none, nextBlk := 0, blocks := [], poisoned := false, tord := 0,
    gran := 0, faults := [], inflight := none, cancelled := false, ending := none, recPend := false, tlb := [], hlog := [] }

/-- Streams, pairs and holdings after reset (09 R362). -/
def StreamRegs.reset : StreamRegs :=
  { eng := Vector.replicate 2 StreamEng.reset, sem := Vector.replicate 8 0, resv := Vector.replicate 8 0,
    holdBase := Vector.replicate 8 0, holdLim := Vector.replicate 8 0, bara := Vector.replicate 16 none }

/-- A core after a reset of the function that holds it (07 R260). -/
def Core.reset : Core :=
  { rr := RingRegs.reset, ex := ExecRegs.reset, vec := VecRegs.reset, num := NumRegs.reset, mm := MemRegs.reset,
    tile := TileRegs.reset, str := StreamRegs.reset }

end Sys2Proof.Machine
end

