-- ==== Sys2Proof/Machine/CurState.lean ====
section
/-! DEFINITION. Machine/CurState.lean: the state of the Curator: mailboxes, ownership, functions and telemetry (15). -/

namespace Sys2Proof.Machine

/-- State of a function (15 R554). -/
inductive FnSt where
  | enabled | draining | disabled | resetting
deriving DecidableEq, Repr

/-- A notice, 64 bytes: KIND, UNIT, HALLT, ARG0, ARG1 (15 R553). -/
structure Notice where
  kind : BitVec 8
  unit : BitVec 8
  hallt : U64
  arg0 : U64
  arg1 : U64
deriving DecidableEq, Repr

/-- The owner (15 R546 to R549). -/
structure Owner where
  key : U64
  standing : BitVec 3
  /-- module time at which the lease ends, in ns -/
  lease : Nat
deriving DecidableEq, Repr

/-- A captured call slip (15 R536, R539). -/
structure Slip where
  cmd : Nat
  more : Bool
  crcen : Bool
  plen : Nat
  seq : Nat
  args : List U64
  scrc : BitVec 32
  /-- CRC-32C of the slip as it stands -/
  crc : BitVec 32
  /-- a header bit R539 does not show is set -/
  rsv : Bool
  payload : List Byte
  /-- source key of where it arrived (R546) -/
  key : U64
  /-- the slip's source is the owner at capture (R547) -/
  own : Bool
  /-- groups granted to its mailbox at capture (R547) -/
  groups : Nat
  /-- its command has taken effect, and its answer waits for the end of the work -/
  taken : Bool
  /-- its place in the order of capture (R545) -/
  ord : Nat
  /-- module time of its capture, in ns (R548) -/
  at' : Nat
  /-- the owner whose lease was live at capture, if that is another source (R548) -/
  rival : Option Owner
deriving DecidableEq, Repr

/-- What a slip is answered with (15 R540). -/
structure Reply where
  status : Nat
  rets : List U64
  payload : List Byte
  /-- class: 0 hardware, 1 fast, 2 slow -/
  cls : Nat
deriving DecidableEq, Repr

/-- One mailbox MB0 to MB7 (15 R533 to R541). -/
structure Mailbox where
  /-- 15 R535: `MB_STAT` word BUSY, DONE, LOST, NOVF, SEQ (NOTE and NCOUNT are read from the queue). Reset: 0. -/
  stat : U64
  /-- 15 R535: `MB_CTL` word DEN, NEN, NCORE 8. Reset: 0. -/
  ctl : U64
  /-- 15 R535: request area, 4,160 bytes, by offset, unlisted 0. Reset: 0. -/
  req : List (Nat × Byte)
  /-- 15 R535: response area, 4,160 bytes, by offset, unlisted 0. Reset: 0. -/
  resp : List (Nat × Byte)
  /-- 15 R553: notice queue, oldest first, at most 32. Reset: empty. -/
  notes : List Notice
  /-- 15 R536: the captured slip not yet answered. Reset: none. -/
  slip : Option Slip
  /-- 15 R537: the answer formed and not yet written. Reset: none. -/
  reply : Option Reply
  /-- 15 R541: staging buffer of 32 KiB, its CMD and SEQ. Reset: empty. -/
  stage : List Byte
  /-- 15 R541: CMD and SEQ of the staged parts. Reset: none. -/
  stageOf : Option (Nat × Nat)
  /-- 15 R534: binding of MB2 to MB5: call number, job key, edition. Reset: none. -/
  bind : Option (BitVec 20 × BitVec 16 × BitVec 16)
  /-- 15 R534: module time of the latest post, in ns. Reset: 0. -/
  posted : Nat
  /-- 16 R576: the quote kept for this mailbox. Reset: none. -/
  quote : Option (List Byte)
deriving DecidableEq, Repr

/-- A disable or reset of a function under way (15 R555, R557). -/
structure FnWork where
  /-- the drain limit in µs -/
  drain : Nat
  /-- module time at which the drain limit passes, in ns -/
  limit : Nat
  /-- items aborted so far -/
  aborts : Nat
  /-- a reset follows -/
  reset : Bool
  /-- it stays disabled after the reset -/
  stay : Bool
  /-- mailboxes whose slips wait, and whether for the end of the reset -/
  waits : List (Nat × Bool)
deriving DecidableEq, Repr

/-- The Curator (15). -/
structure CurState where
  /-- 15 R535: mailboxes MB0 to MB7. -/
  mail : Vector Mailbox 8
  /-- 15 R546: the owner. Reset: none. -/
  owner : Option Owner
  /-- 15 R548: the contest: module time of its close, and its claims (mailbox, key, standing), first captured first. Reset: none. -/
  contest : Option (Nat × List (Nat × U64 × BitVec 3))
  /-- 15 R547: grants: group mask of each mailbox, 6 bits. Reset: 0. -/
  grants : Vector (BitVec 6) 8
  /-- 15 R544: the challenge OWN_QUERY returns, 64 bits, a random value (log 1). Reset: DESIGN CHOICE 0 (log 32). -/
  challenge : U64
  /-- 15 R275, R544: watchdog limit in ns. Reset: 100,000. -/
  wdLimit : Nat
  /-- 15 R554: states of FN0 to FN9. Reset: ENABLED. -/
  fns : Vector FnSt 10
  /-- 15 R555: work under way on each function. Reset: none. -/
  work : Vector (Option FnWork) 10
  /-- 15 R558: `FN_LAST` word FN 4, DRAIN 20, ABORTS 16. Reset: 0. -/
  fnLast : U64
  /-- 15 R561: `TM_TIME` to `TM_CORES`, seven 64-bit words. Reset: 0. -/
  tm : Vector U64 7
  /-- 15 R561: `TM_NEXT.HALLT`, 64 bits. Reset: 0. -/
  tmNext : U64
  /-- 15 R544: period of the latches, in ns. Reset: 0. -/
  tmPeriod : U64
  /-- 15 R561, 08 R293: corrected errors of HBM, L2, CARREL, L1D since the latest latch. Reset: 0. -/
  ecc : Vector Nat 4
  /-- 15 R544: the standby image's address, 64 bits. Reset: 0. -/
  standby : U64
  /-- 13 R485, R505: withdrawal of this module requested, 1 bit. Reset: 0. -/
  withdraw : Bool
  /-- 13 R488: a field-test cycle runs: the mailbox its DONE_LONG goes to and the slip's SEQ. Reset: none. -/
  ftest : Option (Nat × Nat)
  /-- 13 R488: the latest complete test cycle passed, 1 bit. Reset: 0. -/
  qualCycle : Bool
  /-- 13 R488: junction temperature in °C the latest cycle reached, where that is below the maximum. Reset: none. -/
  testTemp : Option Nat
  /-- 15 R544: module time of the device reset a DEV_RESET has scheduled, in ns. Reset: none. -/
  devReset : Option Nat
  /-- 13 R485: cores that met the TCOUNT condition and are to be tested. Reset: none. -/
  suspectCores : List Nat
  /-- 11 R420: broken plans reported. Reset: none. -/
  brokenRep : List Nat
  /-- 13 R496: this module succeeds a withdrawn one and has not yet loaded its standby image, 1 bit. Reset: 0. -/
  successor : Bool
  /-- 15 R545: slips captured so far. Reset: 0 (the model's own field). -/
  caps : Nat
  /-- 15 R538: controller identifier of the latest slip frame on the management port, echoed in the port's frames, 16 bits.
  Reset: DESIGN CHOICE 0 (log 32). -/
  portId : BitVec 16
deriving DecidableEq, Repr

/-- A mailbox after device reset (15 R535). -/
def Mailbox.reset : Mailbox :=
  { stat := 0, ctl := 0, req := [], resp := [], notes := [], slip := none, reply := none, stage := [], stageOf := none,
    bind := none, posted := 0, quote := none }

/-- The Curator after device reset (15). -/
def CurState.reset : CurState :=
  { mail := Vector.replicate 8 Mailbox.reset, owner := none, contest := none, grants := Vector.replicate 8 0, challenge := 0,
    wdLimit := 100000, fns := Vector.replicate 10 .enabled, work := Vector.replicate 10 none, fnLast := 0,
    tm := Vector.replicate 7 0, tmNext := 0, tmPeriod := 0, ecc := Vector.replicate 4 0, standby := 0, withdraw := false,
    ftest := none, qualCycle := false, testTemp := none, devReset := none, suspectCores := [], brokenRep := [], successor := false, caps := 0, portId := 0 }

end Sys2Proof.Machine
end

