-- ==== Sys2Proof/Machine/HallState.lean ====
section
/-! DEFINITION. Machine/HallState.lean: the state of the hall fabric and the hall clock (11) and of the gather engines
(10). -/

namespace Sys2Proof.Machine

/-- Who waits for a hall access (11 R406). -/
inductive Requester where
  | core (c : CoreId)
  | stream (c : CoreId) (e : Nat)
  | gather (job rank : Nat)
deriving DecidableEq, Repr

/-- A hall request sent and not yet answered (11 R406, R410). -/
structure PendReq where
  /-- 11 R395: TAG, 32 bits. -/
  tag : BitVec 32
  who : Requester
  req : HallReq
  /-- module time at which it times out (R410), in ns -/
  deadline : Nat
  /-- it found no route, and its own router answers it (R404) -/
  noRoute : Bool
deriving DecidableEq, Repr

/-- What a port has recorded of its neighbour (11 R401). -/
structure Neighbour where
  shelf : BitVec 32
  call : BitVec 20
  edition : BitVec 16
  gen : BitVec 32
  rank : BitVec 3
  /-- it is fit (16 R566) -/
  fit : Bool
deriving DecidableEq, Repr

/-- A packet in a port's retry buffer (11 R394). -/
structure RetryEnt where
  pkt : Packet
  /-- module time of the latest sending, in ns -/
  sent : Nat
  /-- replays of it without progress -/
  replays : Nat
deriving DecidableEq, Repr

/-- A packet that waits in a port, with the port it came in on, whose room it still takes; none for this module's own (11 R393). -/
structure TxEnt where
  pkt : Packet
  from' : Option PortId
deriving DecidableEq, Repr

/-- A LIVE sent (11 R423): its TXS on the wire, its departure in own hall time, and the TXS and arrival of the LIVE it echoed. -/
structure LiveSent where
  txs : U64
  at' : Int
  echo : Option (U64 × Int)
deriving DecidableEq, Repr

/-- One port (11 R389 to R394, R423, R427). -/
structure PortSt where
  /-- 11 R437: FE_PORTS.UP bit, 1 bit. Reset: 0. -/
  up : Bool
  /-- 11 R437: FE_PORTS.FELL bit, 1 bit, W1C. Reset: 0. -/
  fell : Bool
  /-- 11 R427: module time of the last flit with a good LCRC, in ns. Reset: 0. -/
  lastGood : Nat
  /-- 11 R389: module time of the next training attempt, in ns. Reset: 0. -/
  retryAt : Nat
  /-- 11 R401: neighbour record. Reset: none. -/
  nbr : Option Neighbour
  /-- 11 R394: next LSEQ to send, 12 bits. Reset: 0. -/
  txSeq : BitVec 12
  /-- 11 R393: packets waiting for credit, oldest first. Reset: empty. -/
  txq : List TxEnt
  /-- 11 R392: the VC the deficit round robin serves. Reset: 0 (the model's own field). -/
  serve : BitVec 3
  /-- 11 R392: flits each VC may still send in its turn. Reset: 0 (the model's own field). -/
  deficit : Vector Nat 8
  /-- 11 R400: generation and entries of an update whose packets have not all come. Reset: none (the model's own field; log 83). -/
  parts : Option (BitVec 32 × List CatEntry)
  /-- 11 R394: retry buffer, oldest first. Reset: empty. -/
  retry : List RetryEnt
  /-- 11 R394: next LSEQ accepted, 12 bits. Reset: 0. -/
  rxNext : BitVec 12
  /-- 11 R394: LACK last sent, 12 bits, with whether one was sent. Reset: none. -/
  lastAck : Option (BitVec 12)
  /-- 11 R393: credits held per VC, in flits. Reset: 0. -/
  credit : Vector Nat 8
  /-- 11 R423: TXS of the last LIVE received since the port came up, and its arrival in own hall time. Reset: none. -/
  liveRx : Option (U64 × Int)
  /-- 11 R393: credits for what has been received, not yet returned, per VC. Reset: 0. -/
  owed : Vector Nat 8
  /-- 11 R423: LIVEs sent since the port came up. Reset: none. -/
  liveTx : List LiveSent
  /-- 11 R427: module time of the last LIVE sent, in ns. Reset: 0. -/
  lastLive : Nat
deriving DecidableEq, Repr

/-- A unit a plan holds at this module (11 R416 to R419). -/
structure PlanUnit where
  /-- plan number -/
  plan : Nat
  /-- unit number -/
  unit : Nat
  /-- own contribution, 128 FP32 values, once injected -/
  own : Option (List Nat)
  /-- each child's values by child index, with the halves of an FP32 unit received -/
  kids : List (Nat × List Nat)
  /-- first or second half of a child's FP32 unit received alone: (child, half, values) -/
  halves : List (Nat × Nat × List Nat)
  /-- MARK of any input -/
  mark : Bool
deriving DecidableEq, Repr

/-- A plan's arrivals and progress at this module (11 R417 to R419). -/
structure PlanRun where
  plan : Nat
  /-- own barrier arrival made -/
  ownIn : Bool
  /-- children whose HARRIVE has come -/
  kidsIn : List Nat
  /-- release time waited for -/
  relAt : Option U64
  /-- own arrival made and not yet released (R419) -/
  waiting : Bool
deriving DecidableEq, Repr

/-- An inbound watch (11 R411). -/
structure Watch where
  /-- physical address / 128 -/
  line : Nat
  scall : BitVec 20
  sed : BitVec 16
  tag : BitVec 32
deriving DecidableEq, Repr

/-- A module held suspect by the cataloguer (11 R428). -/
structure Suspect where
  call : BitVec 20
  /-- module time at which it became suspect, in ns -/
  since : Nat
  /-- a probe has been answered -/
  answered : Bool
deriving DecidableEq, Repr

/-- The fabric endpoint and router (11). -/
structure FabState where
  /-- 11 R388: ports P0 to P23. -/
  ports : Vector PortSt 24
  /-- 11 R437: FE_ID word CALL 20, EDITION 16, STATE 2. Reset: CALL 0xF_FFFF, the rest 0. -/
  id : U64
  /-- 11 R437: FE_SHELF word SLOT 8, CHASSIS 24, CVALID. Reset: SLOT the straps, 0xFF in State.reset (log 33); the rest 0. -/
  shelf : U64
  /-- 11 R401: cataloguer rank of this module, 3 bits. Reset: DESIGN CHOICE 7 until delivered (log 21). -/
  rank : BitVec 3
  /-- 15 FAB_SHELF: this module is marked as a reserve, 1 bit. Reset: 0. -/
  reserve : Bool
  /-- 11 R437: FE_CTL word JOBKEY 16, TMO 16. Reset: TMO 0x03E8, JOBKEY 0. -/
  ctl : U64
  /-- 11 R437: FE_STAT word DROP, STALE, LATE, TIMEOUT, 16 bits each, saturating. Reset: 0. -/
  stat : U64
  /-- 11 R437: WINw_BASE, WINw_LIM, WINw_SRC at 3w, 3w + 1, 3w + 2. Reset: 0. -/
  win : Vector U64 48
  /-- 11 R437: PLAN_Q.ERR, 1 bit, W1C. Reset: 0. -/
  planErr : Bool
  /-- 11 R414: queued triggers, the words stored to PLAN_GO, oldest first, at most 256. Reset: empty. -/
  planQ : List U64
  /-- 11 R412: plan table entries in use: (plan, 8 words). Reset: all unused. -/
  plans : List (Nat × List U64)
  /-- 11 R420: broken plans. Reset: none. -/
  broken : List Nat
  /-- 11 R420: ports that packets of a plan have passed: (plan, port). Reset: none. -/
  planPorts : List (Nat × PortId)
  /-- 11 R416: held units. Reset: none. -/
  held : List PlanUnit
  /-- 11 R417 to R419: progress of plans. Reset: none. -/
  runs : List PlanRun
  /-- 11 R400: the catalogue copy. Reset: empty. -/
  cat : List CatEntry
  /-- 11 R422: shelf mark of the time root the catalogue names. Reset: none. -/
  timeRoot : Option (BitVec 32)
  /-- 11 R437: FE_CATGEN.GEN, 32 bits. Reset: 0. -/
  gen : BitVec 32
  /-- 11 R400: updates held until TACT. Reset: none. -/
  pend : List CatUpdate
  /-- 11 R402: lowest claim heard (rank, shelf mark) and the module time it was heard, in ns. Reset: none. -/
  claim : Option (BitVec 3 × BitVec 32 × Nat)
  /-- 11 R402: this module is the cataloguer, 1 bit. Reset: 0. -/
  isCat : Bool
  /-- 11 R402: claims heard, in rising order; the two after the first are the standbys. Reset: none. -/
  claims : List Nat
  /-- 11 R403, 15 R544: layout delivered: pairs of shelf mark and call number by index. Reset: none. -/
  layout : List (Nat × BitVec 32 × BitVec 20)
  /-- 11 R401: links reported to the cataloguer: reporter's shelf mark and port, neighbour's shelf mark, up. Reset: none. -/
  links : List (BitVec 32 × BitVec 5 × Option (BitVec 32) × Bool)
  /-- 11 R401: own reports that wait until the cataloguer is known: port, neighbour's shelf mark, up, and whether the neighbour is fit.
  Reset: none. -/
  reports : List (PortId × Option (BitVec 32) × Bool × Bool)
  /-- 16 R566: shelf marks of modules that announce themselves unfit. Reset: none. -/
  unfit : List (BitVec 32)
  /-- 11 R402: shelf marks that two modules present, reported through the management port. Reset: none. -/
  dups : List (BitVec 32)
  /-- 11 R428: suspects. Reset: none. -/
  suspects : List Suspect
  /-- 13 R505: call numbers of modules that have asked the cataloguer to withdraw them. Reset: none. -/
  wants : List Nat
  /-- 11 R410: requests pending. Reset: none. -/
  reqs : List PendReq
  /-- 11 R395: next TAG, 32 bits. Reset: 0; DESIGN CHOICE counting from 0 (log 22). -/
  nextTag : BitVec 32
  /-- 11 R411: inbound watches. Reset: none. -/
  watches : List Watch
deriving DecidableEq, Repr

/-- The hall clock (11 R421 to R426; 17 R599, R600). -/
structure HallClock where
  /-- 11 R437: HT_NOW, 64 bits. Reset: 0. -/
  now : U64
  /-- 11 R437: HT_STAT word. Reset: PARENT 0xF_FFFF, PPORT 0x1F, the rest 0. -/
  stat : U64
  /-- 11 R437: HT_MEAS word OFFSET 32, DELAY 16. Reset: 0. -/
  meas : U64
  /-- 11 R437: HT_CTL word REFEN, HOLDMS 8. Reset: HOLDMS 0x0A, REFEN 0. -/
  ctl : U64
  /-- 11 R421: synchronised at least once since device reset, 1 bit. Reset: 0. -/
  once : Bool
  /-- 11 R424: consecutive exchanges within 10 ns. Reset: 0. -/
  good : Nat
  /-- 11 R424: module time of the last valid exchange with a synchronised parent, in ns. Reset: 0. -/
  lastEx : Nat
  /-- 11 R424: module time holdover began, in ns. Reset: 0. -/
  holdFrom : Nat
  /-- 11 R421: correction still to be made by rate, in ns, signed. Reset: 0. -/
  slew : Int
  /-- 11 R421: ns since the last ns of slewing. Reset: 0. -/
  slewAcc : Nat
  /-- 17 R600: module time of the last HALL_REF edge, in ns. Reset: none. -/
  refEdge : Option Nat
  /-- 17 R599: seconds the latest time code message names, if the message is correct. Reset: none. -/
  refSec : Option Nat
  /-- 17 R599: a message has come since the latest edge, 1 bit. Reset: 0. -/
  refNew : Bool
  /-- 17 R600: the latest message names one more second than the one before it, 1 bit. Reset: 0. -/
  refSeq : Bool
  /-- 17 R599: seconds that the last edge marked. Reset: none. -/
  refCur : Option Nat
  /-- 17 R600: consecutive good seconds. Reset: 0. -/
  refGood : Nat
  /-- 17 R600: consecutive messages that fail. Reset: 0. -/
  refBad : Nat
deriving DecidableEq, Repr

/-- A gather job accepted and not complete (10 R373, R374). -/
structure GJob where
  /-- 10 R373: order of acceptance. -/
  id : Nat
  core : CoreId
  /-- 10 R384: ring that submitted it. -/
  ring : BitVec 2
  /-- 10 R385: task it belongs to. -/
  task : Option Nat
  /-- 08 R310: order number of that task (the model's own field). -/
  tord : Nat
  /-- 10 R384: descriptor address in A[AL]. -/
  addr : U64
  /-- 10 R374: the 64-byte descriptor, 8 words. -/
  desc : List U64
  /-- 10 R376: next position of each engine of the group, by rank. -/
  next : List Nat
  /-- 10 R376: positions complete at the engine that handles them, of those some other engine of the group has not passed. -/
  complete : List Nat
  /-- 10 R377: out-of-range positions. -/
  skipped : Nat
  /-- 10 R382: lowest refused position. -/
  fail : Option Nat
  /-- answered hall accesses of the position each engine is at, by rank -/
  hlog : List (Nat × HallReq × HallRes)
deriving DecidableEq, Repr

/-- The gather engines (10 R373). -/
structure GatherState where
  /-- 10 R373: job queues of engines 0 to 31, job numbers, oldest first, at most 16. Reset: empty. -/
  queue : Vector (List Nat) 32
  /-- 10 R373: jobs. Reset: none. -/
  jobs : List GJob
  /-- 10 R373: jobs accepted so far. Reset: 0 (the model's own field). -/
  seq : Nat
deriving DecidableEq, Repr

/-- A module barrier (09 R344). -/
structure Barrier where
  /-- 09 R344: COUNT, 12 bits. Reset: 1. -/
  count : BitVec 12
  /-- 09 R344: arrival counter, 12 bits. Reset: 0. -/
  arr : BitVec 12
  /-- 09 R344: GEN, 16 bits. Reset: 0. -/
  gen : BitVec 16
deriving DecidableEq, Repr

/-- A port after device reset. -/
def PortSt.reset : PortSt :=
  { up := false, fell := false, lastGood := 0, retryAt := 0, nbr := none, txSeq := 0, txq := [], serve := 0, deficit := Vector.replicate 8 0, parts := none, retry := [], rxNext := 0,
    lastAck := none, credit := Vector.replicate 8 0, owed := Vector.replicate 8 0, liveRx := none, liveTx := [], lastLive := 0 }

/-- The fabric after device reset (11 R436, R437). -/
def FabState.reset : FabState :=
  { ports := Vector.replicate 24 PortSt.reset, id := 0xFFFFF#64, shelf := 0xFF#64, rank := 7, reserve := false,
    ctl := 0x03E80000#64, stat := 0, win := Vector.replicate 48 0, planErr := false, planQ := [], plans := [], broken := [], planPorts := [],
    held := [], runs := [], cat := [], timeRoot := none, gen := 0, pend := [], claim := none, isCat := false, claims := [], layout := [],
    links := [], reports := [], unfit := [], dups := [], suspects := [], wants := [], reqs := [], nextTag := 0, watches := [] }

/-- The hall clock after device reset (11 R421, R437). -/
def HallClock.reset : HallClock :=
  { now := 0, stat := 0x1FFFFFF0000#64, meas := 0, ctl := 0xA00#64, once := false, good := 0, lastEx := 0, holdFrom := 0,
    slew := 0, slewAcc := 0, refEdge := none, refSec := none, refNew := false, refSeq := false, refCur := none, refGood := 0, refBad := 0 }

/-- The gather engines after reset. -/
def GatherState.reset : GatherState := { queue := Vector.replicate 32 [], jobs := [], seq := 0 }

/-- A module barrier after device reset (09 R344). -/
def Barrier.reset : Barrier := { count := 1, arr := 0, gen := 0 }

end Sys2Proof.Machine
end

