-- ==== Sys2Proof/Machine/LedState.lean ====
section
/-! DEFINITION. Machine/LedState.lean: the state of the ledger engine with its survival registers (12, 13). A register is
held as its 64-bit word. -/

namespace Sys2Proof.Machine

/-- What a VOTE carries (12 R449). -/
structure VoteVal where
  /-- combined vote word -/
  word : U64
  /-- LOSSSUM, FP64 -/
  loss : U64
  tokens : U64
  members : U64
deriving DecidableEq, Repr

/-- An outcome waiting for its time (12 R451). -/
structure Outcome where
  replay : Bool
  vote : VoteVal
  /-- T in hall-ns -/
  time : U64
deriving DecidableEq, Repr

/-- The profile of a step: NUM_MODE.PROF, NPROF_S and NPROF_G (12 R453, R466). -/
structure StepProf where
  prof : Bool
  nps : U64
  npg : U64
deriving DecidableEq, Repr

/-- The ledger engine (12 R468; 13 R507). -/
structure LedState where
  /-- 12 R468: `LG_CTL` word EN, BID 4, NFOK, EARLY, MEMBER. Reset: EARLY 1, the rest 0. -/
  ctl : U64
  /-- 12 R468: `LG_STEP`, 64 bits. Reset: 0. -/
  step : U64
  /-- 12 R468: `LG_LOSS` word LOSS 32, TOKENS 32. Reset: 0. -/
  loss : U64
  /-- 12 R468: `LG_PROBE` word PROBE 32, VALID. Reset: 0. -/
  probe : U64
  /-- 12 R468: `LG_NEXT` word NPS 5, NPG 5, PROF. Reset: PROF 1, the rest 0. -/
  next : U64
  /-- 12 R468: `LG_STAT` word. Reset: 0. -/
  stat : U64
  /-- 12 R468: `LG_LAST`, 64 bits. Reset: all ones, no step sealed. -/
  last : U64
  /-- 12 R468: `LG_SEALT`, 64 bits. Reset: 0. -/
  sealt : U64
  /-- 12 R468: `LG_TREE` word PARENT 20, ROOT, NCHILD 4. Reset: PARENT 0xF_FFFF, the rest 0. -/
  tree : U64
  /-- 12 R468: `LG_KIDS0` to `LG_KIDS3`, 64-bit words. Reset: 0. -/
  kids : Vector U64 4
  /-- 12 R468: `LG_TIME` word RLEAD 32, QUIET 32. Reset: 20,000 and 100,000. -/
  time : U64
  /-- 12 R468: `LG_UWRBUF`, ADDR 48. Reset: 0. -/
  uwrbuf : U64
  /-- 12 R468: `LG_SWBUF`, ADDR 48. Reset: 0. -/
  swbuf : U64
  /-- 12 R468: `LG_TAG0` to `LG_TAG511`, 32-bit words UNIT 31, EN. Reset: 0. -/
  tags : Vector (BitVec 32) 512
  /-- 12 R463, R468: `LG_PAIR0` and `LG_PAIR1` words FILL 16, FREE 16, POISON. Reset: FREE 64, the rest 0. -/
  pairs : Vector U64 2
  /-- 12 R468: a step has sealed since the reset, 1 bit. Reset: 0. -/
  sealed : Bool
  /-- 12 R449: the open step was opened by LG_START or SV_REWIND, 1 bit. Reset: 0. -/
  fresh : Bool
  /-- 12 R446: the request of the open step carried DIRTY, 1 bit. Reset: 0. -/
  dirty : Bool
  /-- 12 R446: a request held until the seal completes, with its DIRTY. Reset: none. -/
  heldGo : Option Bool
  /-- 14 R519: hall time at which LG_SEAL.GO was written, 64 bits. Reset: 0. -/
  goAt : U64
  /-- 12 R449, R450: a VOTE of the open step has been sent, or the root has decided, 1 bit. Reset: 0. -/
  voted : Bool
  /-- 12 R450: a dirty VOTE of the open step has been sent, after which no other is, 1 bit. Reset: 0. -/
  votedDirty : Bool
  /-- 12 R449: votes of children: (child, value). Reset: none. -/
  kidVotes : List (Nat × VoteVal)
  /-- 12 R448, 08 R293: an agent of the module has consumed poisoned data since the last seal, 1 bit. Reset: 0. -/
  voteMc : Bool
  /-- 12 R448, 07 R276: a compute core has stopped on fault since the last seal, 1 bit. Reset: 0. -/
  voteStop : Bool
  /-- 04 R153, 12 R448: the open step is marked non-reproducible, 1 bit. Reset: 0. -/
  markNonrep : Bool
  /-- 14 R515: the open step's timing is not repeatable, 1 bit. Reset: DESIGN CHOICE 0 (log 30). -/
  notrep : Bool
  /-- 12 R451: the outcome received and not yet applied. Reset: none. -/
  outcome : Option Outcome
  /-- 12 R453: hall time T + QUIET of the second flush. Reset: none. -/
  quiet : Option U64
  /-- 13 R489: hall time at which the running test window ends. Reset: none. -/
  window : Option U64
  /-- 12 R465: the step whose post-seal phase is pending. Reset: none. -/
  post : Option U64
  /-- 16 R577: the opening multicast is pending, 1 bit. Reset: 0. -/
  opening : Bool
  /-- 12 R465: UWR, ROOTDONE and RECVDONE taken in this phase, 3 bits. Reset: 0. -/
  taken : BitVec 3
  /-- 12 R458: sent digests, by tag, unlisted 0. Reset: 0. -/
  sent : List (Nat × BitVec 128)
  /-- 12 R458: received digests, by tag, unlisted 0. Reset: 0. -/
  recv : List (Nat × BitVec 128)
  /-- 12 R459: DIGUP messages of children: (child, first tag, 16 digests). Reset: none. -/
  digKids : List (Nat × Nat × List (BitVec 128))
  /-- 12 R459: expected digests received, by first tag. Reset: none. -/
  digDown : List (Nat × List (BitVec 128))
  /-- 12 R455: own tag sums (DW2, W2), FP32 codes by tag, once taken. Reset: none. -/
  sums : List (Nat × Nat)
  /-- 12 R464: UWRUP messages of children: (child, first tag, 32 pairs). Reset: none. -/
  uwrKids : List (Nat × Nat × List (Nat × Nat))
  /-- 12 R464: ratios received, by first tag. Reset: none. -/
  ratios : List (Nat × List Nat)
  /-- 12 R459: first tags whose sent digests have gone up (the model's own field). Reset: none. -/
  digSent : List Nat
  /-- 12 R464: first tags whose sums have gone up (the model's own field). Reset: none. -/
  uwrSent : List Nat
  /-- 12 R463: LEDGER packets waiting while FN7 takes none, the first 64 of each pair in its slots: from the parent, the port whose VC 7
  credits have not been returned for it, packet. Reset: none. -/
  slots : List (Bool × Option PortId × Packet)
  /-- 12 R453: the profile in effect when the open step began. Reset: GUARDED, NPROF 0. -/
  prof0 : StepProf
  /-- 12 R453: replays of the open step. Reset: 0. -/
  replays : Nat
  /-- 13 R486: the pass under way is a replay that a withdrawal caused, 1 bit. Reset: 0. -/
  wdPass : Bool
  /-- 16, 14 R521: the job's first step, from LG_START. Reset: 0. -/
  first : U64
  /-- 13 R482: steps sealed since the job's first. Reset: 0. -/
  nseal : Nat
  /-- 14 R528: PW_ENERGY at the previous SEALED outcome, 0 after a tag write. Reset: 0. -/
  energy0 : U64
  /-- 13 R507: `SV_POL` word. Reset: EXH 1, MAXREP 3, PAR 1, MIRR 2, L 0x10, LD 0xFFFF, the rest 0. -/
  pol : U64
  /-- 13 R507: `SV_PRIOR` word. Reset: MPRIOR 0x4B0, MCORR 0x278D00. -/
  prior : U64
  /-- 13 R507: `SV_COST` word. Reset: CACC 0x2710, CDEP 0x2710. -/
  cost : U64
  /-- 13 R507: `SV_EST.FAILS`, 16 bits, saturating. Reset: 0. -/
  fails : Nat
  /-- 13 R507: `SV_EST.AINT`, 16 bits. Reset: 1. -/
  aint : Nat
  /-- 13 R483: sum of the first intervals in ns. Reset: 0. -/
  fsum : Nat
  /-- 13 R483: the latest withdrawal's TACT, or T of the job's first seal. Reset: none. -/
  fprev : Option U64
  /-- 13 R483: m_est in ns as a fraction. Reset: 0 over 1. -/
  mest : Nat × Nat
  /-- 13 R507: `SV_LAST.ASTEP`, 64 bits. Reset: all ones. -/
  astep : U64
  /-- 13 R507: `SV_LASTD.DSTEP`, 64 bits. Reset: all ones. -/
  dstep : U64
  /-- 13 R476: the step of the accession due or being built. Reset: none. -/
  acc : Option U64
  /-- 13 R507: `SV_STAT` word. Reset: DINT 1, the rest 0. -/
  svstat : U64
  /-- 13 R507: `SV_ALARM` word. Reset: RATIO 3, GSTEPS 0x64, EN 1, TLIM 8. -/
  alarm : U64
  /-- 13 R507: `SV_TEST` word. Reset: PERIOD 0x168, WINDOW 0x7D0, VDROP 0x1E. -/
  test : U64
  /-- 13 R507: `SV_TNEXT`, 64 bits. Reset: 0. -/
  tnext : U64
  /-- 13 R507: `SV_MIRROR` word ADDR [47:16]. Reset: 0. -/
  mirror : U64
  /-- 13 R507: `SV_JOB` word M 20, S 12. Reset: 0. -/
  job : U64
  /-- 13 R507: `SV_BASE0` to `SV_BASE511`, FP32 codes. Reset: 0. -/
  base : Vector (BitVec 32) 512
  /-- 13 R485: consecutive replays of the open step with this module's own vote dirty. Reset: 0. -/
  ownDirty : Nat
  /-- 13 R485: cores that stopped on fault in the passes of the open step, once each time. Reset: none. -/
  stops : List Nat
  /-- 13 R485: TCOUNT of cores at sealed steps: (core, step, count). Reset: none. -/
  tcounts : List (Nat × Nat × Nat)
  /-- 13 R485: cores outvoted in twin comparisons and the steps of those (the model's own field, log 59). Reset: none. -/
  outvotes : List (Nat × Nat)
deriving DecidableEq, Repr

/-- The ledger engine after a reset of FN7 (12 R468, 13 R507). -/
def LedState.reset : LedState :=
  { ctl := 0x40, step := 0, loss := 0, probe := 0, next := 0x10000, stat := 0, last := 0xFFFFFFFFFFFFFFFF#64, sealt := 0,
    tree := 0xFFFFF, kids := Vector.replicate 4 0, time := 0x000186A000004E20#64, uwrbuf := 0, swbuf := 0,
    tags := Vector.replicate 512 0, pairs := Vector.replicate 2 0x400000#64, sealed := false, fresh := false, dirty := false,
    heldGo := none, goAt := 0, voted := false, votedDirty := false, kidVotes := [], voteMc := false, voteStop := false, markNonrep := false,
    notrep := false, outcome := none, quiet := none, window := none, post := none, opening := false, taken := 0, sent := [],
    recv := [], digKids := [], digDown := [], sums := [], uwrKids := [], ratios := [], digSent := [], uwrSent := [], slots := [],
    prof0 := { prof := true, nps := 0, npg := 0 }, replays := 0, wdPass := false, first := 0, nseal := 0, energy0 := 0,
    pol := 0x0000FFFF00100259#64, prior := 0x00278D00000004B0#64, cost := 0x0000271000002710#64, fails := 0, aint := 1, fsum := 0,
    fprev := none, mest := (0, 1), astep := 0xFFFFFFFFFFFFFFFF#64, dstep := 0xFFFFFFFFFFFFFFFF#64, acc := none,
    svstat := 0x0000000100000000#64, alarm := 0x81643#64, test := 0x1E07D00168#64, tnext := 0, mirror := 0, job := 0,
    base := Vector.replicate 512 0, ownDirty := 0, stops := [], tcounts := [], outvotes := [] }

end Sys2Proof.Machine
end

