-- ==== Sys2Proof/Machine/PlatState.lean ====
section
/-! DEFINITION. Machine/PlatState.lean: the state of the input, the standby domain, bring-up, flash, fuses, measurements,
PMBus and JTAG (16, 17). -/

namespace Sys2Proof.Machine

/-- A firmware update under way (16 R569). -/
structure FwUpdate where
  /-- image length from BEGIN -/
  len : Nat
  /-- a valid image is being copied into the slot: mailbox and SEQ of its notice, and whether a device reset follows -/
  ending : Option (Nat × Nat × Bool)
deriving DecidableEq, Repr

/-- What the running firmware image brought (16 R567, R571). -/
structure RunImage where
  /-- VERSION, 32 bits -/
  version : BitVec 32
  /-- SVN, 8 bits -/
  svn : BitVec 8
  /-- ROLLFWD, 1 bit -/
  roll : Bool
  /-- gloss section: entry index and its 17 words -/
  glosses : List (Nat × List U64)
deriving DecidableEq, Repr

/-- Power input, standby domain, bring-up and identity (16, 17). -/
structure PlatState where
  /-- 17 R588: the standby domain is supplied: the input has risen above 20 V and has not been removed, 1 bit. Reset: 1 (log 33). -/
  present : Bool
  /-- 17 R589: main conversion is on, 1 bit. Reset: 1 (log 33). -/
  main : Bool
  /-- 16 R564: input voltage at J3 in mV, as last sampled. Reset: DESIGN CHOICE 40,000, the nominal input (log 33). -/
  vin : Nat
  /-- 17 R588: module time since which the input has stood below 20 V, in ns. Reset: none. -/
  lowSince : Option Nat
  /-- 17 R586: PWR_EN asserted, 1 bit. Reset: 1 (log 33). -/
  pwrEn : Bool
  /-- 17 R591: module time of the latest deassertion of PWR_EN, in ns. Reset: none. -/
  pwrOff : Option Nat
  /-- 17 R586: MOD_RESET_N asserted (low) for at least 1 µs, 1 bit. Reset: 0. -/
  modReset : Bool
  /-- 14 R530: undervoltage trip, 1 bit. Reset: 0. -/
  uvTrip : Bool
  /-- 14 R530: overvoltage trip latch, 1 bit. Reset: 0. -/
  ovTrip : Bool
  /-- 14 R530: THERMTRIP latch; THERMTRIP_N is low while it is set, 1 bit. Reset: 0. -/
  thermTrip : Bool
  /-- 17 R597: latched PMBus STATUS_INPUT bits, 8 bits. Reset: 0. -/
  stIn : BitVec 8
  /-- 17 R597: latched PMBus STATUS_TEMPERATURE bits, 8 bits. Reset: 0. -/
  stTemp : BitVec 8
  /-- 17 R595: junction temperature last read while main conversion was on, in °C. Reset: 0. -/
  tjLast : Int
  /-- 17 R595: `READ_VIN` in mV, 10 ms average. Reset: DESIGN CHOICE 40,000 (log 33). -/
  vinAvg : Nat
  /-- 17 R595: `READ_IIN` in mA, 10 ms average. Reset: DESIGN CHOICE 0 (log 33). -/
  iinAvg : Nat
  /-- 17 R595: `READ_PIN` in mW, 10 ms average. Reset: DESIGN CHOICE 0 (log 33). -/
  pinAvg : Nat
  /-- 17 R595: coolant at C1 in °C. Reset: DESIGN CHOICE 0 (log 33). -/
  c1 : Int
  /-- 17 R595: coolant at C2 in °C. Reset: DESIGN CHOICE 0 (log 33). -/
  c2 : Int
  /-- 17 R592: SLOT_ID straps as they stand, 8 bits. Reset: DESIGN CHOICE all ones, every contact open (log 33). -/
  straps : BitVec 8
  /-- 16 R566: INFO STAGE, last stage completed, 0 to 8. Reset: 0. -/
  stage : Nat
  /-- 16 R566: INFO CODE, 8 bits. Reset: 0. -/
  code : BitVec 8
  /-- 16 R566: INFO UNIT, 8 bits. Reset: 0. -/
  unit : BitVec 8
  /-- 16 R566: bring-up has halted, 1 bit. Reset: 0. -/
  halted : Bool
  /-- 16 R570: the recovery loader runs, 1 bit. Reset: 0. -/
  recovery : Bool
  /-- 16 R566: INFO FIT, 1 bit. Reset: DESIGN CHOICE 1 until stage 6 finds otherwise (log 34). -/
  fit : Bool
  /-- 16 R566: INFO LIVE, arrays in use at the end of stage 6. Reset: DESIGN CHOICE 0 until stage 6 (log 34). -/
  live : Nat
  /-- 16 R566: module time of power-good, in ns. Reset: 0. -/
  pgood : Nat
  /-- 16 R566: INFO TREADY in µs. Reset: 0. -/
  tready : Nat
  /-- 16 R564: module time at which the present stage began, in ns. Reset: 0. -/
  stageAt : Nat
  /-- 08 R292: the interleave mode of the latest HBM training: 1 quadrant-local, 1 bit. Reset: DESIGN CHOICE 0, interleaved (log 35). -/
  quadLocal : Bool
  /-- 16 R563: the mode of the next HBM training, 1 bit. Reset: DESIGN CHOICE 0 (log 35). -/
  hbmNext : Bool
  /-- 16 R566, R569: the staging region of the flash since it was last erased, written bytes by offset, the rest erased (0xFF); none:
  as shipped (kept in flash). Reset: none. -/
  staged : Option (List (Nat × Byte))
  /-- 16 R566, R569: the image slot as last installed, bytes by offset; none: as shipped (kept in flash). Reset: none. -/
  slot : Option (List (Nat × Byte))
  /-- 16 R569: a copy into the image slot has begun and not finished, 1 bit (kept in flash). Reset: 0. -/
  torn : Bool
  /-- 16 R569: the firmware update under way. Reset: none. -/
  fw : Option FwUpdate
  /-- 13 R485: weeding record: arrays weeded of each core, 4 bits (kept in flash). Reset: none. -/
  weeded : Vector (BitVec 4) 128
  /-- 13 R485: weeding record: cores parked (kept in flash). Reset: none. -/
  parked : List Nat
  /-- 15 R552: the force key, 32 bytes (kept in flash). Reset: not installed. -/
  forceKey : Option (List Byte)
  /-- 16 R568: fused anti-rollback counter, 0 to 64. Reset: DESIGN CHOICE 0 (log 36). -/
  arc : Nat
  /-- 16 R566: SERIAL, 32 bits, fused. Reset: DESIGN CHOICE 0 (log 36). -/
  serial : BitVec 32
  /-- 16 R566: GRADE, fused: 1 for OHM-MZ1200-480. Reset: DESIGN CHOICE 0, OHM-MZ1200-512 (log 6). -/
  grade : Bool
  /-- 02 R64: arrays fused off of each core, 4 bits, fused. Reset: DESIGN CHOICE none (log 6). -/
  fused : Vector (BitVec 4) 128
  /-- 16 R575: MR0, MR1, MR2, 32 bytes each. Reset: 32 zero bytes. -/
  mr : Vector (List Byte) 3
  /-- 16 R566, R567: the running image; VERSION and SVN 0 until stage 1. Reset: 0, no glosses. -/
  img : RunImage
  /-- 16 R573: hub core 128 has been started since stage 8 or the reset of FN1, 1 bit. Reset: 0. -/
  hubUp : Bool
  /-- 16 R573: module time at which a fetch failed, in ns. Reset: none. -/
  hubTry : Option Nat
  /-- 16 R573: load address and entry offset of the accepted boot image. Reset: none. -/
  hubEntry : Option U64
  /-- 17 R595: the bytes the PMBus interface answered last, low byte first. Reset: none (the model's own field). -/
  pmb : List Byte
  /-- 17 R593, R601: stage 2 has ended since main conversion started, 1 bit. Reset: 0. -/
  jlive : Bool
  /-- 17 R601: JTAG instruction register, 8 bits. Reset: 0x02, IDCODE. -/
  ir : BitVec 8
  /-- 17 R602: MBX data register: DATA 64, OFFSET 16, WR, DONE, 82 bits. Reset: DESIGN CHOICE 0 (log 37). -/
  mbx : BitVec 82
  /-- 17 R601: the boundary-scan register, a cell for each J4 contact it covers. Reset: DESIGN CHOICE 0 (log 37). -/
  bsr : List Bool
  /-- 17 R601: EXTEST drives the boundary cells, 1 bit. Reset: 0. -/
  extest : Bool
deriving DecidableEq, Repr

/-- The J4 contacts that boundary scan covers (17 R586, R601): PMB_SCL, PMB_SDA, ALERT_N, THERMTRIP_N, READY, PWR_EN,
MOD_RESET_N, PRSNT_N, SLOT_ID0 to SLOT_ID7, TCK, TMS, TDI, TDO, TRST_N; their order in the register is not stated (log 37). -/
def bsrLen : Nat := 21

/-- The compute cores the weeding record parks (13 R485). -/
def PlatState.weededCores (p : PlatState) : Nat := (p.parked.filter (fun c => decide (c < 128))).length

/-- The platform right after a device reset at power-good (16 R564; 17). -/
def PlatState.reset : PlatState :=
  { present := true, main := true, vin := 40000, lowSince := none, pwrEn := true, pwrOff := none, modReset := false,
    uvTrip := false, ovTrip := false, thermTrip := false, stIn := 0, stTemp := 0, tjLast := 0, vinAvg := 40000, iinAvg := 0,
    pinAvg := 0, c1 := 0, c2 := 0, straps := 0xFF#8, stage := 0, code := 0, unit := 0, halted := false, recovery := false,
    fit := true, live := 0, pgood := 0, tready := 0, stageAt := 0, quadLocal := false, hbmNext := false, staged := none, slot := none, torn := false, fw := none,
    weeded := Vector.replicate 128 0, parked := [], forceKey := none, arc := 0, serial := 0, grade := false,
    fused := Vector.replicate 128 0, mr := Vector.replicate 3 (List.replicate 32 0),
    img := { version := 0, svn := 0, roll := false, glosses := [] }, hubUp := false, hubTry := none, hubEntry := none,
    pmb := [], jlive := false, ir := 0x02#8, mbx := 0, bsr := List.replicate bsrLen false, extest := false }

end Sys2Proof.Machine
end

