-- ==== Sys2Proof/Machine/PowState.lean ====
section
/-! DEFINITION. Machine/PowState.lean: the state of power, clocks, limiters, droop detectors, array gates and the power
broker (14). -/

namespace Sys2Proof.Machine

/-- A frequency change pending (14 R510, R525). -/
structure FreqChange where
  /-- the target, in MHz -/
  target : Nat
  /-- the idle PLL has relocked to it -/
  relocked : Bool
  /-- module time at which relock and ramp had both finished, in ns -/
  readyAt : Option Nat
  /-- the wait for the droop rule has been counted in DWAIT -/
  counted : Bool
deriving DecidableEq, Repr

/-- A quadrant's array gate and ramp (14 R526, R527). -/
structure ArrayGate where
  /-- 14 R526: hall time at which the closed gate opens. Reset: open. -/
  opens : Option U64
  /-- 14 R527: ramp step, 0 none, 1 to 8. Reset: 0. -/
  step : Nat
  /-- 14 R527: hall time at which the step ends. Reset: 0. -/
  stepEnd : U64
  /-- 14 R526: hall time at which an array of the quadrant was last fed. Reset: none. -/
  fed : Option U64
deriving DecidableEq, Repr

/-- A quadrant's or the hub's droop detector (14 R523). -/
structure DroopDet where
  /-- tripped, 1 bit. Reset: 0. -/
  tripped : Bool
  /-- stretch depth k of k/8, 1 to 8 while tripped. Reset: 0. -/
  depth : Nat
deriving DecidableEq, Repr

/-- Power and clocks (14 R531 and the state its rules keep). -/
structure PowState where
  /-- 14 R531: `PW_CTL` word FIXED, BRKEN, SHARE, PMCORE 8. Reset: BRKEN 1, the rest 0. -/
  ctl : U64
  /-- 14 R531: `PW_CAP` word CAP 12, FLOOR 12, GROUP 16. Reset: CAP 2,200, FLOOR 1,600, GROUP 0. -/
  cap : U64
  /-- 14 R531: `PW_STAT` word DROOP, CAPSTR, DWAIT, ABAND, 16 bits each, saturating. Reset: 0. -/
  stat : U64
  /-- 14 R531: `PW_SLACK` word LAST 32, MEAN 32. Reset: 0. -/
  slack : U64
  /-- 14 R531: `PW_SHARE` word TOKENS 32, VALID. Reset: 0. -/
  share : U64
  /-- 14 R531: `PW_JOBTAG.TAG`, 32 bits. Reset: 0. -/
  jobtag : BitVec 32
  /-- 14 R528: `PW_ENERGY`, mJ, 64 bits. Reset: 0. -/
  energy : U64
  /-- 14 R528: energy below one mJ, in nJ. Reset: 0. -/
  energyFrac : Nat
  /-- 14 R531: `PW_THERM.TJ`, 8 bits. Reset: DESIGN CHOICE 0 until the first reading (log 31). -/
  tj : BitVec 8
  /-- 14 R531: `PW_THERM.THROT`, 8 bits. Reset: 100. -/
  throt : BitVec 8
  /-- 14 R531: `PW_THERM.THR`, 1 bit. Reset: 0. -/
  thr : Bool
  /-- 14 R531: `PW_OPP0` to `PW_OPP15` words FREQ 12, SHARE 7. Reset: FREQ 1,350, SHARE 64. -/
  opp : Vector U64 16
  /-- 14 R531: `PW_NOW.PIN`, input power averaged over 1 ms, in W. Reset: DESIGN CHOICE 0 until measured (log 31). -/
  pin : Nat
  /-- 14 R531: `PW_NOW.FREQ`, the arithmetic clock in MHz. Reset: 1,100, which runs during bring-up (16 R564). -/
  freq : Nat
  /-- 13 R488, R489: the frequency in MHz a field test holds the arithmetic clock at. Reset: none. -/
  heldFreq : Option Nat
  /-- 13 R488, R489: how far a field test holds the compute rail below its operating point, in tenths of a percent. Reset: 0. -/
  railDrop : Nat
  /-- 14 R512: frequency target of the loop, in MHz. Reset: DESIGN CHOICE 1,100 (log 31). -/
  target : Nat
  /-- 14 R531: `PW_NOW.PHASE`, the phase in effect, 4 bits. Reset: 0. -/
  phase : Nat
  /-- 14 R517: a phase named and not yet in effect: phase and hall time, if timed. Reset: none. -/
  phaseReq : Option (Nat × Option U64)
  /-- 14 R510: the frequency change pending. Reset: none. -/
  change : Option FreqChange
  /-- 14 R509: the frequency whose rail voltage the rail stands at or ramps to, in MHz. Reset: 1,100. -/
  railFor : Nat
  /-- 14 R509: a voltage ramp is in flight, 1 bit. Reset: 0. -/
  ramping : Bool
  /-- 14 R513: the full stretch above 2,800 W, 1 bit. Reset: 0. -/
  full : Bool
  /-- 14 R513: depth in eighths of the 2,400 W limiter's stretch. Reset: 0. -/
  lim : Nat
  /-- 14 R513: input power averaged over 10 ms, in W. Reset: DESIGN CHOICE 0 until measured (log 31). -/
  pin10 : Nat
  /-- 14 R514: depth in eighths of the cap stretch. Reset: 0. -/
  capStr : Nat
  /-- 14 R529: depth in eighths of the thermal stretch in fixed-frequency mode. Reset: 0. -/
  thStr : Nat
  /-- 14 R529: MHz by which throttling lowers the loop's ceiling. Reset: 0. -/
  thDrop : Nat
  /-- 14 R529: module time of the latest step of throttling, in ns. Reset: 0. -/
  thStep : Nat
  /-- 14 R523: detectors of Q0 to Q3 and the hub. -/
  droop : Vector DroopDet 5
  /-- 14 R525: module time since which droop has been clear, in ns. Reset: 0. -/
  clearAt : Nat
  /-- 14 R526: array gates of Q0 to Q3. -/
  gates : Vector ArrayGate 4
  /-- 14 R520: group total in W. Reset: 0. -/
  total : Nat
  /-- 14 R521: slack of sealed steps, newest first, at most 16. Reset: none. -/
  hist : List Nat
  /-- 14 R521: a broker interval is open: module time it began at, in ns, and means received: (call, mean, cap or tokens). Reset: none. -/
  broker : Option (Nat × List (Nat × Nat × Nat))
  /-- 14 R521: assigned cap (or tokens) to apply at the next SEALED outcome. Reset: none. -/
  nextCap : Option Nat
  /-- 14 R522: tokens of the next step. Reset: none. -/
  nextTok : Option Nat
  /-- 14 R511 to R514, R529: module time, in ns, of the latest 1 µs measurement, frequency loop tick, 10 ms limiter tick, cap
  stretch tick and thermal read. Reset: 0. -/
  ticks : Vector Nat 5
deriving DecidableEq, Repr

/-- Power and clocks after device reset (14 R531, 16 R564, R579). -/
def PowState.reset : PowState :=
  { ctl := 2, cap := 0x06400898#64, stat := 0, slack := 0, share := 0, jobtag := 0, energy := 0, energyFrac := 0, tj := 0,
    throt := 100, thr := false, opp := Vector.replicate 16 0x00400546#64, pin := 0, freq := 1100, heldFreq := none, railDrop := 0, target := 1100, phase := 0,
    phaseReq := none, change := none, railFor := 1100, ramping := false, full := false, lim := 0, pin10 := 0, capStr := 0,
    thStr := 0, thDrop := 0, thStep := 0, droop := Vector.replicate 5 { tripped := false, depth := 0 }, clearAt := 0,
    gates := Vector.replicate 4 { opens := none, step := 0, stepEnd := 0, fed := none }, total := 0, hist := [], broker := none,
    nextCap := none, nextTok := none, ticks := Vector.replicate 5 0 }

end Sys2Proof.Machine
end

