-- ==== Sys2Proof/Machine/State.lean ====
section
/-! DEFINITION. Machine/State.lean: the whole state of one module, the queue of commands waiting, and its value right
after device reset. -/

namespace Sys2Proof.Machine

/-- Why a command does not go on. -/
inductive Fault where
  /-- Raised by DROOP_TRIP at a droop beyond 10 % below setpoint, where 14 R525 says that behaviour is not specified: safe. -/
  | droopBeyondSpecification
deriving DecidableEq, Repr

/-- Why the model does not run a command. -/
inductive Refusal where
  /-- Raised by an arm of exec for a command that has no meaning yet: safe. -/
  | notModelled (mnemonic : String)
deriving DecidableEq, Repr

/-- An L2 slice (08 R295, R302). -/
structure L2Slice where
  /-- 08 R295: its lines, 2,048 sets of 12 ways. Reset: none. -/
  lines : List CacheLine
  /-- 08 R302: the invalidation filter: a line and the cores whose L1D may hold it. Reset: none. -/
  filt : List (Nat × List Nat)
deriving DecidableEq, Repr

/-- The module. -/
structure State where
  /-- 07 R278: cores 0 to 127 compute, 128 to 143 hub. -/
  cores : Vector Core 144
  /-- 08 R284: HBM and carrels: (physical address, byte), addresses rising, no byte 0. Reset: nothing listed; an unlisted byte
  reads 0 (16 R564; log 3). -/
  mem : List Host.Cell
  /-- 08 R293: poisoned 64-bit words, physical address / 8, rising. Reset: none. -/
  poison : List Nat
  /-- 08 R295: the 16 L2 slices of each quadrant, 16q + i; R301: every one is invalid after a device reset. -/
  l2 : Vector L2Slice 64
  /-- 09 R344: module barriers 0 to 15. -/
  barriers : Vector Barrier 16
  /-- 10 R373: gather engines. -/
  gather : GatherState
  /-- 11: fabric endpoint and router. -/
  fab : FabState
  /-- 11 R421: hall clock. -/
  hall : HallClock
  /-- 12, 13: ledger engine. -/
  led : LedState
  /-- 14: power and clocks. -/
  pow : PowState
  /-- 15: the Curator. -/
  cur : CurState
  /-- 16, 17: input, bring-up, identity and rear connectors. -/
  plat : PlatState
  /-- 14 R508: module time in ns since the module had power. Reset: 0 (the model's own field). -/
  now : Nat
  /-- 00 R5, 06 R253: clk of Q0 to Q3 and of the hub, in thousandths. Reset: 0 (the model's own field). -/
  clk : Vector Nat 5
  /-- Free values used so far. Reset: DESIGN CHOICE 0 (the model's own field, log 1). -/
  free : Nat
  /-- Commands waiting, first in, first out. Reset: empty (the model's own field, log 2). -/
  pending : List Instr
deriving DecidableEq, Repr

/-- The module right after a device reset at power-good (16 R564). -/
def State.reset : State :=
  { cores := Vector.replicate 144 Core.reset, mem := [], poison := [], l2 := Vector.replicate 64 { lines := [], filt := [] }, barriers := Vector.replicate 16 Barrier.reset,
    gather := GatherState.reset, fab := FabState.reset, hall := HallClock.reset, led := LedState.reset, pow := PowState.reset,
    cur := CurState.reset, plat := PlatState.reset, now := 0, clk := Vector.replicate 5 0, free := 0, pending := [] }

/-- The canonical form of memory: rising addresses, no entry that an unlisted address reads as. -/
def Memory.wf (m : List Host.Cell) : Bool := spWf 0 0 m

end Sys2Proof.Machine
end

