-- ==== Sys2Proof/Machine/Array.lean ====
section
/-! DEFINITION. Machine/Array.lean: what a matrix array computes: operands, columns, the margin and its check, and the
accumulation and timing of one TMMA4 (02 R28 to R37, R44 to R51, R70 to R72, R77 to R80; 03 R88, R111, R112). -/

namespace Sys2Proof.Machine

/-! ### Operand formats (02 R27, R28) -/

/-- The row of R27 a format code stands in: 0 BF16, 1 FP16, 2 8-bit floats, 3 4-bit floats, 4 INT8, 5 FP64, 6 none. -/
def fmtClass (code : Nat) : Nat :=
  if code ≤ 1 then code else if code ≤ 7 then 2 else if code ≤ 9 then 3 else if code = 0xA then 4 else if code = 0xB then 5 else 6

/-- Whether an activation format pairs with a weight format (02 R28). -/
def pairs (act wt : Nat) : Bool := decide (fmtClass act < 6) && fmtClass act == fmtClass wt

/-- K elements a cell takes at once; FP64 takes one (02 R27, R79). -/
def perCell (cls : Nat) : Nat := match cls with
  | 2 => 2
  | 3 => 4
  | 4 => 2
  | _ => 1

/-- The accumulator format a class needs: 0 FP32, 1 INT32, 2 FP64 (03 R110). -/
def zfmtOf (cls : Nat) : Nat := match cls with
  | 4 => 1
  | 5 => 2
  | _ => 0

/-- The rounding each cell applies: the column format, FP64, or none in INT8 (02 R32, R35, R79). -/
def colRound (cls : Nat) (v : FV) : FV := match cls with
  | 4 => v
  | 5 => roundVal fp64 v
  | _ => roundVal fCol v

/-- +0. -/
def fvZero : FV := .fin false 0 0

/-- The K elements of row r of a tile register as the array receives them: extended with zeros to 128 bytes (03 R88). -/
def actRow (t : TileReg) (r : Nat) : List FV :=
  let code := fld t.shape 24 4
  let n := fld t.shape 16 8
  let w := codeBits code
  let x := leNat (spRead 0 t.rows (128 * r) n)
  (List.range (1024 / w)).map (fun e =>
    let v := decodeCode code (bitsOf x (e * w) w)
    if isMX code && decide (e / 32 * 32 < n * 8 / w) then withScale v (spGet t.sdef t.scale (8 * r + e / 32)).toNat else v)

/-- K element e of weight column n; a masked column holds +0 (02 R46; 03 R105, R106). -/
def Weights.elem (w : Weights) (n e : Nat) : FV :=
  let code := w.fmt.toNat
  if !bit w.live n then fvZero
  else if code = 0xB then decodeF fp64 (leNat (spRead 0 w.bytes (512 * e + 8 * n) 8))
  else
    let g := perCell (fmtClass code)
    let cell := leNat (spRead 0 w.bytes (128 * (e / g) + 2 * n) 2)
    let v := decodeCode code (bitsOf cell (e % g * codeBits code) (codeBits code))
    if isMX code then withScale v (spGet 0 w.scales (e / 32 * 64 + n)).toNat else v

/-- K elements of a weight tile (02 R27). -/
def kOf (cls : Nat) : Nat := if cls = 5 then 16 else 64 * perCell cls

/-- Column n of the loaded weights. -/
def Weights.column (w : Weights) (n : Nat) : List FV := (List.range (kOf (fmtClass w.fmt.toNat))).map (fun e => w.elem n e)

/-! ### A column (02 R32, R35, R79) -/

/-- The rest of a column: products to come, how many stand in the cell, the cell's exact sum and the partial sum. -/
def colGo (cls : Nat) : List FV → Nat → FV → FV → FV
  | [], _, _, ps => ps
  | p :: r, i, cell, ps =>
    let cell := if i = 0 then p else cell.add false p
    if i + 1 = (if cls = 4 then 1 else perCell cls) then colGo cls r 0 cell (colRound cls (ps.add false cell))
    else colGo cls r (i + 1) cell ps

/-- What leaves a column for a row of activations. -/
def column (cls : Nat) (xs ws : List FV) : FV := colGo cls (List.zipWith FV.mul xs ws) 0 fvZero fvZero

/-! ### The margin (02 R48 to R51, R80) -/

/-- The margin weights s and a of every K element (02 R48). -/
def marginCols (cls : Nat) (live : U64) (cols : List (List FV)) : List FV × List FV :=
  let go (f : FV → FV) : List FV := (List.range (kOf cls)).map (fun e =>
    colRound cls (((List.range 64).filter (fun n => bit live n)).foldl (fun a n => a.add false (f (nth fvZero (nth [] cols n) e))) fvZero))
  (go (fun v => v), go FV.mag)

/-- The checker's tree over adjacent pairs, each addition rounded (02 R50). -/
def checkTree (cls : Nat) : Nat → List FV → FV
  | 0, l => nth fvZero l 0
  | n + 1, l => checkTree cls n ((List.range (l.length / 2)).map (fun i => colRound cls ((nth fvZero l (2 * i)).add false (nth fvZero l (2 * i + 1)))))

/-- The result of checking a row. -/
inductive Check where
  | pass | unchecked | mismatch
deriving DecidableEq, Repr

/-- The check of one row: live outputs, margin sum, absolute sum, tolerance exponent (02 R50, R51). -/
def checkRow (cls : Nat) (ys : List FV) (ms ma : FV) (t : Nat) : Check :=
  if cls = 4 then
    (if (ys.foldl (fun a y => a.add false y) fvZero).eq ms then .pass else .mismatch)
  else
    let ysum := checkTree cls 6 ys
    if !ysum.isFin || !ms.isFin || !ma.isFin then .unchecked
    else if (ma.shift (-(Int.ofNat t))).lt (ysum.add false ms.negate).mag then .mismatch else .pass

/-! ### Upsets -/

/-- A value of the column format, of FP64 or of INT32 with bits of its code flipped. -/
def flipBits (cls : Nat) (x : BitVec 64) (v : FV) : FV :=
  match cls with
  | 4 => (match v with
    | .fin s m _ => FV.ofInt (sx 32 (wrapN 32 (if s then -(Int.ofNat m) else Int.ofNat m) ^^^ x.toNat % 2 ^ 32))
    | y => y)
  | _ =>
    let f := if cls = 5 then fp64 else fCol
    let code := match v with
      | .nan => f.qnan
      | .inf s => f.signed s f.infCode
      | .fin s m e => f.signed s (roundCode f .rne s m e).1
    decodeF f (code ^^^ x.toNat % 2 ^ f.width)

/-- The value that leaves column col for a row, with the upsets that strike it. -/
def struck (us : List Upset) (cls : Nat) (rep : Bool) (q row col : Nat) (v : FV) : FV :=
  us.foldl (fun v u => match u with
    | .cell r q' row' col' x => if r == rep && q'.toNat == q && row'.toNat == row && col'.val == col then flipBits cls x v else v
    | _ => v) v

/-- Whether a residue check of a row fails (03 R85). -/
def residueFails (us : List Upset) (rep : Bool) (q row : Nat) : Bool :=
  us.any (fun u => match u with
    | .residue r q' row' => r == rep && q'.toNat == q && row'.toNat == row
    | _ => false)

/-! ### Accumulation (03 R111, R112) -/

/-- The accumulator format code of an accumulator tile: FP32, INT32 or FP64. -/
def zcode (zfmt : Nat) : Nat := match zfmt with
  | 1 => 0xD
  | 2 => 0xB
  | _ => 0xC

/-- Whether an accumulator tile is zero-tagged (03 R92). -/
def ZTile.tagged (z : ZTile) : Bool := bit z.shape 26
/-- An element's bits: 0 when the tile is zero-tagged. -/
def ZTile.get (z : ZTile) (r n : Nat) : U64 := if z.tagged then 0 else spGet 0 z.data (64 * r + n)

/-- The bits of a value of an accumulator format rounded to nearest-even, and whether an INT32 sum clamped. -/
def accBits (zfmt : Nat) (v : FV) : Nat × Bool :=
  match zfmt with
  | 1 => (match v with
    | .fin s m e =>
      let x := (roundInt .rtz s m e).1
      let k := clampW 32 x
      (wrapN 32 k, decide (k ≠ x))
    | _ => (0, false))
  | 2 => ((deliver fp64 .rne v).1, false)
  | _ => ((deliver fp32 .rne v).1, false)

/-- acc_add of R111: the element's new bits and whether it clamped. -/
def accAdd (zfmt : Nat) (z : U64) (y : FV) : Nat × Bool := accBits zfmt ((decodeCode (zcode zfmt) z.toNat).add false y)

/-- An accumulator tile's fresh copy with one row added into it: live columns only; clamped flags join. -/
def accRow (zfmt : Nat) (live : U64) (r : Nat) (ys : List FV) (zs : ZTile × Bool) : ZTile × Bool :=
  (List.range 64).foldl (fun q n =>
    if bit live n then
      let a := accAdd zfmt (q.1.get r n) (nth fvZero ys n)
      ({ shape := setBit q.1.shape 26 false, data := spSet 0 (if q.1.tagged then [] else q.1.data) (64 * r + n) (n64 a.1) }, q.2 || a.2)
    else q) zs

/-! ### One run of a TMMA4 -/

/-- TU_LIVE.INUSE (02 R64). -/
def TileRegs.inuse (t : TileRegs) : BitVec 4 := ~~~(t.fused ||| t.weeded ||| t.suspect)

/-- The physical arrays in use, in ascending order. -/
def TileRegs.arrays (t : TileRegs) : List Nat := (List.range 4).filter (fun j => bit t.inuse j)

/-- The array of tile q when the tile count stands at s (02 R38, R70). -/
def arrayOf (as : List Nat) (s q : Nat) : Nat := nth 0 as ((s + q) % as.length)

/-- Row r of tile q in a run: its live outputs and the result of its check. -/
def runRow (us : List Upset) (rep : Bool) (cls t : Nat) (live : U64) (cols : List (List FV)) (mg : List FV × List FV)
    (q r : Nat) (xs : List FV) : List FV × Check :=
  let ys := (List.range 64).map (fun n =>
    if bit live n then struck us cls rep q r n (column cls xs (nth [] cols n)) else fvZero)
  let ms := struck us cls rep q r 64 (column cls xs mg.1)
  let ma := struck us cls rep q r 65 (column cls (xs.map FV.mag) mg.2)
  (ys, if residueFails us rep q r then .mismatch else checkRow cls ys ms ma t)

/-- The operand class of a TMMA4. -/
def Tmma.cls (x : Tmma) : Nat := fmtClass x.w.fmt.toNat

/-- The live rows of tile q in the first run or the repeat: row, outputs, result of the check (02 R32, R44, R45, R50). -/
def Tmma.outputs (x : Tmma) (t : Nat) (rep : Bool) (q : Nat) : List (Nat × List FV × Check) :=
  let cols := (List.range 64).map x.w.column
  let mg := marginCols x.cls x.w.live cols
  x.rows.map (fun r => (r, runRow x.us rep x.cls t x.w.live cols mg q r (actRow (nth TileReg.reset x.src q) r)))

/-- The fresh tile a run leaves for tile q of an accumulator tile, and whether an INT32 sum clamped (03 R111, R114). -/
def Tmma.fresh (x : Tmma) (t : Nat) (rep : Bool) (q : Nat) (z : ZTile) : ZTile × Bool :=
  (x.outputs t rep q).foldl (fun acc o => accRow (fld z.shape 24 2) x.w.live o.1 o.2.1 acc) (z, false)

/-- The clk a row of a pass holds the array edge (02 R30, R78). -/
def Tmma.step (x : Tmma) : Nat := if x.cls = 5 then 8 else 1
/-- The clk from a slot's entry to its hand-over (02 R30, R78). -/
def Tmma.lat (x : Tmma) : Nat := if x.cls = 5 then 71 else 64

/-- The clk in which slot i of tile q is handed over. -/
def Tmma.handOver (x : Tmma) (q i : Nat) : Option Nat :=
  (nth none (x.feeds.map (fun f => f.clk)) q).map (fun c => c + x.step * i + x.lat)

/-- The clk in which the last slot of tile q is handed over; none for a tile that is not fed. -/
def Tmma.lastOver (x : Tmma) (q : Nat) : Option Nat := x.handOver q (x.rows.length - 1)

/-- The clk after the last row of tile q has entered its array. -/
def Tmma.fedAt (x : Tmma) (q : Nat) : Option Nat := (nth none (x.feeds.map (fun f => f.clk)) q).map (fun c => c + x.step * x.rows.length)

/-- Whether all four tiles are fed or being fed; with every row masked there is nothing to feed (02 R46's corner case). -/
def Tmma.fed (x : Tmma) : Bool := x.rows.isEmpty || x.feeds.all (fun f => f.clk.isSome)

/-- The clk in which a TMMA4 that is fed completes: its last hand-over, or 4 clk after its issue when every row is masked (02 R72, R46's
corner case). -/
def Tmma.doneAt (x : Tmma) : Nat :=
  if x.rows.isEmpty then x.at' + 4 else (List.range 4).foldl (fun m q => max m ((x.lastOver q).getD 0)) 0

/-- The failing rows of a run: when each is handed over, and what MG_LOG names (02 R55, R68). -/
def Tmma.fails (x : Tmma) (t : Nat) (rep : Bool) : List (Nat × MgFail) :=
  (List.range 4).flatMap (fun q =>
    (((x.outputs t rep q).zipIdx).filter (fun o => o.1.2.2 == .mismatch)).map (fun o =>
      ((x.handOver q o.2).getD 0, { array := nth 0 (x.feeds.map (fun f => f.arr)) q, row := o.1.1, tile := q, int := x.cls == 4 })))

/-- Rows of a run left unchecked (02 R51). -/
def Tmma.unchecked (x : Tmma) (t : Nat) (rep : Bool) : Nat :=
  ((List.range 4).map (fun q => ((x.outputs t rep q).filter (fun o => o.2.2 == .unchecked)).length)).sum

/-- The first failing row: the one handed over earliest; which of several handed over in one clk is a free choice (log 45). -/
def firstFail (l : List (Nat × MgFail)) (free : Nat) : Option (Nat × MgFail) :=
  match l with
  | [] => none
  | f :: fs =>
    let m := fs.foldl (fun a g => min a g.1) f.1
    let l := (f :: fs).filter (fun g => g.1 == m)
    some (nth f l (Config.freeNat free % l.length))

/-- The set of arrays that failed. -/
def failSet (l : List (Nat × MgFail)) : BitVec 4 := l.foldl (fun b g => b ||| BitVec.ofNat 4 (1 <<< g.2.array)) 0

end Sys2Proof.Machine
end

