-- ==== Sys2Proof/Machine/Map.lean ====
section
/-! DEFINITION. Machine/Map.lean: the cores by number, and the physical address map (01 R14; 08 R284, R291, R292). -/

namespace Sys2Proof.Machine

/-- The core with a number. -/
def State.core (s : State) (c : CoreId) : Core := s.cores.get c
/-- The state with one core replaced. -/
def State.setCore (s : State) (c : CoreId) (k : Core) : State := { s with cores := s.cores.set c k }
/-- The state with one core changed. -/
def State.modCore (s : State) (c : CoreId) (f : Core → Core) : State := s.setCore c (f (s.core c))

/-- Whether a core is a compute core (07 R278). -/
def isCompute (c : CoreId) : Bool := decide (c.val < 128)
/-- The quadrant of a compute core. DESIGN CHOICE (log 75): 01 R14 gives a quadrant 32 compute cores and not which; here cores 32q to
32q + 31 make up quadrant q. -/
def coreQuad (c : CoreId) : Nat := c.val / 32

/-- The function that holds a core: FN1 the hub cores, FN2 to FN5 the quadrants (15 R554). -/
def coreFn (c : CoreId) : Nat := if isCompute c then 2 + coreQuad c else 1

/-- HBM (08 R284). -/
def isHbm (pa : Nat) : Bool := decide (pa < 0x9000000000)
/-- The ledger ring, inside HBM (08 R284). -/
def isLedger (pa : Nat) : Bool := decide (0x8FFC000000 ≤ pa) && isHbm pa
/-- A carrel (08 R284). -/
def isCarrel (pa : Nat) : Bool := decide (0xC000000000 ≤ pa) && decide (pa < 0xC00C000000)
/-- Device registers (08 R284). -/
def isDevice (pa : Nat) : Bool := decide (0xE000000000 ≤ pa) && decide (pa < 0xE000700000)
/-- HBM or a carrel. -/
def isMem (pa : Nat) : Bool := isHbm pa || isCarrel pa
/-- Every byte of a range lies in HBM or a carrel. -/
def memRange (pa n : Nat) : Bool := isMem pa && isMem (pa + n - 1) && (isHbm pa == isHbm (pa + n - 1))
/-- A byte of a range lies in the ledger ring. -/
def hitsLedger (pa n : Nat) : Bool := decide (0 < n) && decide (pa < 0x9000000000) && decide (0x8FFC000000 < pa + n)
/-- The core whose carrel holds an address (08 R284). -/
def carrelOwner (pa : Nat) : Nat := (pa - 0xC000000000) / 0x180000

/-- The stack, pseudo-channel, bank and row of a physical HBM address (08 R292). -/
def hbmMap (quadLocal : Bool) (pa : Nat) : Nat × Nat × Nat × Nat :=
  let qsz := 144 * 2 ^ 30
  let q := pa / qsz
  let g := if quadLocal then (pa - q * qsz) >>> 12 else pa >>> 12
  let stack := if quadLocal then 3 * q + g % 3 else g % 12
  let gs := if quadLocal then g / 3 else g / 12
  (stack, gs % 64, gs / 64 % 16, gs / 1024)

/-- The home L2 slice of an address, 0 to 63: slice address bits [11:8] of its quadrant (08 R292, R311). -/
def sliceOf (quadLocal : Bool) (pa : Nat) : Nat :=
  (if isCarrel pa then carrelOwner pa / 32 else (hbmMap quadLocal pa).1 / 3) * 16 + pa >>> 8 % 16

/-- The 128-byte lines n bytes from an address touch. -/
def linesOf (pa n : Nat) : List Nat := if n = 0 then [] else rng (pa / 128) ((pa + n - 1) / 128 - pa / 128 + 1)
/-- The 64-bit words n bytes from an address touch. -/
def wordsOf (pa n : Nat) : List Nat := if n = 0 then [] else rng (pa / 8) ((pa + n - 1) / 8 - pa / 8 + 1)

end Sys2Proof.Machine
end

