-- ==== Sys2Proof/Machine/Cache.lean ====
section
/-! DEFINITION. Machine/Cache.lean: what the caches hold: L2 slices with their invalidation filters, and the L1s of the cores
(08 R295 to R303). A cache holds no value of its own: memory at its home is what the slices and HBM hold together. -/

namespace Sys2Proof.Machine

/-- The sectors of a line that n bytes from an address touch (08 R295). -/
def sectorsAt (pa n l : Nat) : BitVec 4 :=
  BitVec.ofNat 4 ((List.range 4).map (fun j => if 128 * l + 32 * j < pa + n ∧ pa < 128 * l + 32 * j + 32 then 2 ^ j else 0)).sum

/-- The set of an L1 a line lies in. DESIGN CHOICE (log 76): the lowest bits of the line's number. -/
def l1Set (l : Nat) : Nat := l % 128
/-- The set of an L2 slice a line lies in. DESIGN CHOICE (log 76): the lowest bits of the line's number within its slice. -/
def l2Set (l : Nat) : Nat := (l / 32 * 2 + l % 2) % 2048

/-- The sectors of a line a cache holds. -/
def cacheValid (ls : List CacheLine) (l : Nat) : BitVec 4 :=
  match ls.find? (fun x => x.line == l) with
  | some x => x.valid
  | none => 0

/-- A cache after sectors of a line have been brought in or written: in a full set the line that gives way is the one a number picks
(08 R295; the replacement is not stated: log 76). -/
def cachePut (ways : Nat) (set : Nat → Nat) (x : CacheLine) (pick : Nat) (ls : List CacheLine) : List CacheLine :=
  if ls.any (fun y => y.line == x.line) then
    ls.map (fun y => if y.line = x.line then { y with valid := y.valid ||| x.valid, dirty := y.dirty ||| x.dirty } else y)
  else
    let mates := (ls.filter (fun y => set y.line == set x.line)).map (fun y => y.line)
    let gone := if ways ≤ mates.length then mates[pick % ways]? else none
    x :: ls.filter (fun y => gone != some y.line)

/-- The slice of a line. -/
def State.sliceNo (s : State) (l : Nat) : Nat := sliceOf s.plat.quadLocal (128 * l)
/-- The slice a line is homed in. -/
def State.slice (s : State) (l : Nat) : L2Slice := vget s.l2 (s.sliceNo l) { lines := [], filt := [] }
/-- The slice of a line changed. -/
def State.modSlice (s : State) (l : Nat) (f : L2Slice → L2Slice) : State := { s with l2 := vput s.l2 (s.sliceNo l) (f (s.slice l)) }

/-- Sectors of a line in its home slice: only those that are missing are brought in; those written are to be written back (08 R297). -/
def l2Line (s : State) (l : Nat) (valid : BitVec 4) (written : Bool) : State :=
  if cacheValid (s.slice l).lines l &&& valid = valid ∧ !written then s
  else
    let y : CacheLine := { line := l, valid := valid, dirty := if written then valid else 0, pois := 0 }
    let s1 := s.modSlice l (fun x => { x with lines := cachePut 12 l2Set y (Config.freeNat s.free) x.lines })
    { s1 with free := s1.free + 1 }

/-- n bytes of HBM read or written at their home slices; carrels are cached nowhere (08 R294, R297, R302). -/
def l2Touch (s : State) (pa n : Nat) (written : Bool) : State :=
  if isHbm pa then (linesOf pa n).foldl (fun s l => l2Line s l (sectorsAt pa n l) written) s else s

/-- Remove a line from the L1Ds of some cores (08 R302). -/
def dropLine (s : State) (l : Nat) (cs : List Nat) : State :=
  cs.foldl (fun s n => if h : n < 144 then
    s.modCore ⟨n, h⟩ (fun k => { k with mm := { k.mm with l1d := k.mm.l1d.filter (fun x => x.line != l) } }) else s) s

/-- The filter of a line's slice names a core as one whose L1D may hold it. Whether an entry gives way for a new one, and which, is a free
choice, as the filter's size is not stated; its line leaves every L1D it names (08 R302; log 76). -/
def filtAdd (s : State) (l : Nat) (c : CoreId) : State :=
  let x := s.slice l
  if x.filt.any (fun e => e.1 == l) then
    s.modSlice l (fun x => { x with filt := x.filt.map (fun e => if e.1 = l then (l, setAdd c.val e.2) else e) })
  else
    let gone := x.filt[Config.freeNat s.free % (x.filt.length + 1)]?
    let s1 := s.modSlice l (fun x => { x with filt := (l, [c.val]) :: x.filt.filter (fun e => some e.1 != gone.map (fun g => g.1)) })
    let s1 := { s1 with free := s1.free + 1 }
    match gone with
    | some g => dropLine s1 g.1 g.2
    | none => s1

/-- A line is filled into a core's L1D: the sectors missing there come from its home slice, and the filter records it (08 R295, R297,
R303). -/
def fillLine (s : State) (c : CoreId) (l : Nat) (valid : BitVec 4) : State :=
  let need := valid &&& ~~~(cacheValid (s.core c).mm.l1d l)
  if need = 0 ∨ !isHbm (128 * l) then s
  else
    let s1 := l2Line s l need false
    let s2 := filtAdd s1 l c
    let y : CacheLine := { line := l, valid := need, dirty := 0, pois := 0 }
    let s3 := s2.modCore c (fun k => { k with mm := { k.mm with l1d := cachePut 4 l1Set y (Config.freeNat s2.free) k.mm.l1d } })
    { s3 with free := s3.free + 1 }

/-- The sectors n bytes touch are filled into a core's L1D (08 R295). -/
def fillL1D (s : State) (c : CoreId) (pa n : Nat) : State := (linesOf pa n).foldl (fun s l => fillLine s c l (sectorsAt pa n l)) s

/-- Whole lines are filled into a core's L1D: a prefetch, or a line zeroed (08 R298 to R300). -/
def fillLines (s : State) (c : CoreId) (ls : List Nat) : State := ls.foldl (fun s l => fillLine s c l 0xF) s

/-- A line is fetched into a core's L1I through its home slice (08 R295, R306). -/
def fillL1I (s : State) (c : CoreId) (l : Nat) : State :=
  if cacheValid (s.core c).mm.l1i l = 0xF ∨ !isHbm (128 * l) then s
  else
    let s1 := l2Line s l 0xF false
    let y : CacheLine := { line := l, valid := 0xF, dirty := 0, pois := 0 }
    let s2 := s1.modCore c (fun k => { k with mm := { k.mm with l1i := cachePut 4 l1Set y (Config.freeNat s1.free) k.mm.l1i } })
    { s2 with free := s2.free + 1 }

/-- A core fetches an instruction's line and prefetches the next one, within the page (08 R295, R300). -/
def fetchLines (s : State) (c : CoreId) (pa : Nat) : State :=
  let s1 := fillL1I s c (pa / 128)
  if (pa / 128 + 1) / 32 = pa / 4096 then fillL1I s1 c (pa / 128 + 1) else s1

/-- Before a write to a line is visible, the line leaves every other L1D the filter names; the writer's own is updated in place: words wholly
written are no longer poisoned there (08 R293, R302). -/
def invalLine (s : State) (own : Option CoreId) (pa n l : Nat) : State :=
  match (s.slice l).filt.find? (fun e => e.1 == l) with
  | none => s
  | some e =>
    let mine (x : Nat) : Bool := own.any (fun c => c.val == x)
    let s1 := dropLine s l (e.2.filter (fun x => !mine x))
    let s2 := s1.modSlice l (fun x => { x with filt := x.filt.filterMap (fun y =>
      if y.1 = l then (if y.2.any mine then some (l, y.2.filter mine) else none) else some y) })
    match own with
    | none => s2
    | some c => s2.modCore c (fun k => { k with mm := { k.mm with l1d := k.mm.l1d.map (fun x =>
        if x.line = l then { x with pois := x.pois &&& BitVec.ofNat 16 ((List.range 16).map (fun w =>
          if pa ≤ 128 * l + 8 * w ∧ 128 * l + 8 * w + 8 ≤ pa + n then 0 else 2 ^ w)).sum } else x) } })

/-- The invalidations of a write of n bytes of HBM (08 R302). -/
def invalL1D (s : State) (own : Option CoreId) (pa n : Nat) : State :=
  if isHbm pa then (linesOf pa n).foldl (fun s l => invalLine s own pa n l) s else s

/-- Whether a core's L1D holds a poisoned word of a range (08 R293). -/
def Core.l1dPoisoned (k : Core) (pa n : Nat) : Bool :=
  (wordsOf pa n).any (fun w => k.mm.l1d.any (fun x => x.line == w / 16 && bit x.pois (w % 16)))

/-! ### The TLBs (08 R290) -/

/-- The bits of an address below a page of a level (08 R288). -/
def pageBits (level : Nat) : Nat := 12 + 9 * (3 - level)

/-- Whether a cached translation covers an address under an ASID (08 R290). -/
def TlbEntry.covers (t : TlbEntry) (asid va : Nat) : Bool :=
  va >>> pageBits t.level == t.vpn >>> (pageBits t.level - 12) && (t.asid == asid || bit t.leaf 6)

/-- The set of the TLB of 2,048 entries an entry lies in. DESIGN CHOICE (log 76): the lowest bits of its page's number. -/
def TlbEntry.set (t : TlbEntry) : Nat := t.vpn >>> (pageBits t.level - 12) % 512

/-- Both TLBs after a fill, which replaces what covered its page; in a full TLB or set a number picks the entry that gives way (08 R290; the
replacement is not stated: log 76). -/
def MemRegs.fillTlb (m : MemRegs) (e : TlbEntry) (va pick : Nat) : MemRegs :=
  let a := m.tlb.filter (fun t => !t.covers e.asid va)
  let a := if 64 ≤ a.length then a.eraseIdx (pick % 64) else a
  let b := m.tlb2.filter (fun t => !t.covers e.asid va)
  let mates := b.filter (fun t => t.set == e.set)
  let b := if 4 ≤ mates.length then b.filter (fun t => some t != mates[pick / 64 % 4]?) else b
  { m with tlb := e :: a, tlb2 := e :: b }

/-- The entries that translate for a core. -/
def MemRegs.entries (m : MemRegs) : List TlbEntry := m.tlb ++ m.tlb2

end Sys2Proof.Machine
end

