-- ==== Sys2Proof/Machine/Packet.lean ====
section
/-! DEFINITION. Machine/Packet.lean: packets: their header flit, CRCs, the ports a destination is routed to, and
sending (11 R390 to R396, R404, R429, R431, R433). -/

namespace Sys2Proof.Machine

/-- A free number and the state that has used it up (log 1). -/
def State.freeNext (s : State) : Nat × State := (Config.freeNat s.free, { s with free := s.free + 1 })

/-- Bytes filled up with zeros to whole flits. -/
def padFlits (bs : List Byte) : List Byte := bs ++ List.replicate ((64 - bs.length % 64) % 64) 0

/-- The payload bytes of a body. DESIGN CHOICE (log 83): the spec gives what HELLO and MGMT packets carry and not its layout; here each field
stands in whole bytes, in the order of Body and of CatUpdate. -/
def bodyBytes : Body → List Byte
  | .flits b => b
  | .hello shelf call ed gen rank fit => padFlits (leBytes 4 shelf.toNat ++ leBytes 3 call.toNat ++ leBytes 2 ed.toNat ++ leBytes 4 gen.toNat ++
      leBytes 1 rank.toNat ++ leBytes 1 (b01 fit))
  | .claim rank shelf => padFlits (leBytes 1 rank.toNat ++ leBytes 4 shelf.toNat)
  | .update u => padFlits (leBytes 4 u.gen.toNat ++ leBytes 8 u.tact.toNat ++ leBytes 4 ((u.root.map (fun r => r.toNat)).getD 0) ++ leBytes 1 (b01 u.more + 2 * b01 u.root.isSome) ++
      u.entries.flatMap (fun e => leBytes 3 e.call.toNat ++ leBytes 4 e.shelf.toNat ++ leBytes 2 e.edition.toNat ++
        leBytes 1 (match e.state with
          | .active => 0
          | .reserve => 1
          | .withdrawn => 2) ++ leBytes 3 e.minPorts.toNat ++ leBytes 3 e.nonMin.toNat ++ leBytes 1 e.det.val ++ leBytes 1 e.dist.toNat))
  | .port shelf p far up fit => padFlits (leBytes 4 shelf.toNat ++ leBytes 1 p.toNat ++ leBytes 4 ((far.map (fun f => f.toNat)).getD 0) ++
      leBytes 1 (b01 far.isSome) ++ leBytes 1 (b01 up) ++ leBytes 1 (b01 fit))
  | .words tag ws => padFlits (leBytes 1 tag.toNat ++ ws.flatMap (fun w => leBytes 8 w.toNat))

/-- Payload flits of a body (11 R391). -/
def bodyNflit (b : Body) : Nat := cdiv (bodyBytes b).length 64

/-- A packet with every field zero. -/
def pktEmpty : Packet :=
  { ty := 0, vc := 0, mark := false, watch := false, pmask := 0, dcall := 0, ded := 0, hops := 0, scall := 0, sed := 0,
    jobkey := 0, plan := 0, w2 := 0, tag := 0, ngran := 0, aop := 0, asz := 0, status := 0, which := false, arg0 := 0, arg1 := 0,
    lseq := 0, lack := 0, ackv := false, cvc := 0, ccnt := 0, pcrc := 0, lcrc := 0, rsv := false, body := .flits [] }

/-- The header words +0x00 to +0x28 with a given HOPS (11 R395). -/
def pktWords (k : Packet) (hops : Nat) : List U64 :=
  [ n64 (k.ty.toNat + k.vc.toNat <<< 5 + bodyNflit k.body <<< 8 + b01 k.mark <<< 11 + b01 k.watch <<< 12 + k.pmask.toNat <<< 16
      + k.dcall.toNat <<< 20 + k.ded.toNat <<< 40 + hops <<< 56),
    n64 (k.scall.toNat + k.sed.toNat <<< 20 + k.jobkey.toNat <<< 36 + k.plan.toNat <<< 52),
    k.w2,
    n64 (k.tag.toNat + k.ngran.toNat <<< 32 + k.aop.toNat <<< 35 + k.asz.toNat <<< 39 + k.status.toNat <<< 41 + b01 k.which <<< 48),
    k.arg0, k.arg1 ]

/-- One bit step of the reflected CRC-32C. -/
def crc32cBit (c : Nat) : Nat := if c % 2 = 1 then (c / 2) ^^^ 0x82F63B78 else c / 2

/-- One byte of CRC-32C. -/
def crc32cByte (c : Nat) (b : Byte) : Nat :=
  crc32cBit (crc32cBit (crc32cBit (crc32cBit (crc32cBit (crc32cBit (crc32cBit (crc32cBit (c ^^^ b.toNat))))))))

/-- CRC-32C over bytes from a value on; the value is taken apart so that it is worked out byte by byte. -/
def crc32cFrom : List Byte → Nat → Nat
  | [], c => c
  | b :: r, 0 => crc32cFrom r (crc32cByte 0 b)
  | b :: r, c + 1 => crc32cFrom r (crc32cByte (c + 1) b)

/-- CRC-32C of a byte list. -/
def crc32c (bs : List Byte) : BitVec 32 := BitVec.ofNat 32 (crc32cFrom bs 0xFFFFFFFF ^^^ 0xFFFFFFFF)

/-- The bytes of a list of words, little-endian. -/
def wordBytes (ws : List U64) : List Byte := ws.flatMap (fun w => leBytes 8 w.toNat)

/-- One bit of the ECMA-182 CRC-64. -/
def crc64Bit (c : Nat) : Nat := if 2 ^ 63 ≤ c then ((2 * c) % 2 ^ 64) ^^^ 0x42F0E1EBA9EA3693 else 2 * c
/-- One byte of it. -/
def crc64Byte (c : Nat) (b : Byte) : Nat :=
  crc64Bit (crc64Bit (crc64Bit (crc64Bit (crc64Bit (crc64Bit (crc64Bit (crc64Bit (c ^^^ b.toNat <<< 56))))))))
/-- CRC-64 over bytes from a value on, worked out byte by byte. -/
def crc64From : List Byte → Nat → Nat
  | [], c => c
  | b :: r, 0 => crc64From r (crc64Byte 0 b)
  | b :: r, c + 1 => crc64From r (crc64Byte (c + 1) b)

/-- CRC-64 of a byte list: initial value 0, not reflected, no final exclusive-or (06 R251). -/
def crc64 (bs : List Byte) : U64 := n64 (crc64From bs 0)

/-- PCRC: words +0x00 to +0x28 with HOPS zero, and the payload (11 R396). -/
def pktP (k : Packet) : BitVec 32 := crc32c (wordBytes (pktWords k 0) ++ bodyBytes k.body)

/-- LCRC: the whole header flit with LCRC zero, and the payload (11 R396). -/
def pktL (k : Packet) : BitVec 32 :=
  crc32c (wordBytes (pktWords k k.hops.toNat ++
    [n64 (k.lseq.toNat + k.lack.toNat <<< 12 + b01 k.ackv <<< 24 + k.cvc.toNat <<< 25 + k.ccnt.toNat <<< 28), n64 k.pcrc.toNat])
    ++ bodyBytes k.body)

/-- The port's state. -/
def State.port (s : State) (p : PortId) : PortSt := s.fab.ports.get p

/-- A port's state replaced. -/
def State.setPort (s : State) (p : PortId) (f : PortSt → PortSt) : State :=
  { s with fab := { s.fab with ports := s.fab.ports.set p (f (s.fab.ports.get p)) } }

/-- FE_ID.CALL (11 R437). -/
def State.call (s : State) : Nat := fld s.fab.id 0 20
/-- FE_ID.EDITION. -/
def State.edition (s : State) : Nat := fld s.fab.id 20 16
/-- FE_ID.STATE: 0 unnamed, 1 active, 2 reserve, 3 fenced. -/
def State.feState (s : State) : Nat := fld s.fab.id 36 2

/-- Edition (or generation, of the given width) a is newer than b (11 R399, R400). -/
def newer (w a b : Nat) : Bool := decide (1 ≤ (a + 2 ^ w - b % 2 ^ w) % 2 ^ w) && decide ((a + 2 ^ w - b % 2 ^ w) % 2 ^ w ≤ 2 ^ (w - 1) - 1)

/-- The catalogue entry of a call number in the catalogue in effect (11 R400). -/
def State.catOf (s : State) (call : Nat) : Option CatEntry := s.fab.cat.find? (fun e => e.call.toNat == call)

/-- The edition the catalogue gives a call number, 0 when it has none (11 R429). -/
def State.catEd (s : State) (call : Nat) : Nat := match s.catOf call with
  | some e => e.edition.toNat
  | none => 0

/-- Whether the catalogue gives a call number a newer edition than the one named (11 R430, R411). -/
def State.overtaken (s : State) (call ed : Nat) : Bool := (s.catOf call).any (fun e => newer 16 e.edition.toNat ed)

/-- Add one to a saturating 16-bit count of FE_STAT at a bit position (11 R437). -/
def State.feCount (s : State) (lo : Nat) : State :=
  let n := fld s.fab.stat lo 16
  { s with fab := { s.fab with stat := setFld s.fab.stat lo 16 (if n = 0xFFFF then n else n + 1) } }

/-- FE_STAT.DROP counted (11 R391, R396, R404). -/
def State.drop (s : State) : State := s.feCount 0
/-- FE_STAT.STALE counted (11 R430, R432). -/
def State.stale (s : State) : State := s.feCount 16
/-- FE_STAT.LATE counted (11 R419). -/
def State.late (s : State) : State := s.feCount 32
/-- FE_STAT.TIMEOUT counted (11 R410). -/
def State.timedOut (s : State) : State := s.feCount 48

/-- Room for flits a receiving port advertises on a VC (11 R393). -/
def vcRoom (vc : Nat) : Nat := if vc = 4 ∨ vc = 5 ∨ vc = 7 then 64 else 256

/-- Whether a VC is adaptive (11 R392). -/
def vcAdaptive (vc : Nat) : Bool := vc == 0 || vc == 1 || vc == 6

/-- Whether no catalogue is in effect at this router yet, so that FE_CATGEN holds no generation (11 R400, R437). -/
def State.noCatalogue (s : State) : Bool := s.fab.gen == 0 && s.fab.cat.isEmpty

/-- The newest catalogue generation this router holds, in effect or pending (11 R400). -/
def State.heldGen (s : State) : BitVec 32 :=
  let first := if s.noCatalogue then (s.fab.pend.head?.map (fun u => u.gen)).getD 0 else s.fab.gen
  s.fab.pend.foldl (fun g u => if newer 32 u.gen.toNat g.toNat then u.gen else g) first

/-- A packet carries a catalogue update. -/
def TxEnt.isUpdate (x : TxEnt) : Bool := match x.pkt.body with
  | .update _ => true
  | _ => false

/-- Whether a port may carry a VC now: only VC 4 and 5 until both ends hold one catalogue generation, only VC 4 until HELLO has told which
the other end holds, and no other VC while an update waits to go out (11 R431; log 62). -/
def State.carries (s : State) (p : PortId) (vc : Nat) : Bool :=
  (s.port p).up && (vc == 4 || (match (s.port p).nbr with
    | some n => vc == 5 || (n.gen == s.heldGen && !(s.port p).txq.any TxEnt.isUpdate)
    | none => false))

/-- The VC whose credits are returned next: the lowest with any owed (11 R393). -/
def PortSt.owedVc (p : PortSt) : Nat := ((List.range 8).find? (fun v => vget p.owed v 0 != 0)).getD 0

/-- The link control a header flit sent now carries: acknowledgement and credits (11 R393, R394, R395). -/
def PortSt.control (p : PortSt) (k : Packet) : Packet :=
  { k with
    lack := p.rxNext - 1, ackv := true, cvc := BitVec.ofNat 3 p.owedVc, ccnt := BitVec.ofNat 8 (min 255 (vget p.owed p.owedVc 0)) }

/-- The port after that link control has gone out. -/
def PortSt.controlled (p : PortSt) : PortSt :=
  { p with lastAck := some (p.rxNext - 1), owed := vput p.owed p.owedVc (vget p.owed p.owedVc 0 - 255) }

/-- The flits of a packet on a link. -/
def pktFlits (k : Packet) : Nat := 1 + bodyNflit k.body

/-- Whether a port can send a packet now: its credits cover every flit on the packet's VC, and its 128 KiB retry buffer has room (11 R393,
R394). -/
def State.canSend (s : State) (p : PortId) (k : Packet) : Bool :=
  s.carries p k.vc.toNat && decide (pktFlits k ≤ vget (s.port p).credit k.vc.toNat 0)
    && decide (((s.port p).retry.map (fun r => pktFlits r.pkt)).sum + pktFlits k ≤ 2048)

/-- The room a packet took at the port it came in on is free again: credits to return (11 R393). -/
def State.owe (s : State) (from' : Option PortId) (k : Packet) : State :=
  match from' with
  | some p => s.setPort p (fun ps => { ps with owed := vput ps.owed k.vc.toNat (vget ps.owed k.vc.toNat 0 + pktFlits k) })
  | none => s

/-- Plan packets carry the key of their plan's entry (11 R412). -/
def planType (ty : BitVec 5) : Bool := ty == 0x10 || ty == 0x11 || ty == 0x12 || ty == 0x13

/-- A plan's packet passes a port: its route runs there (11 R420). -/
def State.notePlan (s : State) (p : PortId) (k : Packet) : State :=
  if planType k.ty then { s with fab := { s.fab with planPorts := (if s.fab.planPorts.contains (k.plan.toNat, p) then s.fab.planPorts else s.fab.planPorts ++ [(k.plan.toNat, p)]) } } else s

/-- A LIVE as it leaves: TXS the time of its own departure, and the stamps of the last LIVE received on the port; any other packet as it is
(11 R423). -/
def State.departing (s : State) (p : PortId) (k : Packet) : Packet :=
  if k.ty = 0x19 then
    let rx := (s.port p).liveRx
    let k : Packet := { k with
      arg0 := s.hall.now, w2 := (rx.getD (0, 0)).1, arg1 := w64 (rx.getD (0, 0)).2,
      tag := BitVec.ofNat 32 (b01 rx.isSome + 2 * b01 (bit s.hall.stat 0)) }
    { k with pcrc := pktP k }
  else k

/-- Put a packet on a link: number it, stamp its CRCs, spend its credits and keep it in the retry buffer; the room it took where it came in is
free (11 R393, R394, R396, R423). -/
def State.transmit (s : State) (p : PortId) (x : TxEnt) : State :=
  let s := (s.owe x.from' x.pkt).notePlan p x.pkt
  let ps := s.port p
  let k := { ps.control (s.departing p x.pkt) with lseq := ps.txSeq }
  let k := { k with lcrc := pktL k }
  s.setPort p (fun ps => { ps.controlled with
    txSeq := ps.txSeq + 1,
    credit := vput ps.credit k.vc.toNat (vget ps.credit k.vc.toNat 0 - pktFlits k),
    retry := ps.retry ++ [{ pkt := k, sent := s.now, replays := 0 }],
    liveTx := if k.ty = 0x19 then ps.liveTx ++ [{ txs := k.arg0, at' := Int.ofNat k.arg0.toNat, echo := ps.liveRx }] else ps.liveTx })

/-- The oldest waiting packet of a VC, when the port can send it now. -/
def State.readyTx (s : State) (p : PortId) (vc : Nat) : Option TxEnt :=
  ((s.port p).txq.find? (fun x => x.pkt.vc.toNat == vc)).filter (fun x => s.canSend p x.pkt)

/-- The packet a port sends next, with the state of its round robin after it: VC 4, then VC 5, then the others by deficit round robin with
equal flit shares (11 R392). DESIGN CHOICE (log 84): a share is 5 flits, the longest packet. -/
def State.nextTx (s : State) (p : PortId) : Option (TxEnt × BitVec 3 × Vector Nat 8) :=
  let ps := s.port p
  match s.readyTx p 4, s.readyTx p 5 with
  | some x, _ => some (x, ps.serve, ps.deficit)
  | none, some x => some (x, ps.serve, ps.deficit)
  | none, none =>
    let v := ps.serve.toNat
    match (s.readyTx p v).filter (fun x => decide (pktFlits x.pkt ≤ vget ps.deficit v 0)) with
    | some x => some (x, ps.serve, vput ps.deficit v (vget ps.deficit v 0 - pktFlits x.pkt))
    | none =>
      let idle := if ps.txq.any (fun x => x.pkt.vc.toNat == v) then ps.deficit else vput ps.deficit v 0
      (((List.range 8).map (fun i => (v + 1 + i) % 8)).find? (fun w => (s.readyTx p w).isSome)).bind (fun w =>
        (s.readyTx p w).map (fun x => (x, BitVec.ofNat 3 w, vput idle w (vget idle w 0 + 5 - pktFlits x.pkt))))

/-- Send waiting packets of a port while one may go. -/
def drainSome (p : PortId) : Nat → State → State
  | 0, s => s
  | n + 1, s =>
    match s.nextTx p with
    | none => s
    | some (x, v, d) =>
      drainSome p n ((s.setPort p (fun ps => { ps with
        txq := ps.txq.eraseP (fun y => y.pkt.vc == x.pkt.vc), serve := v, deficit := d })).transmit p x)

/-- Send every waiting packet of a port that its credits now allow, in order within each VC (11 R392, R393). -/
def drainTx (s : State) (p : PortId) : State := drainSome p (s.port p).txq.length s

/-- Queue a packet on a port and send what its credits allow; from' is the port it came in on. -/
def State.sendFrom (s : State) (from' : Option PortId) (p : PortId) (k : Packet) : State :=
  if (s.port p).up then drainTx (s.setPort p (fun ps => { ps with txq := ps.txq ++ [{ pkt := k, from' := from' }] })) p else s.owe from' k

/-- Queue a packet of this module on a port and send what its credits allow. -/
def State.sendOn (s : State) (p : PortId) (k : Packet) : State := s.sendFrom none p k

/-- The ports of a mask that are up, in rising order. -/
def State.upPorts (s : State) (m : BitVec 24) : List PortId :=
  (List.finRange 24).filter (fun p => m.getLsbD p.val && (s.port p).up)

/-- Whether a port has at least a quarter of its credits free on a VC (11 R404). -/
def State.quarter (s : State) (vc : Nat) (p : PortId) : Bool := decide (vcRoom vc ≤ 4 * vget (s.port p).credit vc 0)

/-- The port a packet takes, with the choice the spec leaves to an adaptive VC free: a minimal port with free credits, or, when every minimal
port has less than a quarter of its credits free, a non-minimal one; when none has credits, the packet waits in the escape sub-channel of its
VC, which follows the deterministic route (11 R393, R404; log 84). -/
def State.route (s : State) (k : Packet) : Option PortId × State :=
  match s.catOf k.dcall.toNat with
  | none => (none, s)
  | some e =>
    let det := if (s.port e.det).up then some e.det else none
    if e.state == .withdrawn then (none, s)
    else if vcAdaptive k.vc.toNat then
      let mins := s.upPorts e.minPorts
      let far := if mins.all (fun p => !s.quarter k.vc.toNat p) then s.upPorts e.nonMin else []
      match (mins ++ far).filter (fun p => s.canSend p k) with
      | [] => (det.or (mins ++ s.upPorts e.nonMin).head?, s)
      | [p] => (some p, s)
      | p :: ps =>
        let f := s.freeNext
        (some (nth p (p :: ps) (f.1 % (ps.length + 1))), f.2)
    else (det, s)

/-- A packet as the endpoint sends it: own call number and edition, the edition expected of the destination, PCRC (11 R429). -/
def State.stamp (s : State) (k : Packet) : Packet :=
  let key := if planType k.ty then k.jobkey else BitVec.ofNat 16 (fld s.fab.ctl 0 16)
  let k := { k with scall := BitVec.ofNat 20 s.call }
  let k := if k.dcall = 0xFFFFF#20 then k
    else { k with sed := BitVec.ofNat 16 s.edition, ded := BitVec.ofNat 16 (s.catEd k.dcall.toNat), jobkey := key }
  { k with pcrc := pktP k }

/-- Type numbers of 11 R391. -/
def tyRDREQ : BitVec 5 := 0x01
/-- RDRESP. -/
def tyRDRESP : BitVec 5 := 0x02
/-- WRREQ. -/
def tyWRREQ : BitVec 5 := 0x03
/-- WRACK. -/
def tyWRACK : BitVec 5 := 0x04
/-- ATOMREQ. -/
def tyATOMREQ : BitVec 5 := 0x05
/-- ATOMRESP. -/
def tyATOMRESP : BitVec 5 := 0x06
/-- REFUSE. -/
def tyREFUSE : BitVec 5 := 0x07
/-- WATCHREL. -/
def tyWATCHREL : BitVec 5 := 0x08
/-- WATCHBREAK. -/
def tyWATCHBREAK : BitVec 5 := 0x09
/-- REDUCE. -/
def tyREDUCE : BitVec 5 := 0x10
/-- MCAST. -/
def tyMCAST : BitVec 5 := 0x11
/-- HARRIVE. -/
def tyHARRIVE : BitVec 5 := 0x12
/-- HRELEASE. -/
def tyHRELEASE : BitVec 5 := 0x13
/-- HELLO. -/
def tyHELLO : BitVec 5 := 0x18
/-- LIVE. -/
def tyLIVE : BitVec 5 := 0x19
/-- PROBE. -/
def tyPROBE : BitVec 5 := 0x1A
/-- PROBERESP. -/
def tyPROBERESP : BitVec 5 := 0x1B
/-- MGMT. -/
def tyMGMT : BitVec 5 := 0x1C
/-- LEDGER. -/
def tyLEDGER : BitVec 5 := 0x1D

/-- Whether a packet is a request, which a router refuses in place of dropping (11 R404, R405). -/
def pktIsReq (k : Packet) : Bool := k.ty == tyRDREQ || k.ty == tyWRREQ || k.ty == tyATOMREQ

/-- Send a packet by its destination's route; one without a route is dropped and counted, unless it is a request. The router checks its own
endpoint's edition too; an endpoint whose call number has a newer edition is fenced when the catalogue takes effect, before it sends
(11 R404, R430, R433). -/
def State.emit (s : State) (k : Packet) : State :=
  let k := s.stamp k
  if k.dcall ≠ 0xFFFFF#20 ∧ s.overtaken k.scall.toNat k.sed.toNat then s.stale
  else match s.route k with
  | (some p, s1) => s1.sendOn p k
  | (none, s1) => if pktIsReq k then s1 else s1.drop

/-- Send a packet from the endpoint: a fenced endpoint sends only MGMT (11 R433). -/
def State.send (s : State) (k : Packet) : State := if s.feState = 3 ∧ k.ty ≠ tyMGMT then s else s.emit k

end Sys2Proof.Machine
end

