-- ==== Sys2Proof/Machine/Vote.lean ====
section
/-! DEFINITION. Machine/Vote.lean: the seal vote: the vote word, its combination, sending it up the seal tree, and the decision
at the root (12 R447 to R450, R462). -/

namespace Sys2Proof.Machine

/-- The children of the seal tree in LG_KIDS order: call number, and whether it is a listener (12 R447, R468). -/
def LedState.kidList (l : LedState) : List (Nat × Bool) :=
  (List.range (min 12 (fld l.tree 21 4))).map (fun j => (fld (vget l.kids (j / 3) 0) (20 * (j % 3)) 20, bit (vget l.kids (j / 3) 0) (60 + j % 3)))

/-- The voting children, in order. -/
def LedState.voting (l : LedState) : List Nat := (l.kidList.filter (fun k => !k.2)).map (fun k => k.1)

/-- LG_STAT.STATE: 0 IDLE, 1 OPEN, 2 VOTED, 3 POST (12 R446). -/
def LedState.st (l : LedState) : Nat := fld l.stat 0 3

/-- LG_TREE.ROOT. -/
def LedState.root (l : LedState) : Bool := bit l.tree 20

/-- The ledger engine takes part: it is enabled, and so is FN7 (12 R468, 15 R555). -/
def State.ledOn (s : State) : Bool := bit s.led.ctl 0 && vget s.cur.fns 7 .enabled == .enabled

/-- It is a voting member that takes part (12 R447). -/
def State.ledVotes (s : State) : Bool := s.ledOn && bit s.led.ctl 7

/-- Send a LEDGER message: kind in PLAN, step in TAG, first tag in OFFSET (12 R462). -/
def sendLed (s : State) (kind call : Nat) (step : U64) (first : Nat) (bs : List Byte) : State :=
  s.send { pktEmpty with
    ty := tyLEDGER, vc := 7, dcall := BitVec.ofNat 20 call, plan := BitVec.ofNat 12 kind, tag := BitVec.ofNat 32 step.toNat,
    w2 := n64 first, body := .flits (padFlits bs) }

/-- Send a LEDGER message to several modules. -/
def sendLeds (s : State) (kind : Nat) (step : U64) (first : Nat) (bs : List Byte) (calls : List Nat) : State :=
  calls.foldl (fun s c => sendLed s kind c step first bs) s

/-- Bits [9:0] of the module's own vote word (12 R448). -/
def State.ownWord (s : State) : Nat :=
  let cc := s.cores.toList.take 128
  let nonfin := fld s.led.loss 23 8 == 255 && !bit s.led.ctl 5
  b01 (cc.any (fun k => bit k.tile.mgstat 0)) + b01 nonfin <<< 1 + b01 (s.led.voteMc || cc.any (fun k => bit k.tile.tustat 1)) <<< 2
    + b01 s.led.voteStop <<< 3 + b01 s.led.dirty <<< 4 + b01 (s.led.markNonrep || cc.any (fun k => k.ex.nonrep)) <<< 8 + b01 s.led.notrep <<< 9

/-- A vote word is dirty when any of bits [7:0] is 1 (12 R448). -/
def dirtyWord (w : U64) : Bool := fld w 0 8 != 0

/-- The sum of two FP64 losses (12 R449). -/
def addLoss (a b : U64) : U64 := n64 (deliver fp64 .rne ((decodeF fp64 a.toNat).add false (decodeF fp64 b.toNat))).1

/-- The module's own vote: its loss widened exactly (12 R449). -/
def State.ownVote (s : State) : VoteVal :=
  { word := n64 s.ownWord, loss := n64 (deliver fp64 .rne (decodeF fp32 (fld s.led.loss 0 32))).1, tokens := n64 (fld s.led.loss 32 32), members := 1 }

/-- Two votes together (12 R449). -/
def VoteVal.join (a b : VoteVal) : VoteVal :=
  { word := a.word ||| b.word, loss := addLoss a.loss b.loss, tokens := a.tokens + b.tokens, members := a.members + b.members }

/-- The combined vote: the own one and, in child order, those of the voting children that have come (12 R449, R450). -/
def State.combined (s : State) : VoteVal :=
  s.led.voting.foldl (fun a c => match s.led.kidVotes.find? (fun v => v.1 == c) with
    | some v => a.join v.2
    | none => a) s.ownVote

/-- Decide the outcome at the root, or take it over from the parent: it goes to every child at once (12 R449, R451). -/
def takeOutcome (s : State) (v : VoteVal) (t : U64) : State :=
  let s := { s with led := { s.led with outcome := some { replay := dirtyWord v.word, vote := v, time := t }, voted := true, votedDirty := true } }
  sendLeds s 2 s.led.step 0 (wordBytes [v.word, t, v.loss, v.tokens, v.members]) (s.led.kidList.map (fun k => k.1))

/-- Send the vote to the parent, or decide at the root (12 R449, R450). -/
def castVote (s : State) : State :=
  let v := s.combined
  if s.led.root then takeOutcome s v (s.hall.now + n64 (fld s.led.time 0 32))
  else
    let s := { s with led := { s.led with voted := true, votedDirty := dirtyWord v.word } }
    sendLed s 1 (fld s.led.tree 0 20) s.led.step 0 (wordBytes [v.word, v.loss, v.tokens, v.members])

/-- The open step still takes a dirty vote: none has been sent, and no outcome is known or being applied (12 R449, R450; log 85). -/
def State.voteOpen (s : State) : Bool :=
  s.ledVotes && s.led.st != 0 && !s.led.votedDirty && s.led.outcome.isNone && s.led.quiet.isNone && s.led.window.isNone

/-- A dirty vote through UE or STOP goes at once while EARLY is 1, even after a clean one (12 R450). -/
def earlyVote (s : State) : State :=
  if s.voteOpen && bit s.led.ctl 6 && fld (n64 s.ownWord) 2 2 != 0 then castVote s else s

/-- A dirty vote whose cause came while no vote could be sent goes as soon as one can (12 R450; log 85). -/
def lateVote (s : State) : State :=
  if s.voteOpen && s.led.kidVotes.any (fun v => dirtyWord v.2.word) then castVote s
  else if s.led.voteMc || s.led.voteStop then earlyVote s else s

/-- An agent of the module consumes poisoned data: the module's vote is not clean (08 R293, 12 R448). -/
def consumed (s : State) (bad : Bool) : State := if bad then earlyVote { s with led := { s.led with voteMc := true } } else s

end Sys2Proof.Machine
end

