-- ==== Sys2Proof/Machine/Mem.lean ====
section
/-! DEFINITION. Machine/Mem.lean: memory at its home: reads and writes, poison, speculative tasks and
the watches of other modules (08 R284, R292 to R294, R302, R309 to R314; 11 R411). -/

namespace Sys2Proof.Machine

/-- A byte of memory at its home: what was last written, 0 where nothing has been (08 R294, 16 R564; log 3). -/
def State.byte (s : State) (pa : Nat) : Byte := spGet 0 s.mem pa

/-- n bytes of memory at their home. -/
def State.bytes (s : State) (pa n : Nat) : List Byte := spRead 0 s.mem pa n

/-- Whether any word of a range is poisoned (08 R293). -/
def State.poisoned (s : State) (pa n : Nat) : Bool := (wordsOf pa n).any (fun w => s.poison.contains w)

/-- Poison after a write of n bytes: a word wholly covered is no longer poisoned, a word partly covered stays (08 R293). -/
def clearPoison (p : List Nat) (pa n : Nat) : List Nat := p.filter (fun w => !(decide (pa ≤ 8 * w) && decide (8 * w + 8 ≤ pa + n)))

/-! ### Tasks -/

/-- A core's task by number. -/
def Core.task (k : Core) (t : Nat) : Task := vget k.mm.tasks t Task.none
/-- A core with a task replaced. -/
def Core.setTask (k : Core) (t : Nat) (f : Task → Task) : Core := { k with mm := { k.mm with tasks := vput k.mm.tasks t (f (k.task t)) } }

/-- The number of the open task, if one is open (08 R309). -/
def Core.openTask (k : Core) : Option Nat := (List.range 4).find? (fun t => (k.task t).st == .opened)

/-- Tasks of a core that exist, youngest first, from the one with number t downward in age (08 R310). -/
def Core.taskStack (k : Core) (t : Nat) : List Task :=
  let me := k.task t
  sortBy (fun a b => decide (b.ord ≤ a.ord)) (((List.range 4).map k.task).filter (fun x => x.st != .free && decide (x.ord ≤ me.ord)))

/-- The held byte of the youngest of the listed tasks that holds one. -/
def heldByte : List Task → Nat → Option Byte
  | [], _ => none
  | t :: ts, a => match spGet none t.writes a with
    | some b => some b
    | none => heldByte ts a

/-- Whose view a read takes: nobody's (ordinary contents), or that of a core's task (08 R310, R311). -/
abbrev View := Option (CoreId × Nat)

/-- Whether a task holds every byte of a 64-bit word. -/
def Task.holdsWord (t : Task) (w : Nat) : Bool := (rng (8 * w) 8).all (fun a => (spGet Option.none t.writes a).isSome)

/-- Whether a word is poisoned for the listed tasks, youngest first: held bytes carry their own poison, and a word held whole hides that
of its home (08 R293, R310). -/
def viewPoisoned (s : State) : List Task → Nat → Bool
  | [], w => s.poison.contains w
  | t :: ts, w => t.pois.contains w || (!t.holdsWord w && viewPoisoned s ts w)

/-- Whether any word of a range is poisoned as an agent sees it (08 R293, R310). -/
def State.poisonedFor (s : State) (v : View) (pa n : Nat) : Bool :=
  match v with
  | none => s.poisoned pa n
  | some (c, t) => (wordsOf pa n).any (viewPoisoned s ((s.core c).taskStack t))

/-- n bytes of memory as an agent sees them: merged with the held bytes of its task and of that core's earlier tasks. -/
def State.view (s : State) (v : View) (pa n : Nat) : List Byte :=
  match v with
  | none => s.bytes pa n
  | some (c, t) =>
    let st := (s.core c).taskStack t
    (rng pa n).map (fun a => (heldByte st a).getD (s.byte a))

/-- An engine whose stream has ended, with END and REASON: nothing of it remains in flight (09 R340, R356). -/
def StreamEng.ended (e : StreamEng) (fin reason : Nat) : StreamEng :=
  { e with
    stat := setFld (setFld (setFld e.stat 0 2 0) 7 2 fin) 16 8 reason, hrec := setBit e.hrec 24 false,
    blocks := [], faults := [], inflight := none, cancelled := false, ending := none, poisoned := false, recPend := false, hlog := [] }

/-- Engine e of a core (09 R320). -/
def Core.eng (k : Core) (e : Nat) : StreamEng := vget k.str.eng e StreamEng.reset
/-- A core with an engine changed. -/
def Core.modEng (k : Core) (e : Nat) (f : StreamEng → StreamEng) : Core :=
  { k with str := { k.str with eng := vput k.str.eng e (f (k.eng e)) } }

/-- A pair word with one added to FILL (side false) or FREE; beyond 0xFFFF it stays and OVF is set (09 R341). -/
def pairAdd (w : U64) (side : Bool) (n : Nat) : U64 :=
  let lo := if side then 16 else 0
  let x := fld w lo 16 + n
  if 0xFFFF < x then setBit (setFld w lo 16 0xFFFF) 33 true else setFld w lo 16 x

/-- Change a semaphore pair of a core. -/
def Core.modPair (k : Core) (p : Nat) (f : U64 → U64) : Core :=
  { k with str := { k.str with sem := vput k.str.sem p (f (vget k.str.sem p 0)) } }

/-- FREE units taken by blocks that do not complete go back to their pairs (09 R356). -/
def giveBack (bs : List BlockProg) (k : Core) : Core :=
  bs.foldl (fun k b => if b.freeTaken then k.modPair (fld (nth 0 b.ws 13) 0 3) (fun w => pairAdd w true 1) else k) k

/-- Drop the hall requests of engines of a core whose streams have ended: their answers go nowhere (09 R356). -/
def reapReqs (s : State) (c : CoreId) : State :=
  { s with fab := { s.fab with reqs := s.fab.reqs.filter (fun q => match q.who with
      | .stream c' e => !(c' == c && fld ((s.core c).eng e).stat 0 2 == 0)
      | _ => true) } }

/-- Cancel the streams of a task as SCANCEL does, without a record (08 R314, 09 R358). -/
def cancelTaskStreams (t : Nat) (k : Core) : Core :=
  (List.range 2).foldl (fun k e =>
    if fld (k.eng e).stat 0 2 ≠ 0 && fld (k.eng e).stat 4 1 = 1 && fld (k.eng e).stat 5 2 = t && (k.eng e).tord = (k.task t).ord then
      (giveBack (k.eng e).blocks k).modEng e (fun x => x.ended 1 0)
    else k) k

/-- Send WATCHREL for each watch of a task (08 R314, 11 R411). -/
def relWatches (s : State) : List (Nat × Nat × Nat) → State
  | [] => s
  | w :: ws => relWatches (s.send { pktEmpty with
      ty := tyWATCHREL, vc := 0, dcall := BitVec.ofNat 20 w.1, w2 := n64 (w.2.1 * 128), tag := BitVec.ofNat 32 w.2.2 }) ws

/-- Cancel the gather jobs of a task, without a record or a signal (10 R385). -/
def dropTaskJobs (s : State) (c : CoreId) (t : Nat) : State :=
  let gone := (s.gather.jobs.filter (fun j => j.core == c && j.task == some t && j.tord == ((s.core c).task t).ord)).map (fun j => j.id)
  { s with gather := { s.gather with
      jobs := s.gather.jobs.filter (fun j => !gone.contains j.id),
      queue := vmap (fun q => q.filter (fun i => !gone.contains i)) s.gather.queue } }

/-- Abort a task with a reason code (08 R312, R314). What its core goes on to do for it before the redirection, in the same instruction, is
discarded too (Core.accTask). -/
def abortTask (s : State) (c : CoreId) (t reason : Nat) : State :=
  let k := s.core c
  let x := k.task t
  if x.st == .free then s
  else
    let s := relWatches s x.watches
    let s := dropTaskJobs s c t
    reapReqs (s.modCore c (fun k =>
      let k := cancelTaskStreams t (k.setTask t (fun x => { Task.none with ord := x.ord, committed := false }))
      { k with mm := { k.mm with
          aborted := k.mm.aborted ||| (BitVec.ofNat 4 (1 <<< t)), reason := BitVec.ofNat 3 reason,
          redirect := if x.st == .opened then some (x.ring, x.abortAt) else k.mm.redirect } })) c

/-- Abort a list of tasks. -/
def abortTasks (s : State) (reason : Nat) : List (CoreId × Nat) → State
  | [] => s
  | x :: xs => abortTasks (abortTask s x.1 x.2 reason) reason xs

/-- Whether a task has read or written one of the lines. -/
def Task.touches (t : Task) (ls : List Nat) : Bool :=
  t.st != .free && (t.reads.any (fun l => ls.contains l) || t.writes.any (fun w => ls.contains (w.1 / 128)))

/-- The tasks a write to these lines aborts; not those of the core named (08 R312). -/
def State.conflicts (s : State) (except : Option CoreId) (ls : List Nat) : List (CoreId × Nat) :=
  (List.finRange 144).flatMap (fun c => if except == some c then [] else
    ((List.range 4).filter (fun t => ((s.core c).task t).touches ls)).map (fun t => (c, t)))

/-! ### Writes at their home -/

/-- Send WATCHBREAK for each inbound watch on the lines and drop those watches (11 R411). -/
def breakWatches (s : State) (ls : List Nat) : State :=
  let hit := s.fab.watches.filter (fun w => ls.contains w.line)
  let s := { s with fab := { s.fab with watches := s.fab.watches.filter (fun w => !ls.contains w.line) } }
  hit.foldl (fun s w => s.send { pktEmpty with
    ty := tyWATCHBREAK, vc := 1, dcall := w.scall, tag := w.tag, w2 := n64 (w.line * 128) }) s

/-- Only the bytes and the poison of a write at its home. -/
def State.poke (s : State) (pa : Nat) (bs : List Byte) : State :=
  { s with mem := spSetAll 0 s.mem pa bs, poison := clearPoison s.poison pa bs.length }

/-- A write that reaches its home (08 R297, R302): bytes, poison, the sectors of its L2 slice, other cores' L1Ds, tasks in conflict, watches.
own is the writing core's number; except is the core whose tasks the write does not abort (08 R312). -/
def homeWrite (s : State) (own except : Option CoreId) (pa : Nat) (bs : List Byte) : State :=
  let ls := linesOf pa bs.length
  let s := l2Touch (s.poke pa bs) pa bs.length true
  let s := invalL1D s own pa bs.length
  let s := abortTasks s 1 (s.conflicts except ls)
  breakWatches s ls

/-- Write several runs of bytes at their home. -/
def homeWrites (s : State) (own except : Option CoreId) : List (Nat × List Byte) → State
  | [] => s
  | w :: ws => homeWrites (homeWrite s own except w.1 w.2) own except ws

/-- Mark the words of a range poisoned: poison travels with the data (08 R293). -/
def State.addPoison (s : State) (pa n : Nat) : State := { s with poison := (wordsOf pa n).foldl (fun p w => setAdd w p) s.poison }

/-- The 32-byte sectors a core's tasks hold (08 R312, R319 WSECT). -/
def Core.sectors (k : Core) : List Nat :=
  ((List.range 4).flatMap (fun t => (k.task t).writes.map (fun w => w.1 / 32))).foldl (fun l x => setAdd x l) []

/-- The lines in a core's read sets (08 R319 RLINES). -/
def Core.readLines (k : Core) : List Nat :=
  ((List.range 4).flatMap (fun t => (k.task t).reads)).foldl (fun l x => setAdd x l) []

/-- Speculative sectors a slice holds over all cores (08 R312). -/
def State.sliceSectors (s : State) (sl : Nat) : Nat :=
  ((List.finRange 144).map (fun c => ((s.core c).sectors.filter (fun x => sliceOf s.plat.quadLocal (32 * x) == sl)).length)).sum

/-- The poisoned words of a task after a write of n bytes at pa: a word wholly written is no longer poisoned, a poisoned one partly written
stays so (08 R293). -/
def State.taskPois (s : State) (c : CoreId) (t pa n : Nat) : List Nat :=
  (wordsOf pa n).foldl (fun p w =>
    if decide (pa ≤ 8 * w) && decide (8 * w + 8 ≤ pa + n) then setDel w p
    else if viewPoisoned s ((s.core c).taskStack t) w then setAdd w p else p) ((s.core c).task t).pois

/-- A speculative write of a task: its bytes are held; a capacity exceeded aborts the task. What is written for a task that has been aborted
is discarded (08 R310 to R312, R314). -/
def taskWrite (s : State) (c : CoreId) (t pa : Nat) (bs : List Byte) : State :=
  if ((s.core c).task t).st == .free then s
  else
  let s1 := s.modCore c (fun k => k.setTask t (fun x =>
    { x with writes := spSetAll none x.writes pa (bs.map some), pois := s.taskPois c t pa bs.length }))
  let full := decide (8192 < (s1.core c).sectors.length) ||
    ((linesOf pa bs.length).any (fun l => decide (32768 < s1.sliceSectors (sliceOf s.plat.quadLocal (128 * l)))))
  if full then abortTask s c t 2 else s1

/-- A read of a task is tracked by line; a capacity exceeded aborts the task (08 R310, R312). -/
def taskRead (s : State) (c : CoreId) (t pa n : Nat) : State :=
  if ((s.core c).task t).st == .free then s
  else
  let s1 := s.modCore c (fun k => k.setTask t (fun x => { x with reads := (linesOf pa n).foldl (fun l x => setAdd x l) x.reads }))
  if 8192 < (s1.core c).readLines.length then abortTask s c t 2 else s1

/-- A write by a core or by an engine of it, in a task or not (08 R310). -/
def agentWrite (s : State) (c : CoreId) (own : Bool) (task : Option Nat) (pa : Nat) (bs : List Byte) : State :=
  match task with
  | some t => taskWrite s c t pa bs
  | none => homeWrite s (if own then some c else none) none pa bs

/-- A tracked read by a core or by an engine of it (08 R310). -/
def agentTrack (s : State) (c : CoreId) (task : Option Nat) (pa n : Nat) : State :=
  match task with
  | some t => taskRead s c t pa n
  | none => s

/-- A tracked read that goes to the home slices directly: tile unit, streams and gathers (08 R296, R310). -/
def agentRead (s : State) (c : CoreId) (task : Option Nat) (pa n : Nat) : State := l2Touch (agentTrack s c task pa n) pa n false

/-- Poison travels with data an agent writes, into a task's held bytes or to the home (08 R293). -/
def agentPoison (s : State) (c : CoreId) (task : Option Nat) (pa n : Nat) : State :=
  match task with
  | some t => if ((s.core c).task t).st == .free then s
    else s.modCore c (fun k => k.setTask t (fun x => { x with pois := (wordsOf pa n).foldl (fun p w => setAdd w p) x.pois }))
  | none => s.addPoison pa n

/-- The runs of a task's held bytes in rising order of address. -/
def heldRuns : List (Nat × Option Byte) → List (Nat × List Byte)
  | [] => []
  | (a, b) :: m =>
    match heldRuns m with
    | (a', bs) :: r => if a + 1 = a' then (a, b.getD 0 :: bs) :: r else (a, [b.getD 0]) :: (a', bs) :: r
    | [] => [(a, [b.getD 0])]

/-! ### Machine checks -/

/-- Raise machine check on a core with EINFO source and address, and spoil the module's vote (08 R293, 07 R277, R278). -/
def machineCheck (s : State) (c : CoreId) (source : Nat) (addr : Nat) : State :=
  let s := s.modCore c (fun k => { k with rr := { k.rr with
    xpend := setBit k.rr.xpend 4 true, mcInfo := n64 (source + addr % 2 ^ 56 * 256) } })
  earlyVote { s with led := { s.led with voteMc := true } }

/-! ### Barriers and pairs -/

/-- One arrival at a module barrier; the last of COUNT releases it (09 R344). -/
def arriveBarrier (s : State) (b : Nat) : State :=
  let x := vget s.barriers b Barrier.reset
  let y := if x.count.toNat ≤ x.arr.toNat + 1 then { x with arr := 0, gen := x.gen + 1 } else { x with arr := x.arr + 1 }
  { s with barriers := vput s.barriers b y }

/-- Add n to a side of a core's pair. -/
def signalPair (s : State) (c : CoreId) (p : Nat) (side : Bool) (n : Nat) : State :=
  s.modCore c (fun k => k.modPair p (fun w => pairAdd w side n))

/-- Saturating addition of counts in a counter set (04 R155). -/
def addSat (w : Nat) (a b : BitVec w) : BitVec w := if a.toNat + b.toNat < 2 ^ w then a + b else BitVec.ofNat w (2 ^ w - 1)

/-- The larger of two FP32 amax codes: both are positive, so their codes order as their values (04 R155). -/
def maxAmax (a b : BitVec 32) : BitVec 32 := if a.toNat < b.toNat then b else a

/-- Two counts together. -/
def Counts.add (a b : Counts) : Counts :=
  { elems := addSat 48 a.elems b.elems, sat := addSat 32 a.sat b.sat, flush := addSat 32 a.flush b.flush,
    nan := addSat 32 a.nan b.nan, amax := maxAmax a.amax b.amax }

/-- Add counts to a channel set and to an output format's set (04 R155). -/
def NumRegs.count (n : NumRegs) (chan fmt : Nat) (x : Counts) : NumRegs :=
  { n with
    chans := vput n.chans chan ((vget n.chans chan Counts.zero).add x),
    fmts := vput n.fmts fmt ((vget n.fmts fmt Counts.zero).add { x with amax := 0 }) }

/-- Counts of a converting operation of a core: held with its task, or added at once (04 R155, R156). -/
def addCounts (s : State) (c : CoreId) (task : Option Nat) (chan fmt : Nat) (x : Counts) : State :=
  s.modCore c (fun k => match task with
    | some t => if (k.task t).st == .free then k else k.setTask t (fun q => { q with counts := q.counts ++ [(chan, fmt, x)] })
    | none => { k with num := k.num.count chan fmt x })

/-- A signal of a stream or gather takes effect (09 R328, R341, R344). -/
def doSignal (s : State) (c : CoreId) (g : Signal) : State :=
  match g with
  | .fill p => signalPair s c p false 1
  | .barrier b => arriveBarrier s b
  | .record a bs => homeWrite s none none a bs

/-- A signal of a stream or gather: held with its task, or taking effect at once (09 R358, 10 R385). -/
def signal (s : State) (c : CoreId) (task : Option Nat) (g : Signal) : State :=
  match task with
  | some t => s.modCore c (fun k => k.setTask t (fun q => { q with signals := q.signals ++ [g] }))
  | none => doSignal s c g

/-- What a task that commits leaves: its bytes become ordinary, its counts are added, its signals take effect (08 R313, 04 R156, 09 R358). -/
def landTask (s : State) (c : CoreId) (x : Task) : State :=
  let s := relWatches s x.watches
  let s := homeWrites s (some c) (some c) (heldRuns x.writes)
  let s := { s with poison := x.pois.foldl (fun p w => setAdd w p) s.poison }
  let s := x.counts.foldl (fun s q => addCounts s c none q.1 q.2.1 q.2.2) s
  x.signals.foldl (fun s g => doSignal s c g) s

/-- Commit tasks that commit at one instant, in this order: none of them aborts another (08 R313). -/
def commitTasks (s : State) (xs : List (CoreId × Nat)) : State :=
  let held := xs.map (fun x => (x.1, (s.core x.1).task x.2))
  let s := xs.foldl (fun s x => s.modCore x.1 (fun k => k.setTask x.2 (fun q => { Task.none with ord := q.ord, committed := true }))) s
  held.foldl (fun s x => landTask s x.1 x.2) s

/-- Whether a step has sealed (12 R468 LG_LAST). -/
def State.sealedStep (s : State) (n : U64) : Bool := s.led.sealed && decide (n.toNat ≤ s.led.last.toNat)

/-- Whether an ended task may commit: its step, or a later one, has sealed, or is all ones (08 R313). -/
def State.due (s : State) (x : Task) : Bool := x.st == .ended && (x.step == 0xFFFFFFFFFFFFFFFF#64 || s.sealedStep x.step)

/-- The tasks of a core that commit now, oldest first. DEDUCED (log 78): tasks commit in the order they were opened, so a task waits for
every task of its core opened before it (08 R312, R313). -/
def State.dueTasks (s : State) (c : CoreId) : List Nat :=
  let k := s.core c
  (sortBy (fun a b => decide ((k.task a).ord ≤ (k.task b).ord)) ((List.range 4).filter (fun t => (k.task t).st != .free))).takeWhile
    (fun t => s.due (k.task t))

/-- Commit what is due on a core (08 R313). -/
def settleDue (s : State) (c : CoreId) : State := commitTasks s ((s.dueTasks c).map (fun t => (c, t)))

end Sys2Proof.Machine
end

