-- ==== Sys2Proof/Machine/Notice.lean ====
section
/-! DEFINITION. Machine/Notice.lean: notices of the Curator and the event they raise at a core (15 R535, R553). -/

namespace Sys2Proof.Machine

/-- Hall time as records carry it: 0 while hall time is not synchronised (11 R426). -/
def State.hallt (s : State) : U64 := if bit s.hall.stat 0 then s.hall.now else 0

/-- Set XPEND.CN of a core; a number that names no core is ignored (07 R278). -/
def raiseCN (s : State) (n : Nat) : State :=
  if h : n < 144 then s.modCore ⟨n, h⟩ (fun k => { k with rr := { k.rr with xpend := setBit k.rr.xpend 2 true } }) else s

/-- A mailbox. -/
def State.box (s : State) (mb : Nat) : Mailbox := vget s.cur.mail mb Mailbox.reset
/-- A mailbox changed. -/
def State.modBox (s : State) (mb : Nat) (f : Mailbox → Mailbox) : State :=
  { s with cur := { s.cur with mail := vput s.cur.mail mb (f (s.box mb)) } }

/-- Queue a notice at a mailbox: at most 32; one that finds the queue full sets NOVF (15 R553). -/
def queueNotice (s : State) (mb : Nat) (n : Notice) : State :=
  let m := s.box mb
  if m.notes.length < 32 then
    let s1 := s.modBox mb (fun m => { m with notes := m.notes ++ [n] })
    if bit m.ctl 1 then raiseCN s1 (fld m.ctl 2 8) else s1
  else s.modBox mb (fun m => { m with stat := setBit m.stat 4 true })

/-- A notice of a kind with its unit and arguments, stamped with hall time (15 R553). -/
def mkNotice (s : State) (kind unit : Nat) (a0 a1 : U64) : Notice :=
  { kind := BitVec.ofNat 8 kind, unit := BitVec.ofNat 8 unit, hallt := s.hallt, arg0 := a0, arg1 := a1 }

/-- The owner's mailbox, MB1 when there is none (15 R546, R553). -/
def State.ownerBox (s : State) : Nat := match s.cur.owner with
  | some o => fld o.key 0 3
  | none => 1

/-- Post an owner-directed notice: at the owner's mailbox, at MB1 when there is none (15 R553). -/
def ownerNotice (s : State) (kind unit : Nat) (a0 a1 : U64) : State := queueNotice s s.ownerBox (mkNotice s kind unit a0 a1)

/-- A stop reason's number in a stop record (15 R559). -/
def stopCode : StopReason → Nat
  | .mask => 0
  | .spill => 1
  | .refill => 2
  | .command => 3
  | .fence => 4

/-- The first word of a stop record (15 R559). -/
def stopWord (r : StopRec) : U64 :=
  n64 (r.cause.toNat + r.subc.toNat <<< 8 + r.ring.toNat <<< 16 + r.bank.toNat <<< 18 + stopCode r.reason <<< 20 + b01 r.valid <<< 23)

/-- A core's current bank. -/
def Core.bank (k : Core) : Bank := k.rr.banks.get k.rr.cur.toFin
/-- A core's program counter. -/
def Core.pc (k : Core) : U64 := k.bank.pc
/-- A core's current ring. -/
def Core.ring (k : Core) : Nat := k.bank.ring.toNat
/-- A core's current bank changed. -/
def Core.setBank (k : Core) (f : Bank → Bank) : Core :=
  { k with rr := { k.rr with banks := k.rr.banks.set k.rr.cur.toNat (f k.bank) k.rr.cur.isLt } }

/-- Stop a core, with a record of why (07 R276, 15 R559); what it executed and has not retired is discarded. -/
def stopCore (s : State) (c : CoreId) (reason : StopReason) (cause subc : Nat) (pc : U64) : State :=
  s.modCore c (fun k =>
    { k with tile := { k.tile with waitPair := if reason = .command then k.tile.waitPair else none }, ex := { k.ex with
        run := .stopped reason, maskFrom := none, wdPosted := false, hlog := [], hwait := none,
        stop := { valid := true, cause := BitVec.ofNat 8 cause, subc := BitVec.ofNat 8 subc, pc := pc, ring := k.bank.ring,
                  bank := k.rr.cur, reason := reason, time := s.hallt } } })

/-- Stop a core on fault: the vote's STOP bit and a STOP notice to the owner (07 R276, 15 R553). -/
def stopOnFault (s : State) (c : CoreId) (reason : StopReason) (cause subc : Nat) (pc : U64) : State :=
  let s := stopCore s c reason cause subc pc
  let s := earlyVote { s with led := { s.led with voteStop := true } }
  ownerNotice s 4 c.val (stopWord (s.core c).ex.stop) 0

/-- Halt a core for debug before the instruction at its PC, reported through MB7 (06 R254, 15 R553). -/
def haltCore (s : State) (c : CoreId) : State :=
  let s := s.modCore c (fun k => { k with ex := { k.ex with run := .halted, maskFrom := none, wdPosted := false } })
  queueNotice s 7 (mkNotice s 5 c.val (s.core c).pc 0)

end Sys2Proof.Machine
end

