-- ==== Sys2Proof/Machine/Time.lean ====
section
/-! DEFINITION. Machine/Time.lean: the passing of time: module time, hall time with its corrections by rate, and the clk
counts of the quadrants and the hub (11 R421, 14 R508, R524). -/

namespace Sys2Proof.Machine

/-- PW_CTL.FIXED. -/
def PowState.fixed (p : PowState) : Bool := bit p.ctl 0

/-- Whether a cap, limiter or thermal stretch is in effect (14 R515). -/
def PowState.stretched (p : PowState) : Bool := p.full || p.lim != 0 || p.capStr != 0 || p.thStr != 0

/-- NOTREP of a step as it opens (14 R515). -/
def PowState.notrepNow (p : PowState) : Bool := !p.fixed || p.stretched

/-- The share of the step that opens: the one set for it, if the batch-share policy is on (14 R522). -/
def PowState.openShare (p : PowState) : PowState :=
  match bit p.ctl 2, p.nextTok with
  | true, some t => { p with share := n64 (t % 2 ^ 32 + 2 ^ 32), nextTok := none }
  | _, _ => p

/-- The stretch depth of a quadrant (0 to 3) or the hub (4) in eighths: the longest of those that apply (14 R524). The cap,
limiter and thermal stretches lengthen the arithmetic clock's periods only. -/
def PowState.depth (p : PowState) (q : Nat) : Nat :=
  let d := (vget p.droop q { tripped := false, depth := 0 }).depth
  if q = 4 then d else max d (max (if p.full then 8 else 0) (max p.lim (max p.capStr p.thStr)))

/-- The arithmetic clock in MHz: a field test's while one runs (13 R488, R489; 14 R508). -/
def PowState.runFreq (p : PowState) : Nat := p.heldFreq.getD p.freq

/-- Frequency in MHz of a quadrant's clock or of the hub clock (14 R508). -/
def PowState.mhz (p : PowState) (q : Nat) : Nat := if q = 4 then 1100 else p.runFreq

/-- The hall clock n ns on: of a correction still to be made, at most 1 ns in 10,000 is made, how much is the free number r (log 1), and
the count never decreases (11 R421). -/
def HallClock.advance (h : HallClock) (n r : Nat) : HallClock :=
  let k := min h.slew.natAbs (r % ((h.slewAcc + n) / 10000 + 1))
  let d : Int := if h.slew < 0 then Int.ofNat n - Int.ofNat k else Int.ofNat n + Int.ofNat k
  { h with
    now := h.now + w64 (max 0 d),
    slew := if h.slew < 0 then h.slew + Int.ofNat k else h.slew - Int.ofNat k,
    slewAcc := if h.slew = 0 then 0 else (h.slewAcc + n) % 10000 }

/-- n ns pass (log 2). -/
def State.advance (s : State) (n : Nat) : State :=
  { s with
    now := s.now + n, hall := s.hall.advance n (Config.freeNat s.free), free := if s.hall.slew = 0 then s.free else s.free + 1,
    clk := Vector.ofFn (fun q => s.clk.get q + n * s.pow.mhz q.val * 8 / (8 + s.pow.depth q.val)) }

/-- The clk count of a core's clock: its quadrant's arithmetic clock, or the hub clock (06 R253, 14 R508). -/
def State.clkOf (s : State) (c : CoreId) : Nat := vget s.clk (c.val / 32) 0 / 1000

/-- Time passes until the clk count of a core's clock has reached x, if it lies ahead. -/
def State.toClk (s : State) (c : CoreId) (x : Nat) : State :=
  let q := c.val / 32
  let have' := vget s.clk q 0
  if have' < 1000 * x then s.advance (cdiv ((1000 * x - have') * (8 + s.pow.depth q)) (8 * s.pow.mhz q)) else s

/-- Time passes to a module time, if it lies ahead. -/
def State.advanceTo (s : State) (t : Nat) : State := if s.now < t then s.advance (t - s.now) else s

/-- Time passes to a hall time, if it lies ahead: the first instant at which the count is at least it. How much of a correction still to be made
is made on the way, at most 1 ns in 10,000, is a free number (11 R421, R426; log 1). -/
def State.toHall (s : State) (t : U64) : State :=
  let h := s.hall
  if t.toNat ≤ h.now.toNat then s
  else
    let d := t.toNat - h.now.toNat
    let k := min h.slew.natAbs (Config.freeNat s.free % ((h.slewAcc + d) / 10001 + 1))
    let n := if h.slew < 0 then d + k else d - k
    { s.advance n with hall := { h with
        now := t, slew := if h.slew < 0 then h.slew + Int.ofNat k else h.slew - Int.ofNat k,
        slewAcc := if h.slew = 0 then 0 else (h.slewAcc + n) % 10000 } }

end Sys2Proof.Machine
end

