-- ==== Sys2Proof/Machine/TilePipe.lean ====
section
/-! DEFINITION. Machine/TilePipe.lean: the pipeline of a tile unit in clk of its quadrant: feeding, the pool of physical
accumulator tiles, early commits, margin repeats, the staging buffers, retirement and discarding (02 R39 to R42, R55 to R60, R70 to
R73; 03 R102, R103, R107, R108, R113 to R116, R121, R122). -/

namespace Sys2Proof.Machine

/-! ### The arrays in use (02 R59, R64, R70) -/

/-- New sets of weeded and suspect arrays: the tile count restarts when the set in use changes (02 R70). -/
def TileRegs.withSets (t : TileRegs) (weeded suspect : BitVec 4) : TileRegs :=
  let t' := { t with weeded := weeded, suspect := suspect }
  if t'.inuse = t.inuse then t' else { t' with count := 0, queue := t.queue.map (fun e => { e with cnt := 0 }) }

/-! ### Physical accumulator tiles (03 R82, R114, R115) -/

/-- Whether a queue entry holds a physical tile that no accumulator tile is mapped to: a fresh tile claimed, or the tile a discard
would map again. -/
def TileEntry.holds (e : TileEntry) (p : Nat) : Bool :=
  match e.op with
  | .tmma x => x.feeds.any (fun f => f.phys == some p && !f.done)
  | .zset _ _ q => q == p
  | _ => false

/-- The free physical tiles, ascending; which of them is claimed first is not visible (log 11). -/
def TileRegs.pool (t : TileRegs) : List Nat :=
  (List.range 12).filter (fun p => !t.zmap.toList.contains p && !t.queue.any (fun e => e.holds p))

/-- Map accumulator tile n to physical tile p with its contents. -/
def TileRegs.mapTile (t : TileRegs) (n : Nat) (z : ZTile) (p : Nat) : TileRegs := { t with z := vput t.z n z, zmap := vput t.zmap n p }

/-- Change what is held of the feeding of tile q. -/
def Tmma.setFeed (x : Tmma) (q : Nat) (f : TileFeed → TileFeed) : Tmma :=
  { x with feeds := x.feeds.zipIdx.map (fun p => if p.2 = q then f p.1 else p.1) }

/-- Commit the tiles of one TMMA4 that a test chooses: each accumulator tile maps to its fresh tile with what the run in progress
leaves (03 R114, R115). -/
def Tmma.commit (x : Tmma) (t : TileRegs) (pick : Nat → Bool) : Tmma × TileRegs :=
  x.feeds.zipIdx.foldl (fun a f =>
    match f.1.phys with
    | some p =>
      if !f.1.done && pick f.2 then
        let n := 4 * b01 x.zg + f.2
        let y := x.fresh (fld t.mgctl 0 5) x.rep f.2 (vget t.z n ZTile.reset)
        let u := a.2.mapTile n y.1 p
        (a.1.setFeed f.2 (fun g => { g with done := true }), { u with tustat := if y.2 then setBit u.tustat 0 true else u.tustat })
      else a
    | none => a) (x, t)

/-- Every tile of an incomplete TMMA4 that has handed over its last row before a clk commits (03 R115). -/
def TileRegs.earlyCommit (t : TileRegs) (clk : Nat) : TileRegs :=
  t.queue.foldl (fun a e =>
    match e.op with
    | .tmma x =>
      let r := x.commit a (fun q => match x.lastOver q with
        | some l => decide (l < clk)
        | none => false)
      { r.2 with queue := a.queue ++ [{ e with op := .tmma r.1 }] }
    | _ => { a with queue := a.queue ++ [e] }) { t with queue := [] }

/-! ### Feeding (02 R38 to R42, R70, R71; 03 R122) -/

/-- What feeding in program order has to know. -/
structure FeedAt where
  /-- the clk from which each array can take a row -/
  arr : Vector Nat 4
  /-- whether a later TMMA4 may be fed at all -/
  ok : Bool
  /-- the latest completion of an earlier TMMA4 into Z0 to Z3 and into Z4 to Z7 -/
  done0 : Nat
  done1 : Nat
  /-- tile registers an earlier TLD has not finished writing -/
  pend : List Nat

/-- The feeding of the four tiles of a TMMA4, in tile order: each on its array, after the tile before it there, after the operand path
is free, and so that an earlier TMMA4 on the same accumulator tiles completes before the first hand-over (02 R38, R42, R70, R71;
03 R122). -/
def Tmma.place (x : Tmma) (as : List Nat) (count base : Nat) (g : FeedAt) : Tmma × Vector Nat 4 :=
  let least := max base ((if x.zg then g.done1 else g.done0) + 1 - x.lat)
  (List.range 4).foldl (fun a q =>
    let j := if x.rep then nth 0 (x.feeds.map (fun f => f.arr)) q else arrayOf as count q
    let at' := max least (vget a.2 j 0)
    (a.1.setFeed q (fun f => { f with arr := j, clk := some at' }), vput a.2 j (at' + x.step * x.rows.length))) (x, g.arr)

/-- What a TMMA4 that is fed leaves for later ones. -/
def FeedAt.after (g : FeedAt) (x : Tmma) : FeedAt :=
  let arr := (List.range 4).foldl (fun v q =>
    let j := nth 0 (x.feeds.map (fun f => f.arr)) q
    vput v j (max (vget v j 0) ((x.fedAt q).getD 0))) g.arr
  { g with
    arr := arr, ok := g.ok && !x.rep,
    done0 := if x.zg then g.done0 else max g.done0 x.doneAt, done1 := if x.zg then max g.done1 x.doneAt else g.done1 }

/-- Feed every TMMA4 of the queue that may be fed, from clk base on: in program order, after the TLWs before it, after the loads of its
tile registers, never behind a repeat in progress (02 R42, R70; 03 R122). -/
def TileRegs.schedule (t : TileRegs) (base : Nat) (gate : Bool) : TileRegs :=
  (t.queue.foldl (fun (a : TileRegs × FeedAt) e =>
    let keep (g : FeedAt) (e : TileEntry) : TileRegs × FeedAt := ({ a.1 with queue := a.1.queue ++ [e] }, g)
    match e.op with
    | .tld r _ => keep (if e.sem.isSome then { a.2 with pend := r :: a.2.pend } else a.2) e
    | .tlw _ d => keep { a.2 with ok := a.2.ok && d } e
    | .tmma x =>
      if x.fed then keep (a.2.after x) e
      else if a.2.ok && !a.2.pend.any (fun r => decide (r / 4 = b01 x.tg)) then
        let n := if x.rep then e.cnt else a.1.count
        let y := (x.place t.arrays n (max base t.pathAt) a.2).1
        ({ a.1 with queue := a.1.queue ++ [{ e with op := .tmma y, cnt := n }], count := n + 4 }, a.2.after y)
      else keep { a.2 with ok := false } e
    | _ => keep a.2 e)
    ({ t with queue := [] }, { arr := t.feedAt, ok := gate, done0 := 0, done1 := 0, pend := [] })).1

/-! ### Events of the arrays: first hand-overs and failed checks (02 R55; 03 R114, R115) -/

/-- What happens in the arrays by itself. -/
inductive PipeStep where
  /-- tile q reaches its first hand-over and claims a fresh physical tile -/
  | claim (q : Nat)
  /-- a row fails its check -/
  | fail (f : MgFail)
deriving DecidableEq, Repr

/-- The earlier of two events; of two in one clk the first named. -/
def earlier {α : Type} (a b : Option (Nat × α)) : Option (Nat × α) :=
  match a, b with
  | some x, some y => if y.1 < x.1 then some y else some x
  | some x, none => some x
  | none, y => y

/-- The next event of one TMMA4: t is MG_CTL.T. -/
def Tmma.next (x : Tmma) (t free : Nat) : Option (Nat × PipeStep) :=
  if !x.fed || x.rows.isEmpty then none
  else
    let claim := (x.feeds.zipIdx.filter (fun f => f.1.phys.isNone)).foldl (fun m f =>
      earlier m ((x.handOver f.2 0).map (fun c => (c, PipeStep.claim f.2)))) none
    let fail := if x.rep then none else (firstFail (x.fails t false) free).map (fun f => (f.1, PipeStep.fail f.2))
    earlier claim fail

/-- The next event of the queue, with the place of its TMMA4. -/
def TileRegs.next (t : TileRegs) (free : Nat) : Option (Nat × Nat × PipeStep) :=
  t.queue.zipIdx.foldl (fun m e => match e.1.op with
    | .tmma x => earlier m ((x.next (fld t.mgctl 0 5) free).map (fun v => (v.1, e.2, v.2)))
    | _ => m) none

/-- Change the TMMA4 at a place of the queue. -/
def TileRegs.modTmma (t : TileRegs) (i : Nat) (f : Tmma → Tmma) : TileRegs :=
  { t with queue := t.queue.zipIdx.map (fun e => match e.1.op with
    | .tmma x => if e.2 = i then { e.1 with op := .tmma (f x) } else e.1
    | _ => e.1) }

/-- A tile claims a fresh physical tile; an empty pool makes handed-over tiles commit first (03 R114, R115). -/
def TileRegs.claim (t : TileRegs) (i q clk : Nat) : TileRegs :=
  let t := if t.pool.isEmpty then t.earlyCommit clk else t
  t.modTmma i (fun x => x.setFeed q (fun f => { f with phys := t.pool.head? }))

/-- Stop feeding: tiles not committed return their fresh tiles and are fed again from the beginning (03 R114, R115). -/
def Tmma.stop (x : Tmma) : Tmma :=
  { x with feeds := x.feeds.map (fun f => { f with clk := none, phys := if f.done then f.phys else none }) }

/-- An MG_LOG word (02 R68). -/
def mgLogWord (x : MgFail) (second : Bool) : U64 :=
  n64 (x.array % 4 + (x.row % 256) <<< 2 + (x.tile % 4) <<< 10 + b01 second <<< 12 + b01 x.int <<< 13 + 1 <<< 14)

/-- A row of the first run fails its check: MG_LOG and MG_PC record it, the TMMA4 stops and will run once more on the same arrays, later
ones stop with it, and a TLW already delivering is undone, by a reload of 64 clk, and delivers again (02 R55, R70; 03 R116). -/
def TileRegs.failed (t : TileRegs) (i : Nat) (f : MgFail) (clk : Nat) : TileRegs :=
  let reload := t.queue.zipIdx.any (fun e => decide (i < e.2) && (match e.1.op with
    | .tlw _ d => d
    | _ => false))
  t.queue.zipIdx.foldl (fun a e =>
    let put (op : TileOp) (a : TileRegs) : TileRegs := { a with queue := a.queue ++ [{ e.1 with op := op }] }
    match e.1.op with
    | .tmma x =>
      if e.2 = i then
        put (.tmma { x.stop with rep := true }) { a with
          mglog := mgLogWord f false, mgpc := e.1.pc, w := if reload then x.w else a.w,
          pathAt := if reload then max a.pathAt (clk + 65) else a.pathAt }
      else if i < e.2 then put (.tmma x.stop) a
      else put (.tmma x) a
    | .tlw b d => put (.tlw b (d && decide (e.2 < i))) a
    | op => put op a) { t with queue := [] }

/-- What has happened in the arrays up to a clk, event by event in clk order. -/
def syncGo (gate : Bool) (now : Nat) : Nat → Nat → TileRegs → TileRegs
  | 0, _, t => t
  | n + 1, free, t =>
    match t.next free with
    | none => t
    | some (clk, i, e) =>
      if now < clk then t
      else match e with
        | .claim q => syncGo gate now n (free + 1) (t.claim i q clk)
        | .fail f => syncGo gate now n (free + 1) ((t.failed i f clk).schedule (clk + 1) gate)

/-- The tile unit at a clk: it feeds what may be fed and its events up to then have happened. -/
def TileRegs.sync (t : TileRegs) (gate : Bool) (now free : Nat) : TileRegs := syncGo gate now 256 free (t.schedule now gate)

/-- The array gate of a core's quadrant. -/
def State.gateOf (s : State) (c : CoreId) : ArrayGate :=
  vget s.pow.gates (coreQuad c) { opens := none, step := 0, stepEnd := 0, fed := none }

/-- Rows enter the quadrant's arrays only while its array gate is not closed (14 R526, R527). -/
def State.gateOpen (s : State) (c : CoreId) : Bool := (s.gateOf c).opens.isNone

/-- The tile unit of a core brought up to a clk; a core without tile work, or halted for debug, is as it was (06 R254). -/
def tileSyncAt (s : State) (c : CoreId) (clk : Nat) : State :=
  if (s.core c).tile.queue.isEmpty || (s.core c).ex.run == .halted then s
  else { s.modCore c (fun k => { k with tile := k.tile.sync (s.gateOpen c) clk s.free }) with free := s.free + 256 }

/-- The tile unit of a core brought up to now. -/
def tileSync (s : State) (c : CoreId) : State := tileSyncAt s c (s.clkOf c)

/-- The hardware holds that keep events pending: a margin repeat in progress, a TMMA4 partly committed (02 R56; 03 R115). -/
def Core.held (k : Core) : Bool :=
  k.tile.queue.any (fun e => match e.op with
    | .tmma x => x.rep || x.feeds.any (fun f => f.done)
    | _ => false)

/-! ### Retirement (03 R108, R113) -/

/-- Whether an accepted instruction has nothing left to do but retire. -/
def TileEntry.complete (e : TileEntry) : Bool :=
  e.sem.isNone && (match e.op with
    | .tlw _ d => d
    | .tmma _ => false
    | _ => true)

/-- What retirement frees: a TLW's retirement frees the staging buffer of the TLW before it and keeps its own (03 R108). -/
def TileRegs.retireOne (t : TileRegs) (e : TileEntry) : TileRegs :=
  match e.op with
  | .tlw b _ => { t with bufs := (match t.cur with
      | some a => if a = b then t.bufs else vput t.bufs a none
      | none => t.bufs), cur := some b }
  | _ => t

/-- Retire what is complete at the head of the queue, in program order; answers how many. -/
def popDone : List TileEntry → TileRegs → TileRegs × Nat
  | [], t => ({ t with queue := [] }, 0)
  | e :: r, t =>
    if e.complete then ((popDone r (t.retireOne e)).1, (popDone r (t.retireOne e)).2 + 1)
    else ({ t with queue := e :: r }, 0)

/-- Retire what is complete at the head of a core's queue; each counts in INSTRET. -/
def Core.settle (k : Core) : Core :=
  { k with tile := (popDone k.tile.queue k.tile).1, ex := { k.ex with instret := k.ex.instret + n64 (popDone k.tile.queue k.tile).2 } }

/-! ### Discarding unretired tile instructions (03 R102, R103, R113, R114, R116) -/

/-- A register after an abandoned TLD: each row as it was or as loaded, which is not defined (03 R103). -/
def mixRows (free : Nat) (old new : TileReg) : TileReg :=
  { new with
    rows := (List.range 256).foldl (fun m r =>
      spSetAll 0 m (128 * r) (spRead 0 (if Config.freeNat (free + r) % 2 = 0 then old.rows else new.rows) (128 * r) 128)) new.rows,
    scale := (List.range 256).foldl (fun m r =>
      spSetAll new.sdef m (8 * r)
        (if Config.freeNat (free + r) % 2 = 0 then spRead old.sdef old.scale (8 * r) 8 else spRead new.sdef new.scale (8 * r) 8)) new.scale }

/-- The weights that the buffer kept by R108 gives back: those in effect before the oldest unretired TLW. -/
def TileRegs.keptWeights (t : TileRegs) : Weights :=
  match t.cur with
  | some b => (vget t.bufs b none).getD Weights.reset
  | none => Weights.reset

/-- Undo one discarded tile instruction, youngest first. -/
def TileRegs.undo (t : TileRegs) (free : Nat) (e : TileEntry) : TileRegs :=
  match e.op with
  | .tld reg old => { t with t := vput t.t reg (mixRows free old (vget t.t reg TileReg.reset)) }
  | .tset reg old => { t with t := vput t.t reg old }
  | .zset n old p => t.mapTile n old p
  | .tlw b d => { t with bufs := vput t.bufs b none, w := if d then t.keptWeights else t.w }
  | .tmma x => if x.fed then { t with count := e.cnt } else t

/-- Undo one discarded tile instruction on its core. -/
def undoTile (free : Nat) (k : Core) (e : TileEntry) : Core :=
  let k := match e.sem with
    | some p => { k with str := { k.str with resv := vput k.str.resv p (vget k.str.resv p 0 - 1) } }
    | none => k
  { k with tile := k.tile.undo free e }

/-- Undo a list of discarded tile instructions, each with free numbers of its own. -/
def undoTiles : List TileEntry → Nat → Core → Core
  | [], _, k => k
  | e :: es, free, k => undoTiles es (free + 256) (undoTile free k e)

/-- How many tile instructions of a core are unretired: those in the queue, and a TLD or TLW that waits for its pair. -/
def TileRegs.unretired (t : TileRegs) : Nat := t.queue.length + b01 t.waitPair.isSome

/-- Discard every unretired tile instruction of a core; TU_STAT.RESTART counts them (03 R113, R125). -/
def discardTiles (s : State) (c : CoreId) : State :=
  let t := (s.core c).tile
  if t.unretired = 0 then s
  else
    let s1 := s.modCore c (fun k =>
      let k := undoTiles t.queue.reverse s.free k
      let n := fld k.tile.tustat 32 16 + t.unretired
      { k with tile := { k.tile with queue := [], waitPair := none, tustat := setFld k.tile.tustat 32 16 (min n 0xFFFF) } })
    { s1 with free := s.free + 256 * t.queue.length }

end Sys2Proof.Machine
end

