-- ==== Sys2Proof/Machine/Ops.lean ====
section
/-! DEFINITION. Machine/Ops.lean: what every instruction shares: registers, translation, memory and hall accesses,
taking an exception, and the issue and retirement of one instruction (06 R195 to R210, R230, R254; 07 R255 to R278;
08 R285 to R290). -/

namespace Sys2Proof.Machine

/-- Why an instruction does not complete now. -/
inductive Stop where
  /-- it raises a synchronous cause with SUBC and EINFO; keep says that its parts done so far stand (06 R201) -/
  | trap (cause subc : Nat) (info : U64) (keep : Bool)
  /-- it waits and changes nothing: it is executed again when it is issued again -/
  | wait
  /-- a TLD or TLW waits for a semaphore pair (03 R102) -/
  | semWait (p : Nat)
  /-- it waits for the answer of a hall access; `unused` answers logged before it do not fit and are dropped (11 R406) -/
  | hall (r : HallReq) (unused : Nat)
  /-- it does what no task may do: the open task is aborted with a reason (08 R312) -/
  | abort (reason : Nat)
  /-- a refill frame lies where R276 does not allow: the core stops on fault -/
  | refill
  /-- an event is taken inside it: parts done so far stand (05 R189, 06 R238) -/
  | event
deriving DecidableEq, Repr

/-- A computation over the state that may stop. -/
abbrev Op (α : Type) := EStateM Stop State α

/-- Raise a synchronous cause that leaves the instruction without effect. -/
def trap {α : Type} (cause : Nat) (info : U64 := 0) (subc : Nat := 0) : Op α := throw (.trap cause subc info false)
/-- Illegal instruction, cause 0x01; EINFO is the instruction word, which issuing fills in (07 R277). -/
def illegal {α : Type} : Op α := trap 0x01
/-- Raise illegal instruction when a condition holds. -/
def illegalIf (b : Bool) : Op Unit := if b then illegal else pure ()
/-- Raise a cause when a condition holds. -/
def trapIf (b : Bool) (cause : Nat) (info : U64 := 0) (subc : Nat := 0) : Op Unit := if b then trap cause info subc else pure ()
/-- Wait when a condition holds. -/
def waitIf (b : Bool) : Op Unit := if b then throw .wait else pure ()

/-! ### Registers -/

/-- A register of class A by number: 15 is the A15 of the current ring (07 R258), 16 to 23 the temporaries of a gloss. -/
def Core.readA (k : Core) (i : Nat) : U64 :=
  if i < 15 then vget k.bank.a i 0
  else if i = 15 then vget k.rr.sp k.ring 0
  else vget k.ex.gtmp (i - 16) 0

/-- A register of class D by number, 16 to 23 the temporaries of a gloss. -/
def Core.readD (k : Core) (i : Nat) : U64 :=
  if i < 16 then vget k.bank.d i 0 else vget k.ex.gtmp (i - 16) 0

/-- A register of class A written, without the stack check. -/
def Core.writeA (k : Core) (i : Nat) (v : U64) : Core :=
  if i < 15 then k.setBank (fun b => { b with a := vput b.a i v })
  else if i = 15 then { k with rr := { k.rr with sp := vput k.rr.sp k.ring v } }
  else { k with ex := { k.ex with gtmp := vput k.ex.gtmp (i - 16) v } }

/-- A register of class D written. -/
def Core.writeD (k : Core) (i : Nat) (v : U64) : Core :=
  if i < 16 then k.setBank (fun b => { b with d := vput b.d i v })
  else { k with ex := { k.ex with gtmp := vput k.ex.gtmp (i - 16) v } }

/-- The core that executes. -/
def coreOf (c : CoreId) : Op Core := do return (← get).core c
/-- A[i]. -/
def rdA (c : CoreId) (i : Nat) : Op U64 := do return (← coreOf c).readA i
/-- D[i]. -/
def rdD (c : CoreId) (i : Nat) : Op U64 := do return (← coreOf c).readD i
/-- Write D[i]. -/
def wrD (c : CoreId) (i : Nat) (v : U64) : Op Unit := modify (fun s => s.modCore c (fun k => k.writeD i v))

/-- 06 R230: a write of A15 below SLIM of the ring raises stack limit; an increase is never checked. -/
def Core.slimFault (k : Core) (i : Nat) (v : U64) : Bool :=
  i == 15 && decide (v.toNat < (vget k.rr.slim k.ring 0).toNat) && decide (v.toNat ≤ (k.readA 15).toNat)

/-- The stack check of a write of A[i] (06 R230). -/
def chkA (c : CoreId) (i : Nat) (v : U64) : Op Unit := do
  let k ← coreOf c
  trapIf (k.slimFault i v) 0x20 v

/-- Write A[i] under the stack check (06 R230). -/
def wrA (c : CoreId) (i : Nat) (v : U64) : Op Unit := do
  chkA c i v
  modify (fun s => s.modCore c (fun k => k.writeA i v))

/-- The PC of the instruction being executed. -/
def pcOf (c : CoreId) : Op U64 := do return (← coreOf c).pc
/-- The executing ring. -/
def ringOf (c : CoreId) : Op Nat := do return (← coreOf c).ring
/-- Change the executing core. -/
def modC (c : CoreId) (f : Core → Core) : Op Unit := modify (fun s => s.modCore c f)
/-- Raise privilege, cause 0x02, at a ring above the highest number allowed (07 R255). -/
def needRing (c : CoreId) (maxRing : Nat) (info : U64 := 0) : Op Unit := do
  let r ← ringOf c
  trapIf (decide (maxRing < r)) 0x02 info

/-! ### Translation (08 R287 to R290) -/

/-- What an access wants of a page. -/
inductive Acc where
  | load | store | fetch
deriving DecidableEq, Repr

/-- The cause of a failed translation (08 R289). -/
def Acc.cause : Acc → Nat
  | .store => 0x09
  | _ => 0x08

/-- An entry whose bits R288 allows at a level. -/
def entryOk (e : U64) (level : Nat) : Bool :=
  bit e 0 && fld e 7 5 == 0 && fld e 48 16 == 0 &&
  (if bit e 1 then decide (1 ≤ level) && fld e 12 (9 * (3 - level)) == 0 else decide (level < 3))

/-- The walk from a table down: the addresses of the entries it reads, and the leaf with its level (08 R288). -/
def walkFrom (s : State) (va : Nat) : Nat → Nat → Nat → List Nat × Option (Nat × U64)
  | 0, _, _ => ([], none)
  | fuel + 1, level, table =>
    let a := table + 8 * (va >>> (39 - 9 * level) % 512)
    if memRange a 8 then
      let e := n64 (leNat (s.bytes a 8))
      if entryOk e level then
        (if bit e 1 then ([a], some (level, e))
         else (a :: (walkFrom s va fuel (level + 1) (fld e 12 36 <<< 12)).1, (walkFrom s va fuel (level + 1) (fld e 12 36 <<< 12)).2))
      else ([a], none)
    else ([], none)

/-- The walk of R288 from a root. -/
def walk (s : State) (root : U64) (va : Nat) : List Nat × Option (Nat × U64) := walkFrom s va 4 0 (fld root 12 36 <<< 12)

/-- Whether a leaf permits an access at a ring (08 R289). -/
def leafPermits (leaf : U64) (ring : Nat) (acc : Acc) : Bool :=
  decide (ring ≤ fld leaf 4 2) && (acc != .store || bit leaf 2) && (acc != .fetch || bit leaf 3)

/-- What a translation yields. -/
structure Xlat where
  /-- the physical address, if the access is permitted -/
  pa : Option Nat
  /-- the entry to fill into the TLB -/
  fill : Option TlbEntry
  /-- the addresses the walk read -/
  reads : List Nat
deriving DecidableEq, Repr

/-- The translation of an address by cached entries and the tables; while they differ, the old or the new one, a free choice (08 R287 to
R290). -/
def translate (s : State) (tlb : List TlbEntry) (root ctl : U64) (ring : Nat) (acc : Acc) (va : Nat) : Xlat :=
  let asid := fld ctl 16 16
  if bitsOf va 48 15 ≠ 0 then { pa := none, fill := none, reads := [] }
  else
    let fresh := walk s root va
    let old := (tlb.find? (fun t => t.covers asid va)).map (fun t => (t.level, t.leaf))
    let useOld := old.isSome && (fresh.2 == old || Config.freeNat s.free % 2 == 0)
    match (if useOld then old else fresh.2) with
    | none => { pa := none, fill := none, reads := fresh.1 }
    | some (level, leaf) =>
      { pa := if leafPermits leaf ring acc then some (fld leaf 12 36 <<< 12 + va % 2 ^ pageBits level) else none,
        fill := if useOld then none else some { vpn := va >>> 12, level := level, asid := asid, leaf := leaf },
        reads := if useOld then [] else fresh.1 }

/-- The table entries a walk read: through their home slices; one that is poisoned raises machine check on the core (08 R288, R293). -/
def walked (s : State) (c : CoreId) (reads : List Nat) : State :=
  reads.foldl (fun s a => let s := l2Touch s a 8 false; if s.poisoned a 8 then machineCheck s c 2 a else s) s

/-- Whether a core's accesses at a ring are translated (08 R287). -/
def Core.translated (k : Core) (ring : Nat) : Bool := bit k.mm.xctl 0 && decide (ring ≠ 0)

/-- Translate an address of a core at a ring; the address with bit 63 clear (08 R287). -/
def xlateAt (c : CoreId) (ring : Nat) (acc : Acc) (va : U64) : Op Nat := do
  let s ← get
  let k := s.core c
  if k.translated ring then
    let r := translate s k.mm.entries k.mm.root k.mm.xctl ring acc va.toNat
    let s1 := walked s c r.reads
    let s2 := match r.fill with
      | some e => s1.modCore c (fun k => { k with mm := k.mm.fillTlb e va.toNat (Config.freeNat (s.free + 1)) })
      | none => s1
    set { s2 with free := s2.free + 2 }
    match r.pa with
    | some pa => return pa
    | none => trap acc.cause va
  else return va.toNat

/-! ### Memory accesses of a core -/

/-- The task an access of a core at its current ring belongs to (08 R310). An instruction whose task has been aborted while it ran goes on for
that task, which is free by then: what it still writes is discarded, until the redirection at the next boundary (08 R314). -/
def Core.accTask (k : Core) : Option Nat :=
  match k.openTask, k.mm.redirect with
  | some t, _ => if (k.task t).ring.toNat = k.ring then some t else none
  | none, some (r, _) => if r.toNat = k.ring then (List.range 4).find? (fun t => (k.task t).st == .free) else none
  | none, none => none

/-- Read n bytes of HBM or a carrel at a physical address as a core does: tracked, cached, poison reported (08 R293, R295, R310). -/
def memLoad (c : CoreId) (pa n : Nat) (va : U64) : Op (List Byte) := do
  let s ← get
  trapIf (!memRange pa n) 0x08 va
  let t := (s.core c).accTask
  let v : View := t.map (fun t => (c, t))
  let bs := s.view v pa n
  let bad := s.poisonedFor v pa n || (s.core c).l1dPoisoned pa n
  let s1 := fillL1D (agentTrack s c t pa n) c pa n
  set (if bad then machineCheck s1 c 2 pa else s1)
  return bs

/-- Write bytes to HBM or a carrel at a physical address as a core does (08 R285, R302, R310). -/
def memStore (c : CoreId) (pa : Nat) (bs : List Byte) (va : U64) : Op Unit := do
  let s ← get
  trapIf (!memRange pa bs.length || hitsLedger pa bs.length) 0x09 va
  set (agentWrite s c true (s.core c).accTask pa bs)

/-- A carrel whose quadrant's function takes no accesses faults (15 R555). -/
def State.carrelShut (s : State) (c : CoreId) (pa : Nat) : Bool :=
  isCarrel pa && decide (carrelOwner pa / 32 ≠ coreQuad c ∨ !isCompute c) && (vget s.cur.fns (2 + carrelOwner pa / 32) .enabled) != .enabled

/-! ### Hall accesses of a core (11 R406 to R410) -/

/-- Where a hall access goes. -/
inductive HallDest where
  | here (pa : Nat) | hereLedger (pa : Nat) | away | fault
deriving DecidableEq, Repr

/-- Bytes an access touches. -/
def HallReq.len (r : HallReq) : Nat :=
  match r.op with
  | .read n _ => n
  | .write d _ => d.length
  | .atomic _ z _ _ => 2 ^ z

/-- Whether an access reads only. -/
def HallReq.isRead (r : HallReq) : Bool :=
  match r.op with
  | .read _ _ => true
  | _ => false

/-- Whether an access is an atomic. -/
def HallReq.isAtomic (r : HallReq) : Bool :=
  match r.op with
  | .atomic _ _ _ _ => true
  | _ => false

/-- Whether a space holds n bytes at an offset (08 R286). -/
def spaceHolds (space off n : Nat) : Bool :=
  match space with
  | 0 => memRange off n
  | 1 => decide (off + n ≤ 0x700000)
  | 2 => decide (off + n ≤ 0x4000000)
  | _ => false

/-- Where a hall access of this module goes: one of a module without a call number faults; one to its own call number is local, whether the
endpoint is fenced or not; one of a fenced or disabled endpoint faults (08 R286, 11 R407, R408, R433, 15 R555). -/
def State.hallDest (s : State) (r : HallReq) : HallDest :=
  let off := fld r.addr 0 40
  let call := fld r.addr 40 20
  let space := fld r.addr 60 3
  if s.feState = 0 ∨ s.call = 0xFFFFF ∨ call = 0xFFFFF ∨ !spaceHolds space off r.len
      ∨ (r.isAtomic ∧ space ≠ 0) then .fault
  else if call = s.call then
    (if space = 0 then .here off
     else if space = 2 ∧ r.isRead then .hereLedger (0x8FFC000000 + off) else .fault)
  else if s.feState = 3 ∨ vget s.cur.fns 6 .enabled != .enabled then .fault
  else .away

/-- The packet of a hall access (11 R406). -/
def hallPacket (r : HallReq) (engine : Bool) (tag : BitVec 32) : Packet :=
  let off := fld r.addr 0 40
  let space := fld r.addr 60 3
  let g := off / 64 * 64
  let vc : BitVec 3 := if space = 1 then 5 else if engine then 6 else 0
  let base := { pktEmpty with vc := vc, dcall := BitVec.ofNat 20 (fld r.addr 40 20), tag := tag, w2 := n64 (g + space <<< 40) }
  match r.op with
  | .read n w => { base with ty := tyRDREQ, watch := w, ngran := BitVec.ofNat 3 ((off + n - 1) / 64 - off / 64 + 1) }
  | .write d pm =>
    let o := off % 64
    { base with
      ty := tyWRREQ, pmask := BitVec.ofNat 4 pm, arg0 := if o = 0 ∧ d.length % 64 = 0 then 0xFFFFFFFFFFFFFFFF#64 else n64 ((2 ^ d.length - 1) <<< o),
      body := .flits (List.replicate o 0 ++ d ++ List.replicate ((64 - (o + d.length) % 64) % 64) 0) }
  | .atomic op z a b => { base with
      ty := tyATOMREQ, w2 := n64 (off + space <<< 40), aop := BitVec.ofNat 4 op, asz := BitVec.ofNat 2 z, arg0 := a, arg1 := b }

/-- The granules a hall access names: the first and the last, by global address / 64. -/
def HallReq.grans (r : HallReq) : Nat × Nat := (r.addr.toNat / 64, (r.addr.toNat + r.len - 1) / 64)

/-- Whether an agent has an access to a granule of this one outstanding: this one waits, or is the one asked for (11 R410). -/
def State.holdsBack (s : State) (who : Requester) (r : HallReq) : Bool :=
  s.fab.reqs.any (fun q => q.who == who && decide (q.req.grans.1 ≤ r.grans.2) && decide (r.grans.1 ≤ q.req.grans.2))

/-- Send a hall access and remember who waits for it (11 R406, R410). -/
def sendHall (s : State) (who : Requester) (engine : Bool) (r : HallReq) : State :=
  let tag := s.fab.nextTag
  let k := hallPacket r engine tag
  let q : PendReq := {
    tag := tag, who := who, req := r, deadline := s.now + 1000 * fld s.fab.ctl 16 16,
    noRoute := (s.route k).1.isNone }
  let s := { s with fab := { s.fab with nextTag := tag + 1, reqs := s.fab.reqs ++ [q] } }
  s.send k

/-- The answer of a hall access that leaves the module: the logged one, or a wait for it. -/
def awaitHall (c : CoreId) (r : HallReq) : Op HallRes := do
  let k ← coreOf c
  match k.ex.hlog with
  | (q, res) :: rest =>
    if q = r then
      modC c (fun k => { k with ex := { k.ex with hlog := rest } })
      return res
    else throw (.hall r (rest.length + 1))
  | [] => throw (.hall r 0)

/-- A core's hall read: the bytes (11 R406). -/
def hallLoad (c : CoreId) (addr : U64) (n : Nat) : Op (List Byte) := do
  let s ← get
  let t := (s.core c).accTask
  let r : HallReq := { addr := addr, op := .read n t.isSome }
  match s.hallDest r with
  | .fault => trap 0x0A addr
  | .here pa => do
    trapIf (s.carrelShut c pa) 0x08 addr
    memLoad c pa n addr
  | .hereLedger pa => memLoad c pa n addr
  | .away =>
    if t.isSome && fld addr 60 3 == 1 then throw (.abort 4)
    match ← awaitHall c r with
    | .ok d pm => do
      if pm ≠ 0 then modify (fun s => machineCheck s c 2 addr.toNat)
      return d
    | .refused _ => trap 0x0A addr

/-- A core's hall write (11 R406); a task may not make one (08 R312). -/
def hallStore (c : CoreId) (addr : U64) (bs : List Byte) : Op Unit := do
  let s ← get
  let r : HallReq := { addr := addr, op := .write bs 0 }
  match s.hallDest r with
  | .fault => trap 0x0A addr
  | .here pa => do
    trapIf (s.carrelShut c pa) 0x09 addr
    memStore c pa bs addr
  | .hereLedger _ => trap 0x0A addr
  | .away =>
    if (s.core c).accTask.isSome then throw (.abort 4)
    match ← awaitHall c r with
    | .ok _ _ => return ()
    | .refused _ => trap 0x0A addr

/-! ### Pending events and routes (07 R265, R266, R278) -/

/-- The route ring of a cause: 0x18 is fixed at ring 1, 0x33 at ring 0 (07 R265). -/
def Core.route (k : Core) (cause : Nat) : Nat :=
  if cause = 0x18 then 1
  else if cause = 0x33 then 0
  else if cause < 0x20 then fld k.rr.xroute0 (2 * cause) 2
  else fld k.rr.xroute1 (2 * cause - 64) 2

/-- The asynchronous causes in priority order with their XPEND bits (07 R277, R283). -/
def asyncCauses : List (Nat × Nat) := [(0x33, 4), (0x32, 2), (0x18, 3), (0x31, 1), (0x30, 0)]

/-- The eligible pending event of highest priority (07 R266, R277). -/
def Core.eligible (k : Core) : Option Nat :=
  if k.bank.gm then none
  else (asyncCauses.find? (fun cb => bit k.rr.xpend cb.2 && decide (k.route cb.1 ≤ k.ring))).map (fun cb => cb.1)

/-- EINFO of an asynchronous cause (07 R277; 09 R354). -/
def Core.asyncInfo (k : Core) (cause : Nat) : U64 := if cause = 0x33 then k.rr.mcInfo else if cause = 0x18 then k.rr.shInfo else 0

/-! ### Taking an exception (07 R265 to R269, R276) -/

/-- An ST word of a bank (07 R283). -/
def stWord (b : Bank) (n : Nat) : U64 := n64 (b.ring.toNat + n <<< 2 + b01 b.gm <<< 4)
/-- An ECAUSE word (07 R283). -/
def ecauseWord (cause subc : Nat) (async : Bool) : U64 := n64 (cause % 256 + (subc % 256) <<< 8 + b01 async <<< 16)
/-- An ELINK word (07 R283). -/
def elinkWord (bank sring : Nat) (spilled valid : Bool) : U64 := n64 (bank % 4 + (sring % 4) <<< 2 + b01 spilled <<< 4 + b01 valid <<< 5)

/-- The 512-byte spill frame of a bank (07 R268). -/
def frameBytes (b : Bank) (n : Nat) : List Byte :=
  wordBytes (b.a.toList ++ [stWord b n] ++ b.d.toList ++ [b.pc, b.ecause, b.einfo, b.elink] ++ List.replicate 28 0)

/-- Whether a frame of ring t at an address may not be written or read: below SSLIMt, or outside carrels and HBM (07 R269, R276). -/
def Core.frameBad (k : Core) (t : Nat) (frame : Int) : Bool :=
  decide (frame < Int.ofNat (vget k.rr.sslim t 0).toNat) || !memRange frame.toNat 512

/-- Run state bookkeeping: the masked interval starts when a core executes with GM 1 and ends when GM is 0 (07 R275). -/
def Core.syncMask (k : Core) (now : Nat) : Core :=
  if k.bank.gm then (if k.ex.maskFrom.isNone then { k with ex := { k.ex with maskFrom := some now, wdPosted := false } } else k)
  else { k with ex := { k.ex with maskFrom := none, wdPosted := false } }

/-- Entry to ring t, bank t, without the spill (07 R267 steps 2, 4 and 5). -/
def Core.enter (k : Core) (t cause subc : Nat) (async : Bool) (info p : U64) (spilled : Bool) : Core :=
  let b := k.rr.cur.toNat
  let r := k.ring
  let k := k.setBank (fun x => { x with pc := p })
  let h : Bank := vget k.rr.banks t Bank.reset
  let h := { h with
    ecause := ecauseWord cause subc async, einfo := info, elink := elinkWord b r spilled true,
    ring := BitVec.ofNat 2 t, gm := true, pc := vget k.rr.xvec t 0 }
  { k with
    rr := { k.rr with banks := vput k.rr.banks t h, cur := BitVec.ofNat 2 t, busy := k.rr.busy ||| BitVec.ofNat 3 (1 <<< t) },
    tile := { k.tile with waitPair := none },
    ex := { k.ex with afterRte := false, bpSkip := false, hlog := [], hwait := none } }

/-- Take an exception with resume address p to ring t (07 R267 to R269): the one operation every cause goes through. -/
def enterRing (s : State) (c : CoreId) (t cause subc : Nat) (async : Bool) (info p : U64) : State :=
  let k := s.core c
  if bit k.rr.busy t then
    let frame : Int := Int.ofNat (vget k.rr.ssp t 0).toNat - 512
    if k.frameBad t frame || hitsLedger frame.toNat 512 then stopOnFault s c .spill cause subc p
    else
      let k1 := k.setBank (fun x => { x with pc := p })
      let s1 := homeWrite (s.setCore c k1) (some c) none frame.toNat (frameBytes (vget k1.rr.banks t Bank.reset) t)
      (s1.modCore c (fun k => { k with rr := { k.rr with ssp := vput k.rr.ssp t (n64 frame.toNat) } })).modCore c
        (fun k => (k.enter t cause subc async info p true).syncMask s.now)
  else s.modCore c (fun k => (k.enter t cause subc async info p false).syncMask s.now)

/-- Take a synchronous cause with resume address p: under the mask the core stops on fault (07 R265, R276). -/
def raiseSync (s : State) (c : CoreId) (cause subc : Nat) (info p : U64) : State :=
  let k := s.core c
  if k.bank.gm then stopOnFault s c .mask cause subc p
  else enterRing s c (min (k.route cause) k.ring) cause subc false info p

/-- Take a pending asynchronous cause: every unretired instruction is discarded and the oldest resumes (07 R266, R267). -/
def takeEvent (s : State) (c : CoreId) (cause : Nat) : State :=
  let k := s.core c
  let p := match k.tile.queue with
    | e :: _ => e.pc
    | [] => k.pc
  enterRing (discardTiles s c) c (k.route cause) cause 0 true (k.asyncInfo cause) p

/-! ### Issue and retirement -/

/-- What issuing needs to know of an instruction. -/
inductive IKind where
  /-- any other instruction -/
  | plain
  /-- a repeat prefix with its instruction: RPTI or RPT (06 R240) -/
  | rep (rpti : Bool)
  /-- a vector memory instruction (05 R190) -/
  | vmem
  /-- RTE: the next instruction is the first after it -/
  | rte
  /-- TLD, ZLD, TLW, TMMA4, TZERO, TMOV or ZMOV: it may execute while earlier tile instructions are incomplete (03 R113, R122) -/
  | tile
  /-- TCFG, which waits for all tile work (03 R90), and the tile stores, which write memory only as the oldest unretired
  instruction (03 R104, 06 R201) -/
  | wait
deriving DecidableEq, Repr

/-- The address a core fetches from, or the cause fetching raises (06 R210, 08 R285, R287). -/
def fetchAt (s : State) (c : CoreId) : EStateM.Result Stop State Nat :=
  let op : Op Nat := do
    let k ← coreOf c
    let pc := k.pc
    trapIf (bit pc 63) 0x0A pc
    let pa ← xlateAt c k.ring .fetch pc
    trapIf (!isHbm pa) 0x08 pc
    let s ← get
    let s1 := fetchLines s c pa
    set (if s.poisoned pa 4 then machineCheck s1 c 2 pa else s1)
    return pa
  op s

/-- Whether an armed breakpoint matches an address (06 R254). -/
def Core.bpMatch (k : Core) : Bool :=
  k.ex.dbgBp.toList.any (fun w => bit w 0 && fld w 2 62 == fld k.pc 2 62)

/-- After a step the core halts, once no tile instruction of it is still at work (06 R254). -/
def stepDone (s : State) (c : CoreId) : State :=
  if (s.core c).ex.dbgStep && (s.core c).ex.run == .running && (s.core c).tile.queue.isEmpty then haltCore s c else s

/-- An instruction retires: the PC moves, INSTRET counts it, the core halts after a step (06 R253, R254). -/
def retire (s : State) (c : CoreId) (npc : U64) (isRte : Bool) : State :=
  let s1 := s.modCore c (fun k =>
    let k := { k with ex := { k.ex with instret := k.ex.instret + 1, afterRte := isRte, bpSkip := false, hlog := [] } }
    (if isRte then k else k.setBank (fun b => { b with pc := npc })).syncMask s.now)
  stepDone s1 c

/-- The records of R190 and R240 are dropped when the first instruction after RTE is of another kind, or a repeat of the
other prefix. -/
def Core.dropRecords (k : Core) (kind : IKind) : Core :=
  if k.ex.afterRte then
    { k with
      ex := { k.ex with rstat := match kind with
        | .rep r => if bit k.ex.rstat 1 == r then k.ex.rstat else setBit k.ex.rstat 0 false
        | _ => setBit k.ex.rstat 0 false },
      vec := { k.vec with vresume := if kind = .vmem then k.vec.vresume else setBit k.vec.vresume 24 false } }
  else k

/-- Whether the first instruction after RTE must make progress before an event is taken (05 R189, 06 R240). -/
def Core.mustProgress (k : Core) (kind : IKind) : Bool :=
  k.ex.afterRte && ((kind == .rep (bit k.ex.rstat 1) && bit k.ex.rstat 0) || (kind == .vmem && bit k.vec.vresume 24))

/-- The abort redirection due at the core's ring (08 R314). -/
def Core.redirectNow (k : Core) : Option U64 :=
  match k.mm.redirect with
  | some (r, a) => if r.toNat = k.ring then some a else none
  | none => none

/-- Continue at the abort address: unretired instructions are discarded, ring, bank and GM unchanged (08 R314). -/
def redirectTo (s : State) (c : CoreId) (a : U64) : State :=
  (discardTiles s c).modCore c (fun k =>
    let k := k.setBank (fun b => { b with pc := a })
    { k with mm := { k.mm with redirect := none }, tile := { k.tile with waitPair := none },
             ex := { k.ex with bpSkip := false, hlog := [], hwait := none } })

/-- What comes of an instruction's body: it retires, raises its cause, waits, or sends its hall access. -/
def finish (s0 : State) (c : CoreId) (word : U64) (kind : IKind) (r : EStateM.Result Stop State U64) : State :=
  match r with
  | .ok npc s => retire s c npc (kind == .rte)
  | .error (.trap cause subc info keep) s =>
    if !(s0.core c).tile.queue.isEmpty then s0
    else
      let base := if keep then s else s0
      let info := if cause = 0x01 then word else info
      let p := if cause = 0x15 then (base.core c).pc + 4 else (base.core c).pc
      if cause = 0x04 ∧ kind = .rte then
        (if (base.core c).bank.gm then stopOnFault base c .mask cause subc p
         else enterRing base c (base.core c).ring cause subc false info p)
      else raiseSync base c cause subc info p
  | .error .wait _ => s0
  | .error (.semWait p) _ => s0.modCore c (fun k => { k with tile := { k.tile with waitPair := some p } })
  | .error (.hall q unused) _ =>
    let s1 := s0.modCore c (fun k => { k with ex := { k.ex with hlog := k.ex.hlog.take (k.ex.hlog.length - unused) } })
    let tag := s1.fab.nextTag
    sendHall (s1.modCore c (fun k => { k with ex := { k.ex with hwait := some tag } })) (.core c) false q
  | .error (.abort reason) _ =>
    (match (s0.core c).openTask with
     | some t => abortTask s0 c t reason
     | none => s0)
  | .error .refill _ => stopOnFault s0 c .refill 0 0 (s0.core c).pc
  | .error .event s =>
    if (s.core c).ex.run ≠ .running then s
    else
    (match (s.core c).eligible with
     | some cause => takeEvent s c cause
     | none => s)

/-- A core as it comes to its next instruction: its tile unit brought up to now, and the tasks that are due committed (02 R70; 08 R313). -/
def ready (s : State) (c : CoreId) : State := settleDue (tileSync s c) c

/-- Whether an event is taken before the next instruction: not while an instruction waits for hall answers, the tile unit holds, or the first
instruction after an RTE must make progress (02 R56; 03 R115; 05 R189; 06 R240; 07 R266; 11 R406). -/
def Core.eventFirst (k : Core) (kind : IKind) : Option Nat :=
  if k.ex.hlog.isEmpty && !k.held && !k.mustProgress kind then k.eligible else none

/-- A core that is to stop goes on: an instruction of it waits for hall answers, or the tile unit holds (02 R56; 03 R115; 07 R274; 15 R555). -/
def Core.midway (k : Core) : Bool := !k.ex.hlog.isEmpty || k.ex.hwait.isSome || k.held

/-- A core takes no instruction as its function is not enabled: it stops at this boundary, or when the tile unit's hold ends (15 R555). -/
def stopAtBoundary (s : State) (c : CoreId) : State :=
  if (s.core c).midway then s else stopCore s c .command 0 0 (s.core c).pc

/-- Issue one instruction on a core: word is what EINFO of cause 0x01 reports, body performs it and answers the next PC.
A core that does not run executes nothing; an event, a breakpoint or a task's redirection comes first (06 R254, 07 R266,
08 R314), and a function that is not enabled stops its cores (15 R555); an instruction that is no tile instruction waits for the tile queue to empty (log 11), and so does every one while the core
steps or stands at a breakpoint. -/
def issue (c : CoreId) (word : U64) (kind : IKind) (body : Op U64) (s0 : State) : State :=
  let s := ready s0 c
  let k := s.core c
  if k.ex.run ≠ .running ∨ k.ex.hwait.isSome then s
  else if vget s.cur.fns (coreFn c) .enabled ≠ .enabled ∧ k.ex.hlog.isEmpty then stopAtBoundary s c
  else match k.redirectNow with
  | some a => redirectTo s c a
  | none =>
    match k.eventFirst kind with
    | some cause => takeEvent s c cause
    | none =>
      if !k.tile.queue.isEmpty && (kind != .tile || k.ex.dbgStep || k.bpMatch) then s
      else if k.bpMatch && !k.ex.bpSkip then haltCore s c
      else match fetchAt s c with
      | .error (.trap cause subc info _) s1 => if k.tile.queue.isEmpty then raiseSync s1 c cause subc info k.pc else s
      | .error _ s1 => s1
      | .ok _ s1 =>
        let s2 := s1.modCore c (fun k => k.dropRecords kind)
        finish s2 c word kind (body s2)

/-- The PC after an instruction of n bytes. -/
def nextPC (c : CoreId) (n : Nat) : Op U64 := do return (← pcOf c) + n64 n

end Sys2Proof.Machine
end

