-- ==== Sys2Proof/Machine/Flags.lean ====
section
/-! DEFINITION. Machine/Flags.lean: the sticky flags and records an operation leaves: NUM_FLAGS, FXCTL.FXOV, NLAST,
XSTAT.NONREP and TU_STAT.ZSAT (04 R134, R148, R154, R162; 06 R216; 03 R111). -/

namespace Sys2Proof.Machine

/-- Set sticky IEEE flags (04 R134). -/
def Core.raiseFlags (k : Core) (f : FFlags) : Core := { k with num := { k.num with flags := k.num.flags ||| f } }
/-- Set FXCTL.FXOV (04 R148). -/
def Core.raiseFxov (k : Core) : Core := { k with num := { k.num with fxctl := setBit k.num.fxctl 3 true } }
/-- Set XSTAT.NONREP (06 R216). -/
def Core.raiseNonrep (k : Core) : Core := { k with ex := { k.ex with nonrep := true } }
/-- Set TU_STAT.ZSAT (03 R111). -/
def Core.raiseZsat (k : Core) : Core := { k with tile := { k.tile with tustat := setBit k.tile.tustat 0 true } }

/-- Sticky flags as an operation's effect. -/
def addFlags (c : CoreId) (f : FFlags) : Op Unit := modC c (fun k => k.raiseFlags f)

/-- The rounding mode NUM_MODE.VRM selects (04 R162). -/
def Core.vrm (k : Core) : RMode := vrmMode (fld k.num.mode 2 2)
/-- NUM_MODE.OVF: non-saturating overflow (04 R162). -/
def Core.nonsat (k : Core) : Bool := bit k.num.mode 1

/-- FXCTL.SAT under an override SATO: 00 FXCTL, 01 saturate, 10 wrap (06 R219). -/
def Core.satMode (k : Core) (sato : Nat) : Bool := if sato = 0 then bit k.num.fxctl 0 else sato == 1
/-- FXCTL.RND under an override RNDO: 0 truncate, 1 round-half-up, 2 convergent (06 R219). -/
def Core.rndMode (k : Core) (rndo : Nat) : Nat := if rndo = 0 then fld k.num.fxctl 1 2 else rndo - 1

/-- NLAST after a converting instruction (04 R154, R162). -/
def nlastWord (x : Counts) (fmt cls chan : Nat) : U64 :=
  n64 (x.sat.toNat % 65536 + (x.flush.toNat % 65536) <<< 16 + (x.nan.toNat % 65536) <<< 32 + (fmt % 16) <<< 48 + (cls % 4) <<< 52
    + (chan % 64) <<< 54 + 1 <<< 60)

/-- The counts of one element (04 R136). -/
def Counts.one (x : CvClass) : Counts :=
  { Counts.zero with
    elems := 1, sat := if x = .sat then 1 else 0, flush := if x = .flush then 1 else 0, nan := if x = .nan then 1 else 0 }

/-- |v| as the FP32 amax of one element, NaN excluded, infinity as infinity (03 R117). -/
def amaxCode (v : FV) : BitVec 32 :=
  match v with
  | .nan => 0
  | .inf _ => 0x7F800000#32
  | .fin _ m e =>
    -- an element's magnitude beyond FP32's range is held as the nearest FP32
    let r := roundCode fp32 .rne false m e
    BitVec.ofNat 32 (min r.1 0x7F800000)

end Sys2Proof.Machine
end

