-- ==== Sys2Proof/Machine/Convert.lean ====
section
/-! DEFINITION. Machine/Convert.lean: what every converting operation shares: the format its class gives, rounding with
the keyed draw, and its counts (04 R135 to R140, R150 to R156; 03 R117, R118). -/

namespace Sys2Proof.Machine

/-- The format and the use of SR that a class gives a source format under a mode and a profile word (04 R151). -/
def classOut (mode prof : U64) (cls src : Nat) : Nat × Bool :=
  match cls with
  | 0 => (fld prof 0 4, bit prof 4)
  | 1 => (if src = 0xD then 0xD else 0xC, false)
  | 2 => (if src = 0xD then 0xD else if bit mode 0 then 0xC else 0x0, false)
  | _ => (src, false)

/-- The active profile's register (04 R151, R152). -/
def NumRegs.prof (n : NumRegs) : U64 := if bit n.mode 0 then n.profG else n.profS

/-- Whether a source can produce an output format (03 R118); other sources than FP32, INT32 and FP64 are not limited. -/
def canProduce (src dst : Nat) : Bool :=
  match src with
  | 0xC => decide (dst ≤ 9) || dst == 0xB || dst == 0xC || dst == 0xD
  | 0xD => dst == 0xA || dst == 0xD || dst == 0xC || dst == 0x0
  | 0xB => dst == 0xB || dst == 0xC
  | _ => true

/-- The rounding of an element of a converting operation (04 R133, R140). -/
def convMode (sr : Bool) (step : U64) (chan : Nat) (idx : U64) : RMode := if sr then .sr (srBits step chan idx) else .rne

/-- An element multiplied by an FP32 scale, exactly (03 R117 step 2). -/
def scaled (sc : Option Nat) (v : FV) : FV :=
  match sc with
  | some x => v.mul (decodeF fp32 x)
  | none => v

/-- The counts and amax of one converted element: its class, and the source value's magnitude (04 R136, R155). -/
def Counts.elem (x : CvClass) (src : FV) : Counts := { Counts.one x with amax := amaxCode src }

/-- A count of free numbers has been used. -/
def useFree (n : Nat) : Op Unit := modify (fun s => { s with free := s.free + n })

/-- NLAST and the counter sets after a converting instruction (04 R154 to R156). -/
def countConversion (c : CoreId) (x : Counts) (fmt cls chan : Nat) : Op Unit := do
  modC c (fun k => { k with num := { k.num with nlast := nlastWord x fmt cls chan } })
  let k ← coreOf c
  modify (fun s => addCounts s c k.accTask chan fmt x)

end Sys2Proof.Machine
end

