-- ==== Sys2Proof/Machine/Ledger.lean ====
section
/-! DEFINITION. Machine/Ledger.lean: the ledger engine apart from the seal's latch: opening a step, seal requests, ledger
messages, the inline digest, concordance, ratios and divergence alarms, accessions and rewinding (12 R446, R451, R455 to R465;
13 R476, R490, R491, R500). -/

namespace Sys2Proof.Machine

/-- The ledger engine changed. -/
def State.modLed (s : State) (f : LedState → LedState) : State := { s with led := f s.led }

/-- The address of a step's ledger entry (12 R466). -/
def entryPa (step : U64) : Nat := 0x8FFC000000 + step.toNat % 1024 * 0x10000

/-- The ledger engine writes bytes of an entry: it is the only writer (12 R466, 08 R302). -/
def ledWrite (s : State) (step : U64) (off : Nat) (bs : List Byte) : State := homeWrite s none none (entryPa step + off) bs

/-- An 8-byte word of an entry. -/
def State.ledWord (s : State) (step : U64) (off : Nat) : U64 := n64 (leNat (s.bytes (entryPa step + off) 8))

/-- Change an 8-byte word of an entry. -/
def ledPatch (s : State) (step : U64) (off : Nat) (f : U64 → U64) : State := ledWrite s step off (leBytes 8 (f (s.ledWord step off)).toNat)

/-! ### Inline digest (12 R458) -/

/-- The digest of one payload flit. -/
def flitDigest (plan unit f : Nat) (flit : List Byte) : Nat := (crc64 (leBytes 8 (plan * 2 ^ 33 + unit * 4 + f) ++ flit)).toNat

/-- The enabled tag a unit belongs to: the largest whose first unit is not after it. -/
def LedState.tagOf (l : LedState) (unit : Nat) : Option Nat :=
  (List.range 512).foldl (fun a t => if bit (vget l.tags t 0) 31 && decide (fld (vget l.tags t 0) 0 31 ≤ unit) then some t else a) none

/-- A digest array with a number added at a tag. -/
def addDigest (d : List (Nat × BitVec 128)) (t n : Nat) : List (Nat × BitVec 128) := spSet 0 d t (spGet 0 d t + BitVec.ofNat 128 n)

/-- Count the payload flits of a unit as sent or as received. -/
def LedState.digest (l : LedState) (recv : Bool) (plan unit : Nat) (bs : List Byte) : LedState :=
  match l.tagOf unit with
  | none => l
  | some t =>
    let n := ((List.range (cdiv bs.length 64)).map (fun f => flitDigest plan unit f ((bs.drop (64 * f)).take 64))).sum
    if recv then { l with recv := addDigest l.recv t n } else { l with sent := addDigest l.sent t n }

/-! ### The post-seal phase (12 R455, R457, R459 to R461, R464, R465; 16 R577) -/

/-- A post-seal phase or the opening multicast is pending. -/
def LedState.pends (l : LedState) : Bool := l.post.isSome || l.opening

/-- The step its messages carry: the pending entry's, or the open one for the opening multicast (12 R462, 16 R577). -/
def LedState.pstep (l : LedState) : U64 := l.post.getD l.step

/-- The phase is over when the verdict and, with an entry, every ratio has been written: STATE 2 (12 R465). -/
def finishPost (s : State) : State :=
  if !(bit s.led.stat 14) then s
  else match s.led.post with
  | none => s.modLed (fun l => { l with opening := false })
  | some n =>
    if s.led.ratios.length < 8 then s
    else
      let s := ledPatch s n 8 (fun w => setFld w 0 2 2)
      s.modLed (fun l => { l with post := none, opening := false, stat := if l.st = 3 then setFld l.stat 0 3 1 else l.stat })

/-- All 512 expected digests, once every message is in. -/
def LedState.expected (l : LedState) : Option (List (BitVec 128)) :=
  if l.digDown.length < 32 then none
  else some ((List.range 512).map (fun t => match l.digDown.find? (fun d => decide (d.1 ≤ t ∧ t < d.1 + 16)) with
    | some d => nth 0 d.2 (t - d.1)
    | none => 0))

/-- The verdict (12 R460). -/
def verdict (s : State) : State :=
  if !s.led.pends || !bit s.led.taken 2 || bit s.led.stat 14 then s
  else match s.led.expected with
  | none => s
  | some ex =>
    let bad := (List.range 512).filter (fun t => bit (vget s.led.tags t 0) 31 && spGet 0 s.led.recv t != nth 0 ex t)
    let s1 := s.modLed (fun l => { l with stat := setFld (setBit (setBit l.stat 14 true) 15 bad.isEmpty) 16 9 (bad.headD 0) })
    let s2 := match s.led.post with
      | none => s1
      | some n =>
        let a := ledWrite s1 n 0x6000 ((List.range 512).flatMap (fun t => leBytes 16 (spGet 0 s.led.recv t).toNat))
        let b := ledWrite a n 0x8000 (ex.flatMap (fun d => leBytes 16 d.toNat))
        let c := ledPatch b n 0x60 (fun w => setFld (setFld w 0 9 (bad.headD 0)) 16 10 bad.length)
        ledPatch c n 8 (fun w => setBit (setBit w 3 true) 4 bad.isEmpty)
    finishPost s2

/-- Expected digests of 16 tags are known: they go to every child (12 R459). -/
def digestsDown (s : State) (first : Nat) (ds : List (BitVec 128)) : State :=
  if s.led.digDown.any (fun d => d.1 == first) then s
  else
    let s := s.modLed (fun l => { l with digDown := l.digDown ++ [(first, ds)] })
    verdict (sendLeds s 4 s.led.pstep first (ds.flatMap (fun d => leBytes 16 d.toNat)) (s.led.kidList.map (fun k => k.1)))

/-- Sent digests of 16 tags go up once ROOTDONE is stored and every voting child's have come; at the root they are the expected
ones (12 R459). -/
def digestsUp (s : State) (first : Nat) : State :=
  let l := s.led
  let kid (c : Nat) := l.digKids.find? (fun d => d.1 == c && d.2.1 == first)
  if !l.pends || !bit l.taken 1 || l.digSent.contains first || l.voting.any (fun c => (kid c).isNone) then s
  else
    let ds := (rng first 16).map (fun t => l.voting.foldl (fun a c => match kid c with
      | some d => a + nth 0 d.2.2 (t - first)
      | none => a) (spGet 0 l.sent t))
    let s := s.modLed (fun l => { l with digSent := l.digSent ++ [first] })
    if l.root then digestsDown s first ds
    else if s.ledVotes then sendLed s 3 (fld l.tree 0 20) l.pstep first (ds.flatMap (fun d => leBytes 16 d.toNat)) else s

/-- The sum of two FP32 codes, rounded once to nearest-even (12 R464). -/
def add32 (a b : Nat) : Nat := (deliver fp32 .rne ((decodeF fp32 a).add false (decodeF fp32 b))).1

/-- The ratio of two combined sums (12 R464). -/
def ratio32 (dw w : Nat) : Nat :=
  let a := decodeF fp32 dw
  let b := decodeF fp32 w
  let below (v : FV) : Bool := v.neg && !v.isZero
  match a, b with
  | .nan, _ => fp32.qnan
  | _, .nan => fp32.qnan
  | .inf _, .inf _ => fp32.qnan
  | .inf s, .fin _ _ _ => if s || below b then fp32.qnan else fp32.infCode
  | .fin _ m _, .inf t => if below a || (t : Bool) then fp32.qnan else if m = 0 then 0 else 0
  | .fin _ m e, .fin _ n f =>
    if below a || below b then fp32.qnan
    else if m = 0 then 0
    else if n = 0 then fp32.infCode
    else
      let k := 64 + nbits n
      let x := e - f - Int.ofNat k
      let sh := if x % 2 = 0 then k else k + 1
      let q := m * 2 ^ sh / n
      let r := isqrt q
      let exact := decide (r * r = q) && m * 2 ^ sh % n == 0
      (deliver fp32 .rne (.fin false (2 * r + b01 (!exact)) ((e - f - Int.ofNat sh) / 2 - 1))).1

/-- The combined sums of 32 tags, once every one of them is in (12 R464). -/
def LedState.sums32 (l : LedState) (first : Nat) : Option (List (Nat × Nat)) :=
  let kid (c : Nat) := l.uwrKids.find? (fun d => d.1 == c && d.2.1 == first)
  if l.post.isNone || !bit l.taken 0 || l.voting.any (fun c => (kid c).isNone) then none
  else some ((rng first 32).map (fun t => l.voting.foldl (fun a c => match kid c with
    | some d => (add32 a.1 (nth (0, 0) d.2.2 (t - first)).1, add32 a.2 (nth (0, 0) d.2.2 (t - first)).2)
    | none => a) (nth (0, 0) l.sums t)))

/-- Abandon the accession being built (13 R476, R491). -/
def LedState.abandon (l : LedState) : LedState := { l with acc := none, svstat := setFld l.svstat 2 2 0 }

/-- Post a Curator notice, cause 0x32, to every compute core (12 R453, 13 R491). -/
def noticeAll (s : State) : State :=
  { s with cores := Vector.ofFn (fun c => if isCompute c then
      { s.cores.get c with rr := { (s.cores.get c).rr with xpend := setBit (s.cores.get c).rr.xpend 2 true } } else s.cores.get c) }

/-- Raise the divergence alarm of a step on a tag (13 R491). -/
def raiseAlarm (s : State) (step : U64) (tag : Nat) : State :=
  let s := s.modLed (fun l =>
    let l := { l with svstat := setFld (setFld (setBit l.svstat 7 true) 16 9 tag) 8 8 (fld l.alarm 4 8) }
    if l.acc = some step then l.abandon else l)
  noticeAll s

/-- Check the ratio of an enabled tag (13 R490). -/
def checkRatio (s : State) (step : U64) (t r : Nat) : State :=
  if !bit (vget s.led.tags t 0) 31 then s
  else
    let base := (vget s.led.base t 0).toNat
    let v := decodeF fp32 r
    let bv := decodeF fp32 base
    let put (x : Nat) : State := s.modLed (fun l => { l with base := vput l.base t (BitVec.ofNat 32 x) })
    if bv.isZero && v.isFin then put r
    else if 100 ≤ (step - s.led.first).toNat ∧ bit s.led.alarm 12 ∧ (!v.isFin ∨ (bv.shift (Int.ofNat (fld s.led.alarm 0 4))).lt v) then
      raiseAlarm s step t
    else
      let d := (deliver fp32 .rne ((v.add false bv.negate).shift (-4))).1
      put (add32 base d)

/-- Ratios of 64 tags are known: they go to every child and into the entry, and are checked (12 R464, 13 R490). -/
def ratiosDown (s : State) (first : Nat) (rs : List Nat) : State :=
  match s.led.post with
  | none => s
  | some n =>
    if s.led.ratios.any (fun d => d.1 == first) then s
    else
      let s := s.modLed (fun l => { l with ratios := l.ratios ++ [(first, rs)] })
      let s := sendLeds s 6 n first (rs.flatMap (fun r => leBytes 4 r)) (s.led.kidList.map (fun k => k.1))
      let s := (List.range 64).foldl (fun s i => ledWrite s n (0x4008 + 16 * (first + i)) (leBytes 4 (nth 0 rs i))) s
      finishPost ((List.range 64).foldl (fun s i => checkRatio s n (first + i) (nth 0 rs i)) s)

/-- Combined sums of 32 tags go up; at the root two such pieces give the ratios of 64 tags (12 R464). -/
def sumsUp (s : State) (first : Nat) : State :=
  let l := s.led
  if l.uwrSent.contains first then s
  else match l.sums32 first with
  | none => s
  | some ps =>
    let s := s.modLed (fun l => { l with uwrSent := l.uwrSent ++ [first] })
    if l.root then
      let lo := first / 64 * 64
      (match s.led.sums32 lo, s.led.sums32 (lo + 32) with
       | some a, some b => ratiosDown s lo ((a ++ b).map (fun p => ratio32 p.1 p.2))
       | _, _ => s)
    else if s.ledVotes then sendLed s 5 (fld l.tree 0 20) l.pstep first (ps.flatMap (fun p => leBytes 4 p.1 ++ leBytes 4 p.2)) else s

/-- LG_POST.UWR: the sums are read and put into the pending entry; poison among them is consumed (12 R448, R455). -/
def postUwr (s : State) : State :=
  if !s.led.pends || bit s.led.taken 0 then s
  else
    let a := s.led.uwrbuf.toNat
    let ps := (List.range 512).map (fun t => (leNat (s.bytes (a + 8 * t) 4), leNat (s.bytes (a + 8 * t + 4) 4)))
    let s := consumed (l2Touch s a 4096 false) (s.poisoned a 4096)
    let s := s.modLed (fun l => { l with taken := l.taken ||| 1, sums := ps })
    match s.led.post with
    | none => s
    | some n =>
      let s := (List.range 512).foldl (fun s t => ledWrite s n (0x4000 + 16 * t) (leBytes 4 (nth (0, 0) ps t).1 ++ leBytes 4 (nth (0, 0) ps t).2)) s
      (List.range 16).foldl (fun s i => sumsUp s (32 * i)) s

/-- LG_POST.ROOTDONE (12 R459). -/
def postRootdone (s : State) : State :=
  if !s.led.pends || bit s.led.taken 1 then s
  else (List.range 32).foldl (fun s i => digestsUp s (16 * i)) (s.modLed (fun l => { l with taken := l.taken ||| 2 }))

/-- LG_POST.RECVDONE (12 R460). -/
def postRecvdone (s : State) : State :=
  if !s.led.pends || bit s.led.taken 2 then s else verdict (s.modLed (fun l => { l with taken := l.taken ||| 4 }))

/-- LG_POST.TWIN3 and TWINX added to the pending entry (12 R454, R465). In each chunk a third run decides one core is outvoted (13 R485);
the register does not say which, and it is a free value (log 59). -/
def postTwin (s : State) (t3 tx : Nat) : State :=
  match s.led.post with
  | none => s
  | some n =>
    let s := ledPatch s n 0x68 (fun w => setFld (setFld w 0 16 (min 0xFFFF (fld w 0 16 + t3))) 16 16 (min 0xFFFF (fld w 16 16 + tx)))
    let new := (List.range t3).map (fun i => (Config.freeNat (s.free + i) % 128, n.toNat))
    { s with
      free := s.free + t3,
      led := { s.led with outvotes := s.led.outvotes.filter (fun x => decide (n.toNat < x.2 + 1024)) ++ new } }

/-- A store to LG_POST (12 R468). -/
def lgPost (s : State) (v : U64) : State :=
  let s := if fld v 16 32 ≠ 0 then postTwin s (fld v 16 16) (fld v 32 16) else s
  let s := if bit v 0 then postUwr s else s
  let s := if bit v 1 then postRootdone s else s
  if bit v 2 then postRecvdone s else s

/-! ### Opening a step and requesting its seal (12 R446, R468) -/

/-- Nothing of an earlier phase or vote. -/
def LedState.newPhase (l : LedState) : LedState :=
  { l with taken := 0, digKids := [], digDown := [], digSent := [], sums := [], uwrKids := [], uwrSent := [], ratios := [] }
/-- No vote of the open step yet. -/
def LedState.newVote (l : LedState) : LedState := { l with dirty := false, voted := false, votedDirty := false, kidVotes := [], outcome := none }

/-- The profile in effect on the cores (04 R152, R153). -/
def State.profNow (s : State) : StepProf :=
  let n := (s.core 0).num
  { prof := bit n.mode 0, nps := n.profS, npg := n.profG }

/-- LG_START: it opens a step while IDLE with nothing sealed since the reset (12 R468, 16 R577). -/
def lgStart (s : State) (k : U64) : State :=
  if s.led.st ≠ 0 ∨ s.led.sealed then s
  else
    let p := s.profNow
    { s with
      led := { s.led.newPhase.newVote with
        stat := setFld s.led.stat 0 3 1, step := k, first := k, fresh := true, opening := true, post := none, prof0 := p, replays := 0, wdPass := false,
        notrep := s.pow.notrepNow, nseal := 0, stops := [], ownDirty := 0 },
      pow := { s.pow.openShare with hist := [] } }

/-- A write of 1 to LG_SEAL.GO (12 R446). -/
def lgSealGo (s : State) (dirty : Bool) : State :=
  let dup := s.modLed (fun l => { l with stat := setBit l.stat 26 true })
  if (vget s.cur.fns 7 .enabled) ≠ .enabled then s
  else if s.led.window.isSome then
    (if s.led.heldGo.isSome then dup else s.modLed (fun l => { l with heldGo := some dirty, goAt := s.hall.now }))
  else if s.led.quiet.isSome ∨ s.led.st = 0 ∨ s.led.st = 2 then dup
  else s.modLed (fun l => { l with stat := setFld l.stat 0 3 2, dirty := dirty, goAt := s.hall.now })

/-! ### Messages received (12 R447, R450, R451, R462, R463) -/

/-- 16-byte or smaller items of a payload, as numbers. -/
def items (w n : Nat) (bs : List Byte) : List Nat := (List.range n).map (fun i => leNat ((bs.drop (w * i)).take w))

/-- A VOTE of a voting child; a dirty one goes on at once, and one of a step whose outcome has been decided is discarded (12 R449, R450;
log 85). -/
def ledVote (s : State) (from' : Nat) (v : VoteVal) : State :=
  if s.led.outcome.isSome ∨ s.led.quiet.isSome then s
  else
    let s := s.modLed (fun l => { l with kidVotes := l.kidVotes.filter (fun q => q.1 != from') ++ [(from', v)] })
    if dirtyWord v.word && s.voteOpen then castVote s else s

/-- An OUTCOME from the parent (12 R451). -/
def ledOutcome (s : State) (v : VoteVal) (t : U64) : State :=
  if s.led.outcome.isSome ∨ s.led.quiet.isSome then s
  else
    let s := if t.toNat < s.hall.now.toNat then s.modLed (fun l => { l with stat := setBit l.stat 25 true }) else s
    takeOutcome s v t

/-- What a delivered LEDGER packet is for: a message upward from a voting child or downward from the parent, a vote or an outcome for the open step
while the engine takes part in seals, any other for the step in its post-seal phase; a packet that is none of these is discarded (12 R447,
R450, R462, R468; log 85). -/
def ledActs (s : State) (k : Packet) : Bool :=
  let l := s.led
  let kind := k.plan.toNat
  (if kind % 2 = 1 then l.voting.contains k.scall.toNat else !l.root && fld l.tree 0 20 == k.scall.toNat)
    && (if kind ≤ 2 then bit l.ctl 0 && k.tag == BitVec.ofNat 32 l.step.toNat else l.pends && k.tag == BitVec.ofNat 32 l.pstep.toNat)

/-- The message a delivered LEDGER packet carries takes effect (12 R449, R451, R459, R464). -/
def ledMessage (s : State) (k : Packet) : State :=
  if !ledActs s k then s else
  let bs := bodyBytes k.body
  let w := items 8 5 bs
  let g (i : Nat) : U64 := n64 (nth 0 w i)
  let c := k.scall.toNat
  let first := fld k.w2 0 9
  match k.plan.toNat with
  | 1 => ledVote s c { word := g 0, loss := g 1, tokens := g 2, members := g 3 }
  | 2 => ledOutcome s { word := g 0, loss := g 2, tokens := g 3, members := g 4 } (g 1)
  | 3 => digestsUp (s.modLed (fun l => { l with
      digKids := l.digKids.filter (fun d => !(d.1 == c && d.2.1 == first)) ++ [(c, first, (items 16 16 bs).map (BitVec.ofNat 128))] })) first
  | 4 => digestsDown s first ((items 16 16 bs).map (BitVec.ofNat 128))
  | 5 => sumsUp (s.modLed (fun l => { l with
      uwrKids := l.uwrKids.filter (fun d => !(d.1 == c && d.2.1 == first)) ++
        [(c, first, (List.range 32).map (fun i => (nth 0 (items 4 64 bs) (2 * i), nth 0 (items 4 64 bs) (2 * i + 1))))] })) first
  | 6 => ratiosDown s first (items 4 64 bs)
  | _ => s

/-- Whether the endpoint delivers a LEDGER packet to the ledger engine: from the parent or a child, with the job's key, and for the open step or the
one in its post-seal phase (12 R462). -/
def ledAdmits (s : State) (k : Packet) : Bool :=
  let l := s.led
  l.st != 0 && k.jobkey == BitVec.ofNat 16 (fld s.fab.ctl 0 16)
    && (fld l.tree 0 20 == k.scall.toNat || l.kidList.any (fun c => c.1 == k.scall.toNat))
    && (k.tag == BitVec.ofNat 32 l.step.toNat || (l.pends && k.tag == BitVec.ofNat 32 l.pstep.toNat))

/-- FILL and FREE of the ledger pairs for the packets that wait (12 R463). -/
def LedState.filled (l : LedState) : LedState :=
  { l with pairs := Vector.ofFn (fun (i : Fin 2) =>
      let n := min 64 (l.slots.filter (fun x => b01 x.1 == i.val)).length
      setFld (setFld (l.pairs.get i) 0 16 n) 16 16 (64 - n)) }

/-- A LEDGER packet that came in on a port is delivered: taken, kept in a slot of its pair while FN7 takes none, or dropped and counted. Its VC 7
credits are returned while the pair has a free slot (12 R462, R463; 15 R555). -/
def ledReceive (s : State) (p : PortId) (k : Packet) : State :=
  if !ledAdmits s k then (s.owe (some p) k).drop
  else if vget s.cur.fns 7 .enabled == .enabled then ledMessage (s.owe (some p) k) k
  else
    let par := fld s.led.tree 0 20 == k.scall.toNat
    let free := decide ((s.led.slots.filter (fun x => x.1 == par)).length + 1 < 64)
    let s := if free then s.owe (some p) k else s
    s.modLed (fun l => LedState.filled { l with slots := l.slots ++ [(par, if free then none else some p, k)] })

/-- No packet waits in the ledger pairs any more: their slots are free, and every credit held back is returned (12 R463). -/
def ledEmpty (s : State) : State :=
  let ks := s.led.slots
  let s := s.modLed (fun l => LedState.filled { l with slots := [] })
  ks.foldl (fun s x => s.owe x.2.1 x.2.2) s

/-- Waiting packets are taken when FN7 takes packets again. -/
def ledDrain (s : State) : State :=
  let ks := s.led.slots
  ks.foldl (fun s x => if ledAdmits s x.2.2 then ledMessage s x.2.2 else s.drop) (ledEmpty s)

/-! ### Accessions and rewinding (13 R476, R480, R500) -/

/-- A store to SV_CMD; a held accession ends SHRK (13 R504, R507). -/
def svCmd (l : LedState) (v : U64) : LedState :=
  let l := if bit v 0 then { l with acc := if l.sealed then some l.last else l.acc, svstat := setFld l.svstat 2 2 1 } else l
  let l := if bit v 1 then { l with svstat := setFld l.svstat 2 2 2 } else l
  let l := if bit v 2 then { l with astep := l.acc.getD l.astep, acc := none, svstat := setBit (setFld l.svstat 2 2 0) 6 false } else l
  let l := if bit v 3 then l.abandon else l
  if bit v 4 then { l with dstep := l.astep } else l

/-- Write the profile on every core, compute and hub (04 R152). -/
def setProfile (s : State) (p : StepProf) : State :=
  { s with cores := vmap (fun k => { k with num := { k.num with mode := setBit k.num.mode 0 p.prof, profS := p.nps, profG := p.npg } }) s.cores }

/-- Write NSR_STEP of every compute core (04 R141). -/
def setStep (s : State) (n : U64) : State :=
  { s with cores := Vector.ofFn (fun c => if isCompute c then
      { s.cores.get c with num := { (s.cores.get c).num with srStep := n } } else s.cores.get c) }

/-- The tasks of every core that meet a test. -/
def State.tasksOf (s : State) (p : Task → Bool) : List (CoreId × Nat) :=
  (List.finRange 144).flatMap (fun c => ((List.range 4).filter (fun t => ((s.core c).task t).st != .free && p ((s.core c).task t))).map (fun t => (c, t)))

/-- GRD, the steps still forced into GUARDED (13 R491). -/
def LedState.grd (l : LedState) : Nat := fld l.svstat 8 8

/-- SV_REWIND: an earlier step is opened again (13 R500). -/
def svRewind (s : State) (k : U64) : State :=
  let l := s.led
  if !(bit l.svstat 4 || bit l.svstat 7) ∨ l.st = 0 ∨ l.st = 2 ∨ l.heldGo.isSome ∨ l.step.toNat < k.toNat ∨ k.toNat + 1024 ≤ l.step.toNat then s
  else
    let h := s.ledWord k 8
    let n := s.ledWord k 0x18
    let p : StepProf := if s.ledWord k 0 = k ∧ fld h 0 2 ≠ 0 then { prof := bit h 2, nps := n64 (fld n 0 5), npg := n64 (fld n 8 5) } else l.prof0
    let p : StepProf := if l.grd ≠ 0 then { p with prof := true } else p
    let back := l.step.toNat - k.toNat
    let s := setProfile (setStep s k) p
    let s := abortTasks s 3 (s.tasksOf (fun t => decide (k.toNat ≤ t.step.toNat)))
    { s with
      led := { s.led.newPhase.newVote with
        stat := setFld (setFld s.led.stat 0 3 1) 14 2 0, step := k, last := k - 1, fresh := true, opening := true, post := none, prof0 := p,
        replays := 0, wdPass := false, nseal := l.nseal - back, notrep := s.pow.notrepNow, stops := [], ownDirty := 0 },
      pow := { s.pow.openShare with hist := [] } }

end Sys2Proof.Machine
end

