-- ==== Sys2Proof/Machine/Mailbox.lean ====
section
/-! DEFINITION. Machine/Mailbox.lean: the mailbox windows, the capture of a call slip, its checks and its answer (15 R533 to R547). -/

namespace Sys2Proof.Machine

/-! ### Windows (15 R535) -/

/-- MB_STAT as it reads: NOTE and NCOUNT come from the queue. -/
def Mailbox.statWord (m : Mailbox) : U64 := setFld (setBit m.stat 3 (!m.notes.isEmpty)) 5 6 m.notes.length

/-- The 64 bytes of a notice (15 R553). -/
def Notice.bytes (n : Notice) : List Byte :=
  wordBytes [n64 (n.kind.toNat + n.unit.toNat <<< 8), n.hallt, n.arg0, n.arg1, 0, 0, 0, 0]

/-- A byte of a window at an offset. -/
def Mailbox.byteAt (m : Mailbox) (off : Nat) : Byte :=
  if 8 ≤ off ∧ off < 16 then nth 0 (leBytes 8 m.statWord.toNat) (off - 8)
  else if 16 ≤ off ∧ off < 24 then nth 0 (leBytes 8 m.ctl.toNat) (off - 16)
  else if 0x1000 ≤ off ∧ off < 0x2040 then spGet 0 m.req (off - 0x1000)
  else if 0x3000 ≤ off ∧ off < 0x4040 then spGet 0 m.resp (off - 0x3000)
  else if 0x8000 ≤ off ∧ off < 0x8040 then
    (match m.notes with
     | n :: _ => nth 0 n.bytes (off - 0x8000)
     | [] => 0)
  else 0

/-- n bytes of a window as a little-endian number. -/
def Mailbox.readN (m : Mailbox) (off n : Nat) : Nat := leNat ((rng off n).map m.byteAt)

/-! ### Commands (15 R544) -/

/-- How a command is admitted (15 R544, R547). -/
inductive CmdKind where
  /-- read command -/
  | read
  /-- modifying, in a group: 0 for B to 5 for G -/
  | mod (group : Nat)
  /-- modifying, from the owner only -/
  | owner
  /-- judged by its own rule -/
  | own
deriving DecidableEq, Repr

/-- A command's kind, response class and the one mailbox that accepts it (15 R544). -/
def cmdInfo (cmd : Nat) : Option (CmdKind × Nat × Option Nat) :=
  if cmd = 0x01 then some (.read, 0, none)
  else if cmd = 0x02 then some (.own, 2, none)
  else if cmd = 0x03 then some (.own, 0, none)
  else if cmd = 0x04 then some (.own, 1, none)
  else if cmd = 0x05 then some (.owner, 1, none)
  else if cmd = 0x06 then some (.own, 2, some 1)
  else if cmd = 0x07 then some (.owner, 2, some 1)
  else if cmd = 0x10 then some (.read, 0, none)
  else if cmd = 0x11 ∨ cmd = 0x12 then some (.read, 1, none)
  else if cmd = 0x13 then some (.read, 2, none)
  else if cmd = 0x20 then some (.read, 0, none)
  else if cmd = 0x21 ∨ cmd = 0x23 ∨ cmd = 0x24 then some (.mod 0, 2, none)
  else if cmd = 0x22 ∨ cmd = 0x26 ∨ cmd = 0x27 ∨ cmd = 0x28 then some (.mod 0, 1, none)
  else if cmd = 0x25 then some (.read, 0, none)
  else if cmd = 0x29 ∨ cmd = 0x2A then some (.mod 0, 1, some 7)
  else if 0x30 ≤ cmd ∧ cmd ≤ 0x33 then some (.mod 1, 1, none)
  else if cmd = 0x34 then some (.read, 0, none)
  else if cmd = 0x40 then some (.mod 2, 1, some 1)
  else if cmd = 0x41 ∨ cmd = 0x45 then some (.mod 2, 2, none)
  else if cmd = 0x42 ∨ cmd = 0x46 then some (.mod 2, 1, none)
  else if cmd = 0x43 ∨ cmd = 0x44 then some (.read, 1, none)
  else if cmd = 0x50 then some (.read, 1, none)
  else if cmd = 0x51 then some (.own, 2, some 1)
  else if cmd = 0x52 then some (.mod 3, 2, none)
  else if cmd = 0x53 then some (.mod 3, 1, none)
  else if cmd = 0x60 then some (.mod 4, 1, none)
  else if cmd = 0x70 then some (.read, 1, none)
  else if cmd = 0x71 then some (.mod 5, 1, none)
  else if cmd = 0x72 then some (.read, 1, none)
  else if cmd = 0x80 then some (.own, 2, some 1)
  else none

/-- Status values (15 R543). -/
def stOK : Nat := 0
/-- STARTED. -/
def stSTARTED : Nat := 1
/-- CONTINUE. -/
def stCONTINUE : Nat := 2
/-- BADCMD. -/
def stBADCMD : Nat := 0x10
/-- BADARG. -/
def stBADARG : Nat := 0x11
/-- BADLEN. -/
def stBADLEN : Nat := 0x12
/-- BADCRC. -/
def stBADCRC : Nat := 0x13
/-- NOTOWNER. -/
def stNOTOWNER : Nat := 0x14
/-- NOTHERE. -/
def stNOTHERE : Nat := 0x15
/-- BUSY. -/
def stBUSY : Nat := 0x16
/-- STATE. -/
def stSTATE : Nat := 0x17
/-- BADTOKEN. -/
def stBADTOKEN : Nat := 0x18
/-- HELD. -/
def stHELD : Nat := 0x19
/-- NOTFOUND. -/
def stNOTFOUND : Nat := 0x1A

/-! ### Capture (15 R536, R539, R546, R547) -/

/-- The source key of a slip from a mailbox (15 R546). -/
def State.sourceKey (s : State) (mb : Nat) : U64 := match (if 2 ≤ mb ∧ mb ≤ 5 then (s.box mb).bind else none) with
  | some b => n64 (mb + b.1.toNat <<< 3)
  | none => n64 mb

/-- A renewal, or a claim, captured from the owner waits to be answered (15 R548, R549). -/
def State.renewing (s : State) (key : U64) : Bool :=
  (List.range 8).any (fun mb => (s.box mb).slip.any (fun sl => (sl.cmd == 3 || sl.cmd == 2) && sl.own && sl.key == key && !sl.taken))

/-- The owner whose lease is live: it has not ended, or a renewal or claim of its own captured before its end is still to be answered (15 R549). -/
def State.liveOwner (s : State) : Option Owner := s.cur.owner.filter (fun o => decide (s.now < o.lease) || s.renewing o.key)

/-- A source key is the owner's. -/
def State.isOwner (s : State) (key : U64) : Bool := s.liveOwner.any (fun o => o.key == key)

/-- The slip a request area holds (15 R539). -/
def State.slipOf (s : State) (mb : Nat) (req : List (Nat × Byte)) : Slip :=
  let w (i : Nat) : U64 := n64 (leNat (spRead 0 req (8 * i) 8))
  let plen := fld (w 0) 32 16
  let pay := spRead 0 req 64 (min 4096 plen)
  { cmd := fld (w 0) 0 16, more := bit (w 0) 16, crcen := bit (w 0) 17, plen := plen, seq := fld (w 0) 48 16,
    args := [w 1, w 2, w 3, w 4], scrc := (w 7).setWidth 32,
    crc := crc32c (spRead 0 req 0 56 ++ [0, 0, 0, 0] ++ spRead 0 req 60 4 ++ pay),
    rsv := fld (w 0) 18 14 != 0 || w 5 != 0 || w 6 != 0 || fld (w 7) 32 32 != 0,
    payload := pay, key := s.sourceKey mb, own := s.isOwner (s.sourceKey mb),
    groups := if s.liveOwner.isSome then (vget s.cur.grants mb 0).toNat else 0, taken := false, ord := s.cur.caps,
    at' := s.now, rival := s.liveOwner.filter (fun o => o.key != s.sourceKey mb) }

/-- A write of 1 to MB_DOOR.POST: the slip is captured, or the post is ignored and LOST is set; while FN1 is not enabled MB0 captures
no post (15 R536, R555). -/
def postSlip (s : State) (mb : Nat) : State :=
  if mb = 0 ∧ vget s.cur.fns 1 .enabled ≠ .enabled then s
  else
    let m := s.box mb
    if bit m.stat 0 then s.modBox mb (fun m => { m with stat := setBit m.stat 2 true, posted := s.now })
    else
      let sl := s.slipOf mb m.req
      let s := s.modBox mb (fun m => { m with
        stat := setBit (setBit m.stat 0 true) 1 false, slip := some sl, reply := none, posted := s.now })
      { s with cur := { s.cur with caps := s.cur.caps + 1 } }

/-- The oldest notice leaves a queue (15 R535). -/
def popNotice (s : State) (mb : Nat) : State := s.modBox mb (fun m => { m with notes := m.notes.drop 1 })

/-- A write of n bytes (4 or 8) to a window. -/
def boxWrite (s : State) (mb off n v : Nat) : State :=
  let x := n64 ((v % 2 ^ (8 * n)) <<< (8 * (off % 8)))
  let base := off / 8 * 8
  if base = 0 then (if bit x 0 then postSlip s mb else s)
  else if base = 8 then
    s.modBox mb (fun m => { m with stat := m.stat &&& ~~~(x &&& 0x16#64) })
  else if base = 16 then (if off = 16 then s.modBox mb (fun m => { m with ctl := x &&& 0x3FF#64 }) else s)
  else if base = 24 then (if bit x 0 then popNotice s mb else s)
  else if 0x1000 ≤ off ∧ off < 0x2040 then s.modBox mb (fun m => { m with req := spSetAll 0 m.req (off - 0x1000) (leBytes n v) })
  else s

/-! ### Judging and answering (15 R537, R540, R541, R543, R547, R566, R570) -/

/-- Ownership commands. -/
def isOwnCmd (cmd : Nat) : Bool := decide (1 ≤ cmd ∧ cmd ≤ 7)

/-- The commands accepted in the module's present condition (16 R566, R570). -/
def State.modeAllows (s : State) (mb cmd : Nat) : Bool :=
  if s.plat.recovery then cmd == 0x10 || cmd == 0x80
  else if s.plat.halted then cmd == 0x10 || cmd == 0x50 || isOwnCmd cmd || cmd == 0x24 || cmd == 0x80
  else if s.plat.stage < 8 then
    mb != 0 && mb != 6 && (cmd == 0x10 || isOwnCmd cmd || cmd == 0x12 || cmd == 0x13 || cmd == 0x50 || cmd == 0x60 || cmd == 0x40
      || cmd == 0x80 || cmd == 0x24)
  else true

/-- What becomes of a captured slip before its command: refused with a status, kept as a part, or run. -/
inductive Judged where
  /-- status, and whether the staged payload is discarded -/
  | refuse (status : Nat) (discard : Bool)
  | part
  | run
deriving DecidableEq, Repr

/-- Judge a captured slip (15 R539, R541, R543, R544, R547; the order of the checks: log 63). -/
def State.judge (s : State) (mb : Nat) (sl : Slip) : Judged :=
  let m := s.box mb
  if 4096 < sl.plen then .refuse stBADLEN false
  else if (!sl.crcen && decide (1 ≤ mb ∧ mb ≤ 5)) || (sl.crcen && sl.scrc != sl.crc) then .refuse stBADCRC false
  else if sl.rsv then .refuse stBADARG false
  else match cmdInfo sl.cmd with
  | none => .refuse stBADCMD false
  | some (kind, _, only) =>
    if only.isSome && only != some mb then .refuse stNOTHERE false
    else if !s.modeAllows mb sl.cmd then .refuse stSTATE false
    else
      let may := match kind with
        | .mod g => sl.own || bitsOf sl.groups g 1 == 1
        | .owner => sl.own
        | _ => true
      if !may then .refuse stNOTOWNER true
      else if m.stageOf.isSome && m.stageOf != some (sl.cmd, sl.seq) then .refuse stBADLEN true
      else if 32768 < m.stage.length + sl.payload.length then .refuse stBADLEN true
      else if sl.more then .part else .run

/-- The response class of a command (15 R542, R544). -/
def cmdClass (cmd : Nat) : Nat := match cmdInfo cmd with
  | some (_, c, _) => c
  | none => 0

/-- Write the response area, set DONE and clear BUSY; DEN raises the event (15 R535, R537, R540). -/
def respond (s : State) (mb : Nat) (sl : Slip) (r : Reply) : State :=
  let g (i : Nat) : U64 := nth 0 r.rets i
  let hdr := [n64 (sl.cmd + r.status <<< 16 + r.payload.length <<< 32 + sl.seq <<< 48), g 0, g 1, g 2, g 3, s.hallt, n64 r.cls]
  let crc := crc32c (wordBytes hdr ++ List.replicate 8 0 ++ r.payload)
  let bytes := wordBytes hdr ++ leBytes 8 crc.toNat ++ r.payload
  let s := s.modBox mb (fun m => { m with
    resp := spSetAll 0 [] 0 bytes, slip := none, reply := none,
    stat := setFld (setBit (setBit m.stat 1 true) 0 false) 16 16 sl.seq })
  if bit (s.box mb).ctl 0 then raiseCN s (fld (s.box mb).ctl 2 8) else s

/-- Discard a mailbox's staged payload. -/
def unstage (s : State) (mb : Nat) : State := s.modBox mb (fun m => { m with stage := [], stageOf := none })

/-- SLIP_ANSWERED: the answer formed for a mailbox's slip is written; a slip that its checks refuse, or a part, is answered here
(15 R537, R541). -/
def execSlipAnswered (mb : MailId) (s : State) : Host.Outcome State Fault Refusal :=
  .next (match (s.box mb.val).slip with
    | none => s
    | some sl =>
      match (s.box mb.val).reply with
      | some r => respond s mb.val sl r
      | none =>
        if sl.taken then s
        else match s.judge mb.val sl with
        | .refuse st d => respond (if d then unstage s mb.val else s) mb.val sl { status := st, rets := [], payload := [], cls := cmdClass sl.cmd }
        | .part =>
          respond (s.modBox mb.val (fun m => { m with stage := m.stage ++ sl.payload, stageOf := some (sl.cmd, sl.seq) })) mb.val sl
            { status := stCONTINUE, rets := [], payload := [], cls := 0 }
        | .run => s)

/-- The resource a modifying slip acts on: kind and number (15 R545). -/
def Slip.resource (sl : Slip) : Option (Nat × Nat) :=
  let a := (nth 0 sl.args 0).toNat
  if 0x21 ≤ sl.cmd ∧ sl.cmd ≤ 0x23 then some (0, a)
  else if sl.cmd = 0x26 ∨ sl.cmd = 0x27 ∨ sl.cmd = 0x29 ∨ sl.cmd = 0x2A then some (1, a)
  else if sl.cmd = 0x42 then some (2, 0)
  else if 0x30 ≤ sl.cmd ∧ sl.cmd ≤ 0x33 then some (3, 0)
  else if sl.cmd = 0x40 ∨ sl.cmd = 0x41 ∨ sl.cmd = 0x45 then some (4, 0)
  else none

/-- A slip captured earlier acts on the same resource and has not taken effect (15 R545). -/
def State.behind (s : State) (sl : Slip) : Bool :=
  sl.resource.isSome && (List.range 8).any (fun mb => match (s.box mb).slip with
    | some x => x.resource == sl.resource && decide (x.ord < sl.ord) && !x.taken && (s.box mb).reply.isNone && s.judge mb x == .run
    | none => false)

/-- The slip a command acts on: captured, judged fit to run, and not yet taken; with its whole payload (15 R541). -/
def State.slipFor (s : State) (mb : Nat) (cmd : Nat) : Option (Slip × List Byte) :=
  match (s.box mb).slip with
  | none => none
  | some sl =>
    if sl.cmd = cmd ∧ !sl.taken ∧ (s.box mb).reply.isNone ∧ s.judge mb sl = .run ∧ !s.behind sl then some (sl, (s.box mb).stage ++ sl.payload)
    else none

/-- Form the answer of a mailbox's slip. -/
def reply (s : State) (mb status : Nat) (rets : List U64) (payload : List Byte) : State :=
  (unstage s mb).modBox mb (fun m => { m with
    reply := m.slip.map (fun sl => { status := status, rets := rets, payload := payload, cls := cmdClass sl.cmd }),
    slip := m.slip.map (fun sl => { sl with taken := true }) })

/-- The slip has taken effect, and its answer waits for the end of the work. -/
def takeSlip (s : State) (mb : Nat) : State := (unstage s mb).modBox mb (fun m => { m with slip := m.slip.map (fun sl => { sl with taken := true }) })

/-- A command that takes a payload (15 R544). -/
def takesPayload (cmd : Nat) : Bool := [0x06, 0x07, 0x13, 0x41, 0x42, 0x51, 0x80].contains cmd

/-- Run a command on a mailbox's slip, if one waits for it; a payload it does not take is a wrong PLEN (15 R543; log 71). -/
def onSlip (s : State) (mb : MailId) (cmd : Nat) (f : Slip → List Byte → State → State) : Host.Outcome State Fault Refusal :=
  .next (match s.slipFor mb.val cmd with
    | some (sl, pay) => if pay.isEmpty || takesPayload cmd then f sl pay s else reply s mb.val stBADLEN [] []
    | none => s)

/-- An argument of a slip. -/
def Slip.arg (sl : Slip) (i : Nat) : U64 := nth 0 sl.args i

/-! ### Bindings and the management port (15 R534, R538) -/

/-- A binding ends, and with it the grants of its mailbox (15 R534, R547). -/
def unbind (s : State) (mb : Nat) : State :=
  let s := s.modBox mb (fun m => { m with bind := none })
  { s with cur := { s.cur with grants := vput s.cur.grants mb 0 } }

/-- Bind a mailbox to a call number, job key and edition (15 R534). -/
def bindBox (s : State) (mb : Nat) (call : BitVec 20) (key ed : BitVec 16) : State :=
  (unbind s mb).modBox mb (fun m => { m with bind := some (call, key, ed), posted := s.now })

/-- The management port is live from the end of bring-up stage 2 until main conversion stops (17 R593, R589). -/
def State.portLive (s : State) : Bool := s.plat.main && (decide (2 ≤ s.plat.stage) || s.plat.halted || s.plat.recovery)

/-- The payload of the frame that carries a response or notice out of the management port: the kind and the controller identifier, then its
bytes (15 R538). -/
def State.portFrame (s : State) (kind : Nat) (bs : List Byte) : List Byte := leBytes 8 (kind + s.cur.portId.toNat <<< 8) ++ bs

/-- The frame of the response that stands in MB1's response area (15 R538, R540). -/
def State.responseFrame (s : State) : List Byte := s.portFrame 2 (spRead 0 (s.box 1).resp 0 (64 + leNat (spRead 0 (s.box 1).resp 4 2)))

/-- A slip frame goes into MB1's request area, and its controller identifier is kept (15 R538). -/
def takeFrame (s : State) (bs : List Byte) : State :=
  let s := s.modBox 1 (fun m => { m with req := spSetAll 0 [] 0 ((bs.drop 8).take 4160) })
  { s with cur := { s.cur with portId := BitVec.ofNat 16 (leNat ((bs.drop 1).take 2)) } }

/-- MANAGEMENT_FRAME: a frame's payload of kind 1 is handled as a post to MB1, and its controller identifier is kept to be echoed; every other
kind is discarded (15 R538, 17 R593). -/
def execManagementFrame (bs : List Byte) (s : State) : Host.Outcome State Fault Refusal :=
  .next (if !s.portLive || leNat (bs.take 1) != 1 || decide (4232 < bs.length) then s
    else
      let s := if bit (s.box 1).stat 0 then s else takeFrame s bs
      postSlip s 1)

/-- MAILBOX_BINDING_EXPIRY: 10 s without a post (15 R534). -/
def execMailboxBindingExpiry (mb : MailId) (s : State) : Host.Outcome State Fault Refusal :=
  .next (if (s.box mb.val).bind.isSome then unbind (s.advanceTo ((s.box mb.val).posted + 10000000000)) mb.val else s)

end Sys2Proof.Machine
end

