-- ==== Sys2Proof/Machine/Power.lean ====
section
/-! DEFINITION. Machine/Power.lean: phases, the frequency loop and changes, limiters and stretches, droop, array gates and the
thermal read (14 R508 to R529). -/

namespace Sys2Proof.Machine

/-- The power state changed. -/
def State.modPow (s : State) (f : PowState → PowState) : State := { s with pow := f s.pow }

/-- FREQ of the phase in effect (14 R518). -/
def PowState.phaseFreq (p : PowState) : Nat := fld (vget p.opp p.phase 0) 0 12
/-- The cap in effect, in 1/64 W (14 R511). -/
def PowState.cap64 (p : PowState) : Nat := fld p.cap 0 12 * fld (vget p.opp p.phase 0) 16 7

/-- One more in a saturating 16-bit count of PW_STAT (14 R531). -/
def PowState.count (p : PowState) (lo : Nat) : PowState := { p with stat := setFld p.stat lo 16 (min 0xFFFF (fld p.stat lo 16 + 1)) }

/-- A cap, limiter or thermal stretch begins: it is counted, and the step's timing is not repeatable (14 R515, R531). -/
def stretchEpisode (s : State) : State := { s.modPow (fun p => p.count 16) with led := { s.led with notrep := true } }

/-! ### Field tests (13 R488, R489) -/

/-- The Curator holds the arithmetic clock at a frequency, and the compute rail below its operating point by a number of tenths of a percent
(13 R488, R489). -/
def PowState.stress (p : PowState) (mhz drop : Nat) : PowState := { p with heldFreq := some mhz, railDrop := drop }

/-- The stress ends: the clock runs at its own frequency, the rail at its operating point (13 R488, R489). -/
def PowState.relieve (p : PowState) : PowState := { p with heldFreq := none, railDrop := 0 }

/-! ### Frequency changes (14 R509, R510, R525) -/

/-- The frequency whose voltage the rail is to have: a pending increase's, else the one in effect (14 R510). -/
def PowState.railGoal (p : PowState) : Nat := match p.change with
  | some x => max x.target p.freq
  | none => p.freq

/-- Start the ramp toward the wanted voltage, unless one is in flight or none is needed (14 R509, R510). -/
def PowState.startRamp (p : PowState) : PowState :=
  if p.ramping || p.railFor == p.railGoal then p else { p with railFor := p.railGoal, ramping := true }

/-- Droop is clear (14 R523). -/
def PowState.clear (p : PowState) : Bool := p.droop.toList.all (fun d => !d.tripped)

/-- The droop rule allows a switch at a module time (14 R525). -/
def PowState.droopAllows (p : PowState) (t : Nat) : Bool := p.clear && decide (p.clearAt + 10000 ≤ t)

/-- A change all of whose preparations are done waits for the droop rule if that forbids it now; the wait is counted once. -/
def PowState.ready (p : PowState) (now : Nat) : PowState :=
  match p.change with
  | none => p
  | some x =>
    if x.readyAt.isNone && x.relocked && (decide (x.target < p.freq) || (!p.ramping && p.railFor == x.target)) then
      let q := { p with change := some { x with readyAt := some now, counted := !p.droopAllows now } }
      if p.droopAllows now then q else q.count 32
    else p

/-- Ask for a frequency: a new target replaces a pending one (14 R510). -/
def PowState.request (p : PowState) (f : Nat) : PowState :=
  let p := { p with target := f, change := if f = p.freq then none else some { target := f, relocked := false, readyAt := none, counted := false } }
  p.startRamp

/-- PLL_RELOCKED: the idle PLL has the new frequency (14 R509). -/
def execPllRelocked (s : State) : Host.Outcome State Fault Refusal :=
  .next (s.modPow (fun p => match p.change with
    | some x => PowState.ready { p with change := some { x with relocked := true } } s.now
    | none => p))

/-- VOLTAGE_RAMP_DONE: a ramp in flight has run to its end; a new one toward the present target follows it (14 R509, R510). -/
def execVoltageRampDone (s : State) : Host.Outcome State Fault Refusal :=
  .next (s.modPow (fun p => if p.ramping then (PowState.startRamp { p with ramping := false }).ready s.now else p))

/-- FREQUENCY_SWITCH: once relock and ramp are done and droop has been clear for 10 µs, the clock runs at the new frequency; after a
decrease the voltage ramps down (14 R510, R525). -/
def execFrequencySwitch (s : State) : Host.Outcome State Fault Refusal :=
  .next (match s.pow.change with
    | some x =>
      (match x.readyAt with
       | some r =>
         let t := max r (s.pow.clearAt + 10000)
         if !s.pow.clear ∨ (s.pow.freq < x.target ∧ r + 1000000 < max t s.now) then s
         else (s.advanceTo t).modPow (fun p => PowState.startRamp { p with freq := x.target, change := none })
       | none => s)
    | none => s)

/-- FREQUENCY_INCREASE_ABANDONED: the droop rule has held an increase for 1 ms; the frequency stays and the voltage ramps back
(14 R525). -/
def execFrequencyIncreaseAbandoned (s : State) : Host.Outcome State Fault Refusal :=
  .next (match s.pow.change with
    | some x =>
      (match x.readyAt with
       | some r =>
         if s.pow.freq < x.target ∧ !s.pow.droopAllows (max s.now (r + 1000000)) then
           (s.advanceTo (r + 1000000)).modPow (fun p => PowState.startRamp ({ p with change := none, target := p.freq }.count 48))
         else s
       | none => s)
    | none => s)

/-! ### Periodic measurements (14 R511 to R514, R529) -/

/-- The next tick of a periodic measurement: time passes to it (14; log 31). -/
def State.tickTo (s : State) (i period : Nat) : State :=
  let s := s.advanceTo (vget s.pow.ticks i 0 + period)
  s.modPow (fun p => { p with ticks := vput p.ticks i s.now })

/-- FREQUENCY_LOOP_TICK on a 1 ms average input power in W; it runs in dynamic mode (14 R512, R518, R529). -/
def execFrequencyLoopTick (w : BitVec 16) (s : State) : Host.Outcome State Fault Refusal :=
  let s := (s.tickTo 1 1000000).modPow (fun p => { p with pin := w.toNat })
  let p := s.pow
  let top := min (min 1350 p.phaseFreq) (1350 - p.thDrop)
  let t := if p.cap64 < 64 * w.toNat then p.target - 25
    else if 64 * (w.toNat + 150) < p.cap64 ∧ p.freq < p.phaseFreq then p.target + 25
    else p.target
  let t := max 600 (min top t)
  .next (if p.fixed || !s.plat.main || s.plat.stage != 8 || t == p.target then s else s.modPow (fun p => p.request t))

/-- CAP_STRETCH_TICK on a 1 ms average input power in W; it acts in fixed-frequency mode (14 R514). -/
def execCapStretchTick (w : BitVec 16) (s : State) : Host.Outcome State Fault Refusal :=
  let s := (s.tickTo 3 1000000).modPow (fun p => { p with pin := w.toNat })
  .next (if !s.pow.fixed then s
    else if s.pow.cap64 < 64 * w.toNat then
      (if s.pow.capStr = 0 then stretchEpisode s else s).modPow (fun p => { p with capStr := min 8 (p.capStr + 1) })
    else if 64 * (w.toNat + 25) ≤ s.pow.cap64 then s.modPow (fun p => { p with capStr := p.capStr - 1 })
    else s)

/-- POWER_MEASUREMENT of 1 µs at J3, in W: energy accumulates, and the full stretch above 2,800 W begins, holds or ends (14 R511,
R513, R528). -/
def execPowerMeasurement (w : BitVec 16) (s : State) : Host.Outcome State Fault Refusal :=
  let before := vget s.pow.ticks 0 0
  let s := s.tickTo 0 1000
  let s := if 2800 < w.toNat ∧ !s.pow.full then stretchEpisode s else s
  .next (s.modPow (fun p =>
    let nj := p.energyFrac + w.toNat * (s.now - before)
    { p with
      energy := p.energy + n64 (nj / 1000000), energyFrac := nj % 1000000,
      full := decide (2800 < w.toNat) || (p.full && w.toNat == 2800) }))

/-- AVERAGE_LIMITER_TICK on a 10 ms average input power in W (14 R513). -/
def execAverageLimiterTick (w : BitVec 16) (s : State) : Host.Outcome State Fault Refusal :=
  let s := (s.tickTo 2 100000).modPow (fun p => { p with pin10 := w.toNat })
  .next (if 2400 < w.toNat then
      (if s.pow.lim = 0 then stretchEpisode s else s).modPow (fun p => { p with lim := min 8 (p.lim + 1) })
    else if w.toNat ≤ 2375 then s.modPow (fun p => { p with lim := p.lim - 1 })
    else s)

/-- THERMAL_READ of the hottest junction in °C, while main conversion is on: throttling steps once every 1 ms, and a junction above THROT
latches its PMBus bit (14 R529; 17 R595, R597). -/
def execThermalRead (t : BitVec 8) (s : State) : Host.Outcome State Fault Refusal :=
  if !s.plat.main then .next s else
  let s := s.tickTo 4 100000
  let hot := decide (s.pow.throt.toNat < t.toNat)
  let s := { s with plat := { s.plat with
    tjLast := Int.ofNat t.toNat, stTemp := if hot then s.plat.stTemp ||| 0x40#8 else s.plat.stTemp } }
  let cool := decide (t.toNat + 3 ≤ s.pow.throt.toNat)
  let due := decide (s.pow.thStep + 1000000 ≤ s.now)
  let s := if hot && due && s.pow.fixed && s.pow.thStr == 0 then stretchEpisode s else s
  .next (s.modPow (fun p =>
    let p := { p with tj := t }
    let p := if !due then p
      else if hot then { p with
        thStep := s.now, thDrop := if p.fixed then p.thDrop else min 750 (p.thDrop + 25), thStr := if p.fixed then min 8 (p.thStr + 1) else p.thStr }
      else if cool then { p with thStep := s.now, thDrop := p.thDrop - 25, thStr := p.thStr - 1 }
      else p
    { p with thr := hot || p.thDrop != 0 || p.thStr != 0 }))

/-! ### Array gates and ramps (14 R526, R527) -/

/-- An open gate that has never been fed. -/
def ArrayGate.reset : ArrayGate := { opens := none, step := 0, stepEnd := 0, fed := none }

/-- The offset of this module's array gates in hall-ns (14 R526). -/
def State.stagger (s : State) : Nat := if s.call = 0xFFFFF then 0 else s.call % 64 * 250

/-- A synchronised start at hall time t: quadrants whose arrays have fed no row for 1 µs close their gates (14 R526). -/
def syncStart (s : State) (t : U64) : State :=
  s.modPow (fun p => { p with gates := vmap (fun g =>
    let idle := match g.fed with
      | some f => decide (f.toNat + 1000 ≤ t.toNat)
      | none => true
    if idle then { g with opens := some (t + n64 s.stagger), step := 0 } else g) p.gates })

/-- ARRAY_GATE_OPEN: the quadrant's gate opens at its time, and the quadrant ramps (14 R526, R527). -/
def execArrayGateOpen (q : QuadId) (s : State) : Host.Outcome State Fault Refusal :=
  .next (match (s.pow.gates.get q).opens with
    | some t =>
      let s := s.toHall t
      s.modPow (fun p => { p with gates := p.gates.set q { p.gates.get q with opens := none, step := 1, stepEnd := s.hall.now + 250 } })
    | none => s)

/-- RAMP_STEP: the next of eight steps of 250 hall-ns; feeding is unrestricted after the last (14 R527). -/
def execRampStep (q : QuadId) (s : State) : Host.Outcome State Fault Refusal :=
  let g := s.pow.gates.get q
  .next (if g.step = 0 ∨ g.opens.isSome then s
    else (s.toHall g.stepEnd).modPow (fun p => { p with
      gates := p.gates.set q { g with step := if g.step = 8 then 0 else g.step + 1, stepEnd := g.stepEnd + 250 } }))

/-! ### Phases (14 R517, R518) -/

/-- PHASE_TAKES_EFFECT: the named phase, at its hall time or within 2 µs; every one is a synchronised start (14 R517, R518). -/
def execPhaseTakesEffect (s : State) : Host.Outcome State Fault Refusal :=
  .next (match s.pow.phaseReq with
    | some (n, at') =>
      let s := match at' with
        | some t => s.toHall t
        | none => s
      let s := s.modPow (fun p => { p with phase := n, phaseReq := none })
      let s := if !s.pow.fixed && decide (s.pow.phaseFreq < s.pow.freq) then s.modPow (fun p => p.request p.phaseFreq) else s
      syncStart s s.hall.now
    | none => s)

/-! ### Droop (14 R523 to R525) -/

/-- DROOP_TRIP of detector q (0 to 3 quadrants, 4 hub) at a depth in tenths of a percent below setpoint: the stretch is k/8, where
the spec does not say which k of 1 to 8 a depth gives (log 1). Beyond 10 % behaviour is not specified. -/
def execDroopTrip (q : Fin 5) (d : BitVec 8) (s : State) : Host.Outcome State Fault Refusal :=
  if 100 < d.toNat then .fault .droopBeyondSpecification
  else .next (if d.toNat ≤ 40 then s
    else
      let k := s.freeNext
      let s := k.2
      let old := s.pow.droop.get q
      s.modPow (fun p =>
        let p := if old.tripped then p else p.count 0
        let p := match p.change with
          | some x => if x.readyAt.isSome && !x.counted then { p with change := some { x with counted := true } }.count 32 else p
          | none => p
        { p with droop := p.droop.set q { tripped := true, depth := k.1 % 8 + 1 } }))

/-- DROOP_CLEAR of a detector; the droop rule counts from when none is tripped (14 R523, R525). -/
def execDroopClear (q : Fin 5) (s : State) : Host.Outcome State Fault Refusal :=
  .next (if !(s.pow.droop.get q).tripped then s
    else s.modPow (fun p =>
      let p := { p with droop := p.droop.set q { tripped := false, depth := 0 } }
      if p.clear then { p with clearAt := s.now } else p))

/-! ### Caps and shares (14 R511, R520, R522) -/

/-- The members of a module's broker group: those the layout put into it, and itself (14 R520; log 65). -/
def State.group (s : State) : List Nat := setAdd s.call ((Config.groupMembers (fld s.pow.cap 32 16)).foldl (fun l c => setAdd c l) [])

/-- The assigned cap at the start of a job and after a change of the group: an equal share of the group total (14 R520). -/
def shareCap (s : State) : State :=
  if s.pow.total = 0 then s
  else
    let each := s.pow.total / s.group.length / 25 * 25
    s.modPow (fun p => { p with cap := setFld p.cap 0 12 (min 2400 (max (fld p.cap 16 12) each)) })

/-- A write to PW_JOBTAG: the tag is set and PW_ENERGY restarts from 0 (14 R528). -/
def setJobtag (s : State) (v : U64) : State :=
  { s.modPow (fun p => { p with jobtag := v.setWidth 32, energy := 0, energyFrac := 0 }) with led := { s.led with energy0 := 0 } }

end Sys2Proof.Machine
end

