-- ==== Sys2Proof/Machine/Device.lean ====
section
/-! DEFINITION. Machine/Device.lean: the device register blocks as cores read and write them (00 R7, R9; 08 R285; 11 R437; 12 R468;
13 R507; 14 R531; 15 R534, R558, R561). -/

namespace Sys2Proof.Machine

/-! ### Register words -/

/-- FN_STATUS (15 R558). -/
def State.fnStatus (s : State) : U64 :=
  n64 ((List.range 10).foldl (fun a k => a + (match vget s.cur.fns k .enabled with
    | .enabled => 0
    | .draining => 1
    | .disabled => 2
    | .resetting => 3) <<< (2 * k)) 0)

/-- FE_PORTS (11 R437). -/
def State.fePorts (s : State) : U64 :=
  n64 ((List.finRange 24).foldl (fun a p => a + b01 (s.port p).up <<< p.val + b01 (s.port p).fell <<< (24 + p.val)) 0)

/-- PLAN_Q: FREE reads 0 while FN6 is not enabled (11 R415, R437). -/
def State.planQWord (s : State) : U64 :=
  n64 ((if vget s.cur.fns 6 .enabled = .enabled then 256 - s.fab.planQ.length else 0) + b01 s.fab.planErr <<< 16)

/-- PW_NOW (14 R531). -/
def PowState.nowWord (p : PowState) : U64 :=
  n64 (min 0xFFF p.pin + (p.runFreq % 4096) <<< 12 + (p.phase % 16) <<< 24 + b01 ((List.range 5).any (fun q => p.depth q != 0)) <<< 28)

/-- PW_THERM (14 R531). -/
def PowState.thermWord (p : PowState) : U64 := n64 (p.tj.toNat + p.throt.toNat <<< 8 + b01 p.thr <<< 16)

/-- PW_RAMP: the step of the slowest quadrant that ramps (14 R531). -/
def State.rampWord (s : State) : U64 :=
  let steps := (s.pow.gates.toList.map (fun g => g.step)).filter (fun n => n != 0)
  n64 (s.stagger + (if steps.isEmpty then 0 else steps.foldl min 8) <<< 16)

/-- The power and clock block by offset (14 R531). -/
def State.powWord (s : State) (off : Nat) : U64 :=
  let p := s.pow
  if 0x100 ≤ off ∧ off < 0x180 then vget p.opp ((off - 0x100) / 8) 0
  else match off with
  | 0x00 => p.ctl
  | 0x08 => p.cap
  | 0x10 => p.nowWord
  | 0x18 => p.stat
  | 0x20 => p.slack
  | 0x28 => p.share
  | 0x30 => n64 p.jobtag.toNat
  | 0x38 => p.energy
  | 0x40 => p.thermWord
  | 0x48 => s.rampWord
  | _ => 0

/-- The hall clock block by offset (11 R437). -/
def HallClock.word (h : HallClock) (off : Nat) : U64 :=
  match off with
  | 0x00 => h.now
  | 0x08 => h.stat
  | 0x10 => h.meas
  | 0x18 => h.ctl
  | _ => 0

/-- The fabric endpoint block by offset (11 R437). -/
def State.feWord (s : State) (off : Nat) : U64 :=
  if 0x40 ≤ off ∧ off < 0x40 + 0x180 then vget s.fab.win ((off - 0x40) / 8) 0
  else match off with
  | 0x00 => s.fab.id
  | 0x08 => s.fab.shelf
  | 0x10 => s.fab.ctl
  | 0x18 => s.fePorts
  | 0x20 => s.fab.stat
  | 0x28 => n64 s.fab.gen.toNat
  | 0x408 => s.planQWord
  | _ => 0

/-- M in seconds as SV_EST reads it: MPRIOR until eight withdrawals are counted (13 R507). -/
def LedState.mSec (l : LedState) : Nat := if l.fails < 8 then fld l.prior 0 32 else l.mest.1 / (l.mest.2 * 1000000000)

/-- SV_EST (13 R507). -/
def LedState.estWord (l : LedState) : U64 := n64 (min 0xFFFFFFFF l.mSec + min 0xFFFF l.fails <<< 32 + (l.aint % 0x10000) <<< 48)

/-- The ledger engine block by offset (12 R468, 13 R507). -/
def LedState.word (l : LedState) (off : Nat) : U64 :=
  if 0x1000 ≤ off ∧ off < 0x1800 then
    n64 ((vget l.tags ((off - 0x1000) / 4) 0).toNat + (vget l.tags ((off - 0x1000) / 4 + 1) 0).toNat <<< 32)
  else if 0x1800 ≤ off ∧ off < 0x2000 then
    n64 ((vget l.base ((off - 0x1800) / 4) 0).toNat + (vget l.base ((off - 0x1800) / 4 + 1) 0).toNat <<< 32)
  else match off with
  | 0x000 => l.ctl
  | 0x008 => l.step
  | 0x020 => l.loss
  | 0x028 => l.probe
  | 0x030 => l.next
  | 0x038 => l.stat
  | 0x040 => l.last
  | 0x048 => l.sealt
  | 0x050 => l.tree
  | 0x058 => vget l.kids 0 0
  | 0x060 => vget l.kids 1 0
  | 0x068 => vget l.kids 2 0
  | 0x070 => vget l.kids 3 0
  | 0x078 => l.time
  | 0x088 => l.uwrbuf
  | 0x090 => l.swbuf
  | 0x0A0 => vget l.pairs 0 0
  | 0x0A8 => vget l.pairs 1 0
  | 0x200 => l.pol
  | 0x208 => l.prior
  | 0x210 => l.cost
  | 0x218 => l.estWord
  | 0x220 => l.astep
  | 0x228 => l.dstep
  | 0x230 => l.svstat
  | 0x240 => l.alarm
  | 0x248 => l.test
  | 0x250 => l.tnext
  | 0x258 => l.mirror
  | 0x260 => l.job
  | _ => 0

/-- The telemetry block by offset (15 R561). -/
def CurState.tmWord (c : CurState) (off : Nat) : U64 := if off = 0x38 then c.tmNext else vget c.tm (off / 8) 0

/-- The 8-byte word at an aligned offset from the device register base, mailboxes apart; an offset without a register reads 0. -/
def State.devWord (s : State) (off : Nat) : U64 :=
  let o := off % 0x100000
  match off / 0x100000 with
  | 1 => if o = 0 then s.fnStatus else if o = 8 then s.cur.fnLast else 0
  | 2 => s.powWord o
  | 3 => s.hall.word o
  | 4 => s.feWord o
  | 5 => s.led.word o
  | 6 => s.cur.tmWord o
  | _ => 0

/-! ### Stores -/

/-- A register with the bits of a mask written from a word. -/
def rw (old mask x : U64) : U64 := (old &&& ~~~mask) ||| (x &&& mask)

/-- A store to a hall clock register: a HOLDMS of 0 sets 1 (11 R437). -/
def htWrite (s : State) (off : Nat) (m x : U64) : State :=
  if off = 0x18 then
    let v := rw s.hall.ctl (0xFF01#64 &&& m) x
    { s with hall := { s.hall with ctl := if fld v 8 8 = 0 then setFld v 8 8 1 else v } }
  else s

/-- A store to a fabric endpoint register, PLAN_GO apart (11 R437). -/
def feWrite (s : State) (off : Nat) (m x : U64) : State :=
  if 0x40 ≤ off ∧ off < 0x40 + 0x180 then
    let i := (off - 0x40) / 8
    let mask : U64 := if i % 3 = 0 then 0xFFFFFFF03F#64 else if i % 3 = 1 then 0xFFFFFFF000#64 else 0xFFFFFFFFFFFFFF#64
    { s with fab := { s.fab with win := vput s.fab.win i (rw (vget s.fab.win i 0) (mask &&& m) x) } }
  else if off = 0x10 then
    let v := rw s.fab.ctl (0xFFFFFFFF#64 &&& m) x
    { s with fab := { s.fab with ctl := if fld v 16 16 = 0 then setFld v 16 16 1 else v } }
  else if off = 0x18 then
    { s with fab := { s.fab with ports := Vector.ofFn (fun (p : Fin 24) =>
        if bit x (24 + p.val) then { s.fab.ports.get p with fell := false } else s.fab.ports.get p) } }
  else if off = 0x408 then (if bit x 16 then { s with fab := { s.fab with planErr := false } } else s)
  else s

/-- A write to LG_NEXT: a profile whose C0FMT is not valid is not taken (12 R468). -/
def nextWrite (old x : U64) : U64 :=
  let a := if fld x 0 4 ≤ 0xA then setFld old 0 5 (fld x 0 5) else old
  let b := if fld x 8 4 ≤ 0xA then setFld a 8 5 (fld x 8 5) else a
  setBit b 16 (bit x 16)

/-- A write to SV_POL: the fields of the halves written, with their limits (13 R507). -/
def polWrite (old m x : U64) : U64 :=
  let lo := if bit m 0 then
      let a := rw old 0x3C07#64 x
      let b := setFld a 3 3 (max 1 (fld x 3 3))
      let c := if fld x 6 2 = 1 ∨ fld x 6 2 = 2 then setFld b 6 2 (fld x 6 2) else b
      let d := if fld x 8 2 = 2 ∨ fld x 8 2 = 3 then setFld c 8 2 (fld x 8 2) else c
      setFld d 16 16 (max 1 (fld x 16 16))
    else old
  if bit m 32 then setFld lo 32 16 (max 1 (fld x 32 16)) else lo

/-- A store to a register of the ledger engine block; m masks the bytes stored (12 R468, 13 R507). -/
def lgWrite (s : State) (off : Nat) (m x : U64) : State :=
  let l := s.led
  let whole := m == 0xFFFFFFFFFFFFFFFF#64
  if 0x1000 ≤ off ∧ off < 0x1800 then
    let i := (off - 0x1000) / 4
    let a := if bit m 0 then vput l.tags i (x.setWidth 32) else l.tags
    s.modLed (fun l => { l with tags := if bit m 32 then vput a (i + 1) ((x >>> 32).setWidth 32) else a })
  else match off with
  | 0x000 => s.modLed (fun l => { l with ctl := rw l.ctl (0xFF#64 &&& m) x })
  | 0x010 => if whole then (if l.st ≠ 0 ∨ l.sealed then s else shareCap (lgStart s x)) else s
  | 0x018 => if bit x 0 then lgSealGo s (bit x 1) else s
  | 0x020 => s.modLed (fun l => { l with loss := rw l.loss m x })
  | 0x028 => s.modLed (fun l => { l with probe := rw l.probe (0x1FFFFFFFF#64 &&& m) x })
  | 0x030 => if bit m 0 then s.modLed (fun l => { l with next := nextWrite l.next x }) else s
  | 0x038 => s.modLed (fun l => { l with stat := l.stat &&& ~~~(x &&& 0x6000000#64) })
  | 0x050 => s.modLed (fun l => { l with tree := rw l.tree (0x1FFFFFF#64 &&& m) x })
  | 0x058 => s.modLed (fun l => { l with kids := vput l.kids 0 (rw (vget l.kids 0 0) (0x7FFFFFFFFFFFFFFF#64 &&& m) x) })
  | 0x060 => s.modLed (fun l => { l with kids := vput l.kids 1 (rw (vget l.kids 1 0) (0x7FFFFFFFFFFFFFFF#64 &&& m) x) })
  | 0x068 => s.modLed (fun l => { l with kids := vput l.kids 2 (rw (vget l.kids 2 0) (0x7FFFFFFFFFFFFFFF#64 &&& m) x) })
  | 0x070 => s.modLed (fun l => { l with kids := vput l.kids 3 (rw (vget l.kids 3 0) (0x7FFFFFFFFFFFFFFF#64 &&& m) x) })
  | 0x078 => s.modLed (fun l => { l with time := rw l.time m x })
  | 0x080 => lgPost s x
  | 0x088 => s.modLed (fun l => { l with uwrbuf := rw l.uwrbuf (0xFFFFFFFFF000#64 &&& m) x })
  | 0x090 => s.modLed (fun l => { l with swbuf := rw l.swbuf (0xFFFFFFFFFFFF#64 &&& m) x })
  | 0x200 => s.modLed (fun l => { l with pol := polWrite l.pol m x })
  | 0x208 => s.modLed (fun l => { l with prior := rw l.prior m x })
  | 0x210 => s.modLed (fun l => { l with cost := rw l.cost m x })
  | 0x230 => s.modLed (fun l => { l with svstat := l.svstat &&& ~~~(x &&& 0x80#64) })
  | 0x238 => s.modLed (fun l => svCmd l x)
  | 0x240 => s.modLed (fun l => { l with alarm := rw l.alarm (0xFF1FFF#64 &&& m) x })
  | 0x248 => s.modLed (fun l => { l with test := rw l.test (0xFFFFFFFFFF#64 &&& m) x })
  | 0x250 => s.modLed (fun l => { l with tnext := rw l.tnext m x })
  | 0x258 => s.modLed (fun l => { l with mirror := rw l.mirror (0xFFFFFFFF0000#64 &&& m) x })
  | 0x260 => s.modLed (fun l => { l with job := rw l.job (0xFFF000FFFFF#64 &&& m) x })
  | 0x268 => if whole then svRewind s x else s
  | _ => s

/-- The registers of the ledger engine block that rings 2 and 3 may store to (12 R468). -/
def lgOpen (off : Nat) : Bool := off == 0x018 || off == 0x020 || off == 0x028 || off == 0x080

/-! ### Accesses of a core -/

/-- Whether a core at a ring reaches a mailbox window (15 R533, R534). -/
def boxServes (mb : Nat) (c : CoreId) (ring : Nat) : Bool :=
  match mb with
  | 0 => !isCompute c && decide (ring ≤ 1)
  | 6 => isCompute c && ring == 0
  | 7 => !isCompute c && ring == 0
  | _ => false

/-- A core's load of 4 or 8 bytes at an offset from the device register base (08 R285, 15 R534). -/
def deviceRead (c : CoreId) (ring off size : Nat) (va : U64) : Op Nat := do
  let s ← get
  if off < 0x80000 then
    trapIf (!boxServes (off / 0x10000) c ring) 0x08 va
    return (s.box (off / 0x10000)).readN (off % 0x10000) size
  else return bitsOf (s.devWord (off / 8 * 8)).toNat (8 * (off % 8)) (8 * size)

/-- A core's store of 4 or 8 bytes at an offset from the device register base; a trigger stored between the two flushes of a replay is discarded
(08 R285; 11 R414, R415; 12 R453, R468; 15 R534). -/
def deviceWrite (c : CoreId) (ring off size v : Nat) (va : U64) : Op Unit := do
  let s ← get
  let sh := 8 * (off % 8)
  let x := n64 ((v % 2 ^ (8 * size)) <<< sh)
  let m := fmask sh (8 * size)
  let o := off / 8 * 8 % 0x100000
  if off < 0x80000 then
    trapIf (!boxServes (off / 0x10000) c ring) 0x09 va
    set (boxWrite s (off / 0x10000) (off % 0x10000) size v)
  else match off / 0x100000 with
  | 2 => if o = 0x30 && bit m 0 then set (setJobtag s x)
  | 3 => set (htWrite s o m x)
  | 4 =>
    if o = 0x400 then
      if size = 8 then
        trapIf (vget s.cur.fns 6 .enabled != .enabled) 0x0A va
        if s.led.quiet.isSome then set { s with fab := { s.fab with planErr := true } }
        else
          waitIf (decide (256 ≤ s.fab.planQ.length))
          set { s with fab := { s.fab with planQ := s.fab.planQ ++ [x] } }
    else set (feWrite s o m x)
  | 5 =>
    trapIf (decide (2 ≤ ring) && !lgOpen o) 0x09 va
    set (lgWrite s o m x)
  | _ => return ()

end Sys2Proof.Machine
end

