-- ==== Sys2Proof/Machine/Operands.lean ====
section
/-! DEFINITION. Machine/Operands.lean: effective addresses, scalar loads and stores and the stride prefetcher
(06 R207 to R210; 08 R285, R299, R300). -/

namespace Sys2Proof.Machine

/-- The lines a confirmed stream prefetches: within the page of the access, HBM only (08 R299, R300). -/
def prefetchLines (pfctl : U64) (pa : Nat) (stride : U64) : List Nat :=
  if !bit pfctl 0 then []
  else ((rng 1 (fld pfctl 1 2 + 1)).map (fun j => Int.ofNat pa + Int.ofNat j * stride.toInt)).filter
    (fun a => decide (0 ≤ a) && a.toNat / 4096 == pa / 4096 && isHbm a.toNat) |>.map (fun a => a.toNat / 128)

/-- The detector stream of a load instruction after an access (08 R299). -/
def Core.detector (k : Core) (key va : U64) : Detector :=
  match k.mm.dets.find? (fun d => d.key == key) with
  | none => { key := key, last := va, stride := none, conf := false }
  | some d => { key := key, last := va, stride := some (va - d.last), conf := d.stride == some (va - d.last) && va != d.last }

/-- A load updates the detector stream of its instruction, the least recently used of 16 giving way, and a confirmed stream prefetches;
from a hall or device address, nothing (08 R299, R300). -/
def detect (c : CoreId) (va : U64) (pa : Option Nat) : Op Unit := do
  let k ← coreOf c
  let d := k.detector k.pc va
  modC c (fun k => { k with mm := { k.mm with dets := (d :: k.mm.dets.filter (fun x => x.key != d.key)).take 16 } })
  match pa with
  | some pa => if d.conf then modify (fun s => fillLines s c (prefetchLines k.mm.pfctl pa (d.stride.getD 0)))
  | none => pure ()

/-- A scalar load of n bytes (06 R208, R210; 08 R285, R299). -/
def scalarLoad (c : CoreId) (va : U64) (n : Nat) : Op (List Byte) := do
  trapIf (va.toNat % n != 0) 0x05 va
  if bit va 63 then do
    let bs ← hallLoad c va n
    detect c va none
    return bs
  else
    let ring ← ringOf c
    let pa ← xlateAt c ring .load va
    if isDevice pa then do
      trapIf (n < 4) 0x05 va
      let k ← coreOf c
      if k.accTask.isSome then throw (.abort 4)
      let v ← deviceRead c ring (pa - 0xE000000000) n va
      detect c va none
      return leBytes n v
    else do
      trapIf ((← get).carrelShut c pa) 0x08 va
      let bs ← memLoad c pa n va
      detect c va (some pa)
      return bs

/-- A scalar store (06 R208, R210; 08 R285). -/
def scalarStore (c : CoreId) (va : U64) (bs : List Byte) : Op Unit := do
  let n := bs.length
  trapIf (va.toNat % n != 0) 0x05 va
  if bit va 63 then hallStore c va bs
  else
    let ring ← ringOf c
    let pa ← xlateAt c ring .store va
    if isDevice pa then do
      trapIf (n < 4) 0x05 va
      let k ← coreOf c
      if k.accTask.isSome then throw (.abort 4)
      deviceWrite c ring (pa - 0xE000000000) n (leNat bs) va
    else do
      trapIf ((← get).carrelShut c pa) 0x09 va
      memStore c pa bs va

/-- A format M address: EA and what A[AB] becomes, if it changes (06 R207). -/
structure EA where
  addr : U64
  upd : Option U64

/-- The effective address of a mode: 00 base plus displacement, 01 base plus scaled index, 10 post-, 11 pre-increment. -/
def formEA (mode : Nat) (base disp index : U64) (sc : Nat) : EA :=
  match mode with
  | 0 => { addr := base + disp, upd := none }
  | 1 => { addr := base + index <<< sc, upd := none }
  | 2 => { addr := base, upd := some (base + disp) }
  | _ => { addr := base + disp, upd := some (base + disp) }

/-- The alignment check of an access, and the stack check of its increment, in the order of R277 (06 R208, R230). -/
def checkEA (c : CoreId) (ab : Nat) (ea : EA) (n : Nat) : Op Unit := do
  trapIf (ea.addr.toNat % n != 0) 0x05 ea.addr
  match ea.upd with
  | some v => chkA c ab v
  | none => return ()

/-- Write A[AB] back after the access (06 R207, R209). -/
def writeBack (c : CoreId) (ab : Nat) (ea : EA) : Op Unit :=
  match ea.upd with
  | some v => modC c (fun k => k.writeA ab v)
  | none => pure ()

/-- A loaded value sign- or zero-extended to 64 bits (06 R208). -/
def extend (n : Nat) (unsig : Bool) (x : Nat) : U64 := if unsig then n64 x else w64 (sx (8 * n) x)

end Sys2Proof.Machine
end

