-- ==== Sys2Proof/Machine/Scalar.lean ====
section
/-! DEFINITION. Machine/Scalar.lean: the integer, address, load, store and select instructions, majors 0x00 to 0x07 and
0x0F (06 R205 to R217). Each body takes a context, so that a repeat or a gloss runs the same definition. -/

namespace Sys2Proof.Machine

/-- What replaces or extends an immediate (06 R206, R245). -/
inductive Imm where
  | plain
  /-- an IMX prefix's IMMHI -/
  | imx (hi : BitVec 26)
  /-- a gloss's IMM9, sign-extended -/
  | rep (v : U64)
deriving DecidableEq, Repr

/-- How a scalar word is executed: which of its first three register fields name temporaries, its immediate, and whether
it is a micro-op (06 R245, R250). -/
structure Ctx where
  c : CoreId
  t1 : Bool
  t2 : Bool
  t3 : Bool
  imm : Imm
  gloss : Bool
deriving DecidableEq, Repr

/-- An instruction's own word, with or without an IMX prefix. -/
def Ctx.of (c : CoreId) (x : Option (BitVec 26)) : Ctx :=
  { c := c, t1 := false, t2 := false, t3 := false, gloss := false, imm := match x with
    | some h => .imx h
    | none => .plain }

/-- A register number with its temporary mark: 16 and up are temporaries. -/
def reg (temp : Bool) (n : Nat) : Nat := if temp then 16 + n else n

/-- The immediate of n bits at bit 0, sign- or zero-extended (06 R206, R213). -/
def Ctx.immVal (x : Ctx) (n v : Nat) (sign : Bool) : U64 :=
  match x.imm with
  | .plain => if sign then w64 (sx n v) else n64 v
  | .imx h => if sign then w64 (sx (26 + n) (h.toNat <<< n + v)) else n64 (h.toNat <<< n + v)
  | .rep r => r

/-- Leading zeros of a 64-bit word. -/
def clz64 (x : U64) : U64 := n64 (64 - nbits x.toNat)
/-- Trailing zeros of a 64-bit word, 64 for zero. -/
def ctz64 (x : U64) : U64 := if x = 0 then 64 else n64 (nbits (x &&& (0 - x)).toNat - 1)

/-- DIV with its fixed results (06 R212). -/
def divS (a b : U64) : U64 := if b = 0 then w64 (-1) else w64 (Int.tdiv a.toInt b.toInt)
/-- REM with its fixed results (06 R212). -/
def remS (a b : U64) : U64 := if b = 0 then a else w64 (Int.tmod a.toInt b.toInt)
/-- DIVU (06 R212). -/
def divU (a b : U64) : U64 := if b = 0 then w64 (-1) else n64 (a.toNat / b.toNat)
/-- REMU (06 R212). -/
def remU (a b : U64) : U64 := if b = 0 then a else n64 (a.toNat % b.toNat)

/-- The integer operation of a FUNCT code of major 0x00 (06 R211). -/
def intOp (funct : Nat) (a b : U64) : Option U64 :=
  match funct with
  | 0x00 => some (a + b)
  | 0x01 => some (a - b)
  | 0x02 => some (a &&& b)
  | 0x03 => some (a ||| b)
  | 0x04 => some (a ^^^ b)
  | 0x05 => some (a <<< fld b 0 6)
  | 0x06 => some (a >>> fld b 0 6)
  | 0x07 => some (a.sshiftRight (fld b 0 6))
  | 0x08 => some (a * b)
  | 0x09 => some (w64 (fdiv (a.toInt * b.toInt) (2 ^ 64)))
  | 0x0A => some (n64 (a.toNat * b.toNat / 2 ^ 64))
  | 0x0B => some (divS a b)
  | 0x0C => some (divU a b)
  | 0x0D => some (remS a b)
  | 0x0E => some (remU a b)
  | 0x0F => some (if a.toInt ≤ b.toInt then a else b)
  | 0x10 => some (if a.toInt ≤ b.toInt then b else a)
  | 0x11 => some (if a.toNat ≤ b.toNat then a else b)
  | 0x12 => some (if a.toNat ≤ b.toNat then b else a)
  | 0x13 => some (n64 (b01 (a == b)))
  | 0x14 => some (n64 (b01 (decide (a.toInt < b.toInt))))
  | 0x15 => some (n64 (b01 (decide (a.toNat < b.toNat))))
  | 0x16 => some (clz64 a)
  | 0x17 => some (ctz64 a)
  | 0x18 => some (n64 (popN 64 a.toNat))
  | 0x19 => some (w64 (sx 8 a.toNat))
  | 0x1A => some (w64 (sx 16 a.toNat))
  | 0x1B => some (w64 (sx 32 a.toNat))
  | 0x1C => some (n64 (a.toNat % 2 ^ 32))
  | _ => none

/-- Major 0x00 (06 R205, R211). -/
def intReg (x : Ctx) (f : BitVec 26) : Op Unit := do
  let funct := fld f 8 6
  illegalIf (fld f 0 8 != 0 || (decide (0x16 ≤ funct) && (fld f 14 4 != 0 || x.t3)))
  match intOp funct (← rdD x.c (reg x.t2 (fld f 18 4))) (← rdD x.c (reg x.t3 (fld f 14 4))) with
  | some v => wrD x.c (reg x.t1 (fld f 22 4)) v
  | none => illegal

/-- The operation of a FUNCT code of major 0x01 (06 R213). -/
def immOp (funct : Nat) (a s z : U64) : Option U64 :=
  match funct with
  | 0x0 => some (a + s)
  | 0x1 => some (a &&& z)
  | 0x2 => some (a ||| z)
  | 0x3 => some (a ^^^ z)
  | 0x4 => some (a <<< fld z 0 6)
  | 0x5 => some (a >>> fld z 0 6)
  | 0x6 => some (a.sshiftRight (fld z 0 6))
  | 0x7 => some s
  | 0x8 => some (n64 (b01 (a == s)))
  | 0x9 => some (n64 (b01 (decide (a.toInt < s.toInt))))
  | 0xA => some (n64 (b01 (decide (a.toNat < s.toNat))))
  | 0xB => some (a * s)
  | _ => none

/-- Major 0x01 (06 R205, R213). -/
def intImm (x : Ctx) (f : BitVec 26) : Op Unit := do
  let funct := fld f 14 4
  let s := x.immVal 14 (fld f 0 14) true
  let z := x.immVal 14 (fld f 0 14) false
  illegalIf ((decide (4 ≤ funct ∧ funct ≤ 6) && fld z 6 58 != 0) || (funct == 7 && (fld f 18 4 != 0 || x.t2)))
  match immOp funct (← rdD x.c (reg x.t2 (fld f 18 4))) s z with
  | some v => wrD x.c (reg x.t1 (fld f 22 4)) v
  | none => illegal

/-- Major 0x02: ADDA, SUBA, DIFA and the compares (06 R214). -/
def addrReg (x : Ctx) (f : BitVec 26) : Op Unit := do
  illegalIf (fld f 0 8 != 0)
  let rd := reg x.t1 (fld f 22 4)
  let a ← rdA x.c (reg x.t2 (fld f 18 4))
  let bD ← rdD x.c (reg x.t3 (fld f 14 4))
  let bA ← rdA x.c (reg x.t3 (fld f 14 4))
  match fld f 8 6 with
  | 0x00 => wrA x.c rd (a + bD)
  | 0x01 => wrA x.c rd (a - bD)
  | 0x08 => wrD x.c rd (a - bA)
  | 0x10 => wrD x.c rd (n64 (b01 (a == bA)))
  | 0x11 => wrD x.c rd (n64 (b01 (decide (a.toNat < bA.toNat))))
  | 0x12 => wrD x.c rd (n64 (b01 (decide (a.toNat ≤ bA.toNat))))
  | _ => illegal

/-- Major 0x03: ADDAI, SHLAI, SHRAI, LEAPC (06 R214). -/
def addrImm (x : Ctx) (f : BitVec 26) : Op Unit := do
  let rd := reg x.t1 (fld f 22 4)
  let a ← rdA x.c (reg x.t2 (fld f 18 4))
  let s := x.immVal 14 (fld f 0 14) true
  match fld f 14 4 with
  | 0x0 => wrA x.c rd (a + s)
  | 0x1 => wrA x.c rd (a <<< fld s 0 6)
  | 0x2 => wrA x.c rd (a >>> fld s 0 6)
  | 0x3 => do
    illegalIf (fld f 18 4 != 0 || x.t2)
    wrA x.c rd ((← pcOf x.c) + s)
  | _ => illegal

/-- Major 0x04: MVDA, MVAD, MVAA (06 R214). -/
def addrMove (x : Ctx) (f : BitVec 26) : Op Unit := do
  illegalIf (fld f 0 8 != 0 || fld f 18 4 != 0 || x.t2)
  let rd := reg x.t1 (fld f 22 4)
  let rb := reg x.t3 (fld f 14 4)
  match fld f 8 6 with
  | 0x00 => wrA x.c rd (← rdD x.c rb)
  | 0x01 => wrD x.c rd (← rdA x.c rb)
  | 0x02 => wrA x.c rd (← rdA x.c rb)
  | _ => illegal

/-- A micro-op access to a global address raises cause 0x0A (06 R250). -/
def noGlobal (x : Ctx) (ea : U64) : Op Unit := trapIf (x.gloss && bit ea 63) 0x0A ea

/-- The address of a format M word (06 R205, R207); an IMX prefix or a replaced displacement needs MODE 00, 10 or 11. -/
def eaM (x : Ctx) (f : BitVec 26) : Op EA := do
  let mode := fld f 16 2
  illegalIf (mode == 1 && (x.imm != .plain || fld f 0 7 != 0))
  let base ← rdA x.c (reg x.t2 (fld f 18 4))
  let index ← rdD x.c (reg x.t3 (fld f 9 4))
  return formEA mode base (x.immVal 13 (fld f 0 13) true) index (fld f 7 2)

/-- Major 0x05: LD (06 R207 to R210). -/
def loadD (x : Ctx) (f : BitVec 26) : Op Unit := do
  let sz := fld f 14 2
  illegalIf (bit f 13 && sz == 3)
  let ea ← eaM x f
  let ab := reg x.t2 (fld f 18 4)
  checkEA x.c ab ea (2 ^ sz)
  noGlobal x ea.addr
  let bs ← scalarLoad x.c ea.addr (2 ^ sz)
  writeBack x.c ab ea
  wrD x.c (reg x.t1 (fld f 22 4)) (extend (2 ^ sz) (bit f 13) (leNat bs))

/-- Major 0x06: ST (06 R207 to R210). -/
def storeD (x : Ctx) (f : BitVec 26) : Op Unit := do
  let sz := fld f 14 2
  illegalIf (bit f 13)
  let ea ← eaM x f
  let ab := reg x.t2 (fld f 18 4)
  let v ← rdD x.c (reg x.t1 (fld f 22 4))
  checkEA x.c ab ea (2 ^ sz)
  noGlobal x ea.addr
  scalarStore x.c ea.addr (leBytes (2 ^ sz) v.toNat)
  writeBack x.c ab ea

/-- Major 0x07: LDA and STA (06 R209). -/
def loadStoreA (x : Ctx) (f : BitVec 26) : Op Unit := do
  let rd := reg x.t1 (fld f 22 4)
  let ab := reg x.t2 (fld f 18 4)
  illegalIf (fld f 14 2 != 3 || (!bit f 13 && decide (2 ≤ fld f 16 2) && rd == ab))
  let ea ← eaM x f
  let v ← rdA x.c rd
  checkEA x.c ab ea 8
  noGlobal x ea.addr
  if bit f 13 then do
    scalarStore x.c ea.addr (leBytes 8 v.toNat)
    writeBack x.c ab ea
  else do
    let bs ← scalarLoad x.c ea.addr 8
    chkA x.c rd (n64 (leNat bs))
    writeBack x.c ab ea
    modC x.c (fun k => k.writeA rd (n64 (leNat bs)))

/-- Major 0x0F: CSEL (06 R217). -/
def selectD (x : Ctx) (f : BitVec 26) : Op Unit := do
  illegalIf (fld f 0 10 != 0)
  let rc ← rdD x.c (reg x.t2 (fld f 18 4))
  let a ← rdD x.c (reg x.t3 (fld f 14 4))
  let b ← rdD x.c (fld f 10 4)
  wrD x.c (reg x.t1 (fld f 22 4)) (if rc ≠ 0 then a else b)

end Sys2Proof.Machine
end

