-- ==== Sys2Proof/Machine/Fixed.lean ====
section
/-! DEFINITION. Machine/Fixed.lean: fixed-point multiply-accumulate and accumulator instructions, majors 0x10 to 0x12
(04 R146 to R149; 06 R219 to R222). -/

namespace Sys2Proof.Machine

/-- An exact value divided by 2^d by a rounding: 0 truncate, 1 round-half-up, 2 convergent (04 R149). -/
def fxRound (rnd : Nat) (a : Int) (d : Nat) : Int :=
  match rnd with
  | 0 => fdiv a (2 ^ d)
  | 1 => fdiv (a + (2 ^ d / 2 : Nat)) (2 ^ d)
  | _ =>
    let q := fdiv a (2 ^ d)
    let r := (a - q * 2 ^ d).toNat
    if 2 * r > 2 ^ d ∨ (2 * r = 2 ^ d ∧ q % 2 ≠ 0) then q + 1 else q

/-- An exact accumulator result under R148: clamped or wrapped, with FXOV when it left the 80-bit range. -/
def accFit (sat : Bool) (x : Int) : BitVec 80 × Bool :=
  if x < -(2 ^ 79) ∨ 2 ^ 79 - 1 < x then (BitVec.ofInt 80 (if sat then (if x < 0 then -(2 ^ 79) else 2 ^ 79 - 1) else x), true)
  else (BitVec.ofInt 80 x, false)

/-- Write an accumulator under R148 and SATO. -/
def wrAcc (c : CoreId) (i sato : Nat) (x : Int) : Op Unit :=
  modC c (fun k =>
    let r := accFit (k.satMode sato) x
    let k := { k with ex := { k.ex with acc := vput k.ex.acc i r.1 } }
    if r.2 then k.raiseFxov else k)

/-- Bytes of an operand of a QF format. -/
def qfBytes (qf : Nat) : Nat := 2 ^ (qf + 1)

/-- A product aligned in the accumulator; a Q1.63 product is rounded at bit 0 (04 R147). -/
def fxProduct (qf rnd : Nat) (a b : Int) : Int :=
  match qf with
  | 0 => a * b * 2 ^ 33
  | 1 => a * b * 2
  | _ => fxRound rnd (a * b) 63

/-- Major 0x10: AMAC, AMSU, AMUL, AMACM, AMSUM (06 R220). -/
def fixedMac (x : Ctx) (f : BitVec 26) : Op Unit := do
  let qf := fld f 13 2
  let op := fld f 10 3
  let sato := fld f 8 2
  let ra := reg x.t1 (fld f 19 4)
  let rb := reg x.t2 (fld f 15 4)
  illegalIf (fld f 0 6 != 0 || qf == 3 || sato == 3 || decide (4 < op) || (decide (3 ≤ op) && ra == rb))
  let k ← coreOf x.c
  let rnd := k.rndMode (fld f 6 2)
  let acc := (vget k.ex.acc (fld f 23 3) 0).toInt
  let n := qfBytes qf
  if 3 ≤ op then do
    let pa ← rdA x.c ra
    let pb ← rdA x.c rb
    trapIf (pa.toNat % n != 0) 0x05 pa
    trapIf (pb.toNat % n != 0) 0x05 pb
    chkA x.c ra (pa + n64 n)
    chkA x.c rb (pb + n64 n)
    noGlobal x pa
    let a ← scalarLoad x.c pa n
    noGlobal x pb
    let b ← scalarLoad x.c pb n
    let p := fxProduct qf rnd (sx (8 * n) (leNat a)) (sx (8 * n) (leNat b))
    wrAcc x.c (fld f 23 3) sato (if op = 3 then acc + p else acc - p)
    modC x.c (fun k => (k.writeA ra (pa + n64 n)).writeA rb (pb + n64 n))
  else do
    let a ← rdD x.c ra
    let b ← rdD x.c rb
    let p := fxProduct qf rnd (sx (8 * n) a.toNat) (sx (8 * n) b.toNat)
    wrAcc x.c (fld f 23 3) sato (if op = 0 then acc + p else if op = 1 then acc - p else p)

/-- The accumulator bit of a QF operand's LSB (04 R147). -/
def qfLsb (qf : Nat) : Nat := match qf with
  | 0 => 48
  | 1 => 32
  | _ => 0

/-- Major 0x11: accumulator arithmetic; fields an operation does not use are 0 (06 R221). -/
def accArith (x : Ctx) (f : BitVec 26) : Op Unit := do
  let op := fld f 12 4
  let accs := fld f 20 3
  let ds := fld f 16 4
  let qf := fld f 10 2
  let sh := fld f 1 7
  let usesS := op == 0 || op == 1
  let usesD := op == 7
  let usesSh := op == 5 || op == 6
  illegalIf (bit f 0 || decide (7 < op) || fld f 8 2 == 3 || (!usesS && accs != 0) || (!usesD && (ds != 0 || x.t1 || qf != 0))
    || (!usesSh && sh != 0) || decide (79 < sh) || qf == 3)
  let k ← coreOf x.c
  let a := (vget k.ex.acc (fld f 23 3) 0).toInt
  let s := (vget k.ex.acc accs 0).toInt
  let d ← rdD x.c (reg x.t1 ds)
  let v : Int := match op with
    | 0 => a + s
    | 1 => a - s
    | 2 => 0
    | 3 => -a
    | 4 => if a < 0 then -a else a
    | 5 => a * 2 ^ sh
    | 6 => fdiv a (2 ^ sh)
    | _ => sx (8 * qfBytes qf) d.toNat * 2 ^ qfLsb qf
  wrAcc x.c (fld f 23 3) (fld f 8 2) v

/-- fx_extract: an accumulator in Q1.n, with its overflow (04 R149). -/
def fxExtract (sat : Bool) (rnd : Nat) (a : Int) (n : Nat) : Int × Bool :=
  let q := fxRound rnd a (63 - n)
  if 2 ^ n - 1 < q ∨ q < -(2 ^ n) then
    (if sat then (if q < 0 then -(2 ^ n) else 2 ^ n - 1) else sx (n + 1) (wrapN (n + 1) q), true)
  else (q, false)

/-- Major 0x12: AMVD, ARDL, ARDH, AWRL, AWRH (06 R222). -/
def accMove (x : Ctx) (f : BitVec 26) : Op Unit := do
  let op := fld f 10 3
  let qf := fld f 17 2
  let dd := reg x.t1 (fld f 22 4)
  let i := fld f 19 3
  illegalIf (fld f 0 10 != 0 || decide (4 < op) || qf == 3 || fld f 15 2 == 3 || (op != 0 && fld f 13 6 != 0))
  let k ← coreOf x.c
  let a := vget k.ex.acc i 0
  let d ← rdD x.c dd
  match op with
  | 0 => do
    let r := fxExtract (k.satMode (fld f 15 2)) (k.rndMode (fld f 13 2)) a.toInt (8 * qfBytes qf - 1)
    wrD x.c dd (w64 r.1)
    if r.2 then modC x.c (fun k => k.raiseFxov)
  | 1 => wrD x.c dd (n64 (a.toNat % 2 ^ 64))
  | 2 => wrD x.c dd (w64 (sx 16 (a.toNat >>> 64)))
  | 3 => modC x.c (fun k => { k with ex := { k.ex with acc := vput k.ex.acc i (BitVec.ofNat 80 (a.toNat >>> 64 <<< 64 + d.toNat)) } })
  | _ => modC x.c (fun k => { k with ex := { k.ex with acc := vput k.ex.acc i (BitVec.ofNat 80 (fld d 0 16 <<< 64 + a.toNat % 2 ^ 64)) } })

end Sys2Proof.Machine
end

