-- ==== Sys2Proof/Machine/ScalarFp.lean ====
section
/-! DEFINITION. Machine/ScalarFp.lean: scalar floating point, majors 0x14 to 0x16, and the one executor of a scalar word
that repeats and glosses run (06 R224 to R226, R237, R246). -/

namespace Sys2Proof.Machine

/-- F[n] as raw bits of a width (05 R164). -/
def Core.readF (k : Core) (n w : Nat) : Nat := (vget k.vec.v n 0).toNat % 2 ^ w
/-- Write F[n]: the value in its low bits, every other bit of Vn zero (05 R164). -/
def Core.writeF (k : Core) (n : Nat) (v : Nat) : Core := { k with vec := { k.vec with v := vput k.vec.v n (BitVec.ofNat 2048 v) } }

/-- The format of the FMT field of major 0x14 (06 R224). -/
def fmt14 (n : Nat) : Fmt := match n with
  | 0 => fp32
  | 1 => fp64
  | 2 => bf16
  | _ => fp16

/-- Major 0x14: one element of the operations of 05 R173 (06 R224). -/
def fpOp (x : Ctx) (f : BitVec 26) : Op Unit := do
  let funct := fld f 6 5
  let fm := fmt14 (fld f 4 2)
  let fd := fld f 21 5
  let cmp := decide (0x10 ≤ funct ∧ funct ≤ 0x12)
  illegalIf (fld f 0 4 != 0 || funct == 0x13 || decide (0x14 < funct) || (cmp && decide (16 ≤ fd))
    || (fld f 4 2 == 1 && decide (0x0A ≤ funct ∧ funct ≤ 0x0F)))
  let k ← coreOf x.c
  let a := k.readF (fld f 16 5) fm.width
  let b := k.readF (fld f 11 5) fm.width
  if cmp then do
    let r := fpCompare funct fm a b
    addFlags x.c r.2
    wrD x.c fd (n64 (b01 r.1))
  else do
    let r := fpArith funct fm k.vrm (k.readF fd fm.width) a b
    modC x.c (fun k => (k.raiseFlags r.2).writeF fd r.1)

/-- Major 0x15: FLD and FST (06 R225). -/
def fpLoadStore (x : Ctx) (f : BitVec 26) : Op Unit := do
  let mode := fld f 15 2
  let sz := fld f 13 2
  let fr := fld f 21 5
  let ab := reg x.t1 (fld f 17 4)
  illegalIf (sz == 0 || (mode == 1 && fld f 0 6 != 0))
  let base ← rdA x.c ab
  let index ← rdD x.c (reg x.t2 (fld f 8 4))
  let ea := formEA mode base (x.immVal 12 (fld f 0 12) true) index (fld f 6 2)
  checkEA x.c ab ea (2 ^ sz)
  noGlobal x ea.addr
  if bit f 12 then do
    let k ← coreOf x.c
    scalarStore x.c ea.addr (leBytes (2 ^ sz) (k.readF fr (8 * 2 ^ sz)))
    writeBack x.c ab ea
  else do
    let bs ← scalarLoad x.c ea.addr (2 ^ sz)
    writeBack x.c ab ea
    modC x.c (fun k => k.writeF fr (leNat bs))

/-- Whether a format field of major 0x16 holds one of the codes 0x0, 0x1, 0xB and 0xC. -/
def fmtOk16 (n : Nat) : Bool := n == 0 || n == 1 || n == 0xB || n == 0xC

/-- The format of a checked code of major 0x16. -/
def fmt16 (n : Nat) : Fmt := (fmtOf n).getD fp32

/-- Major 0x16: FCVT, FMVDF, FMVFD, FCVTI, ICVTF (06 R226). -/
def fpMove (x : Ctx) (f : BitVec 26) : Op Unit := do
  let dst := fld f 21 5
  let src := fld f 16 5
  let df := fld f 12 4
  let sf := fld f 8 4
  illegalIf (fld f 0 4 != 0 || decide (4 < fld f 4 4) || !fmtOk16 df || !fmtOk16 sf)
  let k ← coreOf x.c
  match fld f 4 4 with
  | 0 => do
    let r := deliver (fmt16 df) k.vrm (decodeF (fmt16 sf) (k.readF src (fmt16 sf).width))
    modC x.c (fun k => (k.raiseFlags r.2).writeF dst r.1)
  | 1 => do
    let v ← rdD x.c (src % 16)
    modC x.c (fun k => k.writeF dst v.toNat)
  | 2 => wrD x.c (dst % 16) (n64 (k.readF src 64))
  | 3 => do
    let r := fToInt k.vrm (decodeF (fmt16 sf) (k.readF src (fmt16 sf).width))
    addFlags x.c r.2
    wrD x.c (dst % 16) r.1
  | _ => do
    let v ← rdD x.c (src % 16)
    let r := deliver (fmt16 df) k.vrm (FV.ofInt v.toInt)
    modC x.c (fun k => (k.raiseFlags r.2).writeF dst r.1)

/-- Majors a repeat prefix or a gloss may name: 0x00 to 0x07, 0x0F, 0x10 to 0x12, 0x14 to 0x16 (06 R237, R246). -/
def scalarMajor (m : Nat) : Bool := decide (m ≤ 7) || m == 0x0F || decide (0x10 ≤ m ∧ m ≤ 0x12) || decide (0x14 ≤ m ∧ m ≤ 0x16)

/-- Execute one word of a major of R246 in a context: everything but the PC. -/
def scalarWord (x : Ctx) (w : BitVec 32) : Op Unit :=
  let f : BitVec 26 := w.extractLsb' 0 26
  match fld w 26 6 with
  | 0x00 => intReg x f
  | 0x01 => intImm x f
  | 0x02 => addrReg x f
  | 0x03 => addrImm x f
  | 0x04 => addrMove x f
  | 0x05 => loadD x f
  | 0x06 => storeD x f
  | 0x07 => loadStoreA x f
  | 0x0F => selectD x f
  | 0x10 => fixedMac x f
  | 0x11 => accArith x f
  | 0x12 => accMove x f
  | 0x14 => fpOp x f
  | 0x15 => fpLoadStore x f
  | 0x16 => fpMove x f
  | _ => illegal

/-- The word of a major and its low 26 bits. -/
def wordOf (major : Nat) (f : BitVec 26) : U64 := n64 (major <<< 26 + f.toNat)

/-- Issue a scalar word that stands alone or behind an IMX prefix (06 R205, R206). -/
def issueScalar (c : CoreId) (major : Nat) (x : Option (BitVec 26)) (f : BitVec 26) (s : State) : State :=
  issue c (match x with
      | some h => wordOf 0x32 h
      | none => wordOf major f) .plain (do
    illegalIf (x.isSome && !(major == 1 || major == 3 || decide (5 ≤ major ∧ major ≤ 7)))
    scalarWord (Ctx.of c x) (BitVec.ofNat 32 (wordOf major f).toNat)
    nextPC c (if x.isSome then 8 else 4)) s

end Sys2Proof.Machine
end

