-- ==== Sys2Proof/Machine/Csr.lean ====
section
/-! DEFINITION. Machine/Csr.lean: what a CSR reads and what a write to it does, by number (06 R231 to R233, R242, R248,
R251 to R253, R608; 07 R272, R274, R278, R282, R283; 02 R62 to R69; 03 R92, R93, R125; 04 R161, R162; 05 R193, R194;
08 R318, R319; 09 R361, R362). -/

namespace Sys2Proof.Machine

/-! ### Gloss table image (06 R244, R251) -/

/-- The header of entry e as it reads: its LOCKED bit is the copy of GL_LOCK (06 R244). -/
def ExecRegs.header (x : ExecRegs) (e : Nat) : U64 := setBit (vget x.glTab (17 * e) 0) 5 (bit x.glLock e)

/-- A word of the gloss table by its place in the image. -/
def ExecRegs.glWord (x : ExecRegs) (i : Nat) : U64 := if i % 17 = 0 then x.header (i / 17) else vget x.glTab i 0

/-- The place GL_SEL selects. -/
def ExecRegs.glPlace (x : ExecRegs) : Nat := 17 * fld x.glSel 0 5 + (if bit x.glSel 9 then 0 else fld x.glSel 5 4 + 1)

/-- GL_HASH (06 R251). -/
def ExecRegs.glHash (x : ExecRegs) : U64 := crc64 (wordBytes ((List.range 544).map x.glWord))

/-! ### Reading -/

/-- TU_LIVE.COUNT. -/
def TileRegs.liveCount (t : TileRegs) : Nat := popN 4 t.inuse.toNat
/-- TU_LIVE (02 R64). -/
def TileRegs.live (t : TileRegs) : U64 :=
  n64 (t.inuse.toNat + t.fused.toNat <<< 4 + t.weeded.toNat <<< 8 + t.suspect.toNat <<< 12 + t.liveCount <<< 16)

/-- VLMAX of a VTYPE word (05 R166, R194). -/
def vlmaxOf (vtype : U64) : Nat := 2048 / 2 ^ (3 + fld vtype 0 2) * 2 ^ fld vtype 2 2

/-- The counter set NCH_SEL selects (04 R162). -/
def NumRegs.sel (n : NumRegs) : Counts :=
  let i := fld n.chSel 0 6
  if bit n.chSel 6 then (if i < 16 then vget n.fmts i Counts.zero else Counts.zero) else vget n.chans i Counts.zero

/-- TSPEC_STAT (08 R319). -/
def Core.tspecStat (k : Core) : U64 :=
  let us := ((List.range 4).filter (fun t => (k.task t).st != .free)).foldl (fun a t => a + 2 ^ t) 0
  let ps := ((List.range 4).filter (fun t => (k.task t).st == .ended)).foldl (fun a t => a + 2 ^ t) 0
  n64 (us + ps <<< 4 + k.mm.aborted.toNat <<< 8 + k.mm.reason.toNat <<< 12 + b01 k.openTask.isSome <<< 15 + (k.openTask.getD 0) <<< 16)

/-- A stream engine's CSR by its offset within the engine's block (09 R361). -/
def StreamEng.csr9 (e : StreamEng) (i : Nat) : Option U64 :=
  match i with
  | 0 => some (n64 (b01 e.prot))
  | 1 => some e.stat
  | 2 => some e.list
  | 3 => some e.hrec
  | 4 => some e.hpos
  | 5 => some e.hoff
  | 6 => some e.haddr
  | _ => none

/-- CSRs 0x000 to 0x0FF (06 R231, 07 R282). -/
def ringCsr (k : Core) (c : CoreId) (n : Nat) : Option U64 :=
  if n = 0x000 then some (stWord k.bank k.rr.cur.toNat)
  else if n = 0x001 then some (n64 k.rr.busy.toNat)
  else if n = 0x002 then some k.bank.ecause
  else if n = 0x003 then some k.bank.einfo
  else if n = 0x004 then some k.bank.elink
  else if n = 0x008 then some k.rr.gatebase
  else if 0x010 ≤ n ∧ n ≤ 0x012 then some (vget k.rr.xvec (n - 0x010) 0)
  else if 0x018 ≤ n ∧ n ≤ 0x01A then some (vget k.rr.ssp (n - 0x018) 0)
  else if 0x020 ≤ n ∧ n ≤ 0x022 then some (vget k.rr.sslim (n - 0x020) 0)
  else if n = 0x028 then some k.rr.xroute0
  else if n = 0x029 then some k.rr.xroute1
  else if n = 0x030 then some k.rr.xpend
  else if n = 0x031 then some k.rr.xtimer
  else if n = 0x032 then some 0
  else if n = 0x033 then some (n64 c.val)
  else if 0x040 ≤ n ∧ n ≤ 0x043 then some (vget k.rr.slim (n - 0x040) 0)
  else if 0x048 ≤ n ∧ n ≤ 0x04B then some (vget k.rr.sp (n - 0x048) 0)
  else none

/-- CSRs 0x100 to 0x17F (05 R193, R194). -/
def vecCsr (v : VecRegs) (n : Nat) : Option U64 :=
  match n with
  | 0x100 => some (n64 v.vl.toNat)
  | 0x101 => some v.vtype
  | 0x102 => some (n64 (vlmaxOf v.vtype))
  | 0x103 => some v.vresume
  | 0x104 => some v.vfaddr
  | _ => none

/-- CSRs 0x180 to 0x1FF (02 R62, 03 R92, R93, R125). -/
def tileCsr (t : TileRegs) (n : Nat) : Option U64 :=
  if n < 0x188 then some (vget t.t (n - 0x180) TileReg.reset).shape
  else if n < 0x190 then some (vget t.z (n - 0x188) ZTile.reset).shape
  else if n < 0x1A4 then
    (if (n - 0x190) % 5 = 0 then some (vget t.mcol ((n - 0x190) / 5) 0)
     else some (vget t.mrow (4 * ((n - 0x190) / 5) + (n - 0x190) % 5 - 1) 0))
  else if n = 0x1A8 then some t.tustat
  else if n = 0x1A9 then some t.tamax
  else if n = 0x1C0 then some t.live
  else if n = 0x1C1 then some t.mgctl
  else if n = 0x1C2 then some t.mgstat
  else if n = 0x1C3 then some t.mglog
  else if n = 0x1C4 then some t.mgpc
  else none

/-- CSRs 0x200 to 0x27F (04 R161, R162). -/
def numCsr (m : NumRegs) (n : Nat) : Option U64 :=
  match n with
  | 0x200 => some m.mode
  | 0x201 => some m.profS
  | 0x202 => some m.profG
  | 0x203 => some (n64 m.flags.toNat)
  | 0x204 => some m.fxctl
  | 0x205 => some m.nlast
  | 0x206 => some m.srStep
  | 0x207 => some m.srBase
  | 0x208 => some m.chSel
  | 0x209 => some (n64 m.sel.elems.toNat)
  | 0x20A => some (n64 m.sel.sat.toNat)
  | 0x20B => some (n64 m.sel.flush.toNat)
  | 0x20C => some (n64 m.sel.nan.toNat)
  | 0x20D => some (n64 m.sel.amax.toNat)
  | 0x20E => some 0
  | _ => none

/-- CSRs 0x280 to 0x2FF (09 R361, R362). -/
def strCsr (r : StreamRegs) (n : Nat) : Option U64 :=
  if n < 0x290 then (r.eng.get 0).csr9 (n - 0x280)
  else if n < 0x2A0 then (r.eng.get 1).csr9 (n - 0x290)
  else if n < 0x2A8 then some (vget r.sem (n - 0x2A0) 0)
  else if 0x2B0 ≤ n ∧ n < 0x2C0 then
    some (if n % 2 = 0 then vget r.holdBase ((n - 0x2B0) / 2) 0 else vget r.holdLim ((n - 0x2B0) / 2) 0)
  else none

/-- CSRs 0x300 to 0x37F (08 R318, R319). -/
def memCsr (k : Core) (n : Nat) : Option U64 :=
  match n with
  | 0x300 => some k.mm.root
  | 0x301 => some k.mm.xctl
  | 0x308 => some k.mm.pfctl
  | 0x310 => some k.tspecStat
  | 0x311 => some (n64 (k.sectors.length + k.readLines.length <<< 16))
  | _ => none

/-- CSRs 0x380 to 0x3FF (06 R242, R252, R253). -/
def execCsr (s : State) (c : CoreId) (n : Nat) : Option U64 :=
  let x := (s.core c).ex
  if 0x3F4 ≤ n ∧ n ≤ 0x3F7 then some (vget x.dbgBp (n - 0x3F4) 0)
  else match n with
  | 0x380 => some (n64 x.rcnt.toNat)
  | 0x381 => some x.rstat
  | 0x388 => some x.glSel
  | 0x389 => some (x.glWord x.glPlace)
  | 0x38A => some (n64 (x.glErr.toNat * 2))
  | 0x38B => some (n64 x.glLock.toNat)
  | 0x38C => some x.glHash
  | 0x38D => some x.glFault
  | 0x3F0 => some (n64 (s.clkOf c) - x.cycBase)
  | 0x3F1 => some x.instret
  | 0x3F2 => some (n64 (b01 x.nonrep))
  | 0x3F8 => some (n64 (b01 x.dbgStep))
  | _ => none

/-- What a CSR reads; none for a number that no chapter allocates, or that a hub core does not have (06 R232, R233, R608). -/
def csrRead (s : State) (c : CoreId) (n : Nat) : Option U64 :=
  let k := s.core c
  if n < 0x100 then ringCsr k c n
  else if n < 0x180 then vecCsr k.vec n
  else if n < 0x200 then (if isCompute c then tileCsr k.tile n else none)
  else if n < 0x280 then numCsr k.num n
  else if n < 0x300 then (if isCompute c then strCsr k.str n else none)
  else if n < 0x380 then memCsr k n
  else execCsr s c n

/-! ### Writing -/

/-- Whether ring r may write value v to CSR n (07 R282, 06 R231, R242, R252, R253; 02 R63; 03 R125; 04 R161; 05 R193;
08 R318; 09 R361). -/
def csrMayWrite (r n : Nat) (v : U64) : Bool :=
  if n = 0x000 ∨ n = 0x004 ∨ n = 0x030 then decide (r ≤ 2)
  else if n = 0x001 ∨ n = 0x002 ∨ n = 0x003 ∨ n = 0x033 ∨ n = 0x311 then false
  else if n = 0x008 ∨ n = 0x028 ∨ n = 0x029 then decide (r = 0)
  else if 0x010 ≤ n ∧ n ≤ 0x012 then decide (r ≤ n - 0x010)
  else if 0x018 ≤ n ∧ n ≤ 0x01A then decide (r ≤ n - 0x018)
  else if 0x020 ≤ n ∧ n ≤ 0x022 then decide (r ≤ n - 0x020)
  else if n = 0x031 ∨ n = 0x032 then decide (r ≤ 1)
  else if 0x040 ≤ n ∧ n ≤ 0x043 then decide (r = 0 ∨ r < n - 0x040)
  else if 0x048 ≤ n ∧ n ≤ 0x04B then decide (r = 0 ∨ r < n - 0x048)
  else if n = 0x103 ∨ n = 0x1C1 ∨ n = 0x201 ∨ n = 0x202 ∨ n = 0x206 ∨ n = 0x300 ∨ n = 0x301 ∨ n = 0x308 ∨ n = 0x380 ∨ n = 0x381 then
    decide (r ≤ 1)
  else if n = 0x1A8 ∨ n = 0x1C2 then decide (r ≤ 1 ∨ fld v 0 2 = 0)
  else if 0x280 ≤ n ∧ n < 0x300 then decide (r ≤ 1)
  else if 0x388 ≤ n ∧ n ≤ 0x38D then decide (r = 0)
  else if n = 0x3F2 ∨ (0x3F4 ≤ n ∧ n ≤ 0x3F8) then decide (r = 0)
  else true

/-- ELINK after software writes v from ring r (07 R272). -/
def elinkWrite (old v : U64) (r : Nat) : U64 :=
  if bit old 5 then setFld old 2 2 (max (max (fld old 2 2) (fld v 2 2)) r)
  else if bit v 5 then setFld (setFld (setBit old 5 true) 0 2 (fld v 0 2)) 2 2 (max (fld v 2 2) r)
  else old

/-- XROUTE after a write: a field written 3 stays, as does the fixed field at bit `fixed` (07 R265, R283). -/
def routeWrite (old v : U64) (fixed : Nat) : U64 :=
  (List.range 32).foldl (fun w i => if fld v (2 * i) 2 = 3 ∨ 2 * i = fixed then w else setFld w (2 * i) 2 (fld v (2 * i) 2)) old

/-- CSRs 0x000 to 0x0FF written (07 R282, R283). -/
def writeRingCsr (k : Core) (n : Nat) (v : U64) : Core :=
  if n = 0x000 then k.setBank (fun b => { b with gm := bit v 4 })
  else if n = 0x004 then k.setBank (fun b => { b with elink := elinkWrite b.elink v k.ring })
  else if n = 0x008 then { k with rr := { k.rr with gatebase := v &&& fmask 12 36 } }
  else if 0x010 ≤ n ∧ n ≤ 0x012 then { k with rr := { k.rr with xvec := vput k.rr.xvec (n - 0x010) (v &&& fmask 2 62) } }
  else if 0x018 ≤ n ∧ n ≤ 0x01A then { k with rr := { k.rr with ssp := vput k.rr.ssp (n - 0x018) (v &&& fmask 9 39) } }
  else if 0x020 ≤ n ∧ n ≤ 0x022 then { k with rr := { k.rr with sslim := vput k.rr.sslim (n - 0x020) (v &&& fmask 9 39) } }
  else if n = 0x028 then { k with rr := { k.rr with xroute0 := routeWrite k.rr.xroute0 v 48 } }
  else if n = 0x029 then { k with rr := { k.rr with xroute1 := routeWrite k.rr.xroute1 v 38 } }
  else if n = 0x030 then { k with rr := { k.rr with xpend := k.rr.xpend &&& ~~~(v &&& fmask 1 4) } }
  else if n = 0x031 then { k with rr := { k.rr with xtimer := v, xpend := setBit k.rr.xpend 0 false } }
  else if 0x040 ≤ n ∧ n ≤ 0x043 then { k with rr := { k.rr with slim := vput k.rr.slim (n - 0x040) v } }
  else if 0x048 ≤ n ∧ n ≤ 0x04B then { k with rr := { k.rr with sp := vput k.rr.sp (n - 0x048) v } }
  else k

/-- MG_CTL.T after a write (02 R65). -/
def mgctlWrite (v : U64) : U64 := setBit (setFld 0 0 5 (min 20 (max 10 (fld v 0 5)))) 8 (bit v 8)

/-- CSRs 0x180 to 0x1FF written (02 R63 to R69; 03 R92, R93, R125). -/
def writeTileCsr (t : TileRegs) (n : Nat) (v : U64) : TileRegs :=
  if 0x190 ≤ n ∧ n < 0x1A4 then
    (if (n - 0x190) % 5 = 0 then { t with mcol := vput t.mcol ((n - 0x190) / 5) v }
     else { t with mrow := vput t.mrow (4 * ((n - 0x190) / 5) + (n - 0x190) % 5 - 1) v })
  else if n = 0x1A8 then { t with tustat := t.tustat &&& ~~~(v &&& fmask 0 2) }
  else if n = 0x1C1 then { t with mgctl := mgctlWrite v }
  else if n = 0x1C2 then { t with mgstat := t.mgstat &&& ~~~(v &&& fmask 0 2) }
  else t

/-- FXCTL after a write (04 R162). -/
def fxctlWrite (old v : U64) : U64 :=
  let w := setBit old 0 (bit v 0)
  let w := if fld v 1 2 = 3 then w else setFld w 1 2 (fld v 1 2)
  if bit v 3 then setBit w 3 false else w

/-- NPROF_S or NPROF_G after a write (04 R162). -/
def nprofWrite (old v : U64) : U64 := if 0xA < fld v 0 4 then old else v &&& fmask 0 5

/-- Clear the amax of a channel (04 R159). -/
def NumRegs.amaxClr (m : NumRegs) (ch : Nat) : NumRegs :=
  { m with chans := vput m.chans ch { (vget m.chans ch Counts.zero) with amax := 0 } }

/-- CSRs 0x200 to 0x27F written (04 R162). -/
def writeNumCsr (m : NumRegs) (n : Nat) (v : U64) : NumRegs :=
  match n with
  | 0x200 => { m with mode := setFld m.mode 1 3 (fld v 1 3) }
  | 0x201 => { m with profS := nprofWrite m.profS v }
  | 0x202 => { m with profG := nprofWrite m.profG v }
  | 0x203 => { m with flags := m.flags &&& ~~~(BitVec.ofNat 5 v.toNat) }
  | 0x204 => { m with fxctl := fxctlWrite m.fxctl v }
  | 0x206 => { m with srStep := v }
  | 0x207 => { m with srBase := v }
  | 0x208 => { m with chSel := v &&& fmask 0 7 }
  | 0x20E => m.amaxClr (fld v 0 6)
  | _ => m

/-- A semaphore pair written: FILL, FREE and POISON set, OVF cleared by 1 (09 R362). -/
def pairWrite (old v : U64) : U64 := setBit (v &&& fmask 0 33) 33 (bit old 33 && !bit v 33)

/-- CSRs 0x280 to 0x2FF written (09 R362). -/
def writeStrCsr (r : StreamRegs) (n : Nat) (v : U64) : StreamRegs :=
  if n = 0x280 ∨ n = 0x290 then
    { r with eng := vput r.eng ((n - 0x280) / 16) { (vget r.eng ((n - 0x280) / 16) StreamEng.reset) with prot := bit v 0 } }
  else if 0x2A0 ≤ n ∧ n < 0x2A8 then { r with sem := vput r.sem (n - 0x2A0) (pairWrite (vget r.sem (n - 0x2A0) 0) v) }
  else if 0x2B0 ≤ n ∧ n < 0x2C0 then
    (if n % 2 = 0 then { r with holdBase := vput r.holdBase ((n - 0x2B0) / 2) (v &&& (fmask 0 5 ||| fmask 12 36)) }
     else { r with holdLim := vput r.holdLim ((n - 0x2B0) / 2) (v &&& fmask 12 36) })
  else r

/-- CSRs 0x300 to 0x37F written (08 R319). -/
def writeMemCsr (m : MemRegs) (n : Nat) (v : U64) : MemRegs :=
  match n with
  | 0x300 => { m with root := v &&& fmask 12 36 }
  | 0x301 => { m with xctl := v &&& (fmask 0 1 ||| fmask 16 16) }
  | 0x308 => { m with pfctl := v &&& fmask 0 3 }
  | 0x310 => { m with aborted := m.aborted &&& ~~~(BitVec.ofNat 4 (fld v 8 4)) }
  | _ => m

/-- GL_WORD written: the word is stored, its read-only bits 0, and the entry is no longer valid, unless it is locked (00 R9; 06 R244, R245,
R247, R248). -/
def glWordWrite (x : ExecRegs) (v : U64) : ExecRegs :=
  let e := fld x.glSel 0 5
  if bit x.glLock e then x
  else if bit x.glSel 9 then { x with glTab := vput x.glTab (17 * e) (v &&& fmask 0 4) }
  else { x with glTab := vput (vput x.glTab (17 * e) (setBit (vget x.glTab (17 * e) 0) 4 false)) (17 * e + fld x.glSel 5 4 + 1) (v &&& fmask 0 45) }

/-- The number of 4-bit register fields a micro-op's word has, 3 at most, with those its selectors may change (06 R245, R246). -/
def glFields (w : BitVec 32) : Nat × Bool :=
  match fld w 26 6 with
  | 0x00 => (3, false)
  | 0x01 => (2, true)
  | 0x02 => (3, false)
  | 0x03 => (2, true)
  | 0x04 => (3, false)
  | 0x05 => (if fld w 16 2 = 1 then 3 else 2, fld w 16 2 != 1)
  | 0x06 => (if fld w 16 2 = 1 then 3 else 2, fld w 16 2 != 1)
  | 0x07 => (if fld w 16 2 = 1 then 3 else 2, fld w 16 2 != 1)
  | 0x0F => (3, false)
  | 0x10 => (2, false)
  | 0x11 => (1, false)
  | 0x12 => (1, false)
  | 0x15 => (if fld w 15 2 = 1 then 2 else 1, fld w 15 2 != 1)
  | _ => (0, false)

/-- The j-th 4-bit register field of a word: its lowest bit (06 R245; formats of R205 and R220 to R225). -/
def glFieldLo (w : BitVec 32) (j : Nat) : Nat :=
  match fld w 26 6 with
  | 0x05 => if j = 2 then 9 else 22 - 4 * j
  | 0x06 => if j = 2 then 9 else 22 - 4 * j
  | 0x07 => if j = 2 then 9 else 22 - 4 * j
  | 0x10 => 19 - 4 * j
  | 0x11 => 16
  | 0x15 => if j = 1 then 8 else 17
  | _ => 22 - 4 * j

/-- Whether a micro-op stores to memory: major 0x06, STA or FST (06 R246). -/
def glStores (w : BitVec 32) : Bool :=
  fld w 26 6 == 0x06 || (fld w 26 6 == 0x07 && bit w 13) || (fld w 26 6 == 0x15 && bit w 12)

/-- A selector value that its field allows: 0 to 3, or 4 when the field's value is 0 to 7 (06 R245). -/
def glSelOk (w : BitVec 32) (n j sel : Nat) : Bool :=
  if sel = 0 then true
  else if n ≤ j then false
  else if sel ≤ 3 then true
  else sel == 4 && decide (fld w (glFieldLo w j) 4 ≤ 7)

end Sys2Proof.Machine
end

