-- ==== Sys2Proof/Machine/Control.lean ====
section
/-! DEFINITION. Machine/Control.lean: branches, jumps, calls, atomics and CSR access, majors 0x08 to 0x0E, and the
scalar rows of the opcode table (06 R205, R215, R216, R227 to R233). -/

namespace Sys2Proof.Machine

/-! ### The scalar instructions of majors 0x00 to 0x07, 0x0F, 0x10 to 0x12, 0x14 to 0x16 -/

/-- INTEGER_REGISTER_OP: major 0x00 (06 R211, R212). -/
def execIntegerRegisterOp (c : CoreId) (f : BitVec 26) (s : State) : Host.Outcome State Fault Refusal :=
  .next (issueScalar c 0x00 none f s)
/-- INTEGER_IMMEDIATE_OP: major 0x01, with or without IMX (06 R213, R206). -/
def execIntegerImmediateOp (c : CoreId) (x : Option (BitVec 26)) (f : BitVec 26) (s : State) : Host.Outcome State Fault Refusal :=
  .next (issueScalar c 0x01 x f s)
/-- ADDRESS_OP: majors 0x02, 0x03 and 0x04 (06 R214). -/
def execAddressOp (c : CoreId) (m : AddrMajor) (x : Option (BitVec 26)) (f : BitVec 26) (s : State) : Host.Outcome State Fault Refusal :=
  .next (issueScalar c (match m with
    | .reg => 0x02
    | .imm => 0x03
    | .move => 0x04) x f s)
/-- The counter of a memory in TM_ECC (15 R561). -/
def eccIndex : MemUnit → Nat
  | .hbm => 0
  | .l2 => 1
  | .carrel => 2
  | .l1d => 3

/-- An ECC error of a memory: a single-bit one is corrected and counted in telemetry, a double-bit one poisons the word, in an L1D that core's
copy (08 R293; 15 R561; log 77). -/
def memError (c : CoreId) (s : State) (e : MemErr) : State :=
  if !e.double then { s with cur := { s.cur with ecc := vput s.cur.ecc (eccIndex e.unit) (vget s.cur.ecc (eccIndex e.unit) 0 + 1) } }
  else if e.unit = .l1d then
    s.modCore c (fun k => { k with mm := { k.mm with l1d := k.mm.l1d.map (fun x =>
      if x.line = e.word / 16 then { x with pois := x.pois ||| BitVec.ofNat 16 (2 ^ (e.word % 16)) } else x) } })
  else s.addPoison (8 * e.word) 8

/-- LD: major 0x05 (06 R207 to R210; 08 R293). -/
def execLd (c : MemReader) (x : Option (BitVec 26)) (f : BitVec 26) (s : State) : Host.Outcome State Fault Refusal :=
  .next (issueScalar c.core 0x05 x f (c.errs.foldl (memError c.core) s))
/-- ST: major 0x06 (06 R207 to R210). -/
def execSt (c : CoreId) (x : Option (BitVec 26)) (f : BitVec 26) (s : State) : Host.Outcome State Fault Refusal :=
  .next (issueScalar c 0x06 x f s)
/-- LDA_STA: major 0x07 (06 R209). -/
def execLdaSta (c : CoreId) (x : Option (BitVec 26)) (f : BitVec 26) (s : State) : Host.Outcome State Fault Refusal :=
  .next (issueScalar c 0x07 x f s)
/-- CSEL: major 0x0F (06 R217). -/
def execCsel (c : CoreId) (f : BitVec 26) (s : State) : Host.Outcome State Fault Refusal :=
  .next (issueScalar c 0x0F none f s)
/-- FIXED_POINT_MAC: major 0x10 (06 R220). -/
def execFixedPointMac (c : CoreId) (f : BitVec 26) (s : State) : Host.Outcome State Fault Refusal :=
  .next (issueScalar c 0x10 none f s)
/-- ACCUMULATOR_ARITHMETIC: major 0x11 (06 R221). -/
def execAccumulatorArithmetic (c : CoreId) (f : BitVec 26) (s : State) : Host.Outcome State Fault Refusal :=
  .next (issueScalar c 0x11 none f s)
/-- ACCUMULATOR_MOVE: major 0x12 (06 R222). -/
def execAccumulatorMove (c : CoreId) (f : BitVec 26) (s : State) : Host.Outcome State Fault Refusal :=
  .next (issueScalar c 0x12 none f s)
/-- SCALAR_FP_OP: major 0x14 (06 R224). -/
def execScalarFpOp (c : CoreId) (f : BitVec 26) (s : State) : Host.Outcome State Fault Refusal :=
  .next (issueScalar c 0x14 none f s)
/-- FLD_FST: major 0x15 (06 R225). -/
def execFldFst (c : CoreId) (f : BitVec 26) (s : State) : Host.Outcome State Fault Refusal :=
  .next (issueScalar c 0x15 none f s)
/-- FP_MOVE_CONVERT: major 0x16 (06 R226). -/
def execFpMoveConvert (c : CoreId) (f : BitVec 26) (s : State) : Host.Outcome State Fault Refusal :=
  .next (issueScalar c 0x16 none f s)

/-! ### Branches, jumps, calls and returns -/

/-- A branch condition of format B (06 R227). -/
def condB (cond : Nat) (a b : U64) : Option Bool :=
  match cond with
  | 0 => some (a == b)
  | 1 => some (a != b)
  | 2 => some (decide (a.toInt < b.toInt))
  | 3 => some (decide (b.toInt ≤ a.toInt))
  | 4 => some (decide (a.toNat < b.toNat))
  | 5 => some (decide (b.toNat ≤ a.toNat))
  | _ => none

/-- A branch condition of format Z (06 R227). -/
def condZ (cond : Nat) (a : U64) : Bool :=
  match cond with
  | 0 => a == 0
  | 1 => a != 0
  | 2 => decide (a.toInt < 0)
  | _ => decide (0 ≤ a.toInt)

/-- The target of a displacement of n bits in words (06 R205). -/
def relTarget (pc : U64) (n v : Nat) : U64 := pc + w64 (4 * sx n v)

/-- BRANCH's body (06 R227). -/
def branchB (c : CoreId) (f : BitVec 26) : Op U64 := do
  match condB (fld f 15 3) (← rdD c (fld f 22 4)) (← rdD c (fld f 18 4)) with
  | none => illegal
  | some t => if t then return relTarget (← pcOf c) 15 (fld f 0 15) else nextPC c 4

/-- BRANCH: major 0x08 (06 R227). -/
def execBranch (c : CoreId) (f : BitVec 26) (s : State) : Host.Outcome State Fault Refusal :=
  .next (issue c (wordOf 0x08 f) .plain (branchB c f) s)

/-- BRANCH_ON_ZERO's body (06 R227). -/
def branchZ (c : CoreId) (f : BitVec 26) : Op U64 := do
  if condZ (fld f 20 2) (← rdD c (fld f 22 4)) then return relTarget (← pcOf c) 20 (fld f 0 20) else nextPC c 4

/-- BRANCH_ON_ZERO: major 0x09 (06 R227). -/
def execBranchOnZero (c : CoreId) (f : BitVec 26) (s : State) : Host.Outcome State Fault Refusal :=
  .next (issue c (wordOf 0x09 f) .plain (branchZ c f) s)

/-- JMP: major 0x0A (06 R227). -/
def execJmp (c : CoreId) (f : BitVec 26) (s : State) : Host.Outcome State Fault Refusal :=
  .next (issue c (wordOf 0x0A f) .plain (do return relTarget (← pcOf c) 26 f.toNat) s)

/-- A target that is not a multiple of 4 raises alignment (06 R228, R229). -/
def checkTarget (t : U64) : Op Unit := trapIf (t.toNat % 4 != 0) 0x05 t

/-- The steps CALL and CALLR share: push PC + 4 below A15 and go to the target (06 R228). -/
def callTo (c : CoreId) (target : U64) : Op U64 := do
  checkTarget target
  let new := (← rdA c 15) - 8
  trapIf (new.toNat % 8 != 0) 0x05 new
  chkA c 15 new
  scalarStore c new (leBytes 8 ((← pcOf c) + 4).toNat)
  modC c (fun k => k.writeA 15 new)
  return target

/-- CALL: major 0x0B (06 R228). -/
def execCall (c : CoreId) (f : BitVec 26) (s : State) : Host.Outcome State Fault Refusal :=
  .next (issue c (wordOf 0x0B f) .plain (do callTo c (relTarget (← pcOf c) 26 f.toNat)) s)

/-- The word of major 0x0C with a SUB (06 R205). -/
def wordJR (sub : Nat) (f : BitVec 23) : U64 := n64 (0x0C <<< 26 + sub <<< 23 + f.toNat)

/-- JMPR: major 0x0C, SUB 000 (06 R229). -/
def execJmpr (c : CoreId) (f : BitVec 23) (s : State) : Host.Outcome State Fault Refusal :=
  .next (issue c (wordJR 0 f) .plain (do
    illegalIf (fld f 0 19 != 0)
    let t ← rdA c (fld f 19 4)
    checkTarget t
    return t) s)

/-- CALLR: major 0x0C, SUB 001 (06 R228). -/
def execCallr (c : CoreId) (f : BitVec 23) (s : State) : Host.Outcome State Fault Refusal :=
  .next (issue c (wordJR 1 f) .plain (do
    illegalIf (fld f 0 19 != 0)
    callTo c (← rdA c (fld f 19 4))) s)

/-- RET's body (06 R229). DESIGN CHOICE (log 40): R229 names no alignment rule for the load; an A15 that is no multiple of 8 raises 0x05, as
every scalar load of 8 bytes does. -/
def retBody (c : CoreId) (f : BitVec 23) : Op U64 := do
  illegalIf (f != 0)
  let sp ← rdA c 15
  let t := n64 (leNat (← scalarLoad c sp 8))
  checkTarget t
  modC c (fun k => k.writeA 15 (sp + 8))
  return t

/-- RET: major 0x0C, SUB 010 (06 R229). -/
def execRet (c : CoreId) (f : BitVec 23) (s : State) : Host.Outcome State Fault Refusal :=
  .next (issue c (wordJR 2 f) .plain (retBody c f) s)

/-! ### Atomics (06 R215, R216) -/

/-- The new value of an atomic of n bytes; none for a reserved OP (06 R215). -/
def atomicNew (op n old a b : Nat) : Option Nat :=
  match op with
  | 0 => some ((old + a) % 2 ^ (8 * n))
  | 1 => some a
  | 2 => some (if old = b then a else old)
  | 3 => some (old &&& a)
  | 4 => some (old ||| a)
  | 5 => some (if sx (8 * n) old ≤ sx (8 * n) a then old else a)
  | 6 => some (if sx (8 * n) old ≤ sx (8 * n) a then a else old)
  | 7 => some (min old a)
  | 8 => some (max old a)
  | 9 =>
    let f := if n = 4 then fp32 else fp64
    some (fAdd f .rne (decodeF f old) (decodeF f a)).1
  | _ => none

/-- An atomic at its home: the old bytes, whether they were poisoned, and the state (06 R215, 08 R293). -/
def atomicHome (s : State) (own : Option CoreId) (op n pa : Nat) (a b : U64) : List Byte × Bool × State :=
  let old := s.bytes pa n
  let s := l2Touch s pa n false
  if s.poisoned pa n then (old, true, s)
  else match atomicNew op n (leNat old) (a.toNat % 2 ^ (8 * n)) (b.toNat % 2 ^ (8 * n)) with
    | some v => (old, false, homeWrite s own none pa (leBytes n v))
    | none => (old, false, s)

/-- An atomic of this module's memory by a core (06 R215). -/
def localAtomic (c : CoreId) (op n pa : Nat) (a b va : U64) : Op (List Byte) := do
  let s ← get
  trapIf (!memRange pa n || hitsLedger pa n || s.carrelShut c pa) 0x09 va
  if (s.core c).accTask.isSome then throw (.abort 4)
  let r := atomicHome s (some c) op n pa a b
  set (if r.2.1 then machineCheck r.2.2 c 2 pa else r.2.2)
  return r.1

/-- An atomic by a core at a global address (06 R210, R215; 11 R406). -/
def hallAtomic (c : CoreId) (op z : Nat) (a b addr : U64) : Op (List Byte) := do
  let s ← get
  let r : HallReq := { addr := addr, op := .atomic op z a b }
  match s.hallDest r with
  | .fault => trap 0x0A addr
  | .here pa => localAtomic c op (2 ^ z) pa a b addr
  | .hereLedger _ => trap 0x0A addr
  | .away =>
    if (s.core c).accTask.isSome then throw (.abort 4)
    match ← awaitHall c r with
    | .ok d pm => do
      if pm ≠ 0 then modify (fun s => machineCheck s c 2 addr.toNat)
      return d
    | .refused _ => trap 0x0A addr

/-- Major 0x0D with its whole 26 bits (06 R215). -/
def atomicBody (c : CoreId) (f : BitVec 26) : Op U64 := do
  let op := fld f 6 4
  let z := fld f 4 2
  illegalIf (fld f 0 4 != 0 || decide (10 ≤ op) || decide (z < 2))
  let n := 2 ^ z
  let va ← rdA c (fld f 18 4)
  trapIf (va.toNat % n != 0) 0x05 va
  let a ← rdD c (fld f 14 4)
  let b ← rdD c (fld f 10 4)
  let old ← if bit va 63 then hallAtomic c op z a b va
    else do
      let pa ← xlateAt c (← ringOf c) .store va
      trapIf (isDevice pa) 0x05 va
      localAtomic c op n pa a b va
  if op = 9 then modC c (fun k => k.raiseNonrep)
  wrD c (fld f 22 4) (extend n false (leNat old))
  nextPC c 4

/-- SCALAR_ATOMIC: major 0x0D (06 R215). -/
def execScalarAtomic (c : CoreId) (f : BitVec 26) (s : State) : Host.Outcome State Fault Refusal :=
  .next (issue c (wordOf 0x0D f) .plain (atomicBody c f) s)

/-- The bits of major 0x0D around OP 9. -/
def afaddBits (hi : BitVec 16) (lo : BitVec 6) : BitVec 26 := hi ++ 9#4 ++ lo

/-- AFADD: major 0x0D, OP 9: registers above OP, SZ and zeros below (06 R215, R216). -/
def execAfadd (c : CoreId) (hi : BitVec 16) (lo : BitVec 6) (s : State) : Host.Outcome State Fault Refusal :=
  .next (issue c (wordOf 0x0D (afaddBits hi lo)) .plain (atomicBody c (afaddBits hi lo)) s)

/-! ### NOP and CSR access -/

/-- NOP: major 0x0E with every field 0 (06 R205). -/
def execNop (c : CoreId) (s : State) : Host.Outcome State Fault Refusal :=
  .next (issue c (wordOf 0x0E 0) .plain (nextPC c 4) s)

/-- What a commit of the selected gloss entry finds first among its micro-ops: 0 when they pass (06 R247, R248). DESIGN CHOICE (log 41): of
failures in several slots the one in the lowest slot is the first, and within a slot the one of the lowest code. -/
def glCheckOps (s : State) (c : CoreId) (e len : Nat) : Nat → Nat
  | 0 => 0
  | n + 1 =>
    let i := len - n
    let w := vget (s.core c).ex.glTab (17 * e + i + 1) 0
    let word : BitVec 32 := w.extractLsb' 0 32
    let sels := [fld w 32 4, fld w 36 4, fld w 40 4]
    if !scalarMajor (fld word 26 6) then 1
    else if glStores word && decide (i < len) then 2
    else if !((List.range 3).all (fun j => glSelOk word (glFields word).1 j (nth 0 sels j))) || (bit w 44 && !(glFields word).2) then 3
    else if fld w 45 19 != 0 then 4
    else match (scalarWord { Ctx.of c none with gloss := true } word) s with
      | .error (.trap 0x01 _ _ _) _ => 4
      | _ => glCheckOps s c e len n

/-- What a commit of an entry reports (06 R247, R248). DESIGN CHOICE (log 41): a slot beyond the length that does not hold zero, which
R244 rules out without naming an error, is looked for last and reported as ERR 4. -/
def glCheck (s : State) (c : CoreId) (e : Nat) : Nat :=
  let x := (s.core c).ex
  let h := vget x.glTab (17 * e) 0
  let len := fld h 0 4
  if bit x.glLock e then 5
  else
    let r := glCheckOps s c e len (len + 1)
    if r ≠ 0 then r
    else if (rng (len + 1) (15 - len)).any (fun i => vget x.glTab (17 * e + i + 1) 0 != 0) then 4 else 0

/-- GL_CTL.COMMIT written 1 (06 R247). -/
def glCommit (s : State) (c : CoreId) : State :=
  let e := fld (s.core c).ex.glSel 0 5
  let r := glCheck s c e
  s.modCore c (fun k => { k with ex := { k.ex with
    glErr := BitVec.ofNat 3 r,
    glTab := if r = 5 then k.ex.glTab else vput k.ex.glTab (17 * e) (setBit (vget k.ex.glTab (17 * e) 0) 4 (r == 0)) } })

/-- CSRs 0x380 to 0x3FF written (06 R242, R248, R252, R253). -/
def writeExecCsr (s : State) (c : CoreId) (n : Nat) (v : U64) : State :=
  let ex (f : ExecRegs → ExecRegs) : State := s.modCore c (fun k => { k with ex := f k.ex })
  if 0x3F4 ≤ n ∧ n ≤ 0x3F7 then ex (fun x => { x with dbgBp := vput x.dbgBp (n - 0x3F4) (setBit v 1 false) })
  else match n with
  | 0x380 => ex (fun x => { x with rcnt := BitVec.ofNat 32 v.toNat })
  | 0x381 => ex (fun x => { x with rstat := v &&& fmask 0 2 })
  | 0x388 => ex (fun x => { x with glSel := v &&& fmask 0 10 })
  | 0x389 => ex (fun x => glWordWrite x v)
  | 0x38A => if bit v 0 then glCommit s c else s
  | 0x38B => ex (fun x => { x with glLock := x.glLock ||| BitVec.ofNat 32 v.toNat })
  | 0x3F2 => if bit v 0 then ex (fun x => { x with nonrep := false }) else s
  | 0x3F8 => ex (fun x => { x with dbgStep := bit v 0 })
  | _ => s

/-- A write to a CSR by number (06 R232). -/
def csrWrite (s : State) (c : CoreId) (n : Nat) (v : U64) : State :=
  if n = 0x032 then
    (if h : fld v 0 8 < 144 then
      s.modCore ⟨fld v 0 8, h⟩ (fun k => { k with rr := { k.rr with xpend := setBit k.rr.xpend 1 true } })
     else s)
  else if n < 0x100 then s.modCore c (fun k => writeRingCsr k n v)
  else if n = 0x103 then s.modCore c (fun k => { k with vec := { k.vec with vresume := v &&& (fmask 0 11 ||| fmask 16 9) } })
  else if n < 0x180 then s
  else if n < 0x200 then s.modCore c (fun k => { k with tile := writeTileCsr k.tile n v })
  else if n < 0x280 then
    let s1 := s.modCore c (fun k => { k with num := writeNumCsr k.num n v })
    let ch := (s1.core c).num.profS != (s.core c).num.profS || (s1.core c).num.profG != (s.core c).num.profG
    if ch && isCompute c && fld s.led.stat 0 3 != 0 then { s1 with led := { s1.led with markNonrep := true } } else s1
  else if n < 0x300 then s.modCore c (fun k => { k with str := writeStrCsr k.str n v })
  else if n < 0x380 then s.modCore c (fun k => { k with mm := writeMemCsr k.mm n v })
  else writeExecCsr s c n v

/-- MTC of D[rd] to CSR n (06 R232). -/
def mtcBody (c : CoreId) (rd n : Nat) : Op U64 := do
  let s ← get
  illegalIf (csrRead s c n).isNone
  let v ← rdD c rd
  trapIf (!csrMayWrite (← ringOf c) n v) 0x02 (n64 n)
  modify (fun s => csrWrite s c n v)
  nextPC c 4

/-- MFC of CSR n to D[rd] (06 R232): every ring may read every CSR. -/
def mfcBody (c : CoreId) (rd n : Nat) : Op U64 := do
  match csrRead (← get) c n with
  | some v => do
    wrD c rd v
    nextPC c 4
  | none => illegal

/-- The word of an MTC (06 R205 format C). -/
def mtcWord (rd : BitVec 4) (n : Nat) : U64 := n64 (0x0E <<< 26 + rd.toNat <<< 22 + n <<< 12 + 2 <<< 8)

/-- MTC: a word of major 0x0E. SUB 0010 writes the CSR; the same major's SUB 0001 is MFC, which reads it, and SUB 0000 with
every field 0 is NOP (06 R205, R232). -/
def execMtc (c : CoreId) (f : BitVec 26) (s : State) : Host.Outcome State Fault Refusal :=
  .next (issue c (wordOf 0x0E f) .plain (do
    illegalIf (fld f 0 8 != 0)
    match fld f 8 4 with
    | 0 => do
      illegalIf (f != 0)
      nextPC c 4
    | 1 => mfcBody c (fld f 22 4) (fld f 12 10)
    | 2 => mtcBody c (fld f 22 4) (fld f 12 10)
    | _ => illegal) s)

/-- Issue an MTC of D[rd] to CSR n. -/
def issueMtc (c : CoreId) (rd : BitVec 4) (n : Nat) (s : State) : State := issue c (mtcWord rd n) .plain (mtcBody c rd.toNat n) s

/-- NCH_AMAXCLR: an MTC to 0x20E (04 R159). -/
def execNchAmaxclr (c : CoreId) (rd : BitVec 4) (s : State) : Host.Outcome State Fault Refusal := .next (issueMtc c rd 0x20E s)
/-- GL_WORD: an MTC to 0x389 (06 R247). -/
def execGlWord (c : CoreId) (rd : BitVec 4) (s : State) : Host.Outcome State Fault Refusal := .next (issueMtc c rd 0x389 s)
/-- GL_CTL_COMMIT: an MTC to 0x38A (06 R247). -/
def execGlCtlCommit (c : CoreId) (rd : BitVec 4) (s : State) : Host.Outcome State Fault Refusal := .next (issueMtc c rd 0x38A s)
/-- GL_LOCK: an MTC to 0x38B (06 R248). -/
def execGlLock (c : CoreId) (rd : BitVec 4) (s : State) : Host.Outcome State Fault Refusal := .next (issueMtc c rd 0x38B s)
/-- ELINK_WRITE: an MTC to 0x004 (07 R272). -/
def execElinkWrite (c : CoreId) (rd : BitVec 4) (s : State) : Host.Outcome State Fault Refusal := .next (issueMtc c rd 0x004 s)
/-- ST_WRITE: an MTC to 0x000 (07 R274). -/
def execStWrite (c : CoreId) (rd : BitVec 4) (s : State) : Host.Outcome State Fault Refusal := .next (issueMtc c rd 0x000 s)
/-- XSEND: an MTC to 0x032 (07 R278). -/
def execXsend (c : CoreId) (rd : BitVec 4) (s : State) : Host.Outcome State Fault Refusal := .next (issueMtc c rd 0x032 s)
/-- XTIMER_WRITE: an MTC to 0x031 (07 R278). -/
def execXtimerWrite (c : CoreId) (rd : BitVec 4) (s : State) : Host.Outcome State Fault Refusal := .next (issueMtc c rd 0x031 s)
/-- SEM_PAIR_WRITE: an MTC to 0x2A0 + n (09 R362). -/
def execSemPairWrite (c : CoreId) (n : BitVec 3) (rd : BitVec 4) (s : State) : Host.Outcome State Fault Refusal :=
  .next (issueMtc c rd (0x2A0 + n.toNat) s)

end Sys2Proof.Machine
end

