-- ==== Sys2Proof/Machine/Repeat.lean ====
section
/-! DEFINITION. Machine/Repeat.lean: the repeat prefixes RPT and RPTI and the gloss invocation (06 R234 to R250). -/

namespace Sys2Proof.Machine

/-! ### Glosses (06 R243, R245, R249, R250) -/

/-- Set bits [lo+3:lo] of a word. -/
def setNib (w : BitVec 32) (lo v : Nat) : BitVec 32 :=
  (w &&& ~~~(BitVec.ofNat 32 (15 <<< lo))) ||| BitVec.ofNat 32 ((v % 16) <<< lo)

/-- A micro-op's word with its j-th register field replaced as its selector says (06 R245). -/
def glSelect (f : BitVec 26) (w : BitVec 32) (j sel : Nat) : BitVec 32 :=
  match sel with
  | 1 => setNib w (glFieldLo w j) (fld f 17 4)
  | 2 => setNib w (glFieldLo w j) (fld f 13 4)
  | 3 => setNib w (glFieldLo w j) (fld f 9 4)
  | _ => w

/-- One micro-op (06 R245). -/
def microOp (c : CoreId) (f : BitVec 26) (w : U64) : Op Unit :=
  let word : BitVec 32 := w.extractLsb' 0 32
  let word := glSelect f (glSelect f (glSelect f word 0 (fld w 32 4)) 1 (fld w 36 4)) 2 (fld w 40 4)
  scalarWord { c := c, t1 := fld w 32 4 == 4, t2 := fld w 36 4 == 4, t3 := fld w 40 4 == 4, gloss := true,
               imm := if bit w 44 then .rep (w64 (sx 9 (fld f 0 9))) else .plain } word

/-- GL_FAULT of an entry and slot (06 R250, R252). -/
def glFaultWord (entry slot : Nat) : U64 := n64 (slot + entry <<< 4 + 1 <<< 9)

/-- Run micro-ops from a slot; a fault leaves only GL_FAULT changed in the state s0 before the gloss (06 R249, R250). -/
def glossOps (c : CoreId) (f : BitVec 26) (s0 : State) (last : Nat) : Nat → State → EStateM.Result Stop State Unit
  | 0, s => .ok () s
  | n + 1, s =>
    let slot := last - n
    match microOp c f (vget (s.core c).ex.glTab (17 * fld f 21 5 + slot + 1) 0) s with
    | .ok _ s1 => glossOps c f s0 last n s1
    | .error (.trap cause subc info _) _ =>
      .error (.trap cause subc info true) (s0.modCore c (fun k => { k with ex := { k.ex with glFault := glFaultWord (fld f 21 5) slot } }))
    | .error e s1 => .error e s1

/-- A core with its gloss temporaries zero (06 R245). -/
def clearTemps (k : Core) : Core := { k with ex := { k.ex with gtmp := Vector.replicate 8 0 } }

/-- One execution of a gloss (06 R243, R249). -/
def glossBody (c : CoreId) (f : BitVec 26) : Op Unit := fun s =>
  let h := vget (s.core c).ex.glTab (17 * fld f 21 5) 0
  if bit h 4 then
    (match glossOps c f s (fld h 0 4) (fld h 0 4 + 1) (s.modCore c clearTemps) with
     | .ok _ s1 => .ok () (s1.modCore c clearTemps)
     | .error e s1 => .error e s1)
  else .error (.trap 0x01 0 0 false) s

/-- GLOSS: major 0x3F (06 R243). -/
def execGloss (c : CoreId) (f : BitVec 26) (s : State) : Host.Outcome State Fault Refusal :=
  .next (issue c (wordOf 0x3F f) .plain (do
    glossBody c f
    nextPC c 4) s)

/-! ### Repeats (06 R234 to R242) -/

/-- The record of a stopped repeat (06 R239). -/
def Core.repRecord (k : Core) (rpti : Bool) (left : Nat) : Core :=
  { k with ex := { k.ex with rcnt := BitVec.ofNat 32 left, rstat := n64 (1 + b01 rpti * 2) } }

/-- A completed iteration: RPTI counts RCNT down, INSTRET counts it (06 R236, R253). -/
def Core.repDone (k : Core) (rpti : Bool) (left : Nat) : Core :=
  { k with ex := { k.ex with instret := k.ex.instret + 1, rcnt := if rpti then BitVec.ofNat 32 left else k.ex.rcnt } }

/-- The iterations left of a repeat. A fault, or an event between two iterations of RPTI, leaves the record of R239; with DBG_CTL.STEP
the core halts after each iteration of RPTI, before any event (R254). With plain the prefixed word is no gloss: cause 0x01 is then raised at
decode, before any iteration, and leaves no record (log 40). -/
def repLoop (c : CoreId) (rpti plain : Bool) (body : Op Unit) : Nat → State → EStateM.Result Stop State Unit
  | 0, s => .ok () s
  | n + 1, s =>
    match body s with
    | .ok _ s1 =>
      let s2 := s1.modCore c (fun k => k.repDone rpti n)
      if rpti && decide (n ≠ 0) then
        let s3 := s2.modCore c (fun k => k.repRecord rpti n)
        if (s2.core c).ex.dbgStep then
          .error .event (haltCore (s3.modCore c (fun k => { k with ex := { k.ex with afterRte := true } })) c)
        else if (s2.core c).eligible.isSome then .error .event s3
        else repLoop c rpti plain body n s2
      else repLoop c rpti plain body n s2
    | .error (.trap cause subc info _) s1 =>
      .error (.trap cause subc info true) (s.modCore c (fun k =>
        let k := { k with ex := { k.ex with glFault := (s1.core c).ex.glFault } }
        if cause = 0x01 ∧ plain then k else k.repRecord rpti (n + 1)))
    | .error e s1 => .error e s1

/-- One iteration of the prefixed instruction (06 R237). -/
def repBody (c : CoreId) (x : Option (BitVec 26)) (w : BitVec 32) : Op Unit :=
  if fld w 26 6 = 0x3F then glossBody c (w.extractLsb' 0 26) else scalarWord (Ctx.of c x) w

/-- Whether a repeat prefix, with or without IMX, may stand before a word (06 R206, R237). -/
def repAllowed (x : Option (BitVec 26)) (w : BitVec 32) : Bool :=
  let m := fld w 26 6
  (scalarMajor m || m == 0x3F) && (x.isNone || m == 1 || m == 3 || decide (5 ≤ m ∧ m ≤ 7))

/-- A repeat: prefix bits [24:0], an optional IMX and the prefixed word (06 R234 to R240). -/
def repeatOp (c : CoreId) (rpti : Bool) (p : BitVec 25) (x : Option (BitVec 26)) (w : BitVec 32) : Op U64 := do
  let src := bit p 24
  illegalIf (fld p 7 13 != 0 || (!src && fld p 20 4 != 0) || (!rpti && !src && decide (64 < fld p 0 7)) || !repAllowed x w)
  let k ← coreOf c
  let resumed := k.ex.afterRte && bit k.ex.rstat 0 && bit k.ex.rstat 1 == rpti
  let opnd := if src then (k.readD (fld p 20 4)).toNat else fld p 0 7
  let count := if resumed then k.ex.rcnt.toNat else opnd
  illegalIf (decide ((if rpti then 2 ^ 32 - 1 else 64) < count))
  if rpti && count != 0 then modC c (fun k => { k with ex := { k.ex with rcnt := BitVec.ofNat 32 count } })
  (fun s => repLoop c rpti (fld w 26 6 != 0x3F) (repBody c x w) count s)
  if resumed then modC c (fun k => { k with ex := { k.ex with rstat := setBit k.ex.rstat 0 false } })
  modC c (fun k => { k with ex := { k.ex with instret := k.ex.instret - 1 } })
  nextPC c (if x.isSome then 12 else 8)

/-- The word of a repeat prefix (06 R234). -/
def repWord (rpti : Bool) (p : BitVec 25) : U64 := n64 (0x38 <<< 26 + b01 rpti <<< 25 + p.toNat)

/-- RPT (06 R234, R238). -/
def execRpt (c : CoreId) (p : BitVec 25) (x : Option (BitVec 26)) (w : BitVec 32) (s : State) : Host.Outcome State Fault Refusal :=
  .next (issue c (repWord false p) (.rep false) (repeatOp c false p x w) s)

/-- RPTI (06 R234, R238). -/
def execRpti (c : CoreId) (p : BitVec 25) (x : Option (BitVec 26)) (w : BitVec 32) (s : State) : Host.Outcome State Fault Refusal :=
  .next (issue c (repWord true p) (.rep true) (repeatOp c true p x w) s)

end Sys2Proof.Machine
end

