-- ==== Sys2Proof/Machine/System.lean ====
section
/-! DEFINITION. Machine/System.lean: rings, gates, banks, events, cache maintenance, speculative tasks and PHASE, majors 0x2C
to 0x2F, with the events of a core (06 R254; 07 R261 to R281; 08 R298 to R317; 14 R516, R517). -/

namespace Sys2Proof.Machine

/-- The word of a major with a SUB in [25:22]. -/
def wordSub (major sub : Nat) (f : BitVec 22) : U64 := n64 (major <<< 26 + sub <<< 22 + f.toNat)

/-- Issue a word of a major with a SUB. -/
def issueSub (c : CoreId) (major sub : Nat) (f : BitVec 22) (kind : IKind) (body : Op U64) (s : State) :
    Host.Outcome State Fault Refusal := .next (issue c (wordSub major sub f) kind body s)

/-! ### Gates (07 R261 to R263) -/

/-- A physical 16-byte read of a gate entry; poison raises machine check source 3 (07 R261, R277). -/
def readGate (c : CoreId) (pa : Nat) : Op (U64 × U64) := do
  let s ← get
  trapIf (!memRange pa 16) 0x08 (n64 pa)
  let s1 := l2Touch s pa 16 false
  set (if s1.poisoned pa 16 then machineCheck s1 c 3 pa else s1)
  return (n64 (leNat (s.bytes pa 8)), n64 (leNat (s.bytes (pa + 8) 8)))

/-- Change the executing ring (07 R256). -/
def setRing (c : CoreId) (r : Nat) : Op Unit := modC c (fun k => k.setBank (fun b => { b with ring := BitVec.ofNat 2 r }))

/-- CALLG of gate g (07 R262). -/
def callGate (c : CoreId) (g : Nat) : Op U64 := do
  let k ← coreOf c
  let r := k.ring
  let e ← readGate c (fld k.rr.gatebase 12 36 <<< 12 + 16 * g)
  let tring := fld e.1 0 2
  trapIf (!bit e.2 0) 0x03 (n64 g) 1
  trapIf (decide (fld e.2 2 2 < r)) 0x03 (n64 g) 2
  trapIf (decide (r < tring)) 0x03 (n64 g) 3
  let sp := if bit e.2 1 then n64 (fld e.2 4 60 <<< 4) else vget k.rr.sp tring 0
  let new := sp - 16
  trapIf (new.toNat % 8 != 0) 0x05 new
  trapIf (decide (new.toNat < (vget k.rr.slim tring 0).toNat)) 0x20 new
  setRing c tring
  scalarStore c new (leBytes 8 (k.pc + 4).toNat)
  scalarStore c (new + 8) (leBytes 8 (r + g <<< 2))
  modC c (fun k => k.writeA 15 new)
  return n64 (fld e.1 2 62 <<< 2)

/-- CALLG: major 0x2C, SUB 0000 (07 R281). -/
def execCallg (c : CoreId) (f : BitVec 22) (s : State) : Host.Outcome State Fault Refusal :=
  issueSub c 0x2C 0 f .plain (do
    illegalIf (fld f 0 9 != 0 || (bit f 21 && fld f 9 8 != 0))
    let d ← rdD c (fld f 17 4)
    callGate c (if bit f 21 then fld d 0 8 else fld f 9 8)) s

/-- A scalar load whose fault is held back: its value, or the cause it would raise. -/
def tryLoad (c : CoreId) (va : U64) (n : Nat) : Op (Except Stop Nat) := fun s =>
  match scalarLoad c va n s with
  | .ok bs s1 => .ok (.ok (leNat bs)) s1
  | .error (.trap cause subc info keep) _ => .ok (.error (.trap cause subc info keep)) s
  | .error e s1 => .error e s1

/-- Raise what a load held back. -/
def loaded (r : Except Stop Nat) : Op Nat :=
  match r with
  | .ok v => pure v
  | .error e => throw e

/-- RETG: of the two words those that can be loaded are checked before a load that fails is reported (07 R263, R277). -/
def retGate (c : CoreId) : Op U64 := do
  let k ← coreOf c
  let sp := k.readA 15
  let a ← tryLoad c sp 8
  let b ← tryLoad c (sp + 8) 8
  match b with
  | .ok v => trapIf (decide (v % 4 < k.ring)) 0x04 (n64 (v % 4)) 4
  | .error _ => pure ()
  match a with
  | .ok v => checkTarget (n64 v)
  | .error _ => pure ()
  let ra := n64 (← loaded a)
  let p := (← loaded b) % 4
  modC c (fun k => k.writeA 15 (sp + 16))
  setRing c p
  return ra

/-- RETG: major 0x2C, SUB 0001 (07 R281). -/
def execRetg (c : CoreId) (f : BitVec 22) (s : State) : Host.Outcome State Fault Refusal :=
  issueSub c 0x2C 1 f .plain (do
    illegalIf (f != 0)
    retGate c) s

/-! ### The interrupted context (07 R270, R271) -/

/-- A context that MFB, MTB and RTE reach. -/
inductive CtxRef where
  /-- a live bank -/
  | bank (b : Nat)
  /-- the frame at SSP of the current bank -/
  | frame (pa : Nat)
deriving DecidableEq, Repr

/-- The context the current bank's ELINK names (07 R270). -/
def Core.linked (k : Core) : CtxRef :=
  let e := k.bank.elink
  if fld e 0 2 = k.rr.cur.toNat ∧ bit e 4 then .frame (vget k.rr.ssp k.rr.cur.toNat 0).toNat else .bank (fld e 0 2)

/-- A bank's register by REGSEL; none for a value R281 does not list (07 R281). -/
def Bank.sel (b : Bank) (n sel : Nat) : Option U64 :=
  if sel ≤ 14 then some (vget b.a sel 0)
  else if 16 ≤ sel ∧ sel ≤ 31 then some (vget b.d (sel - 16) 0)
  else match sel with
  | 32 => some (stWord b n)
  | 33 => some b.pc
  | 34 => some b.ecause
  | 35 => some b.einfo
  | 36 => some b.elink
  | _ => none

/-- The offset of a register in a frame (07 R268). -/
def frameOff (sel : Nat) : Nat :=
  if sel ≤ 14 then 8 * sel
  else if sel ≤ 31 then 0x80 + 8 * (sel - 16)
  else match sel with
  | 32 => 0x78
  | 33 => 0x100
  | 34 => 0x108
  | 35 => 0x110
  | _ => 0x118

/-- A bank after MTB of v from ring r; gmOnly when it is the live ST of the current bank in the linked form (07 R271). -/
def Bank.mtb (b : Bank) (sel r : Nat) (v : U64) (gmOnly : Bool) : Bank :=
  if sel ≤ 14 then { b with a := vput b.a sel v }
  else if sel ≤ 31 then { b with d := vput b.d (sel - 16) v }
  else match sel with
  | 32 => { b with gm := bit v 4, ring := if gmOnly then b.ring else BitVec.ofNat 2 (fld v 0 2) }
  | 33 => { b with pc := setFld v 0 2 0 }
  | 36 => { b with elink := elinkWrite b.elink v r }
  | _ => b

/-- A frame's word after MTB of v from ring r (07 R271). -/
def frameMtb (old v : U64) (sel r : Nat) : U64 :=
  match sel with
  | 32 => setBit (setFld old 0 2 (fld v 0 2)) 4 (bit v 4)
  | 33 => setFld v 0 2 0
  | 34 => old
  | 35 => old
  | 36 => elinkWrite old v r
  | _ => v

/-- Fields of MFB and MTB: DR, REGSEL, X, BANK (07 R281). -/
def bankFields (c : CoreId) (f : BitVec 22) : Op (Option CtxRef) := do
  let k ← coreOf c
  let x := bit f 11
  illegalIf (fld f 0 9 != 0 || (!x && fld f 9 2 != 0) || (k.bank.sel 0 (fld f 12 6)).isNone)
  illegalIf (x && fld f 9 2 == k.rr.cur.toNat)
  needRing c (if x then 0 else 2)
  return (if x then some (.bank (fld f 9 2)) else if bit k.bank.elink 5 then some k.linked else none)

/-- MFB: major 0x2C, SUB 0011 (07 R270, R271). -/
def mfbBody (c : CoreId) (f : BitVec 22) : Op U64 := do
  let k ← coreOf c
  let sel := fld f 12 6
  let v ← match ← bankFields c f with
    | none => pure 0
    | some (.bank b) => pure (((vget k.rr.banks b Bank.reset).sel b sel).getD 0)
    | some (.frame pa) => do
      let bs ← memLoad c (pa + frameOff sel) 8 (n64 (pa + frameOff sel))
      pure (n64 (leNat bs))
  wrD c (fld f 18 4) v
  nextPC c 4

/-- MFB (07 R281). -/
def execMfb (c : CoreId) (f : BitVec 22) (s : State) : Host.Outcome State Fault Refusal := issueSub c 0x2C 3 f .plain (mfbBody c f) s

/-- MTB: major 0x2C, SUB 0100 (07 R270 to R272). A PC written into the current bank is where the core goes on. -/
def mtbBody (c : CoreId) (f : BitVec 22) : Op U64 := do
  let k ← coreOf c
  let sel := fld f 12 6
  let next ← nextPC c 4
  let t ← bankFields c f
  let v ← rdD c (fld f 18 4)
  match t with
  | none => return next
  | some (.bank b) => do
    let own := b == k.rr.cur.toNat
    modC c (fun k => { k with rr := { k.rr with
      banks := vput k.rr.banks b ((vget k.rr.banks b Bank.reset).mtb sel k.ring v own) } })
    return (if own && sel == 33 then setFld v 0 2 0 else next)
  | some (.frame pa) => do
    let a := pa + frameOff sel
    trapIf (!memRange a 8) 0x09 (n64 a)
    let old := n64 (leNat ((← get).bytes a 8))
    set (l2Touch (← get) a 8 false)
    if sel ≠ 34 ∧ sel ≠ 35 then memStore c a (leBytes 8 (frameMtb old v sel k.ring).toNat) (n64 a)
    return next

/-- MTB (07 R281). -/
def execMtb (c : CoreId) (f : BitVec 22) (s : State) : Host.Outcome State Fault Refusal := issueSub c 0x2C 4 f .plain (mtbBody c f) s

/-! ### RTE (07 R272, R273, R276) -/

/-- A bank read from a frame (07 R268). -/
def bankOfFrame (w : Nat → U64) : Bank :=
  { a := Vector.ofFn (fun i => w i.val), d := Vector.ofFn (fun i => w (16 + i.val)), ring := BitVec.ofNat 2 (fld (w 15) 0 2),
    gm := bit (w 15) 4, pc := setFld (w 32) 0 2 0, ecause := w 33, einfo := w 34, elink := w 35 }

/-- RTE (07 R259, R273). DESIGN CHOICE (log 80): where the link names the current bank's own live context and its sealed ring is above the
current one, conditions 2 and 3 both hold and the subcause is 3. A frame is checked before its contents only where it cannot be read. -/
def rteBody (c : CoreId) (f : BitVec 22) : Op U64 := do
  illegalIf (f != 0)
  needRing c 2
  let s ← get
  let k := s.core c
  let t := k.rr.cur.toNat
  let e := k.bank.elink
  let r := k.ring
  trapIf (!bit e 5) 0x04 0 1
  let b := fld e 0 2
  let spilled := bit e 4
  trapIf (b == t && !spilled) 0x04 (n64 r) 3
  let pa := (vget k.rr.ssp t 0).toNat
  if b == t && !memRange pa 512 then throw .refill
  let fb := bankOfFrame (fun i => n64 (leNat (s.bytes (pa + 8 * i) 8)))
  let target := if b = t then fb else vget k.rr.banks b Bank.reset
  let r' := target.ring.toNat
  trapIf (decide (r' < r) || decide (r' < fld e 2 2)) 0x04 (n64 r') 2
  if spilled && k.frameBad t (Int.ofNat pa) then throw .refill
  let s1 := if spilled then l2Touch s pa 512 false else s
  set (if spilled && s1.poisoned pa 512 then machineCheck s1 c 4 pa else s1)
  let now := BitVec.ofNat 3 (1 <<< b)
  modC c (fun k =>
    if spilled then { k with rr := { k.rr with
        banks := vput k.rr.banks t fb, ssp := vput k.rr.ssp t (n64 (pa + 512)), cur := BitVec.ofNat 2 b, busy := k.rr.busy ||| now } }
    else { (k.setBank (fun x => { x with elink := setBit x.elink 5 false })) with rr := {
        (k.setBank (fun x => { x with elink := setBit x.elink 5 false })).rr with
        busy := (k.rr.busy &&& ~~~(BitVec.ofNat 3 (1 <<< t))) ||| now, cur := BitVec.ofNat 2 b } })
  return target.pc

/-- RTE: major 0x2C, SUB 0010 (07 R281). -/
def execRte (c : CoreId) (f : BitVec 22) (s : State) : Host.Outcome State Fault Refusal := issueSub c 0x2C 2 f .rte (rteBody c f) s

/-! ### The mask bit and waiting (07 R274, R281) -/

/-- GMS or GMC. -/
def gmBody (c : CoreId) (f : BitVec 22) (v : Bool) : Op U64 := do
  illegalIf (f != 0)
  needRing c 2
  modC c (fun k => k.setBank (fun b => { b with gm := v }))
  nextPC c 4

/-- GMS: major 0x2C, SUB 0101. -/
def execGms (c : CoreId) (f : BitVec 22) (s : State) : Host.Outcome State Fault Refusal := issueSub c 0x2C 5 f .plain (gmBody c f true) s
/-- GMC: major 0x2C, SUB 0110. -/
def execGmc (c : CoreId) (f : BitVec 22) (s : State) : Host.Outcome State Fault Refusal := issueSub c 0x2C 6 f .plain (gmBody c f false) s

/-- WAIT: major 0x2C, SUB 0111. -/
def execWait (c : CoreId) (f : BitVec 22) (s : State) : Host.Outcome State Fault Refusal :=
  issueSub c 0x2C 7 f .plain (do
    illegalIf (f != 0)
    waitIf ((← coreOf c).rr.xpend == 0)
    nextPC c 4) s

/-! ### Events of a core -/

/-- A core is at an instruction boundary and executes. -/
def Core.atBoundary (k : Core) : Bool := k.ex.run == .running && k.ex.hwait.isNone && k.ex.hlog.isEmpty

/-- BREAKPOINT_HALT: an armed breakpoint matches the instruction about to execute, and every earlier one has retired (06 R254). -/
def execBreakpointHalt (c : CoreId) (s0 : State) : Host.Outcome State Fault Refusal :=
  let s := ready s0 c
  let k := s.core c
  .next (if k.atBoundary && k.redirectNow.isNone && k.eligible.isNone && k.tile.queue.isEmpty && k.bpMatch && !k.ex.bpSkip then haltCore s c
    else s)

/-- TIMER_EVENT: hall time reaches XTIMER after the first synchronisation (07 R278, 11 R426). -/
def execTimerEvent (c : CoreId) (s : State) : Host.Outcome State Fault Refusal :=
  .next (if s.hall.once && (s.core c).rr.xtimer != 0 then
      (s.toHall (s.core c).rr.xtimer).modCore c (fun k => { k with rr := { k.rr with xpend := setBit k.rr.xpend 0 true } })
    else s)

/-- TAKE_ASYNC_EVENT: an eligible pending event is taken at an instruction boundary (07 R266, R267). -/
def execTakeAsyncEvent (c : CoreId) (s0 : State) : Host.Outcome State Fault Refusal :=
  let s := ready s0 c
  let k := s.core c
  .next (if k.atBoundary && k.redirectNow.isNone && !k.held && !(k.ex.afterRte && (bit k.ex.rstat 0 || bit k.vec.vresume 24)) then
      (match k.eligible with
       | some cause => takeEvent s c cause
       | none => s)
    else s)

/-- WATCHDOG: a masked interval exceeds the watchdog limit (07 R275). -/
def execWatchdog (c : CoreId) (s : State) : Host.Outcome State Fault Refusal :=
  let k := s.core c
  .next (match k.ex.maskFrom with
    | some t =>
      if k.ex.run == .running && !k.ex.wdPosted then
        let s := s.advanceTo (t + s.cur.wdLimit + 1)
        ownerNotice (s.modCore c (fun k => { k with ex := { k.ex with wdPosted := true } })) 3 c.val (n64 ((s.now - t) / 1000)) 0
      else s
    | none => s)

/-- TASK_ABORT_REDIRECT: the core continues at the abort address of its aborted open task (08 R314). -/
def execTaskAbortRedirect (c : CoreId) (s0 : State) : Host.Outcome State Fault Refusal :=
  let s := ready s0 c
  let k := s.core c
  .next (if k.ex.run == .running && k.ex.hwait.isNone then
      (match k.redirectNow with
       | some a => redirectTo s c a
       | none => s)
    else s)

/-! ### Cache maintenance and translation (08 R298, R300, R305, R306, R290, R316) -/

/-- FENCE: major 0x2D, SUB 0000: every earlier access of this core has been performed, and every hall access acknowledged,
when its instruction retired (08 R305). -/
def execFence (c : CoreId) (f : BitVec 22) (s : State) : Host.Outcome State Fault Refusal :=
  issueSub c 0x2D 0 f .plain (do
    illegalIf (fld f 0 20 != 0 || fld f 20 2 == 0)
    nextPC c 4) s

/-- DCZL's body (08 R298). -/
def dczlBody (c : CoreId) (f : BitVec 22) : Op U64 := do
  illegalIf (fld f 0 18 != 0)
  let va ← rdA c (fld f 18 4)
  trapIf (va.toNat % 128 != 0) 0x05 va
  trapIf (bit va 63) 0x0A va
  let pa ← xlateAt c (← ringOf c) .store va
  trapIf (isDevice pa) 0x05 va
  trapIf ((← get).carrelShut c pa) 0x09 va
  memStore c pa (List.replicate 128 0) va
  modify (fun s => fillLines s c [pa / 128])
  nextPC c 4

/-- DCZL: major 0x2D, SUB 0001. -/
def execDczl (c : CoreId) (f : BitVec 22) (s : State) : Host.Outcome State Fault Refusal := issueSub c 0x2D 1 f .plain (dczlBody c f) s

/-- The line a PREF fetches: none where its translation fails or it lies outside HBM; it raises no fault (08 R289, R300). -/
def prefLine (c : CoreId) (va : U64) : Op (Option Nat) := fun s =>
  if bit va 63 then .ok none s
  else match xlateAt c (s.core c).ring .load va s with
  | .ok pa s1 => .ok (if isHbm pa then some (pa / 128) else none) s1
  | .error _ _ => .ok none s

/-- PREF: major 0x2D, SUB 0010 (08 R300). -/
def execPref (c : CoreId) (f : BitVec 22) (s : State) : Host.Outcome State Fault Refusal :=
  issueSub c 0x2D 2 f .plain (do
    illegalIf (fld f 0 17 != 0)
    match ← prefLine c (← rdA c (fld f 18 4)) with
    | some l => modify (fun s => if bit f 17 then l2Line s l 0xF false else fillLine s c l 0xF)
    | none => pure ()
    nextPC c 4) s

/-- ICSYNC: major 0x2D, SUB 0011 (08 R306). -/
def execIcsync (c : CoreId) (f : BitVec 22) (s : State) : Host.Outcome State Fault Refusal :=
  issueSub c 0x2D 3 f .plain (do
    illegalIf (f != 0)
    modC c (fun k => { k with mm := { k.mm with l1i := [] } })
    nextPC c 4) s

/-- TLB entries that a TLBI of one page leaves (08 R316). -/
def tlbLeft (tlb : List TlbEntry) (asid va : Nat) : List TlbEntry := tlb.filter (fun t => !t.covers asid va)

/-- TLBI: major 0x2D, SUB 0100: the core's TLB and those of its two engines (08 R290, R316; 09 R334). -/
def execTlbi (c : CoreId) (f : BitVec 22) (s : State) : Host.Outcome State Fault Refusal :=
  issueSub c 0x2D 4 f .plain (do
    illegalIf (fld f 0 17 != 0 || (bit f 21 && fld f 17 4 != 0))
    needRing c 1
    let va ← rdA c (fld f 17 4)
    modC c (fun k =>
      let left (l : List TlbEntry) : List TlbEntry := if bit f 21 then [] else tlbLeft l (fld k.mm.xctl 16 16) va.toNat
      { k with
        mm := { k.mm with tlb := left k.mm.tlb, tlb2 := left k.mm.tlb2 },
        str := { k.str with eng := vmap (fun e => { e with tlb := left e.tlb }) k.str.eng } })
    nextPC c 4) s

/-! ### Speculative tasks (08 R309 to R315, R317) -/

/-- TSPEC.BEGIN's body (08 R309). -/
def tspecBegin (c : CoreId) (f : BitVec 22) : Op U64 := do
  illegalIf (fld f 0 10 != 0)
  let k ← coreOf c
  let a ← rdA c (fld f 10 4)
  let st ← rdD c (fld f 14 4)
  checkTarget a
  match (List.range 4).find? (fun t => (k.task t).st == .free) with
  | some t =>
    if k.openTask.isSome then wrD c (fld f 18 4) 0xFFFFFFFFFFFFFFFF#64
    else do
      modC c (fun k =>
        let k := k.setTask t (fun _ => { Task.none with
          st := .opened, ring := k.bank.ring, step := st, abortAt := a, ord := k.mm.taskSeq + 1 })
        { k with mm := { k.mm with taskSeq := k.mm.taskSeq + 1 } })
      wrD c (fld f 18 4) (n64 t)
  | none => wrD c (fld f 18 4) 0xFFFFFFFFFFFFFFFF#64
  nextPC c 4

/-- TSPEC_BEGIN: major 0x2E, SUB 0000. -/
def execTspecBegin (c : CoreId) (f : BitVec 22) (s : State) : Host.Outcome State Fault Refusal :=
  issueSub c 0x2E 0 f .plain (tspecBegin c f) s

/-- The open task ends, and commits at once if its step has sealed or is all ones and no task opened before it is still to commit
(08 R312, R313). -/
def endTask (s : State) (c : CoreId) : State :=
  match (s.core c).openTask with
  | none => s
  | some t => settleDue (s.modCore c (fun k => k.setTask t (fun x => { x with st := .ended }))) c

/-- TSPEC_COMMIT: major 0x2E, SUB 0001 (08 R313). -/
def execTspecCommit (c : CoreId) (f : BitVec 22) (s : State) : Host.Outcome State Fault Refusal :=
  issueSub c 0x2E 1 f .plain (do
    illegalIf (f != 0)
    modify (fun s => endTask s c)
    nextPC c 4) s

/-- TSPEC_ABORT: major 0x2E, SUB 0010: continues at the next instruction (08 R314). -/
def execTspecAbort (c : CoreId) (f : BitVec 22) (s : State) : Host.Outcome State Fault Refusal :=
  issueSub c 0x2E 2 f .plain (do
    illegalIf (f != 0)
    match (← coreOf c).openTask with
    | some t => do
      modify (fun s => abortTask s c t 5)
      modC c (fun k => { k with mm := { k.mm with redirect := none } })
    | none => pure ()
    nextPC c 4) s

/-- TSPEC_WAIT: major 0x2E, SUB 0011 (08 R315). -/
def execTspecWait (c : CoreId) (f : BitVec 22) (s : State) : Host.Outcome State Fault Refusal :=
  issueSub c 0x2E 3 f .plain (do
    illegalIf (fld f 0 14 != 0)
    let t := (← coreOf c).task (fld (← rdD c (fld f 14 4)) 0 2)
    waitIf (t.st != .free)
    wrD c (fld f 18 4) (n64 (b01 t.committed))
    nextPC c 4) s

/-- PHASE: major 0x2F, SUB 0000: it names a phase on the phase master (14 R516, R517). -/
def execPhase (c : CoreId) (f : BitVec 22) (s : State) : Host.Outcome State Fault Refusal :=
  issueSub c 0x2F 0 f .plain (do
    illegalIf (fld f 0 13 != 0 || (!bit f 17 && fld f 13 4 != 0))
    let d ← rdD c (fld f 13 4)
    if fld (← get).pow.ctl 8 8 = c.val then
      modify (fun s => { s with pow := { s.pow with phaseReq := some (fld f 18 4, if bit f 17 then some d else none) } })
    nextPC c 4) s

end Sys2Proof.Machine
end

