-- ==== Sys2Proof/Machine/Tile.lean ====
section
/-! DEFINITION. Machine/Tile.lean: the tile instructions and the events of the tile queue (02 R40 to R47, R55 to R61, R70
to R73; 03 R84, R89 to R123). -/

namespace Sys2Proof.Machine

/-- The tile unit of the executing core. -/
def tileOf (c : CoreId) : Op TileRegs := do return (← coreOf c).tile
/-- Change the tile unit. -/
def modT (c : CoreId) (f : TileRegs → TileRegs) : Op Unit := modC c (fun k => { k with tile := f k.tile })
/-- A hub core has no tile unit: its words are illegal there (17 R608). -/
def needTile (c : CoreId) : Op Unit := illegalIf (!isCompute c)

/-! ### Memory of the tile unit (03 R101, R123) -/

/-- A range of addresses cut at 4 KiB pages. -/
def pagePieces : Nat → U64 → Nat → List (U64 × Nat)
  | 0, _, _ => []
  | fuel + 1, va, n =>
    if n = 0 then []
    else
      let m := min n (4096 - va.toNat % 4096)
      (va, m) :: pagePieces fuel (va + n64 m) (n - m)

/-- The pieces of a range. -/
def piecesOf (va : U64) (n : Nat) : List (U64 × Nat) := pagePieces (n / 4096 + 2) va n

/-- Translate each piece of a range: a global address raises 0x0A, a failed translation its page fault, a device register alignment
(03 R101, 08 R285). -/
def xlatePieces (c : CoreId) (acc : Acc) : List (U64 × Nat) → Op (List (Nat × Nat))
  | [] => pure []
  | (va, m) :: r => do
    trapIf (bit va 63) 0x0A va
    let pa ← xlateAt c (← ringOf c) acc va
    trapIf (isDevice pa) 0x05 va
    trapIf (!memRange pa m || (← get).carrelShut c pa || (acc == .store && hitsLedger pa m)) acc.cause va
    let rest ← xlatePieces c acc r
    return (pa, m) :: rest

/-- Bytes of translated pieces as the core's tile unit reads them: tracked in a task, poison reported, no L1D (08 R293, R296, R310). -/
def readPieces (c : CoreId) : List (Nat × Nat) → Op (List Byte)
  | [] => pure []
  | (pa, m) :: r => do
    let s ← get
    let t := (s.core c).accTask
    let v : View := t.map (fun t => (c, t))
    let bs := s.view v pa m
    let s1 := agentRead s c t pa m
    set (if s.poisonedFor v pa m then machineCheck s1 c 2 pa else s1)
    let rest ← readPieces c r
    return bs ++ rest

/-- Bytes written to translated pieces. -/
def writePieces (c : CoreId) : List (Nat × Nat) → List Byte → Op Unit
  | [], _ => pure ()
  | (pa, m) :: r, bs => do
    let s ← get
    set (agentWrite s c true (s.core c).accTask pa (bs.take m))
    writePieces c r (bs.drop m)

/-- Read n bytes for the tile unit. -/
def tileRead (c : CoreId) (va : U64) (n : Nat) : Op (List Byte) := do
  let ps ← xlatePieces c .load (piecesOf va n)
  readPieces c ps

/-- Write bytes from the tile unit. -/
def tileWrite (c : CoreId) (va : U64) (bs : List Byte) : Op Unit := do
  let ps ← xlatePieces c .store (piecesOf va bs.length)
  writePieces c ps bs

/-- Read a list of rows. -/
def readRows (c : CoreId) : List (U64 × Nat) → Op (List (List Byte))
  | [] => pure []
  | (va, n) :: r => do
    let bs ← tileRead c va n
    let rest ← readRows c r
    return bs :: rest

/-- Write a list of rows in order. -/
def writeRows (c : CoreId) : List (U64 × List Byte) → Op Unit
  | [] => pure ()
  | (va, bs) :: r => do
    tileWrite c va bs
    writeRows c r

/-- Some of a list of rows written: each as it was or fully written, which is not defined (03 R104). -/
def someRows (c : CoreId) (free : Nat) : List (U64 × List Byte) → State → State
  | [], s => s
  | (va, bs) :: r, s =>
    let s1 := if Config.freeNat (free + r.length) % 2 = 0 then (match tileWrite c va bs s with
      | .ok _ s2 => s2
      | .error _ _ => s) else s
    someRows c free r s1

/-- Write rows as a tile store: a fault leaves each row either as it was or written (03 R104). -/
def storeRows (c : CoreId) (rows : List (U64 × List Byte)) : Op Unit := fun s =>
  match writeRows c rows s with
  | .ok _ s1 => .ok () s1
  | .error (.trap cause subc info _) _ =>
    .error (.trap cause subc info true) (someRows c s.free rows { s with free := s.free + rows.length })
  | .error e s1 => .error e s1

/-- The address of row r of a base and a signed stride (03 R98). -/
def rowAddr (base stride : U64) (r : Nat) : U64 := base + n64 r * stride

/-! ### The queue (03 R102, R113) -/

/-- Put an accepted instruction at the end of the queue; it counts in INSTRET when it retires. -/
def enqueue (c : CoreId) (op : TileOp) (sem : Option Nat) : Op Unit := do
  let pc ← pcOf c
  modC c (fun k => { k with
    tile := { k.tile with queue := k.tile.queue ++ [{ pc := pc, op := op, sem := sem, cnt := 0 }] },
    ex := { k.ex with instret := k.ex.instret - 1 } })

/-- Behind other tile instructions an executed instruction stands in the queue until it retires (03 R113). -/
def enqueueBehind (c : CoreId) (op : TileOp) : Op Unit := do
  if (← tileOf c).queue.isEmpty then pure () else enqueue c op none

/-- The semaphore wait of a TLD or TLW and its reservation (03 R102, 09 R342, R343). -/
def semReserve (c : CoreId) (en : Bool) (p : Nat) : Op Unit := do
  if en then
    let k ← coreOf c
    trapIf (bit (vget k.str.sem p 0) 32) 0x33 5
    if fld (vget k.str.sem p 0) 0 16 ≤ vget k.str.resv p 0 then throw (.semWait p)
    modC c (fun k => { k with tile := { k.tile with waitPair := none }, str := { k.str with resv := vput k.str.resv p (vget k.str.resv p 0 + 1) } })

/-- The queue takes at most 16 instructions (03 R82). -/
def queueRoom (c : CoreId) : Op Unit := do
  let t ← tileOf c
  waitIf (decide (16 ≤ t.queue.length))

/-- A word with its 16-bit counter at lo increased by n, saturating (02 R66; 03 R125). -/
def bumpField (w : U64) (lo : Nat) (n : Nat) : U64 := setFld w lo 16 (min 0xFFFF (fld w lo 16 + n))

/-- Whether an incomplete TMMA4 reads tile register reg and has not fed its last row at a clk (03 R122). -/
def TileRegs.unfed (t : TileRegs) (reg now : Nat) : Bool :=
  t.queue.any (fun e => match e.op with
    | .tmma x => decide (reg / 4 = b01 x.tg) && !x.rows.isEmpty && (match x.fedAt (reg % 4) with
      | some e => decide (now < e)
      | none => true)
    | _ => false)

/-- Whether an earlier TLD has not finished writing tile register reg (03 R122). -/
def TileRegs.loading (t : TileRegs) (reg : Nat) : Bool :=
  t.queue.any (fun e => match e.op with
    | .tld r _ => e.sem.isSome && r == reg
    | _ => false)

/-- A write of a tile register waits until every earlier TMMA4 reading it has fed that register's last row (03 R122). -/
def waitFed (c : CoreId) (reg : Nat) : Op Unit := do
  let s ← get
  waitIf ((s.core c).tile.unfed reg (s.clkOf c))

/-- A read of a tile register waits until every earlier write to it has completed (03 R122). -/
def waitLoaded (c : CoreId) (reg : Nat) : Op Unit := do
  let t ← tileOf c
  waitIf (t.loading reg)

/-- Whether an incomplete TMMA4 stands in the queue; with zg, one that writes that group of accumulator tiles. -/
def TileRegs.adding (t : TileRegs) (zg : Option Bool) : Bool :=
  t.queue.any (fun e => match e.op with
    | .tmma x => zg.isNone || zg == some x.zg
    | _ => false)

/-- ZLD and ZMOV wait until every earlier TMMA4 has completed and take a fresh physical tile (03 R121). -/
def freshTile (c : CoreId) : Op Nat := do
  let t ← tileOf c
  waitIf (t.adding none)
  match t.pool with
  | p :: _ => return p
  | [] => throw .wait

/-- The operand cache and the reuse latches never supply a row older than the latest write to it (03 R124). -/
def TileRegs.written (t : TileRegs) (reg : Nat) : TileRegs :=
  let keep (o : Option (Nat × Nat)) : Option (Nat × Nat) := o.filter (fun x => x.1 != reg)
  { t with opCache := vmap keep t.opCache, latch := vmap keep t.latch }

/-- A tile register with new contents. -/
def TileRegs.setT (t : TileRegs) (reg : Nat) (x : TileReg) : TileRegs := ({ t with t := vput t.t reg x }).written reg

/-- ECC errors that reads of the tile state meet: single-bit ones are corrected and counted in CE, a double-bit one sets UE and raises
machine check (03 R84). -/
def eccError (c : CoreId) (s : State) (double : Bool) : State :=
  if double then machineCheck (s.modCore c (fun k => { k with tile := { k.tile with tustat := setBit k.tile.tustat 1 true } })) c 1 0
  else s.modCore c (fun k => { k with tile := { k.tile with tustat := bumpField k.tile.tustat 16 1 } })

/-- The ECC errors an instruction's reads of the tile state meet. -/
def eccErrors (c : CoreId) (es : List Bool) : Op Unit := modify (fun s => es.foldl (eccError c) s)

/-! ### TCFG (03 R87, R89 to R91) -/

/-- Whether a shape word may name a tile register's shape. -/
def tShapeOk (w : U64) : Bool :=
  let rows := fld w 0 9
  let rb := fld w 16 8
  let fmt := fld w 24 4
  fld w 9 7 == 0 && fld w 28 36 == 0 && decide (1 ≤ rows ∧ rows ≤ 256) && decide (fmt ≤ 0xB) && decide (4 ≤ rb ∧ rb ≤ 128)
    && rb % (if fmt = 0xB then 8 else 4) == 0

/-- Whether a shape word may name an accumulator tile's shape. -/
def zShapeOk (w : U64) : Bool :=
  let rows := fld w 0 9
  let zf := fld w 24 2
  fld w 9 15 == 0 && fld w 26 38 == 0 && decide (1 ≤ rows) && decide (zf ≤ 2) && decide (rows ≤ (if zf = 2 then 128 else 256))

/-- A tile register under a new shape: cleared when the shape changes (03 R91). -/
def TileReg.reshape (t : TileReg) (w : U64) : TileReg :=
  if t.shape = w then t else { shape := w, rows := [], sdef := 0, scale := [] }

/-- An accumulator tile under a new shape: zero-tagged when the shape changes (03 R91). -/
def ZTile.reshape (z : ZTile) (w : U64) : ZTile :=
  if setBit z.shape 26 false = w then z else { shape := setBit w 26 true, data := [] }

/-- TCFG's effect. -/
def tcfgBody (c : CoreId) (f : BitVec 26) : Op U64 := do
  needTile c
  illegalIf (fld f 0 18 != 0)
  let w ← rdD c (fld f 18 4)
  let i := fld f 22 3
  if bit f 25 then do
    trapIf (!zShapeOk w) 0x14
    modT c (fun t => { t with count := 0, z := vput t.z i ((vget t.z i ZTile.reset).reshape w) })
  else do
    trapIf (!tShapeOk w) 0x14
    modT c (fun t => ({ t with count := 0 }).setT i ((vget t.t i TileReg.reset).reshape w))
  nextPC c 4

/-- TCFG: major 0x24; it waits for all earlier tile work (03 R90). -/
def execTcfg (c : CoreId) (f : BitVec 26) (s : State) : Host.Outcome State Fault Refusal :=
  .next (issue c (wordOf 0x24 f) .wait (tcfgBody c f) s)

/-! ### TLD, TST, ZLD, ZST (03 R97 to R104) -/

/-- The fields of a major 0x20 word. -/
structure TileMem where
  reg : Nat
  base : U64
  stride : U64
  sem : Nat
  semen : Bool
  conv : Nat
  /-- the scale side moves as well, from here -/
  scv : Bool
  asc : U64

/-- Read a major 0x20 word and its prefix; plain forms allow neither SEMEN nor CONV (03 R97, R101). -/
def tileMemOf (c : CoreId) (p : Option (BitVec 26)) (isTld : Bool) (f : BitVec 26) : Op TileMem := do
  needTile c
  let h : BitVec 26 := p.getD 0
  let conv := fld f 9 2
  illegalIf (fld f 0 7 != 0 || fld h 0 21 != 0 || conv == 3 || (!isTld && (conv != 0 || bit f 11)))
  let base ← rdA c (fld f 19 4)
  let stride ← rdA c (fld f 15 4)
  let asc ← rdA c (fld h 22 4)
  return { reg := fld f 23 3, base := base, stride := stride, sem := fld f 12 3, semen := bit f 11, conv := conv,
           scv := bit h 21, asc := asc }

/-- The alignment checks of R101. -/
def TileMem.aligned (m : TileMem) : Op Unit := do
  trapIf (m.base.toNat % 4 != 0) 0x05 m.base
  trapIf (m.stride.toNat % 4 != 0) 0x05 m.stride
  trapIf (m.scv && m.asc.toNat % 4 != 0) 0x05 m.asc

/-- Rows of a tile register's shape. -/
def TileReg.nrows (t : TileReg) : Nat := fld t.shape 0 9
/-- Bytes of a row. -/
def TileReg.rbytes (t : TileReg) : Nat := fld t.shape 16 8
/-- Format code. -/
def TileReg.code (t : TileReg) : Nat := fld t.shape 24 4
/-- Scale bytes of a row: one for each 32 elements (03 R98). -/
def TileReg.sbytes (t : TileReg) : Nat := cdiv (t.rbytes * 8 / codeBits t.code) 32

/-- The bytes of a row of BF16 parts of the FP32 elements read (02 R74, 03 R100). -/
def convRow (conv : Nat) (bs : List Byte) : List Byte :=
  if conv = 0 then bs
  else
    let x := leNat bs
    (List.range (bs.length / 4)).flatMap (fun i =>
      let v := decodeF fp32 (bitsOf x (32 * i) 32)
      leBytes 2 (if conv = 1 then splitHi v else (splitLo true v).1))

/-- A tile register with every row, and with scv every scale row, replaced where a choice says so. -/
def TileReg.load (t : TileReg) (rows scales : List (List Byte)) (take : Nat → Bool) : TileReg :=
  let pick (r : Nat) : List Byte := if take r then nth [] rows r else spRead 0 t.rows (128 * r) t.rbytes
  { t with
    rows := (List.range t.nrows).flatMap (fun r => spFrom 0 (128 * r) (pick r)),
    scale := (List.range scales.length).foldl (fun q r => if take r then spSetAll t.sdef q (8 * r) (nth [] scales r) else q) t.scale }

/-- The rows a TLD reads. -/
def tldRows (m : TileMem) (t : TileReg) : List (U64 × Nat) :=
  (List.range t.nrows).map (fun r => (rowAddr m.base m.stride r, if m.conv = 0 then t.rbytes else 2 * t.rbytes))

/-- The scale rows a TLD with SCV reads. -/
def tldScales (m : TileMem) (t : TileReg) : List (U64 × Nat) :=
  if m.scv then (List.range t.nrows).map (fun r => (m.asc + n64 (8 * r), t.sbytes)) else []

/-- A row that can be read on its own. -/
def rowOr (c : CoreId) (s : State) (x : U64 × Nat) : Option (List Byte) :=
  match tileRead c x.1 x.2 s with
  | .ok bs _ => some bs
  | .error _ _ => none

/-- An abandoned TLD: each row whose reads do not fault holds its old or its new content, which is not defined (03 R103). -/
def tldAbandon (c : CoreId) (m : TileMem) (t : TileReg) (s : State) : State :=
  let rows := (tldRows m t).map (rowOr c s)
  let scales := (tldScales m t).map (rowOr c s)
  let new := t.load (rows.map (fun r => convRow m.conv (r.getD []))) (scales.map (fun r => r.getD []))
    (fun r => (nth none rows r).isSome && (!m.scv || (nth none scales r).isSome) && Config.freeNat (s.free + r) % 2 == 1)
  { s.modCore c (fun k => { k with tile := k.tile.setT m.reg new }) with free := s.free + 256 }

/-- Read the rows of a TLD; a fault abandons it (03 R103). -/
def tldRead (c : CoreId) (m : TileMem) (t : TileReg) : Op (List (List Byte) × List (List Byte)) := fun s =>
  let op : Op (List (List Byte) × List (List Byte)) := do
    let a ← readRows c (tldRows m t)
    let b ← readRows c (tldScales m t)
    return (a, b)
  match op s with
  | .ok x s1 => .ok x s1
  | .error (.trap cause subc info _) _ => .error (.trap cause subc info true) (tldAbandon c m t s)
  | .error e s1 => .error e s1

/-- TLD's effect (03 R98, R100 to R102, R122). DEDUCED (log 44): a poisoned pair raises 0x33 before any row is accessed, so ahead of a fault
of a row. -/
def tldBody (c : CoreId) (p : Option (BitVec 26)) (f : BitVec 26) : Op U64 := do
  let m ← tileMemOf c p true f
  queueRoom c
  let t := vget (← tileOf c).t m.reg TileReg.reset
  trapIf ((m.conv != 0 && t.code != 0) || (isMX t.code && !m.scv)) 0x14
  m.aligned
  waitFed c m.reg
  let k ← coreOf c
  trapIf (m.semen && bit (vget k.str.sem m.sem 0) 32) 0x33 5
  if m.semen ∧ fld (vget k.str.sem m.sem 0) 0 16 ≤ vget k.str.resv m.sem 0 then throw (.semWait m.sem)
  let x ← tldRead c m t
  semReserve c m.semen m.sem
  let q ← tileOf c
  if m.semen || !q.queue.isEmpty then enqueue c (.tld m.reg t) (if m.semen then some m.sem else none)
  modT c (fun k => k.setT m.reg (t.load (x.1.map (convRow m.conv)) x.2 (fun _ => true)))
  nextPC c (if p.isSome then 8 else 4)

/-- The bits of major 0x20 around OP. -/
def tileMemBits (hi : BitVec 17) (op : BitVec 2) (lo : BitVec 7) : BitVec 26 := hi ++ op ++ lo

/-- The word EINFO reports for a tile instruction with an optional prefix. -/
def tileWord (major : Nat) (p : Option (BitVec 26)) (f : BitVec 26) : U64 :=
  match p with
  | some h => wordOf 0x30 h
  | none => wordOf major f

/-- TLD: major 0x20, OP 00 (03 R98). -/
def execTld (c : CoreId) (p : Option (BitVec 26)) (hi : BitVec 17) (lo : BitVec 7) (s : State) : Host.Outcome State Fault Refusal :=
  .next (issue c (tileWord 0x20 p (tileMemBits hi 0 lo)) .tile (tldBody c p (tileMemBits hi 0 lo)) s)

/-- TST's effect (03 R84, R98, R101, R104). -/
def tstBody (c : CoreId) (p : Option (BitVec 26)) (f : BitVec 26) (ecc : List Bool) : Op U64 := do
  let m ← tileMemOf c p false f
  let t := vget (← tileOf c).t m.reg TileReg.reset
  trapIf (isMX t.code && !m.scv) 0x14
  m.aligned
  eccErrors c ecc
  storeRows c ((List.range t.nrows).map (fun r => (rowAddr m.base m.stride r, spRead 0 t.rows (128 * r) t.rbytes)) ++
    (if m.scv then (List.range t.nrows).map (fun r => (m.asc + n64 (8 * r), spRead t.sdef t.scale (8 * r) t.sbytes)) else []))
  nextPC c (if p.isSome then 8 else 4)

/-- TST: major 0x20, OP 01 (03 R98). -/
def execTst (c : TileReader) (p : Option (BitVec 26)) (hi : BitVec 17) (lo : BitVec 7) (s : State) :
    Host.Outcome State Fault Refusal :=
  .next (issue c.core (tileWord 0x20 p (tileMemBits hi 1 lo)) .wait (tstBody c.core p (tileMemBits hi 1 lo) c.ecc) s)

/-- Rows of an accumulator tile's shape. -/
def ZTile.nrows (z : ZTile) : Nat := fld z.shape 0 9
/-- ZFMT. -/
def ZTile.zfmt (z : ZTile) : Nat := fld z.shape 24 2
/-- Bytes of an element (03 R99). -/
def ZTile.ebytes (z : ZTile) : Nat := if z.zfmt = 2 then 8 else 4

/-- ZLD's effect: raw bits into a fresh tile (03 R99, R103, R121). -/
def zldBody (c : CoreId) (f : BitVec 26) : Op U64 := do
  let m ← tileMemOf c none false f
  queueRoom c
  let z := vget (← tileOf c).z m.reg ZTile.reset
  m.aligned
  let p ← freshTile c
  let rows ← readRows c ((List.range z.nrows).map (fun r => (rowAddr m.base m.stride r, 64 * z.ebytes)))
  let new : ZTile :=
    { shape := setBit z.shape 26 false,
      data := (List.range z.nrows).flatMap (fun r => spFrom 0 (64 * r) ((List.range 64).map (fun n =>
        n64 (bitsOf (leNat (nth [] rows r)) (8 * z.ebytes * n) (8 * z.ebytes))))) }
  enqueueBehind c (.zset m.reg z (vget (← tileOf c).zmap m.reg 0))
  modT c (fun t => t.mapTile m.reg new p)
  nextPC c 4

/-- ZLD: major 0x20, OP 10 (03 R99). -/
def execZld (c : CoreId) (hi : BitVec 17) (lo : BitVec 7) (s : State) : Host.Outcome State Fault Refusal :=
  .next (issue c (wordOf 0x20 (tileMemBits hi 2 lo)) .tile (zldBody c (tileMemBits hi 2 lo)) s)

/-- The bytes of row r of an accumulator tile: zeros when it is zero-tagged (03 R99). -/
def ZTile.rowBytes (z : ZTile) (r : Nat) : List Byte := (List.range 64).flatMap (fun n => leBytes z.ebytes (z.get r n).toNat)

/-- ZST's effect (03 R84, R99, R104). -/
def zstBody (c : CoreId) (f : BitVec 26) (ecc : List Bool) : Op U64 := do
  let m ← tileMemOf c none false f
  let z := vget (← tileOf c).z m.reg ZTile.reset
  m.aligned
  eccErrors c ecc
  storeRows c ((List.range z.nrows).map (fun r => (rowAddr m.base m.stride r, z.rowBytes r)))
  nextPC c 4

/-- ZST: major 0x20, OP 11 (03 R99). -/
def execZst (c : TileReader) (hi : BitVec 17) (lo : BitVec 7) (s : State) : Host.Outcome State Fault Refusal :=
  .next (issue c.core (wordOf 0x20 (tileMemBits hi 3 lo)) .wait (zstBody c.core (tileMemBits hi 3 lo) c.ecc) s)

/-! ### TLW (02 R38 to R46; 03 R105 to R109; 04 R142 to R144) -/

/-- With no array in use, a TMMA4 or TLW raises cause 0x15 without executing and UCOUNT counts it (02 R61). -/
def needArray (c : CoreId) : Op Unit := do
  let t ← tileOf c
  if t.inuse = 0 then
    modT c (fun t => { t with mgstat := bumpField t.mgstat 32 1 })
    throw (.trap 0x15 0 t.mgpc true)

/-- The weight bytes an EXP 01 source expands to: entries of the table bit for bit, a NaN entry canonical (04 R142, R144). -/
def tableEntry (bf : Bool) (code : Nat) (tab : List Byte) (q : Nat) : Nat :=
  if bf then
    let x := leNat ((tab.drop (2 * q)).take 2)
    if (decodeF bf16 x).isNan then bf16.qnan else x
  else
    let x := (nth 0 tab (2 * q)).toNat
    if (decodeCode code x).isNan then 0x7F else x

/-- The nibble of an INT4 source for K element e of column n (03 R105). -/
def int4At (bf : Bool) (src : Nat) (e n : Nat) : Nat :=
  if bf then bitsOf src (8 * (32 * e + n / 2) + 4 * (n % 2)) 4 else bitsOf src (8 * (64 * (e / 2) + n) + 4 * (e % 2)) 4

/-- The expanded code of K element e of column n (04 R142, R143). -/
def expandElem (exp : Nat) (bf : Bool) (code : Nat) (src : Nat) (par : List Byte) (e n : Nat) : Nat :=
  let q := int4At bf src e n
  if exp = 1 then tableEntry bf code par q
  else (expandSZ code (Int.ofNat q) (leNat ((par.drop (4 * (e / 32 * 64 + n))).take 4))).1

/-- The expanded weight source of an EXP 01 or 10 TLW: 64 rows of 128 bytes (03 R105). -/
def expandAll (exp : Nat) (bf : Bool) (code : Nat) (src : Nat) (par : List Byte) : List Byte :=
  (List.range 64).flatMap (fun k => (List.range 64).flatMap (fun n =>
    if bf then leBytes 2 (expandElem exp bf code src par k n)
    else [BitVec.ofNat 8 (expandElem exp bf code src par (2 * k) n), BitVec.ofNat 8 (expandElem exp bf code src par (2 * k + 1) n)]))

/-- Bytes AC addresses (03 R106, 04 R142, R143). -/
def tlwSide (exp wf : Nat) : Nat :=
  if exp = 1 then 32 else if exp = 2 then (if wf = 0 then 512 else 1024)
  else if isMX wf then (if fmtClass wf = 3 then 512 else 256) else 0

/-- A free weight staging buffer (03 R107, R108). -/
def freeBuf (c : CoreId) : Op Nat := do
  let t ← tileOf c
  match (List.range 2).find? (fun b => (vget t.bufs b none).isNone) with
  | some b => return b
  | none => throw .wait

/-- TLW's effect up to the end of its gather: it waits for a free staging buffer and fills it (03 R107 to R109). -/
def tlwBody (c : CoreId) (f : BitVec 26) : Op U64 := do
  needTile c
  let exp := fld f 10 2
  illegalIf (fld f 0 6 != 0 || exp == 3)
  queueRoom c
  needArray c
  let wf := fld f 12 4
  trapIf (decide (0xC ≤ wf) || (exp != 0 && !(wf == 0 || wf == 2 || wf == 3))) 0x14
  let ab ← rdA c (fld f 22 4)
  let ac ← rdA c (fld f 18 4)
  let side := tlwSide exp wf
  trapIf (ab.toNat % 128 != 0) 0x05 ab
  trapIf (side != 0 && ac.toNat % 64 != 0) 0x05 ac
  let b ← freeBuf c
  let semen := bit f 6
  semReserve c semen (fld f 7 3)
  let bs ← tileRead c ab (if exp = 0 then 8192 else if wf = 0 then 2048 else 4096)
  let par ← tileRead c ac side
  let t ← tileOf c
  let w : Weights :=
    { fmt := BitVec.ofNat 4 wf,
      bytes := spFrom 0 0 (if exp = 0 then bs else expandAll exp (wf == 0) wf (leNat bs) par),
      scales := if exp = 0 then spFrom 0 0 par else [],
      live := vget t.mcol (fld f 16 2) 0 }
  modT c (fun t => { t with bufs := vput t.bufs b (some w) })
  enqueue c (.tlw b false) (if semen then some (fld f 7 3) else none)
  nextPC c 4

/-- TLW: major 0x21 (03 R105). -/
def execTlw (c : CoreId) (f : BitVec 26) (s : State) : Host.Outcome State Fault Refusal :=
  .next (issue c (wordOf 0x21 f) .tile (tlwBody c f) s)

/-- The arrays of a core's quadrant are fed: after 1 µs without a row the quadrant ramps (14 R527). -/
def feedArrays (s : State) (c : CoreId) : State :=
  let g := s.gateOf c
  let idle := match g.fed with
    | some t => decide (1000 ≤ (s.hall.now - t).toNat)
    | none => true
  let g := if idle && g.step == 0 then { g with step := 1, stepEnd := s.hall.now + 250 } else g
  { s with pow := { s.pow with gates := vput s.pow.gates (coreQuad c) { g with fed := some s.hall.now } } }

/-- Mark the first undelivered TLW delivered when every TMMA4 before it is fed: the queue and the TLW's buffer. -/
def deliverFirst : List TileEntry → Option (List TileEntry × Nat)
  | [] => none
  | e :: r =>
    match e.op with
    | .tlw b false => some ({ e with op := .tlw b true } :: r, b)
    | .tmma x => if x.fed && !x.rep then (deliverFirst r).map (fun y => (e :: y.1, y.2)) else none
    | _ => (deliverFirst r).map (fun y => (e :: y.1, y.2))

/-- W0 of a TLW that can be delivered at a clk: after the last row of every earlier TMMA4 has entered its array, and after an earlier
delivery (02 R39, R40, R73). -/
def TileRegs.w0 (t : TileRegs) (now : Nat) : Nat :=
  t.queue.foldl (fun m e => match e.op with
    | .tmma x => if x.rows.isEmpty then m else (List.range 4).foldl (fun m q => max m ((x.fedAt q).getD 0)) m
    | _ => m) (t.feedAt.toList.foldl max (max now t.pathAt))

/-- The end of a TLW's delivery: rows may enter from W0 + 64 on, the tile count restarts, the staged weights, scales and column mask are in
effect in every array in use (02 R39, R40, R42, R43, R46, R70). -/
def TileRegs.deliver (t : TileRegs) (q : List TileEntry) (b w0 : Nat) : TileRegs :=
  { t with queue := q, w := (vget t.bufs b none).getD t.w, pathAt := w0 + 64, count := 0 }

/-- TLW_DELIVERY: from W0 the staged weights pass into the arrays over 64 clk, while earlier passes drain; a row of an earlier TMMA4 that
fails meanwhile has the TLW deliver again after the repeat (02 R40, R41; 03 R116). The ECC errors are those of the staging buffer (03 R84). -/
def execTlwDelivery (r : TileReader) (s : State) : Host.Outcome State Fault Refusal :=
  .next (
    let c := r.core
    let s1 := tileSync s c
    match deliverFirst (s1.core c).tile.queue with
    | some (q, b) =>
      if s1.gateOpen c && (s1.core c).ex.run != .halted then
        let w0 := (s1.core c).tile.w0 (s1.clkOf c)
        let s2 := r.ecc.foldl (eccError c) ((feedArrays s1 c).modCore c (fun k => { k with tile := k.tile.deliver q b w0 }))
        stepDone ((tileSyncAt (s2.toClk c (w0 + 64)) c (w0 + 64)).modCore c Core.settle) c
      else s
    | none => s)

/-! ### TMMA4 (02 R55 to R61, R70; 03 R110 to R116) -/

/-- The weights a TMMA4 accepted now uses: those of the latest TLW before it. -/
def TileRegs.weights (t : TileRegs) : Weights :=
  t.queue.foldl (fun w e => match e.op with
    | .tlw b _ => (vget t.bufs b none).getD w
    | _ => w) t.w

/-- R110's conditions. -/
def tmmaOk (t : TileRegs) (w : Weights) (tg zg : Bool) : Bool :=
  let t0 := vget t.t (4 * b01 tg) TileReg.reset
  (List.range 4).all (fun q => (vget t.t (4 * b01 tg + q) TileReg.reset).shape == t0.shape) && pairs t0.code w.fmt.toNat &&
    (List.range 4).all (fun q =>
      let z := vget t.z (4 * b01 zg + q) ZTile.reset
      z.nrows == t0.nrows && z.zfmt == zfmtOf (fmtClass w.fmt.toNat))

/-- The ECC errors among the faults of a TMMA4. -/
def eccOf (us : List Upset) : List Bool :=
  us.filterMap (fun u => match u with
    | .ecc d => some d
    | _ => none)

/-- What a TMMA4 accepted at a clk captures (03 R94, R110, R111). -/
def TileRegs.accept (t : TileRegs) (f : BitVec 26) (us : List Upset) (now : Nat) : Tmma :=
  let tg := bit f 25
  let live (r : Nat) : Bool := bit (vget t.mrow (4 * fld f 22 2 + r / 64) 0) (r % 64)
  { tg := tg, zg := bit f 24, rows := (List.range (vget t.t (4 * b01 tg) TileReg.reset).nrows).filter live,
    src := (List.range 4).map (fun q => vget t.t (4 * b01 tg + q) TileReg.reset), w := t.weights, us := us, at' := now, rep := false,
    feeds := List.replicate 4 { arr := 0, clk := none, phys := none, done := false } }

/-- Whether the youngest tile instruction is a TMMA4 that is fed. -/
def TileRegs.lastFed (t : TileRegs) : Bool :=
  match t.queue.getLast? with
  | some e => (match e.op with
    | .tmma x => x.fed
    | _ => false)
  | none => false

/-- TMMA4's acceptance: it is fed as soon as its operands and the arrays allow (02 R70, R71; 03 R110, R122). -/
def tmmaBody (c : CoreId) (f : BitVec 26) (us : List Upset) : Op U64 := do
  needTile c
  illegalIf (fld f 0 22 != 0)
  queueRoom c
  needArray c
  let s ← get
  let t := (s.core c).tile
  trapIf (!tmmaOk t t.weights (bit f 25) (bit f 24)) 0x14
  enqueue c (.tmma (t.accept f us (s.clkOf c))) none
  modT c (fun t => t.schedule (s.clkOf c) (s.gateOpen c))
  modify (fun s => if (s.core c).tile.lastFed then feedArrays s c else s)
  eccErrors c (eccOf us)
  nextPC c 4

/-- TMMA4: major 0x22 (03 R111). -/
def execTmma4 (c : CoreId) (f : BitVec 26) (us : List Upset) (s : State) : Host.Outcome State Fault Refusal :=
  .next (issue c (wordOf 0x22 f) .tile (tmmaBody c f us) s)

/-- The margin record of a completed TMMA4 whose repeat failed first with f2 (02 R51, R57, R58). -/
def marginRecord (t : TileRegs) (pc : U64) (rep : Bool) (f2 : Option MgFail) (bad : BitVec 4) (unchk : Nat) : TileRegs :=
  let t := { t with mgstat := bumpField t.mgstat 48 unchk }
  if !rep then t
  else match f2 with
  | none => { t with mgstat := setBit (bumpField t.mgstat 16 1) 1 true }
  | some y =>
    ({ t with mglog := mgLogWord y true, mgpc := pc, mgstat := setBit (bumpField t.mgstat 32 1) 0 true }).withSets t.weeded (t.suspect ||| bad)

/-- What the operand cache and the reuse latches hold after a TMMA4: the last row fed to each array (03 R124). -/
def TileRegs.latched (t : TileRegs) (x : Tmma) : TileRegs :=
  match x.rows.getLast? with
  | none => t
  | some r => x.feeds.zipIdx.foldl (fun t f =>
      { t with latch := vput t.latch f.1.arr (some (4 * b01 x.tg + f.2, r)), opCache := vput t.opCache f.1.arr (some (4 * b01 x.tg + f.2, r / 16)) }) t

/-- The TMMA4 at the head of the queue completes: its tiles not yet committed map to their fresh tiles, the margin is recorded, the arrays
take later tiles from their last feeds on; y is the first failing row of the repeat (02 R57, R58, R72; 03 R114). -/
def TileRegs.complete (t : TileRegs) (x : Tmma) (pc : U64) (rest : List TileEntry) (fs : List (Nat × MgFail)) (y : Option (Nat × MgFail)) : TileRegs :=
  let tol := fld t.mgctl 0 5
  let u := (x.commit t (fun _ => true)).2
  let u := { u with queue := rest, feedAt := (({ arr := u.feedAt, ok := true, done0 := 0, done1 := 0, pend := [] } : FeedAt).after x).arr }
  (marginRecord u pc x.rep (y.map (fun f => f.2)) (failSet fs) (x.unchecked tol x.rep)).latched x

/-- The TMMA4 at the head of a core's queue. -/
def Core.headTmma (k : Core) : Option (TileEntry × Tmma × List TileEntry) :=
  match k.tile.queue with
  | e :: rest => (match e.op with
    | .tmma x => some (e, x, rest)
    | _ => none)
  | [] => none

/-- Time passes until the TMMA4 at the head, if it is fed, has handed over its last row, with what happens in the arrays meanwhile. -/
def toDone (s : State) (c : CoreId) : State :=
  match (s.core c).headTmma with
  | some (_, x, _) => if x.fed then tileSyncAt (s.toClk c x.doneAt) c (max (s.clkOf c) x.doneAt) else s
  | none => s

/-- TMMA4_COMPLETE: the oldest accepted tile instruction, a TMMA4 that is fed, completes and retires, after its repeat where a row failed;
an unresolved fault with TRAP 1 raises cause 0x15 with the next instruction's address; with no array left the instructions behind it
are issued again, and raise cause 0x15 there (02 R55 to R61, R72; 03 R114). -/
def execTmma4Complete (c : CoreId) (s : State) : Host.Outcome State Fault Refusal :=
  .next (
    let s1 := if (s.core c).ex.run == .halted then s else toDone (toDone (tileSync s c) c) c
    match (s1.core c).headTmma with
    | some (e, x, rest) =>
      if x.fed && (s1.core c).ex.run != .halted then
        let fs := if x.rep then x.fails (fld (s1.core c).tile.mgctl 0 5) true else []
        let y := firstFail fs s1.free
        let s2 := (feedArrays s1 c).modCore c (fun k =>
          Core.settle { k with tile := k.tile.complete x e.pc rest fs y, ex := { k.ex with instret := k.ex.instret + 1 } })
        let s2 := { s2 with free := s2.free + 1 }
        if y.isSome && bit (s2.core c).tile.mgctl 8 then raiseSync (discardTiles s2 c) c 0x15 0 (s2.core c).tile.mgpc (e.pc + 4)
        else if (s2.core c).tile.inuse = 0 then
          (match (s2.core c).tile.queue with
           | n :: _ => (discardTiles s2 c).modCore c (fun k => k.setBank (fun b => { b with pc := n.pc }))
           | [] => stepDone s2 c)
        else stepDone (tileSync s2 c) c
      else s
    | none => s)

/-- TLD_COMPLETE: the oldest accepted tile instruction, a TLD or a delivered TLW with SEMEN, completes: its reserved unit leaves
FILL and FREE gains one (03 R102). -/
def execTldComplete (c : CoreId) (s : State) : Host.Outcome State Fault Refusal :=
  .next (
    let s := tileSync s c
    match (s.core c).tile.queue with
    | e :: _ =>
      (match e.sem with
       | some p =>
         if ({ e with sem := none } : TileEntry).complete && (s.core c).ex.run != .halted then
           stepDone (s.modCore c (fun k =>
             let k := k.modPair p (fun w => pairAdd (setFld w 0 16 (fld w 0 16 - 1)) true 1)
             Core.settle { k with
               str := { k.str with resv := vput k.str.resv p (vget k.str.resv p 0 - 1) },
               tile := { k.tile with queue := match k.tile.queue with
                 | x :: r => { x with sem := none } :: r
                 | [] => [] } })) c
         else s
       | none => s)
    | [] => s)

/-! ### TSTZ (03 R117, R118) -/

/-- What converts the elements of one TSTZ. -/
structure Tstz where
  src : Nat
  fmt : Nat
  sr : Bool
  nonsat : Bool
  step : U64
  base : U64
  chan : Nat
  scale : Option Nat
  split : Nat

/-- The mode of the element at row r, column n (04 R140). -/
def Tstz.mode (x : Tstz) (r n : Nat) : RMode := convMode x.sr x.step x.chan (x.base + n64 (r * 64 + n))

/-- An element outside an MX block: stored bits and class (03 R117, 04 R137). -/
def Tstz.elem (x : Tstz) (r n : Nat) (v : FV) : Nat × CvClass :=
  let u := scaled x.scale v
  match x.split with
  | 0 => convert x.fmt x.nonsat (x.mode r n) u
  | 1 => convert 0 false .rne u
  | _ => splitLo x.nonsat u

/-- A line of elements in storage order: block scales of an MX format, and stored bits with classes. -/
def Tstz.line (x : Tstz) (es : List (Nat × Nat × FV)) : List Byte × List (Nat × CvClass) :=
  if isMX x.fmt then
    let bl := (List.range (es.length / 32)).map (fun b =>
      let ch := (es.drop (32 * b)).take 32
      mxBlock x.fmt (ch.map (fun e => scaled x.scale e.2.2)) (ch.map (fun e => x.mode e.1 e.2.1)))
    (bl.map (fun b => BitVec.ofNat 8 b.1), bl.flatMap (fun b => b.2))
  else ([], es.map (fun e => x.elem e.1 e.2.1 e.2.2))

/-- Elements of a width packed into bytes, the first in the lowest bits; a last half byte's upper nibble is a free value. -/
def packElems (w free : Nat) (es : List Nat) : List Byte :=
  let x := es.foldr (fun e a => e % 2 ^ w + a <<< w) 0
  let n := es.length * w
  leBytes (cdiv n 8) (x + (if n % 8 = 0 then 0 else (Config.freeNat free % 16) <<< n))

/-- Where the bytes of line i go: LAYOUT 0 and 1 one run, 2 the chunks of a folio block (03 R118, 10 R364). -/
def tstzPlace (layout : Nat) (ab stride : U64) (i : Nat) (bs : List Byte) : List (U64 × List Byte) :=
  if layout = 2 then
    let n := max 1 (bs.length / 128)
    let bs := bs ++ List.replicate (128 - bs.length) 0
    (List.range n).map (fun ch => (rowAddr ab stride (i / 64) + n64 (ch * 8192 + i % 64 * 128), (bs.drop (128 * ch)).take 128))
  else [(rowAddr ab stride i, bs)]

/-- TSTZ's effect; a zero-tagged tile stores zeros whatever the scale (03 R84, R101, R104, R117, R118). -/
def tstzBody (c : CoreId) (p : Option (BitVec 26)) (f : BitVec 26) (ecc : List Bool) : Op U64 := do
  needTile c
  let h : BitVec 26 := p.getD 0
  let layout := fld f 11 2
  let split := fld h 7 2
  illegalIf (fld f 0 11 != 0 || fld h 0 3 != 0 || layout == 3 || split == 3)
  let k ← coreOf c
  let z := vget k.tile.z (fld f 23 3) ZTile.reset
  let cls := fld f 13 2
  let src := zcode z.zfmt
  let out := if bit h 19 then (fld h 15 4, false) else classOut k.num.mode k.num.prof cls src
  let fmt := out.1
  let chan := fld h 20 6
  let w := codeBits fmt
  trapIf (!canProduce src fmt || (split != 0 && fmt != 0) || (layout == 1 && w == 64)
    || (layout == 1 && isMX fmt && z.nrows % 32 != 0) || (layout == 2 && z.nrows % 64 != 0)) 0x14
  let ab ← rdA c (fld f 19 4)
  let stride ← rdA c (fld f 15 4)
  let asc ← rdA c (fld h 3 4)
  let scales := isMX fmt && p.isSome
  trapIf (ab.toNat % 4 != 0) 0x05 ab
  trapIf (stride.toNat % 4 != 0) 0x05 stride
  trapIf (scales && asc.toNat % 4 != 0) 0x05 asc
  let x : Tstz := { src := src, fmt := fmt, sr := out.2, nonsat := k.nonsat, step := k.num.srStep, base := k.num.srBase, chan := chan,
                    scale := if bit h 9 && !z.tagged then some (k.readF (fld h 10 5) 32) else none, split := split }
  let at' (r n : Nat) : Nat × Nat × FV := (r, n, decodeCode src (z.get r n).toNat)
  let lines := if layout = 1 then (List.range 64).map (fun n => (List.range z.nrows).map (fun r => at' r n))
    else (List.range z.nrows).map (fun r => (List.range 64).map (fun n => at' r n))
  let outs := lines.map x.line
  eccErrors c ecc
  let free := (← get).free
  useFree 64
  storeRows c ((List.range outs.length).flatMap (fun i =>
    let o := nth ([], []) outs i
    tstzPlace layout ab stride i (packElems w (free + i) (o.2.map (fun e => e.1))) ++
      (if scales then [(asc + n64 (8 * i), o.1)] else [])))
  let cnt := if z.tagged then Counts.zero else
    (List.zip lines outs).foldl (fun a lo => (List.zip lo.1 lo.2.2).foldl (fun a e => a.add (Counts.elem e.2.2 e.1.2.2)) a) Counts.zero
  modT c (fun t => { t with tamax := n64 (cnt.amax.toNat + chan <<< 32 + 1 <<< 38) })
  countConversion c cnt fmt cls chan
  nextPC c (if p.isSome then 8 else 4)

/-- TSTZ: major 0x23 with an optional prefix 0x30 (03 R117). -/
def execTstz (c : TileReader) (p : Option (BitVec 26)) (f : BitVec 26) (s : State) : Host.Outcome State Fault Refusal :=
  .next (issue c.core (tileWord 0x23 p f) .wait (tstzBody c.core p f c.ecc) s)

/-! ### TZERO, TMOV, ZMOV (03 R120 to R122) -/

/-- Major 0x25 (03 R84, R97, R120 to R122). -/
def tileMoveBody (c : CoreId) (sub : Nat) (f : BitVec 23) (ecc : List Bool) : Op U64 := do
  needTile c
  let dst := fld f 20 3
  let src := fld f 17 3
  illegalIf (fld f 0 17 != 0 || decide (3 < sub) || (decide (sub ≤ 1) && src != 0))
  queueRoom c
  let t ← tileOf c
  let ts := vget t.t src TileReg.reset
  let td := vget t.t dst TileReg.reset
  let zs := vget t.z src ZTile.reset
  let zd := vget t.z dst ZTile.reset
  let phys := vget t.zmap dst 0
  match sub with
  | 0 => do
    waitFed c dst
    enqueueBehind c (.tset dst td)
    modT c (fun t => t.setT dst { td with rows := [], sdef := 0x7F, scale := [] })
  | 1 => do
    waitIf (t.adding (some (decide (4 ≤ dst))))
    enqueueBehind c (.zset dst zd phys)
    modT c (fun t => { t with z := vput t.z dst { shape := setBit zd.shape 26 true, data := [] } })
  | 2 => do
    trapIf (ts.shape != td.shape) 0x14
    waitLoaded c src
    waitFed c dst
    eccErrors c ecc
    enqueueBehind c (.tset dst td)
    modT c (fun t => t.setT dst ts)
  | _ => do
    trapIf (zs.nrows != zd.nrows || zs.zfmt != zd.zfmt) 0x14
    let p ← freshTile c
    eccErrors c ecc
    enqueueBehind c (.zset dst zd phys)
    modT c (fun t => t.mapTile dst zs p)
  nextPC c 4

/-- Issue a word of major 0x25. -/
def issueMove (c : CoreId) (sub : Nat) (f : BitVec 23) (ecc : List Bool) (s : State) : State :=
  issue c (n64 (0x25 <<< 26 + sub <<< 23 + f.toNat)) .tile (tileMoveBody c sub f ecc) s

/-- TZERO_T: major 0x25, SUB 000 (03 R120). -/
def execTzeroT (c : CoreId) (f : BitVec 23) (s : State) : Host.Outcome State Fault Refusal := .next (issueMove c 0 f [] s)
/-- TZERO_Z: major 0x25, SUB 001 (03 R120). -/
def execTzeroZ (c : CoreId) (f : BitVec 23) (s : State) : Host.Outcome State Fault Refusal := .next (issueMove c 1 f [] s)
/-- TMOV: major 0x25, SUB 010 (03 R120). -/
def execTmov (c : TileReader) (f : BitVec 23) (s : State) : Host.Outcome State Fault Refusal := .next (issueMove c.core 2 f c.ecc s)
/-- ZMOV: major 0x25, SUB 011 (03 R120). -/
def execZmov (c : TileReader) (f : BitVec 23) (s : State) : Host.Outcome State Fault Refusal := .next (issueMove c.core 3 f c.ecc s)

end Sys2Proof.Machine
end

