-- ==== Sys2Proof/Machine/Shelf.lean ====
section
/-! DEFINITION. Machine/Shelf.lean: shelf lists: the block descriptor, the order of its elements, its granules, where each
element is written, spans, and the checks of a block (09 R324 to R327, R329 to R332, R336, R351; 10 R363, R369 to R372). -/

namespace Sys2Proof.Machine

/-- A block descriptor: 16 words (09 R325). -/
abbrev Desc := List U64

/-- Word i of a descriptor. -/
def Desc.w (d : Desc) (i : Nat) : U64 := nth 0 d i
/-- SRC. -/
def Desc.src (d : Desc) : U64 := Desc.w d 0
/-- DST. -/
def Desc.dst (d : Desc) : U64 := Desc.w d 1
/-- LEN0. -/
def Desc.len0 (d : Desc) : Nat := fld (Desc.w d 2) 0 24
/-- SRBASE. -/
def Desc.srbase (d : Desc) : Nat := fld (Desc.w d 2) 24 40
/-- CNT1 to CNT4. -/
def Desc.cnt (d : Desc) (i : Nat) : Nat := fld (Desc.w d 3) (16 * (i - 1)) 16
/-- SSTR1 to SSTR4. -/
def Desc.sstr (d : Desc) (i : Nat) : U64 := Desc.w d (3 + i)
/-- DSTR1 to DSTR4. -/
def Desc.dstr (d : Desc) (i : Nat) : U64 := Desc.w d (7 + i)
/-- SFMT. -/
def Desc.sfmt (d : Desc) : Nat := fld (Desc.w d 12) 0 5
/-- CLASS. -/
def Desc.cls (d : Desc) : Nat := fld (Desc.w d 12) 10 2
/-- CHAN. -/
def Desc.chan (d : Desc) : Nat := fld (Desc.w d 12) 12 6
/-- OVR. -/
def Desc.ovr (d : Desc) : Bool := bit (Desc.w d 12) 18
/-- SCEN. -/
def Desc.scen (d : Desc) : Bool := bit (Desc.w d 12) 19
/-- SPLIT. -/
def Desc.split (d : Desc) : Nat := fld (Desc.w d 12) 20 2
/-- EXPN. -/
def Desc.expn (d : Desc) : Bool := bit (Desc.w d 12) 22
/-- LAYOUT. -/
def Desc.layout (d : Desc) : Nat := fld (Desc.w d 12) 23 2
/-- OVW. -/
def Desc.ovw (d : Desc) : Bool := bit (Desc.w d 12) 25
/-- SCALE. -/
def Desc.scale (d : Desc) : Nat := fld (Desc.w d 12) 32 32
/-- PAIR. -/
def Desc.pair (d : Desc) : Nat := fld (Desc.w d 13) 0 3
/-- FREEW. -/
def Desc.freew (d : Desc) : Bool := bit (Desc.w d 13) 3
/-- FILLS. -/
def Desc.fills (d : Desc) : Bool := bit (Desc.w d 13) 4
/-- BID. -/
def Desc.bid (d : Desc) : Nat := fld (Desc.w d 13) 5 4
/-- BWAIT. -/
def Desc.bwait (d : Desc) : Bool := bit (Desc.w d 13) 9
/-- BARRIVE. -/
def Desc.barrive (d : Desc) : Bool := bit (Desc.w d 13) 10
/-- BGEN. -/
def Desc.bgen (d : Desc) : Nat := fld (Desc.w d 13) 16 16
/-- AUX. -/
def Desc.aux (d : Desc) : U64 := Desc.w d 14
/-- AUX2. -/
def Desc.aux2 (d : Desc) : U64 := Desc.w d 15

/-- The block's destination format and whether SR rounds it, under a captured mode and profile (09 R330). -/
def Desc.out (d : Desc) (mode prof : U64) : Nat × Bool :=
  if Desc.ovr d then (fld (Desc.w d 12) 5 5, false) else classOut mode prof (Desc.cls d) (Desc.sfmt d)

/-- The packed and the one-per-byte form of one MXFP6 format (09 R330). -/
def fp6Twin (a b : Nat) : Bool := (a == 0x10 && b == 6) || (a == 6 && b == 0x10) || (a == 0x11 && b == 7) || (a == 7 && b == 0x11)

/-- Whether a block is a copy (09 R330). -/
def Desc.copy (d : Desc) (df : Nat) : Bool :=
  (Desc.sfmt d == df || fp6Twin (Desc.sfmt d) df) && !Desc.scen d && Desc.split d == 0 && !Desc.expn d

/-- Whether a stream format code is not reserved (09 R330). -/
def strFmtOk (n : Nat) : Bool := decide (n ≤ 0xD) || n == 0x10 || n == 0x11

/-- Bits of a source element. -/
def Desc.sb (d : Desc) : Nat := codeBits (Desc.sfmt d)
/-- Elements of a dimension-0 run. -/
def Desc.n0 (d : Desc) : Nat := Desc.len0 d * 8 / Desc.sb d
/-- Runs of a block. -/
def Desc.runs (d : Desc) : Nat := Desc.cnt d 1 * Desc.cnt d 2 * Desc.cnt d 3 * Desc.cnt d 4
/-- Elements of a block. -/
def Desc.elems (d : Desc) : Nat := Desc.n0 d * Desc.runs d

/-- The indices i1 to i4 of a run (09 R326). -/
def Desc.idx (d : Desc) (r : Nat) : Nat × Nat × Nat × Nat :=
  (r % Desc.cnt d 1, r / Desc.cnt d 1 % Desc.cnt d 2, r / (Desc.cnt d 1 * Desc.cnt d 2) % Desc.cnt d 3,
   r / (Desc.cnt d 1 * Desc.cnt d 2 * Desc.cnt d 3))

/-- The source address of a run (09 R326). -/
def Desc.srun (d : Desc) (r : Nat) : U64 :=
  let i := Desc.idx d r
  Desc.src d + n64 i.1 * Desc.sstr d 1 + n64 i.2.1 * Desc.sstr d 2 + n64 i.2.2.1 * Desc.sstr d 3 + n64 i.2.2.2 * Desc.sstr d 4

/-- Where element j of run r is written: a byte address and a bit within it, for elements of db bits (09 R326, 10 R363, R369,
R370). -/
def Desc.place (d : Desc) (db r j : Nat) : U64 × Nat :=
  let i := Desc.idx d r
  let hi := n64 i.2.1 * Desc.dstr d 2 + n64 i.2.2.1 * Desc.dstr d 3 + n64 i.2.2.2 * Desc.dstr d 4
  match Desc.layout d with
  | 1 => (Desc.dst d + n64 j * Desc.dstr d 1 + n64 (i.1 * (db / 8)) + hi, 0)
  | 2 =>
    let b := j * db / 8
    let ch := cdiv (Desc.n0 d * db / 8) 128
    (Desc.dst d + n64 ((r / 64 * ch + b / 128) * 8192 + r % 64 * 128 + b % 128), j * db % 8)
  | _ => (Desc.dst d + n64 i.1 * Desc.dstr d 1 + hi + n64 (j * db / 8), j * db % 8)

/-- The granules of a block in order: run, first byte and end byte within the run (09 R327). -/
def Desc.granules (d : Desc) : List (Nat × Nat × Nat) :=
  (List.range (Desc.runs d)).flatMap (fun r =>
    let a := (Desc.srun d r).toNat % 128
    (List.range (cdiv (a + Desc.len0 d) 128)).map (fun j => (r, if j = 0 then 0 else 128 * j - a, min (Desc.len0 d) (128 * (j + 1) - a))))

/-- The elements of a granule within its run: first and end. -/
def Desc.granElems (d : Desc) (g : Nat × Nat × Nat) : Nat × Nat := (cdiv (8 * g.2.1) (Desc.sb d), cdiv (8 * g.2.2) (Desc.sb d))

/-! ### Spans (09 R336) -/

/-- The lowest byte and the end of what strides and counts reach from a base. -/
def spanOf (base : U64) (dims : List (Nat × U64)) (bytes : Nat) : Int × Int :=
  (dims.foldl (fun a x => a + min 0 (Int.ofNat (x.1 - 1) * x.2.toInt)) (Int.ofNat base.toNat),
   dims.foldl (fun a x => a + max 0 (Int.ofNat (x.1 - 1) * x.2.toInt)) (Int.ofNat base.toNat) + Int.ofNat bytes)

/-- The span of a block's source. -/
def Desc.srcSpan (d : Desc) : Int × Int :=
  spanOf (Desc.src d) ((rng 1 4).map (fun i => (Desc.cnt d i, Desc.sstr d i))) (Desc.len0 d)

/-- The span of a block's destination. -/
def Desc.dstSpan (d : Desc) (db : Nat) : Int × Int :=
  match Desc.layout d with
  | 1 => spanOf (Desc.dst d) ([(Desc.n0 d, Desc.dstr d 1), (Desc.cnt d 1, n64 (db / 8))] ++
      (rng 2 3).map (fun i => (Desc.cnt d i, Desc.dstr d i))) (db / 8)
  | 2 =>
    let row := Desc.n0 d * db / 8
    let ch := cdiv row 128
    let last := (((Desc.runs d - 1) / 64 * ch + (ch - 1)) * 8192 + (Desc.runs d - 1) % 64 * 128 + (row - 1) % 128) + 1
    (Int.ofNat (Desc.dst d).toNat, Int.ofNat ((Desc.dst d).toNat + last))
  | _ => spanOf (Desc.dst d) ((rng 1 4).map (fun i => (Desc.cnt d i, Desc.dstr d i))) (Desc.n0 d * db / 8)

/-- The bytes of AUX a block reads: none when it reads none (09 R332). -/
def Desc.auxLen (d : Desc) : Nat :=
  if Desc.expn d then 4 * cdiv (Desc.elems d) 32 else if isMX (Desc.sfmt d) then cdiv (Desc.elems d) 32 else 0

/-- The bytes of AUX2 a block writes (09 R332). -/
def Desc.aux2Len (d : Desc) (df : Nat) : Nat := if isMX df then cdiv (Desc.elems d) 32 else 0

/-- Whether two spans share a byte. -/
def spansMeet (a b : Int × Int) : Bool := decide (a.1 < b.2) && decide (b.1 < a.2)

/-- Whether two numbers of a list lie closer than w. -/
def anyCloser (w : Nat) (l : List Nat) : Bool :=
  let s := sortBy (fun a b => decide (a ≤ b)) l
  (s.zip (s.drop 1)).any (fun p => decide (p.2 - p.1 < w))

/-- Whether a block's destination aliases: two elements write the same bit (09 R351). -/
def Desc.aliases (d : Desc) (db : Nat) : Bool :=
  anyCloser db ((List.range (Desc.elems d)).map (fun e =>
    let p := Desc.place d db (e / Desc.n0 d) (e % Desc.n0 d)
    p.1.toNat * 8 + p.2))

/-- Whether a block is an exact in-place square transposition (10 R372). -/
def Desc.square (d : Desc) (df : Nat) : Bool :=
  let n := Desc.n0 d
  Desc.layout d == 1 && Desc.src d == Desc.dst d && Desc.copy d df && (Desc.sb d == 8 || Desc.sb d == 16 || Desc.sb d == 32)
    && Desc.cnt d 1 == n && n % 64 == 0 && Desc.dstr d 1 == Desc.sstr d 1
    && decide (Int.ofNat (Desc.len0 d) ≤ (Desc.sstr d 1).toInt)
    && (rng 2 3).all (fun i => Desc.dstr d i == Desc.sstr d i)
    && !anyCloser (Desc.len0 d) ((List.range (Desc.runs d)).map (fun r => (Desc.srun d r).toNat))

/-! ### The checks of a block (09 R329) -/

/-- Bits R325 does not show are 0. -/
def Desc.clean (d : Desc) : Bool := fld (Desc.w d 12) 26 6 == 0 && fld (Desc.w d 13) 11 5 == 0 && fld (Desc.w d 13) 32 32 == 0

/-- Whether the format combination is one that R330 to R332 and R151 permit. -/
def Desc.fmtOk (d : Desc) (df : Nat) : Bool :=
  let sf := Desc.sfmt d
  strFmtOk sf && strFmtOk df && Desc.split d != 3 && Desc.layout d != 3 &&
    (!Desc.scen d || (sf != 0xA && sf != 0xD)) && (Desc.split d == 0 || (sf == 0xC && df == 0)) &&
    (!Desc.expn d || (sf == 0xA && (df == 0 || df == 2 || df == 3))) &&
    (!isMX df || (Desc.layout d == 0 && Desc.elems d % 32 == 0)) && (!isMX sf || Desc.elems d % 32 == 0) &&
    (Desc.ovr d || Desc.copy d df || canProduce sf df)

/-- Whether a run has whole bytes on both sides, and whole groups of four in the packed 6-bit forms. -/
def Desc.runOk (d : Desc) (df : Nat) : Bool :=
  Desc.len0 d * 8 % Desc.sb d == 0 && Desc.n0 d * codeBits df % 8 == 0 &&
    ((Desc.sb d != 6 && codeBits df != 6) || Desc.n0 d % 4 == 0)

/-- A transposing block has elements of 1, 2 or 4 bytes (10 R369); a folio block has no destination strides (10 R370). -/
def Desc.layoutOk (d : Desc) (df : Nat) : Bool :=
  let z (b : Nat) : Bool := b == 8 || b == 16 || b == 32
  match Desc.layout d with
  | 1 => z (Desc.sb d) && z (codeBits df)
  | 2 => (rng 1 4).all (fun i => Desc.dstr d i == 0)
  | _ => true

/-- Reason 0x14 of R329. -/
def Desc.bad14 (d : Desc) (df : Nat) : Bool :=
  !Desc.clean d || (rng 1 4).any (fun i => Desc.cnt d i == 0) || Desc.len0 d == 0 || !Desc.fmtOk d df || !Desc.runOk d df || !Desc.layoutOk d df

/-- Reason 0x05 of R329: the misaligned address, when one is. -/
def Desc.bad05 (d : Desc) (df : Nat) : Bool :=
  let ss := max 1 (Desc.sb d / 8)
  let ds := max 1 (codeBits df / 8)
  (Desc.src d).toNat % ss != 0 || (Desc.dst d).toNat % ds != 0 || (rng 1 4).any (fun i => (Desc.sstr d i).toNat % ss != 0)
    || (rng 1 4).any (fun i => (Desc.dstr d i).toNat % ds != 0) || (Desc.expn d && (Desc.aux d).toNat % 4 != 0)

/-- Whether an address is global with a SPACE other than 0, or names device registers; at' gives the local physical address an address
names, if it names one. -/
def badSpace (at' : U64 → Option Nat) (a : U64) : Bool := (bit a 63 && fld a 60 3 != 0) || (at' a).any isDevice

/-- The addresses a block names and uses. -/
def Desc.addrs (d : Desc) (df : Nat) : List U64 :=
  [Desc.src d, Desc.dst d] ++ (if Desc.auxLen d = 0 then [] else [Desc.aux d]) ++ (if Desc.aux2Len d df = 0 then [] else [Desc.aux2 d])

/-- The addresses a block's elements and block scales are written at. -/
def Desc.writes (d : Desc) (df : Nat) : List U64 :=
  (List.range (Desc.elems d)).flatMap (fun e =>
    let p := Desc.place d (codeBits df) (e / Desc.n0 d) (e % Desc.n0 d)
    (List.range (cdiv (p.2 + codeBits df) 8)).map (fun i => p.1 + n64 i)) ++
  (List.range (Desc.aux2Len d df)).map (fun i => Desc.aux2 d + n64 i)

/-- The addresses a block's runs, their last bytes, and the bytes of AUX are read at. -/
def Desc.readsAt (d : Desc) : List U64 :=
  (List.range (Desc.runs d)).flatMap (fun r => [Desc.srun d r, Desc.srun d r + n64 (Desc.len0 d - 1)]) ++
  (List.range (Desc.auxLen d)).map (fun i => Desc.aux d + n64 i)

/-- The reason a block is inconsistent, with the address at fault when the rule names one; at' gives the local physical address an address
names (09 R329, 10 R371). -/
def Desc.reason (d : Desc) (df : Nat) (at' : U64 → Option Nat) : Option (Nat × Option U64) :=
  if Desc.bad14 d df then some (0x14, none)
  else if Desc.bad05 d df then
    some (0x05, if (Desc.src d).toNat % max 1 (Desc.sb d / 8) ≠ 0 then some (Desc.src d)
      else if (Desc.dst d).toNat % max 1 (codeBits df / 8) ≠ 0 then some (Desc.dst d) else none)
  else match (Desc.addrs d df ++ Desc.readsAt d ++ Desc.writes d df).find? (badSpace at') with
  | some a => some (0x0A, some a)
  | none => if (Desc.writes d df).any (fun a => (at' a).any (fun pa => hitsLedger pa 1)) then some (0x09, none) else none

/-- An overlapping transposing block other than the in-place square (10 R371). -/
def Desc.badOverlap (d : Desc) (df : Nat) : Bool :=
  Desc.layout d == 1 && spansMeet (Desc.srcSpan d) (Desc.dstSpan d (codeBits df)) && !Desc.square d df

/-! ### Holdings (09 R335, R336) -/

/-- Whether one holding that grants reading (or writing) to a ring holds a span. -/
def holdOk (r : StreamRegs) (ring : Nat) (wr : Bool) (sp : Int × Int) : Bool :=
  (List.range 8).any (fun n =>
    let b := vget r.holdBase n 0
    let l := vget r.holdLim n 0
    bit b 0 && bit b (if wr then 2 else 1) && decide (ring ≤ fld b 3 2) && decide (Int.ofNat (fld b 12 36 <<< 12) ≤ sp.1)
      && decide (sp.2 ≤ Int.ofNat (fld l 12 36 <<< 12)))

/-- A span in a holding, or a global one at ring 1. -/
def spanHeld (r : StreamRegs) (ring : Nat) (wr : Bool) (a : U64) (sp : Int × Int) : Bool := (bit a 63 && ring == 1) || holdOk r ring wr sp

/-- A span of n bytes from an address. -/
def lineSpan (a : U64) (n : Nat) : Int × Int := (Int.ofNat a.toNat, Int.ofNat (a.toNat + n))

/-- The reason a VALIDATED stream of ring 1, 2 or 3 is rejected for a block (09 R336). -/
def Desc.rejected (d : Desc) (df : Nat) (at' : U64 → Option Nat) (r : StreamRegs) (ring : Nat) : Option Nat :=
  match Desc.reason d df at' with
  | some x => some x.1
  | none =>
    if 2 ≤ ring ∧ (Desc.addrs d df).any (fun a => bit a 63) then some 0x0A
    else if !spanHeld r ring false (Desc.src d) (Desc.srcSpan d)
        || (Desc.auxLen d != 0 && !spanHeld r ring false (Desc.aux d) (lineSpan (Desc.aux d) (Desc.auxLen d))) then some 0x08
    else if !spanHeld r ring true (Desc.dst d) (Desc.dstSpan d (codeBits df))
        || (Desc.aux2Len d df != 0 && !spanHeld r ring true (Desc.aux2 d) (lineSpan (Desc.aux2 d) (Desc.aux2Len d df))) then some 0x09
    else if Desc.aliases d (codeBits df) && !Desc.ovw d then some 0x40
    else if Desc.badOverlap d df then some 0x41 else none

end Sys2Proof.Machine
end

