-- ==== Sys2Proof/Machine/Streams.lean ====
section
/-! DEFINITION. Machine/Streams.lean: stream engines, semaphore pairs and module barriers: their instructions and what the
engines do on their own (09 R320 to R362). -/

namespace Sys2Proof.Machine

/-- Change an engine of a core. -/
def modE (c : CoreId) (e : Nat) (f : StreamEng → StreamEng) : Op Unit := modC c (fun k => k.modEng e f)
/-- Engine e of a core. -/
def engOf (c : CoreId) (e : Nat) : Op StreamEng := do return (← coreOf c).eng e

/-! ### Memory of an engine (09 R333, R334, R348, R353) -/

/-- The task a running stream belongs to (08 R310). -/
def Core.engTask (k : Core) (x : StreamEng) : Option Nat :=
  let t := fld x.stat 5 2
  if bit x.stat 4 && (k.task t).st != .free && (k.task t).ord == x.tord then some t else none

/-- An engine at work: its core, its number, and the task its work belongs to, which stays the same while it works: what it still writes
for a task aborted meanwhile is discarded (08 R314, 09 R358). -/
structure Worker where
  c : CoreId
  e : Nat
  t : Option Nat
deriving DecidableEq, Repr

/-- An engine at work for its stream as it stands. -/
def State.worker (s : State) (c : CoreId) (e : Nat) : Worker := { c := c, e := e, t := (s.core c).engTask ((s.core c).eng e) }

/-- Whether a stream's addresses are physical (09 R333). -/
def StreamEng.phys (x : StreamEng) : Bool := fld x.stat 2 2 == 0 || x.cmode || !bit x.cxctl 0

/-- The translation of an address of a stream (09 R333, R334). -/
def engTrans (s : State) (x : StreamEng) (acc : Acc) (va : U64) : Xlat :=
  if x.phys then { pa := some va.toNat, fill := none, reads := [] }
  else translate s x.tlb x.croot x.cxctl (fld x.stat 2 2) acc va.toNat

/-- The local physical address an address of a stream names, if it names one: its own module's global addresses are local (11 R408). -/
def engPhys (s : State) (x : StreamEng) (acc : Acc) (va : U64) : Option Nat :=
  if bit va 63 then
    (match s.hallDest { addr := va, op := .read 1 false } with
     | .here pa => some pa
     | .hereLedger pa => some pa
     | _ => none)
  else (engTrans s x acc va).pa

/-- What tells two bytes of a stream apart: the physical address, or an address that no physical one equals. -/
def engKey (s : State) (x : StreamEng) (acc : Acc) (va : U64) : Nat := (engPhys s x acc va).getD (2 ^ 64 + va.toNat)

/-- The physical address of n bytes of an engine's access within one page; a failure carries its reason (09 R333). -/
def engXlate (w : Worker) (acc : Acc) (va : U64) (n : Nat) : Op Nat := do
  let s ← get
  let x := (s.core w.c).eng w.e
  let r := engTrans s x acc va
  let s1 := walked s w.c r.reads
  let s2 := match r.fill with
    | some q => s1.modCore w.c (fun k => k.modEng w.e (fun x => { x with tlb := (q :: x.tlb.filter (fun t => !t.covers q.asid va.toNat)).take 32 }))
    | none => s1
  set (if x.phys then s2 else { s2 with free := s2.free + 1 })
  match r.pa with
  | some pa => do
    trapIf (!memRange pa n || s.carrelShut w.c pa || (acc == .store && hitsLedger pa n)) acc.cause va
    return pa
  | none => trap acc.cause va

/-- The answer of an engine's hall access: the logged one, or a wait for it (11 R406). -/
def engAwait (w : Worker) (r : HallReq) : Op HallRes := do
  let x ← engOf w.c w.e
  match x.hlog.find? (fun q => q.1 == r) with
  | some q => do
    modE w.c w.e (fun x => { x with hlog := x.hlog.erase q })
    return q.2
  | none => throw (.hall r 0)

/-- Read local bytes as an engine, and whether each is poisoned (08 R293, R310). -/
def engLocalRead (w : Worker) (pa n : Nat) : Op (List (Byte × Bool)) := do
  let s ← get
  let v : View := w.t.map (fun t => (w.c, t))
  let bs := s.view v pa n
  set (agentRead s w.c w.t pa n)
  return (rng 0 n).map (fun i => (nth 0 bs i, s.poisonedFor v (pa + i) 1))

/-- Poison the written bytes that carry it (08 R293). -/
def poisonBytes (s : State) (c : CoreId) (t : Option Nat) (pa : Nat) (bs : List (Byte × Bool)) : State :=
  (rng 0 bs.length).foldl (fun s i => if (nth (0, false) bs i).2 then agentPoison s c t (pa + i) 1 else s) s

/-- Write local bytes as an engine; poison travels with them (08 R293, R310). -/
def engLocalWrite (w : Worker) (pa : Nat) (bs : List (Byte × Bool)) : Op Unit :=
  modify (fun s => poisonBytes (agentWrite s w.c false w.t pa (bs.map (fun b => b.1))) w.c w.t pa bs)

/-- Read one piece that lies in a page, or in a 64-byte granule of hall memory: bytes and whether each is poisoned. -/
def engReadPiece (w : Worker) (va : U64) (n : Nat) : Op (List (Byte × Bool)) := do
  let s ← get
  if bit va 63 then
    let r : HallReq := { addr := va, op := .read n w.t.isSome }
    match s.hallDest r with
    | .fault => trap 0x0A va
    | .here pa => do
      trapIf (s.carrelShut w.c pa) 0x0A va
      engLocalRead w pa n
    | .hereLedger pa => engLocalRead w pa n
    | .away =>
      match ← engAwait w r with
      | .ok d pm => return d.map (fun b => (b, pm != 0))
      | .refused _ => trap 0x0A va
  else do
    let pa ← engXlate w .load va n
    engLocalRead w pa n

/-- Write one such piece, each byte with whether it is poisoned (08 R293). -/
def engWritePiece (w : Worker) (va : U64) (bs : List (Byte × Bool)) : Op Unit := do
  let s ← get
  if bit va 63 then
    let r : HallReq := { addr := va, op := .write (bs.map (fun b => b.1)) (b01 (bs.any (fun b => b.2))) }
    match s.hallDest r with
    | .fault => trap 0x0A va
    | .here pa => do
      trapIf (s.carrelShut w.c pa) 0x0A va
      trapIf (hitsLedger pa bs.length) 0x09 va
      engLocalWrite w pa bs
    | .hereLedger _ => trap 0x0A va
    | .away => do
      if w.t.isSome then throw (.abort 4)
      match ← engAwait w r with
      | .ok _ _ => return ()
      | .refused _ => trap 0x0A va
  else do
    let pa ← engXlate w .store va bs.length
    engLocalWrite w pa bs

/-- A range cut at pages, or at 64-byte granules of hall memory. -/
def engPieces (va : U64) (n : Nat) : List (U64 × Nat) :=
  if bit va 63 then
    (rng (va.toNat % 64 / 64) (cdiv (va.toNat % 64 + n) 64)).map (fun j =>
      let lo := if j = 0 then 0 else 64 * j - va.toNat % 64
      (va + n64 lo, min n (64 * (j + 1) - va.toNat % 64) - lo))
  else piecesOf va n

/-- Read listed pieces. -/
def engReadAll (w : Worker) : List (U64 × Nat) → Op (List (Byte × Bool))
  | [] => pure []
  | (va, n) :: r => do
    let a ← engReadPiece w va n
    let b ← engReadAll w r
    return a ++ b

/-- Read n bytes as an engine. -/
def engRead (w : Worker) (va : U64) (n : Nat) : Op (List (Byte × Bool)) := engReadAll w (engPieces va n)

/-- Write bytes over listed pieces. -/
def engWriteAll (w : Worker) : List (U64 × Nat) → List (Byte × Bool) → Op Unit
  | [], _ => pure ()
  | (va, n) :: r, bs => do
    engWritePiece w va (bs.take n)
    engWriteAll w r (bs.drop n)

/-- Write bytes as an engine. -/
def engWrite (w : Worker) (va : U64) (bs : List (Byte × Bool)) : Op Unit := engWriteAll w (engPieces va bs.length) bs

/-- What a conversion or transposition reads must not be poisoned: the fault of R353, with machine check (08 R293). -/
def cleanBytes (bs : List (Byte × Bool)) (va : U64) : Op Unit := trapIf (bs.any (fun b => b.2)) 0x33 va

/-- Read part of a shelf list: poison in it raises machine check on the owning core (08 R293). -/
def listRead (w : Worker) (va : U64) (n : Nat) : Op (List Byte) := do
  let bs ← engRead w va n
  if bs.any (fun b => b.2) then modify (fun s => machineCheck s w.c 2 va.toNat)
  return bs.map (fun b => b.1)

/-! ### Destination bytes -/

/-- A byte to write: address, mask of the bits written, their value, poisoned. -/
structure Patch where
  addr : U64
  mask : Nat
  val : Nat
  bad : Bool
deriving DecidableEq, Repr

/-- The bytes an element of w bits touches at a byte address and bit. -/
def elemPatch (at' : U64 × Nat) (w v : Nat) (bad : Bool) : List Patch :=
  (List.range (cdiv (at'.2 + w) 8)).map (fun i =>
    { addr := at'.1 + n64 i, mask := ((2 ^ w - 1) <<< at'.2) >>> (8 * i) % 256, val := ((v % 2 ^ w) <<< at'.2) >>> (8 * i) % 256, bad := bad })

/-- Two patches of one byte, the second on top. -/
def Patch.onto (a b : Patch) : Patch :=
  { a with mask := a.mask ||| b.mask, val := (a.val &&& (255 - b.mask)) ||| b.val, bad := a.bad || b.bad }

/-- Neighbouring patches of the same byte joined. -/
def joinPatches : List Patch → List Patch
  | [] => []
  | p :: r =>
    match joinPatches r with
    | q :: t => if p.addr = q.addr then p.onto q :: t else p :: q :: t
    | [] => [p]

/-- Bytes that later elements have written: which byte, and the mask of the bits (09 R350). -/
abbrev Later := List (Nat × Nat)

/-- A patch without the bits that later elements have already written (09 R350). -/
def Patch.less (key : U64 → Nat) (later : Later) (p : Patch) : Patch :=
  let k := key p.addr
  let m := later.foldl (fun m q => if q.1 = k then m ||| q.2 else m) 0
  { p with mask := p.mask &&& (255 - m), val := p.val &&& (255 - m) }

/-- Runs of whole bytes at neighbouring addresses. -/
def patchRuns : List Patch → List (U64 × List Patch)
  | [] => []
  | p :: r =>
    match patchRuns r with
    | (a, ps) :: t => if p.addr + 1 = a && p.addr.toNat % 64 != 63 then (p.addr, p :: ps) :: t else (p.addr, [p]) :: (a, ps) :: t
    | [] => [(p.addr, [p])]

/-- Bytes to write of patches: a byte only partly written keeps its other bits. -/
def fillPatches (w : Worker) : List Patch → Op (List (Byte × Bool))
  | [] => pure []
  | p :: r => do
    let b ← if p.mask = 255 then pure (BitVec.ofNat 8 p.val, p.bad)
      else do
        let o ← engRead w p.addr 1
        let old := nth (0, false) o 0
        pure (BitVec.ofNat 8 ((old.1.toNat &&& (255 - p.mask)) ||| p.val), p.bad || old.2)
    let bs ← fillPatches w r
    return b :: bs

/-- Write runs of patches. -/
def writeRuns (w : Worker) : List (U64 × List Patch) → Op Unit
  | [] => pure ()
  | (a, ps) :: r => do
    let bs ← fillPatches w ps
    engWrite w a bs
    writeRuns w r

/-- Write patches, but what later elements have written stays. -/
def writePatches (w : Worker) (ps : List Patch) (later : Later) : Op Unit := do
  let s ← get
  let key := engKey s ((s.core w.c).eng w.e) .store
  writeRuns w (patchRuns ((joinPatches (ps.map (Patch.less key later))).filter (fun p => p.mask != 0)))

/-! ### What a granule converts (09 R327, R330 to R332) -/

/-- The captured parameters of an engine's conversions (09 R321). -/
structure Conv where
  d : Desc
  df : Nat
  sr : Bool
  nonsat : Bool
  step : U64

/-- The conversion of a block of an engine. -/
def StreamEng.conv (x : StreamEng) (d : Desc) : Conv :=
  let o := Desc.out d x.cmod x.cprof
  { d := d, df := o.1, sr := o.2, nonsat := bit x.cmod 1, step := x.csr }

/-- Whether a block is an in-place square transposition (10 R372). -/
def Conv.square (v : Conv) : Bool := Desc.square v.d v.df

/-- The value of an element: raw bits under its source scale. -/
def Conv.value (v : Conv) (raw sc : Nat) : FV :=
  let x := decodeCode (Desc.sfmt v.d) raw
  if isMX (Desc.sfmt v.d) then withScale x sc else x

/-- The mode of element e. DEDUCED (log 82): its index is SRBASE + e, as 09 R331 says, without the NSR_BASE that 04 R140 adds elsewhere. -/
def Conv.mode (v : Conv) (e : Nat) : RMode := convMode v.sr v.step (Desc.chan v.d) (n64 (Desc.srbase v.d) + n64 e)

/-- SCALE, when it is applied (09 R332). -/
def Conv.scale (v : Conv) : Option Nat := if Desc.scen v.d then some (Desc.scale v.d) else none

/-- One element outside an MX block: bits and class; par is its parameter word (09 R330 to R332, 04 R137). -/
def Conv.elem (v : Conv) (e raw sc par : Nat) : Nat × CvClass :=
  let u := scaled v.scale (v.value raw sc)
  if Desc.expn v.d then expandSZ v.df (sx 8 raw) par
  else match Desc.split v.d with
  | 0 => convert v.df v.nonsat (v.mode e) u
  | 1 => convert 0 false .rne u
  | _ => splitLo v.nonsat u

/-- The raw bits a copy writes of an element: the six bits of an MXFP6 element, whichever form holds it (04 R130, 09 R330). -/
def Conv.copied (v : Conv) (raw : Nat) : Nat :=
  if Desc.sfmt v.d = 6 ∨ Desc.sfmt v.d = 7 ∨ Desc.sfmt v.d = 0x10 ∨ Desc.sfmt v.d = 0x11 then raw % 64 else raw

/-- A scale block of an MX destination: scale and elements with classes (09 R330, R332). -/
def Conv.block (v : Conv) (es : List ElemRead) : Nat × List (Nat × CvClass) :=
  if Desc.copy v.d v.df then ((es.head?.map (fun x => x.scale)).getD 0x7F, es.map (fun x => (v.copied x.raw, .plain)))
  else mxBlock v.df (es.map (fun x => scaled v.scale (v.value x.raw x.scale))) (es.map (fun x => v.mode x.num))

/-- The counts of converted elements. -/
def countElems (v : Conv) (es : List ElemRead) (cls : List CvClass) : Counts :=
  if Desc.copy v.d v.df then Counts.zero
  else (es.zip cls).foldl (fun a p => a.add (Counts.elem p.2 (v.value p.1.raw p.1.scale))) Counts.zero

/-! ### Granules in stream order -/

/-- Granule g of a block, by number. -/
def granAt (d : Desc) (g : Nat) : Nat × Nat × Nat := nth (0, 0, 0) (Desc.granules d) g

/-- The element numbers of a granule within its block. -/
def granIdx (d : Desc) (g : Nat × Nat × Nat) : List Nat :=
  let j := Desc.granElems d g
  (rng j.1 (j.2 - j.1)).map (fun i => g.1 * Desc.n0 d + i)

/-- Where element n of a block is written. -/
def Conv.placeOf (v : Conv) (n : Nat) : U64 × Nat := Desc.place v.d (codeBits v.df) (n / Desc.n0 v.d) (n % Desc.n0 v.d)

/-- The bytes listed elements are written to, as patches without values. -/
def Conv.places (v : Conv) (ns : List Nat) : List Patch := ns.flatMap (fun n => elemPatch (v.placeOf n) (codeBits v.df) 0 false)

/-- Whether a granule of a block has landed. -/
def BlockProg.has (b : BlockProg) (g : Nat) : Bool := b.landed.any (fun x => x.1 == g)

/-- Every granule of a block has landed. -/
def BlockProg.full (b : BlockProg) : Bool := b.ok && (List.range (Desc.granules b.ws).length).all b.has

/-- The 32 elements of scale block q that have been read. -/
def mxMembers (b : BlockProg) (q : Nat) : List ElemRead := sortBy (fun x y => decide (x.num ≤ y.num)) (b.elems.filter (fun x => x.num / 32 == q))

/-- The scale blocks, or blocks of parameters, a granule's elements lie in. -/
def granBlocks (d : Desc) (g : Nat) : List Nat := ((granIdx d (granAt d g)).map (fun n => n / 32)).foldl (fun l x => setAdd x l) []

/-- The tile pair of an element: square, lower and upper tile index (10 R372). -/
def sqPair (d : Desc) (n : Nat) : Nat :=
  let t := Desc.n0 d / 64
  let r := n / Desc.n0 d
  let a := r % Desc.cnt d 1 / 64
  let b := n % Desc.n0 d / 64
  (r / Desc.cnt d 1 * t + min a b) * t + max a b

/-- The tile pairs a granule's elements lie in. -/
def granPairs (d : Desc) (g : Nat) : List Nat := ((granIdx d (granAt d g)).map (sqPair d)).foldl (fun l x => setAdd x l) []

/-- The rows of a tile: addresses of 64 elements each. -/
def tileRows (d : Desc) (sq a b : Nat) : List U64 :=
  (List.range 64).map (fun i => Desc.srun d (sq * Desc.cnt d 1 + 64 * a + i) + n64 (64 * b * (Desc.sb d / 8)))

/-- The two tiles of a pair: the rows of (a, b), and those of (b, a). -/
def pairRows (d : Desc) (p : Nat) : List U64 × List U64 :=
  let t := Desc.n0 d / 64
  (tileRows d (p / t / t) (p / t % t) (p % t), tileRows d (p / t / t) (p % t) (p / t % t))

/-- The bytes of both tiles of a pair, as ranges. -/
def pairRanges (d : Desc) (p : Nat) : List (U64 × Nat) := ((pairRows d p).1 ++ (pairRows d p).2).map (fun a => (a, 64 * (Desc.sb d / 8)))

/-- The bytes of AUX a granule reads: where they start and how many (09 R332). -/
def granSide (d : Desc) (g : Nat × Nat × Nat) : U64 × Nat :=
  let j := Desc.granElems d g
  let first := (g.1 * Desc.n0 d + j.1) / 32
  let z := if Desc.expn d then 4 else if isMX (Desc.sfmt d) then 1 else 0
  (Desc.aux d + n64 (z * first), if j.1 = j.2 then 0 else z * (cdiv (g.1 * Desc.n0 d + j.2) 32 - first))

/-- The source bytes of a granule's elements: where they start, and how many (09 R327). -/
def granBytes (d : Desc) (g : Nat × Nat × Nat) : U64 × Nat :=
  let j := Desc.granElems d g
  let lo := j.1 * Desc.sb d / 8
  (Desc.srun d g.1 + n64 lo, cdiv (j.2 * Desc.sb d) 8 - lo)

/-- What landing a granule reads: its source and AUX, or both tiles of each of its pairs. -/
def Conv.granReads (v : Conv) (g : Nat) : List (U64 × Nat) :=
  if v.square then (granPairs v.d g).flatMap (pairRanges v.d) else [granBytes v.d (granAt v.d g), granSide v.d (granAt v.d g)]

/-- What landing a granule may write: its elements, every element and scale of the scale blocks it takes part in, or both tiles of each
of its pairs. -/
def Conv.granWrites (v : Conv) (g : Nat) : List U64 :=
  if v.square then (granPairs v.d g).flatMap (fun p => (pairRanges v.d p).flatMap (fun r => (List.range r.2).map (fun i => r.1 + n64 i)))
  else if isMX v.df then
    (granBlocks v.d g).flatMap (fun q => (Desc.aux2 v.d + n64 q) :: (v.places (rng (32 * q) 32)).map (fun p => p.addr))
  else (v.places (granIdx v.d (granAt v.d g))).map (fun p => p.addr)

/-- Whether a granule of a block has read its source. -/
def BlockProg.isRead (b : BlockProg) (v : Conv) (g : Nat) : Bool :=
  b.has g || b.reads.any (fun r => r.1 == g) ||
    (isMX v.df && (granIdx v.d (granAt v.d g)).all (fun n => b.elems.any (fun x => x.num == n)))

/-- What granule h of a block has still to write before granule g reads: not the scale blocks that g takes part in, which are written
after g has read (09 R327, R349). -/
def Conv.pending (v : Conv) (b : BlockProg) (h g : Nat) : List U64 :=
  if isMX v.df then
    ((granBlocks v.d h).filter (fun q => (mxMembers b q).length != 32 && !(granBlocks v.d g).contains q)).flatMap (fun q =>
      (Desc.aux2 v.d + n64 q) :: (v.places (rng (32 * q) 32)).map (fun p => p.addr))
  else if b.has h then [] else v.granWrites h

/-- What a block has written of its elements from number n on (09 R350). -/
def writtenFrom (v : Conv) (b : BlockProg) (n : Nat) : List Patch :=
  if v.square then b.swapped.flatMap (fun p => (pairRanges v.d p).flatMap (fun r => elemPatch (r.1, 0) (8 * r.2) 0 false))
  else if isMX v.df then
    ((List.range (Desc.elems v.d / 32)).filter (fun q => decide (n ≤ 32 * q) && (mxMembers b q).length == 32)).flatMap (fun q =>
      { addr := Desc.aux2 v.d + n64 q, mask := 255, val := 0, bad := false } :: v.places (rng (32 * q) 32))
  else b.landed.flatMap (fun l =>
    let ns := granIdx v.d (granAt v.d l.1)
    if ns.all (fun m => decide (n ≤ m)) then v.places ns else [])

/-- What elements of a stream from number n of a block on, and those of later blocks, have written (09 R350). -/
def laterWritten (s : State) (x : StreamEng) (b : BlockProg) (n : Nat) : Later :=
  (x.blocks.flatMap (fun q =>
    if b.blk < q.blk then writtenFrom (x.conv q.ws) q 0
    else if q.blk = b.blk ∧ !(x.conv b.ws).square then writtenFrom (x.conv b.ws) b n else [])).map (fun p => (engKey s x .store p.addr, p.mask))

/-- The lines of listed ranges an engine reads, by what tells them apart. -/
def readLinesOf (s : State) (x : StreamEng) (rs : List (U64 × Nat)) : List Nat :=
  (rs.flatMap (fun r => (linesOf r.1.toNat r.2).map (fun l => max (128 * l) r.1.toNat))).map (fun a => engKey s x .load (n64 a) / 128)

/-- Whether a byte an engine writes lies in listed ranges it reads. -/
def inReads (s : State) (x : StreamEng) (rs : List (U64 × Nat)) (a : U64) : Bool :=
  let k := engKey s x .store a
  rs.any (fun r => (linesOf r.1.toNat r.2).any (fun l =>
    let lo := max (128 * l) r.1.toNat
    let b := engKey s x .load (n64 lo)
    decide (b ≤ k) && decide (k < b + (min (128 * (l + 1)) (r.1.toNat + r.2) - lo))))

/-- Whether a granule may not land yet: an earlier element of the stream that has not landed writes a line it reads; in its own
block, also when it would write what an earlier granule has still to read, so that overlapping sides act as a copy in element
order (09 R349). An in-place square orders itself (10 R372). -/
def mustWait (s : State) (x : StreamEng) (b : BlockProg) (g : Nat) : Bool :=
  let v := x.conv b.ws
  let ls := readLinesOf s x (v.granReads g)
  let hits (u : Conv) (h : Nat) : Bool := (u.granWrites h).any (fun a => ls.contains (engKey s x .store a / 128))
  x.blocks.any (fun q =>
    if q.blk < b.blk then (List.range (Desc.granules q.ws).length).any (fun h => !q.has h && hits (x.conv q.ws) h)
    else if q.blk = b.blk ∧ !v.square then
      (List.range g).any (fun h => (v.pending b h g).any (fun a => ls.contains (engKey s x .store a / 128)) ||
        (!b.isRead v h && (v.granWrites g).any (inReads s x (v.granReads h))))
    else false)

/-- The HBM bank a granule's read goes to (08 R307). -/
def granBank (s : State) (x : StreamEng) (d : Desc) (g : Nat) : Option Nat :=
  match engPhys s x .load (granBytes d (granAt d g)).1 with
  | some pa => if isHbm pa then (let m := hbmMap s.plat.quadLocal pa; some ((m.1 * 64 + m.2.1) * 16 + m.2.2.1)) else none
  | none => none

/-- The granules in flight of the listed ones that have not landed, each with its bank: at most 128, and 32 to one HBM bank; one that
meets the cap is passed over, but no granule of a later block goes before a block's first (09 R322, R323, 08 R307, R308). -/
def takeIn (only : Option Nat) (n : Nat) (banks : List Nat) : List ((Nat × Nat) × Option Nat) → List (Nat × Nat)
  | [] => []
  | (p, k) :: r =>
    if 128 ≤ n || (only.isSome && only != some p.1) then []
    else match k with
      | some b =>
        if 32 ≤ banks.count b then takeIn (if p.2 = 0 then some p.1 else only) n banks r
        else p :: takeIn only (n + 1) (b :: banks) r
      | none => p :: takeIn only (n + 1) banks r

/-- The granules of issued blocks that have not landed, in stream order. -/
def StreamEng.open (x : StreamEng) : List (Nat × Nat) :=
  x.blocks.flatMap (fun b => if b.ok then ((List.range (Desc.granules b.ws).length).filter (fun g => !b.has g)).map (fun g => (b.blk, g)) else [])

/-- An issued block by number. -/
def StreamEng.block (x : StreamEng) (b : Nat) : Option BlockProg := x.blocks.find? (fun q => q.blk == b)

/-- The granules that may be in flight: those recorded when a granule faulted, or all that the caps allow (09 R322, R353). -/
def inFlight (s : State) (x : StreamEng) : List (Nat × Nat) :=
  match x.inflight with
  | some l => l
  | none => takeIn none 0 [] (x.open.map (fun p => (p, granBank s x ((x.block p.1).map (fun b => b.ws)).toList.flatten p.2)))

/-! ### Reading a granule -/

/-- Read a granule's source bytes and AUX (09 R327, R332, R348); only a copy may read poison (R353). -/
def readGran (w : Worker) (v : Conv) (g : Nat × Nat × Nat) : Op GranSrc := do
  let src := granBytes v.d g
  let side := granSide v.d g
  let bs ← engRead w src.1 src.2
  if !Desc.copy v.d v.df || Desc.layout v.d == 1 then cleanBytes bs src.1
  let sc ← engRead w side.1 side.2
  if !Desc.copy v.d v.df then cleanBytes sc side.1
  let j := Desc.granElems v.d g
  return { va := src.1, lo := j.1 * Desc.sb v.d / 8, bytes := bs, first := (g.1 * Desc.n0 v.d + j.1) / 32, sva := side.1, side := sc }

/-- What a granule reads, once: a granule that has read keeps it until it lands (09 R348). -/
def readOnce (w : Worker) (b : BlockProg) (g : Nat) : Op GranSrc := do
  match b.reads.find? (fun r => r.1 == g) with
  | some r => return r.2
  | none => do
    let x ← engOf w.c w.e
    let r ← readGran w (x.conv b.ws) (granAt b.ws g)
    modE w.c w.e (fun x => { x with blocks := x.blocks.map (fun q => if q.blk = b.blk then { q with reads := q.reads ++ [(g, r)] } else q) })
    return r

/-- Element i of a run, out of what its granule has read. -/
def GranSrc.elem (x : GranSrc) (d : Desc) (run i : Nat) : ElemRead :=
  let sb := Desc.sb d
  let n := run * Desc.n0 d + i
  let off := i * sb - 8 * x.lo
  let bs := (x.bytes.drop (off / 8)).take (cdiv (off % 8 + sb) 8)
  let sc := if isMX (Desc.sfmt d) then nth (0x7F, false) x.side (n / 32 - x.first) else (0x7F, false)
  { num := n, raw := bitsOf (leNat (bs.map (fun b => b.1))) (off % 8) sb, scale := sc.1.toNat, bad := bs.any (fun b => b.2), badScale := sc.2 }

/-- The parameter word of element n of an EXPN block (09 R332). -/
def GranSrc.param (x : GranSrc) (n : Nat) : Nat := leNat (((x.side.drop (4 * (n / 32 - x.first))).take 4).map (fun b => b.1))

/-- One byte after the patches that touch it. -/
def patchByte (k : Nat) (ps : List (Nat × Patch)) (b : Byte × Bool) : Byte × Bool :=
  ps.foldl (fun b p => if p.1 = k then
    (BitVec.ofNat 8 ((b.1.toNat &&& (255 - p.2.mask)) ||| p.2.val), if p.2.mask = 255 then p.2.bad else b.2 || p.2.bad) else b) b

/-- What a granule has read, after an earlier element of it has been written (09 R349); keys tell the bytes read and written apart. -/
def GranSrc.patch (rd wr : U64 → Nat) (x : GranSrc) (ps : List Patch) : GranSrc :=
  let qs := ps.map (fun p => (wr p.addr, p))
  let on (a : U64) (bs : List (Byte × Bool)) : List (Byte × Bool) :=
    (List.range bs.length).map (fun i => patchByte (rd (a + n64 i)) qs (nth (0, false) bs i))
  { x with bytes := on x.va x.bytes, side := on x.sva x.side }

/-- The elements of a granule in order, each read after the ones before it have been written (09 R349): the element read, its
class, and its patches. -/
def plainElems (rd wr : U64 → Nat) (v : Conv) (run : Nat) : List Nat → GranSrc → List (ElemRead × CvClass × List Patch)
  | [], _ => []
  | i :: r, x =>
    let q := x.elem v.d run i
    let o := if Desc.copy v.d v.df then (v.copied q.raw, CvClass.plain) else v.elem q.num q.raw q.scale (x.param q.num)
    let w := elemPatch (v.placeOf q.num) (codeBits v.df) o.1 q.bad
    (q, o.2, w) :: plainElems rd wr v run r (x.patch rd wr w)

/-! ### Landing a granule -/

/-- Land a granule of a block that is neither MX on output nor an in-place square. -/
def landPlain (w : Worker) (v : Conv) (b : BlockProg) (g : Nat) (x : GranSrc) : Op BlockProg := do
  let s ← get
  let q := (s.core w.c).eng w.e
  let gr := granAt v.d g
  let j := Desc.granElems v.d gr
  let out := plainElems (engKey s q .load) (engKey s q .store) v gr.1 (rng j.1 (j.2 - j.1)) x
  writePatches w (out.flatMap (fun o => o.2.2)) (laterWritten s q b (gr.1 * Desc.n0 v.d + j.2))
  return { b with
    landed := b.landed ++ [(g, countElems v (out.map (fun o => o.1)) (out.map (fun o => o.2.1)))],
    reads := b.reads.filter (fun r => r.1 != g) }

/-- The scale blocks of a granule in order: its elements of each are read, and a block now complete is written, elements and
scale (09 R327, R332, R349). -/
def mxBlocks (w : Worker) (v : Conv) (gr : Nat × Nat × Nat) : List Nat → GranSrc → BlockProg → Op BlockProg
  | [], _, b => pure b
  | q :: r, x, b => do
    let j := Desc.granElems v.d gr
    let es := ((rng j.1 (j.2 - j.1)).map (x.elem v.d gr.1)).filter (fun y => y.num / 32 == q)
    let b1 : BlockProg := { b with elems := b.elems.filter (fun y => !es.any (fun z => z.num == y.num)) ++ es }
    let ms := mxMembers b1 q
    if ms.length = 32 then do
      let s ← get
      let en := (s.core w.c).eng w.e
      let o := v.block ms
      let ps := (ms.zip o.2).flatMap (fun p => elemPatch (v.placeOf p.1.num) (codeBits v.df) p.2.1 p.1.bad) ++
        [{ addr := Desc.aux2 v.d + n64 q, mask := 255, val := o.1 % 256, bad := ms.any (fun y => y.badScale) }]
      writePatches w ps (laterWritten s en b (32 * q + 32))
      mxBlocks w v gr r (x.patch (engKey s en .load) (engKey s en .store) ps) b1
    else mxBlocks w v gr r x b1

/-- Land a granule of a block with an MX destination; every granule whose scale blocks are all written lands (09 R327). -/
def landMx (w : Worker) (v : Conv) (b : BlockProg) (g : Nat) (x : GranSrc) : Op BlockProg := do
  let full (b : BlockProg) (q : Nat) : Bool := (mxMembers b q).length == 32
  let b1 ← mxBlocks w v (granAt v.d g) (granBlocks v.d g) x b
  let n := (Desc.granules v.d).length
  let now := (List.range n).filter (fun h => !b1.has h && (granBlocks v.d h).all (full b1))
  let cnt (h : Nat) : Counts := ((granBlocks v.d h).filter (fun q => (granIdx v.d (granAt v.d h)).contains (32 * q + 31))).foldl
    (fun a q => a.add (countElems v (mxMembers b1 q) ((v.block (mxMembers b1 q)).2.map (fun o => o.2)))) Counts.zero
  return { b1 with landed := b1.landed ++ now.map (fun h => (h, cnt h)), reads := b1.reads.filter (fun r => r.1 != g) }

/-! ### The in-place square (10 R372) -/

/-- Read rows of n bytes each as one number. -/
def readTile (w : Worker) (n : Nat) : List U64 → Op (List Nat)
  | [] => pure []
  | a :: r => do
    let bs ← engRead w a n
    cleanBytes bs a
    let rest ← readTile w n r
    return leNat (bs.map (fun b => b.1)) :: rest

/-- A tile of 64 rows of 64 elements of w bits, turned. -/
def turnTile (w : Nat) (rows : List Nat) : List Nat :=
  (List.range 64).map (fun j => (List.range 64).foldr (fun i a => bitsOf (nth 0 rows i) (j * w) w + a <<< w) 0)

/-- Swap one tile pair: both tiles are read before either is written. -/
def swapPair (w : Worker) (b : BlockProg) (p : Nat) : Op Unit := do
  let d : Desc := b.ws
  let n := 64 * (Desc.sb d / 8)
  let rows := pairRows d p
  let x ← readTile w n rows.1
  let y ← readTile w n rows.2
  let s ← get
  let later := laterWritten s ((s.core w.c).eng w.e) b 0
  let put (at' : List U64) (z : List Nat) : List Patch := (at'.zip (turnTile (Desc.sb d) z)).flatMap (fun q => elemPatch (q.1, 0) (8 * n) q.2 false)
  writePatches w (put rows.2 x ++ put rows.1 y) later

/-- Swap each listed pair. -/
def swapPairs (w : Worker) (b : BlockProg) : List Nat → Op Unit
  | [] => pure ()
  | p :: r => do
    swapPair w b p
    swapPairs w b r

/-- Land a granule of an in-place square: its tile pairs are swapped, and every granule whose pairs are swapped lands. -/
def landSquare (w : Worker) (b : BlockProg) (g : Nat) : Op BlockProg := do
  let d : Desc := b.ws
  let todo := (granPairs d g).filter (fun p => !b.swapped.contains p)
  swapPairs w b todo
  let b1 : BlockProg := { b with swapped := b.swapped ++ todo }
  let now := (List.range (Desc.granules d).length).filter (fun h => !b1.has h && (granPairs d h).all b1.swapped.contains)
  return { b1 with landed := b1.landed ++ now.map (fun h => (h, Counts.zero)) }

/-- A block of an engine replaced after granules of it have landed. -/
def StreamEng.landed (x : StreamEng) (b b1 : BlockProg) : StreamEng :=
  { x with blocks := x.blocks.map (fun q => if q.blk = b.blk then b1 else q), gran := x.gran + (b1.landed.length - b.landed.length) }

/-- What a granule that has read its source writes (09 R327); a stream that its task's abort has ended records nothing (09 R358). -/
def finishGran (w : Worker) (b : BlockProg) (g : Nat) (x : GranSrc) : Op Unit := do
  let v := (← engOf w.c w.e).conv b.ws
  let b1 ← if isMX v.df then landMx w v b g x else landPlain w v b g x
  modE w.c w.e (fun x => if x.blocks.isEmpty then x else x.landed b b1)

/-- Land a granule of an in-place square block. -/
def squareGran (w : Worker) (b : BlockProg) (g : Nat) : Op Unit := do
  let b1 ← landSquare w b g
  modE w.c w.e (fun x => if x.blocks.isEmpty then x else x.landed b b1)

/-! ### Ends of a stream (09 R340) -/

/-- The completion record's bytes (09 R340). -/
def crecBytes (s : State) (fin reason : Nat) (blk : Option Nat) (gran : Nat) : List Byte :=
  wordBytes [n64 (fin + reason <<< 8 + (blk.getD 0 % 65536) <<< 32 + b01 blk.isSome <<< 48), s.hallt, n64 gran, 0]

/-- The last completed or rejected block SEe_STAT names. -/
def StreamEng.lastBlk (x : StreamEng) : Option Nat := if bit x.stat 48 then some (fld x.stat 32 16) else none

/-- A halt of an engine: its record, and stream halted pends on its core with the engine's number (09 R353, R354; 07 R277). -/
def haltEng (s : State) (c : CoreId) (e blk subc : Nat) (pos off addr : U64) : State :=
  s.modCore c (fun k =>
    let k := k.modEng e (fun x => { x with
      stat := setFld x.stat 0 2 2, hrec := n64 (blk + subc <<< 16 + 1 <<< 24), hpos := pos, hoff := off, haddr := addr })
    { k with rr := { k.rr with xpend := setBit k.rr.xpend 3 true, shInfo := n64 (2 * c.val + e) } })

/-- The halt of R340 when the record cannot be written. -/
def haltRecord (s : State) (c : CoreId) (e subc : Nat) : State :=
  let x := (s.core c).eng e
  haltEng (s.modCore c (fun k => k.modEng e (fun x => { x with recPend := true }))) c e x.nblk subc 0 0 (x.crec.getD 0)

/-- Write the record of a stream: held with its task, or written now (09 R340, R358). -/
def writeRecord (c : CoreId) (e : Nat) (a : U64) (bs : List Byte) : Op Unit := do
  let w := (← get).worker c e
  if w.t.isSome && !bit a 63 then
    let pa ← engXlate w .store a 32
    modify (fun s => signal s c w.t (.record pa bs))
  else engWrite w a (bs.map (fun b => (b, false)))

/-- Ask for the hall access an engine waits for, unless it has been asked for or one to the same granule is outstanding (11 R406, R410). -/
def engAsk (s : State) (c : CoreId) (e : Nat) (r : HallReq) : State :=
  if s.holdsBack (.stream c e) r then s else sendHall s (.stream c e) true r

/-- An engine whose end is decided writes its record and returns to IDLE. A record write that fails halts a stream whose blocks have all
completed, and is lost otherwise (09 R340, R356). -/
def finishEnd (s : State) (c : CoreId) (e : Nat) : State :=
  let x := (s.core c).eng e
  match x.ending with
  | none => s
  | some (fin, reason, bs) =>
    let fini (s : State) : State := reapReqs (s.modCore c (fun k => k.modEng e (fun x => x.ended fin reason))) c
    match x.crec with
    | none => fini s
    | some a =>
      match writeRecord c e a bs s with
      | .ok _ s1 => fini s1
      | .error (.hall r _) _ => engAsk s c e r
      | .error (.trap cause _ _ _) _ => if fin = 0 then haltRecord s c e cause else fini s
      | .error (.abort w) _ => (match (s.core c).engTask x with
        | some t => abortTask s c t w
        | none => fini s)
      | .error _ _ => fini s

/-- End a stream: FREE units of blocks that do not complete go back, nothing more issues or halts, and the record is fixed and written. The
reason of a rejection stands in SEe_STAT at once (09 R338, R340, R356). -/
def endStream (s : State) (c : CoreId) (e fin reason : Nat) : State :=
  let x := (s.core c).eng e
  let bs := crecBytes s fin reason x.lastBlk x.gran
  finishEnd (s.modCore c (fun k => (giveBack x.blocks k).modEng e (fun x => { x with
    stat := (let st := setFld x.stat 0 2 1; if fin = 2 then setFld (setFld st 7 2 2) 16 8 reason else st),
    hrec := setBit x.hrec 24 false, blocks := [], faults := [], inflight := none, cancelled := false, recPend := false,
    ending := some (fin, reason, bs) }))) c e

/-! ### Completion of blocks (09 R328) -/

/-- Complete the oldest block, whose granules have all landed. -/
def completeBlock (s : State) (c : CoreId) (e : Nat) (b : BlockProg) : State :=
  let x := (s.core c).eng e
  let d : Desc := b.ws
  let t := (s.core c).engTask x
  let v := x.conv d
  let cnt := b.landed.foldl (fun a l => a.add l.2) Counts.zero
  let s := if Desc.copy d v.df then s else addCounts s c t (Desc.chan d) v.df cnt
  let s := s.modCore c (fun k => k.modEng e (fun x => { x with
    stat := setBit (setFld x.stat 32 16 b.blk) 48 true, blocks := x.blocks.filter (fun q => q.blk != b.blk) }))
  let s := if Desc.fills d then signal s c t (.fill (Desc.pair d)) else s
  if Desc.barrive d then signal s c t (.barrier (Desc.bid d)) else s

/-- The oldest block, when it may complete. -/
def StreamEng.ready (x : StreamEng) : Option BlockProg :=
  match x.blocks with
  | b :: _ => if b.full then some b else none
  | [] => none

/-- Complete every block that may complete, oldest first. -/
def completeAll (c : CoreId) (e : Nat) : Nat → State → State
  | 0, s => s
  | n + 1, s =>
    match ((s.core c).eng e).ready with
    | some b => completeAll c e n (completeBlock s c e b)
    | none => s

/-- A stream whose last block has completed ends; one that met a poisoned pair ends when its earlier blocks have (09 R340, R343). -/
def endIfDone (s : State) (c : CoreId) (e : Nat) : State :=
  let x := (s.core c).eng e
  if fld x.stat 0 2 ≠ 1 ∨ x.ending.isSome ∨ !x.blocks.isEmpty then s
  else if x.poisoned then endStream s c e 1 1
  else if x.nextBlk = x.nblk ∧ x.faults.isEmpty then endStream s c e 0 0
  else s

/-- Cancel a stream (09 R356): blocks that have landed complete; it ends at once, or when its hall accesses are answered. A stream whose
end is decided ends as decided, but one halted at its record ends without it (R340). -/
def cancelStream (s : State) (c : CoreId) (e : Nat) : State :=
  let x := (s.core c).eng e
  if fld x.stat 0 2 = 0 then s
  else if fld x.stat 0 2 = 2 then
    endStream (if x.recPend then s.modCore c (fun k => k.modEng e (fun x => { x with crec := none })) else s) c e 1 0
  else if x.ending.isSome then s
  else
    let s := completeAll c e 4 s
    if ((s.core c).eng e).blocks.isEmpty && ((s.core c).eng e).nextBlk == x.nblk then endIfDone s c e
    else if s.fab.reqs.any (fun q => q.who == .stream c e) then
      s.modCore c (fun k => k.modEng e (fun x => { x with cancelled := true }))
    else endStream s c e 1 0

/-- An engine's hall access has been answered or has timed out (11 R406, R410). -/
def streamAnswered (s : State) (c : CoreId) (e : Nat) (r : HallReq) (res : HallRes) : State :=
  let s1 := s.modCore c (fun k => k.modEng e (fun x => { x with hlog := x.hlog ++ [(r, res)] }))
  let x := (s1.core c).eng e
  if x.ending.isSome then (if fld x.stat 0 2 = 1 then finishEnd s1 c e else s1)
  else if x.cancelled && !s1.fab.reqs.any (fun q => q.who == .stream c e) then endStream s1 c e 1 0
  else s1

/-! ### Starting (09 R321, R336, R338, R609) -/

/-- A start that is turned away, with its reason and block. -/
structure Reject where
  reason : Nat
  blk : Option Nat
  record : Bool

/-- The header checks of R609: NBLK and CREC, or the reason. -/
def headerOf (c : CoreId) (e : Nat) (list : U64) (ring : Nat) : Op (Except Nat (Nat × Option U64)) := do
  if list.toNat % 64 ≠ 0 then return .error 0x05
  let x ← engOf c e
  let k ← coreOf c
  if x.cmode && ring != 0 && !holdOk k.str ring false (lineSpan list 64) then return .error 0x08
  let w := (← get).worker c e
  let bs ← (fun s => match listRead w list 64 s with
    | .ok bs s1 => .ok (some bs) s1
    | .error (.trap _ _ _ _) s1 => .ok none s1
    | .error q s1 => .error q s1 : Op (Option (List Byte)))
  match bs with
  | none => return .error 0x08
  | some bs =>
    let w0 := n64 (leNat (bs.take 8))
    let w1 := n64 (leNat ((bs.drop 8).take 8))
    if fld w0 0 16 == 0 || fld w0 17 47 != 0 || (bs.drop 16).any (fun b => b != 0) then return .error 0x14
    if bit w0 16 && w1.toNat % 64 != 0 then return .error 0x05
    return .ok (fld w0 0 16, if bit w0 16 then some w1 else none)

/-- Read descriptor b of a list. -/
def readDesc (c : CoreId) (e : Nat) (list : U64) (b : Nat) : Op Desc := do
  let w := (← get).worker c e
  let bs ← listRead w (list + n64 (64 + 128 * b)) 128
  return (List.range 16).map (fun i => n64 (leNat ((bs.drop (8 * i)).take 8)))

/-- The first block of a VALIDATED list that is rejected, with its reason (09 R336). -/
def validate (c : CoreId) (e : Nat) (list : U64) (ring : Nat) (total : Nat) : Nat → Op (Option (Nat × Nat))
  | 0 => pure none
  | n + 1 => do
    let b := total - (n + 1)
    let d ← readDesc c e list b
    let x ← engOf c e
    let k ← coreOf c
    let s ← get
    match Desc.rejected d (Desc.out d x.cmod x.cprof).1 (engPhys s x .load) k.str ring with
    | some r => return some (b, r)
    | none => validate c e list ring total n

/-- An engine that captures what SSTART captures (09 R321). -/
def captured (k : Core) (x : StreamEng) (list : U64) : StreamEng :=
  let st := n64 (1 + k.ring <<< 2 + b01 k.accTask.isSome <<< 4 + k.accTask.getD 0 <<< 5) + (x.stat &&& fmask 7 2) + (x.stat &&& fmask 16 8)
  { x with
    stat := st, list := list, cmode := x.prot, croot := k.mm.root, cxctl := k.mm.xctl, cmod := k.num.mode, cprof := k.num.prof,
    csr := k.num.srStep, nblk := 0, crec := none, nextBlk := 0, blocks := [], poisoned := false,
    tord := (k.task (k.accTask.getD 0)).ord, gran := 0, faults := [], inflight := none, cancelled := false, ending := none, recPend := false, tlb := [], hlog := k.ex.hlog }

/-- What the checks at creation find (09 R336, R340, R609). -/
def startChecks (c : CoreId) (e : Nat) (list : U64) : Op (Except Reject (Nat × Option U64)) := do
  let k ← coreOf c
  let ring := k.ring
  let x ← engOf c e
  match ← headerOf c e list ring with
  | .error r => return .error { reason := r, blk := none, record := false }
  | .ok (n, cr) =>
    modE c e (fun x => { x with nblk := n, crec := cr })
    if x.cmode && ring != 0 then
      let s ← get
      let held := match cr with
        | some a => spanHeld k.str ring true a (lineSpan a 32) && !((engPhys s x .store a).any (fun pa => hitsLedger pa 32))
        | none => true
      if !holdOk k.str ring false (lineSpan list (64 + 128 * n)) then return .error { reason := 0x08, blk := none, record := held }
      if !held then return .error { reason := 0x09, blk := none, record := false }
      match ← validate c e list ring n n with
      | some (b, r) => return .error { reason := r, blk := some b, record := true }
      | none => return .ok (n, cr)
    else return .ok (n, cr)

/-- R357: the stream of an engine that is not IDLE is not a more privileged ring's. -/
def engRing (c : CoreId) (e : Nat) : Op Unit := do
  let k ← coreOf c
  let x := k.eng e
  trapIf (decide (fld x.stat 0 2 ≠ 0) && decide (fld x.stat 2 2 < k.ring)) 0x02

/-- SSTART's effect (09 R338). -/
def sstartBody (c : CoreId) (f : BitVec 22) : Op U64 := do
  illegalIf (!isCompute c || fld f 0 13 != 0)
  let e := fld f 21 1
  engRing c e
  let x ← engOf c e
  let dd := fld f 13 4
  if fld x.stat 0 2 ≠ 0 then wrD c dd 1
  else
    let list ← rdA c (fld f 17 4)
    modC c (fun k => k.modEng e (fun x => captured k x list))
    match ← startChecks c e list with
    | .ok (n, cr) => do
      modE c e (fun x => { x with nblk := n, crec := cr, hlog := [] })
      wrD c dd 0
    | .error r => do
      modE c e (fun x => { x with
        stat := (match r.blk with
          | some b => setBit (setFld x.stat 32 16 b) 48 true
          | none => x.stat),
        crec := if r.record then x.crec else none })
      modify (fun s => endStream s c e 2 r.reason)
      wrD c dd 2
  nextPC c 4

/-- SSTART: major 0x28, SUB 0000 (09 R338). -/
def execSstart (c : CoreId) (f : BitVec 22) (s : State) : Host.Outcome State Fault Refusal := issueSub c 0x28 0 f .plain (sstartBody c f) s

/-- A halted engine runs again from its halting granule; of an in-place square block only the pairs not yet swapped are performed again (09
R355, 10 R372). -/
def resumeEng (x : StreamEng) : StreamEng :=
  let hb := fld x.hrec 0 16
  let g := ((x.block hb).bind (fun b => (List.range (Desc.granules b.ws).length).find? (fun g => !b.has g))).getD 0
  let keep (b : BlockProg) : BlockProg :=
    if (x.conv b.ws).square then { b with reads := [] }
    else if b.blk ≠ hb then { b with landed := [], reads := [], elems := [] }
    else
      let n := (granIdx b.ws (granAt b.ws g)).headD 0
      { b with landed := b.landed.filter (fun l => decide (l.1 < g)), reads := [], elems := b.elems.filter (fun y => decide (y.num < n)) }
  { x with
    stat := setFld x.stat 0 2 1, hrec := setBit x.hrec 24 false, faults := [], inflight := none, hlog := [],
    blocks := (x.blocks.filter (fun b => b.ok)).map keep,
    nextBlk := ((x.blocks.find? (fun b => !b.ok)).map (fun b => b.blk)).getD x.nextBlk }

/-- SRESUME's effect (09 R355). -/
def sresumeBody (c : CoreId) (f : BitVec 22) : Op U64 := do
  illegalIf (!isCompute c || fld f 0 21 != 0)
  needRing c 1
  let e := fld f 21 1
  engRing c e
  let x ← engOf c e
  if fld x.stat 0 2 = 2 then
    if x.recPend then
      modE c e (fun x => { x with stat := setFld x.stat 0 2 1, hrec := setBit x.hrec 24 false, recPend := false, hlog := [] })
      modify (fun s => finishEnd s c e)
    else modE c e resumeEng
  nextPC c 4

/-- SRESUME: major 0x28, SUB 0001 (09 R355). -/
def execSresume (c : CoreId) (f : BitVec 22) (s : State) : Host.Outcome State Fault Refusal := issueSub c 0x28 1 f .plain (sresumeBody c f) s

/-- SCANCEL: major 0x28, SUB 0010 (09 R356). -/
def execScancel (c : CoreId) (f : BitVec 22) (s : State) : Host.Outcome State Fault Refusal :=
  issueSub c 0x28 2 f .plain (do
    illegalIf (!isCompute c || fld f 0 21 != 0)
    engRing c (fld f 21 1)
    modify (fun s => cancelStream s c (fld f 21 1))
    nextPC c 4) s

/-- SWAIT: major 0x28, SUB 0011 (09 R339). -/
def execSwait (c : CoreId) (f : BitVec 22) (s : State) : Host.Outcome State Fault Refusal :=
  issueSub c 0x28 3 f .plain (do
    illegalIf (!isCompute c || fld f 0 17 != 0)
    let e := fld f 21 1
    engRing c e
    let x ← engOf c e
    waitIf (fld x.stat 0 2 == 1)
    wrD c (fld f 17 4) x.stat
    nextPC c 4) s

/-- SWAITB: major 0x28, SUB 0100 (09 R339). -/
def execSwaitb (c : CoreId) (f : BitVec 22) (s : State) : Host.Outcome State Fault Refusal :=
  issueSub c 0x28 4 f .plain (do
    illegalIf (!isCompute c || fld f 0 13 != 0)
    let e := fld f 21 1
    engRing c e
    let x ← engOf c e
    let b := (← rdD c (fld f 17 4)).toNat
    let done := decide (b < x.nblk) && bit x.stat 48 && !(fld x.stat 0 2 == 0 && fld x.stat 7 2 == 2) && decide (b ≤ fld x.stat 32 16)
    let running := bit x.stat 0
    waitIf (running && !done && decide (b < x.nblk))
    wrD c (fld f 13 4) (n64 (b01 done))
    nextPC c 4) s

/-! ### What the engines do on their own (09 R323, R328, R341, R343, R345, R353) -/

/-- A block just issued. -/
def BlockProg.fresh (b : Nat) (ws : List U64) (ok free : Bool) : BlockProg :=
  { blk := b, ws := ws, ok := ok, landed := [], freeTaken := free, reads := [], elems := [], swapped := [] }

/-- The fault of an inconsistent or unreadable block: it stands at the block's first granule (09 R329). -/
def faultBlock (s : State) (c : CoreId) (e b subc : Nat) (addr : U64) : State :=
  s.modCore c (fun k => k.modEng e (fun x => { x with
    blocks := x.blocks ++ [BlockProg.fresh b [] false false], nextBlk := b + 1,
    faults := x.faults ++ [{ blk := b, gran := 0, subc := subc, addr := addr }] }))

/-- A block whose descriptor passes issues, when its pair and barrier let it (09 R341, R343, R345). -/
def issueBlock (s : State) (c : CoreId) (e b : Nat) (d : Desc) : State :=
  let k := s.core c
  let pair := vget k.str.sem (Desc.pair d) 0
  let gen := (vget s.barriers (Desc.bid d) Barrier.reset).gen
  if Desc.freew d && bit pair 32 then
    endIfDone (s.modCore c (fun k => k.modEng e (fun x => { x with poisoned := true }))) c e
  else if (Desc.freew d && fld pair 16 16 == 0) || (Desc.bwait d && decide (32768 ≤ (gen - BitVec.ofNat 16 (Desc.bgen d)).toNat)) then s
  else
    s.modCore c (fun k =>
      let k := if Desc.freew d then k.modPair (Desc.pair d) (fun w => setFld w 16 16 (fld w 16 16 - 1)) else k
      k.modEng e (fun x => { x with blocks := x.blocks ++ [BlockProg.fresh b d true (Desc.freew d)], nextBlk := b + 1 }))

/-- An engine runs and neither ends nor is being cancelled. -/
def StreamEng.active (x : StreamEng) : Bool := fld x.stat 0 2 == 1 && !x.cancelled && x.ending.isNone

/-- STREAM_BLOCK_ISSUE: the next block's descriptor is read, checked in TRANSLATED mode, and the block issues, unless the function
of the core takes no new work (09 R323, R329; 15 R555). -/
def execStreamBlockIssue (c : CoreId) (e : Fin 2) (s : State) : Host.Outcome State Fault Refusal :=
  .next (
    let x := (s.core c).eng e.val
    let b := x.nextBlk
    if vget s.cur.fns (coreFn c) .enabled ≠ .enabled ∨ !x.active ∨ x.poisoned ∨ !x.faults.isEmpty ∨ x.nblk ≤ b ∨ x.blocks.any (fun q => decide (q.blk + 4 ≤ b)) then s
    else match readDesc c e.val x.list b s with
    | .ok d s1 =>
      let df := (Desc.out d x.cmod x.cprof).1
      let bad := if x.cmode then none else
        (match Desc.reason d df (engPhys s1 x .load) with
         | some r => some r
         | none => if Desc.badOverlap d df then some (0x14, none) else none)
      (match bad with
       | some (r, a) => faultBlock { s1 with free := s1.free + 1 } c e.val b r (a.getD (n64 (Config.freeNat s1.free)))
       | none => issueBlock s1 c e.val b d)
    | .error (.trap cause _ info _) s1 => faultBlock s1 c e.val b cause info
    | .error (.hall r _) _ => engAsk s c e.val r
    | .error (.abort w) _ => (match (s.core c).engTask x with
      | some t => abortTask s c t w
      | none => s)
    | .error _ _ => s)

/-- The granules in flight when one faults. The model has no command that issues a granule: every one up to the last that has read or
landed is, and how many more the engine has issued is a free choice (09 R353; log 1). -/
def flightAt (s : State) (x : StreamEng) (p : Nat × Nat) : List (Nat × Nat) :=
  let l := inFlight s x
  let upTo (a b : Nat × Nat) : Bool := decide (a.1 < b.1 ∨ (a.1 = b.1 ∧ a.2 ≤ b.2))
  let seen (q : BlockProg) (g : Nat) : Bool := q.ok && q.isRead (x.conv q.ws) g
  let last := x.blocks.foldl (fun a q => (List.range (Desc.granules q.ws).length).foldl (fun a g => if seen q g && upTo a (q.blk, g) then (q.blk, g) else a) a) p
  let n := (l.filter (fun q => upTo q last)).length
  l.take (n + Config.freeNat s.free % (l.length + 1 - n))

/-- A granule faults: nothing more issues, and poison is reported (09 R353; 08 R293). -/
def faultGran (s : State) (c : CoreId) (e : Nat) (p : Nat × Nat) (cause : Nat) (info : U64) : State :=
  let l := flightAt s ((s.core c).eng e) p
  let s := if cause = 0x33 then machineCheck s c 2 info.toNat else s
  { s.modCore c (fun k => k.modEng e (fun x => { x with
      faults := x.faults ++ [{ blk := p.1, gran := p.2, subc := cause, addr := info }], inflight := some l })) with free := s.free + 1 }

/-- Whether a granule has faulted. -/
def StreamEng.faulted (x : StreamEng) (b g : Nat) : Bool := x.faults.any (fun q => q.blk == b && q.gran == g)

/-- What stopped a granule: a fault, a hall access to ask for, or a task to abort. -/
def granStop (s : State) (c : CoreId) (e : Nat) (p : Nat × Nat) (q : Stop) : State :=
  match q with
  | .trap cause _ info _ => faultGran s c e p cause info
  | .hall r _ => engAsk s c e r
  | .abort w => (match (s.core c).engTask ((s.core c).eng e) with
    | some t => abortTask s c t w
    | none => s)
  | _ => s

/-- GRANULE_LANDS: a granule in flight reads its source, unless it has, and lands, or faults (09 R322, R327, R348 to R350, R353). -/
def execGranuleLands (c : CoreId) (e : Fin 2) (blk : BitVec 16) (g : Nat) (s : State) : Host.Outcome State Fault Refusal :=
  .next (
    let x := (s.core c).eng e.val
    match x.block blk.toNat with
    | none => s
    | some b =>
      if !x.active ∨ !b.ok ∨ (Desc.granules b.ws).length ≤ g ∨ b.has g ∨ x.faulted b.blk g ∨ !(inFlight s x).contains (b.blk, g)
          ∨ (b.isRead (x.conv b.ws) g ∧ !b.reads.any (fun r => r.1 == g)) ∨ (!b.isRead (x.conv b.ws) g ∧ mustWait s x b g) then s
      else
        let w := s.worker c e.val
        if (x.conv b.ws).square then
          (match squareGran w b g s with
           | .ok _ s1 => s1
           | .error q _ => granStop s c e.val (b.blk, g) q)
        else match readOnce w b g s with
          | .ok y s1 => (match finishGran w ((((s1.core c).eng e.val).block b.blk).getD b) g y s1 with
            | .ok _ s2 => s2
            | .error q _ => granStop s1 c e.val (b.blk, g) q)
          | .error q _ => granStop s c e.val (b.blk, g) q)

/-- STREAM_BLOCK_COMPLETE: the oldest block completes when every granule has landed; the last one ends the stream (09 R328, R340). -/
def execStreamBlockComplete (c : CoreId) (e : Fin 2) (s : State) : Host.Outcome State Fault Refusal :=
  .next (
    let x := (s.core c).eng e.val
    if !x.active then s
    else match x.ready with
    | some b => endIfDone (completeBlock s c e.val b) c e.val
    | none => s)

/-- Whether a granule in flight can make no progress: it has landed or faulted, it waits for others of its scale blocks, or an earlier
element that cannot land keeps it from reading (09 R327, R349, R353). -/
def stuckGran (s : State) (x : StreamEng) (p : Nat × Nat) : Bool :=
  match x.block p.1 with
  | some b =>
    let v := x.conv b.ws
    b.has p.2 || x.faulted p.1 p.2 || (isMX v.df && b.isRead v p.2 && !b.reads.any (fun r => r.1 == p.2))
      || (!b.isRead v p.2 && mustWait s x b p.2)
  | none => true

/-- The earliest fault of a stream in stream order. -/
def StreamEng.firstFault (x : StreamEng) : Option GranFault :=
  x.faults.foldl (fun a q => match a with
    | some f => if q.blk < f.blk ∨ (q.blk = f.blk ∧ q.gran < f.gran) then some q else some f
    | none => some q) none

/-- STREAM_HALT: a granule has faulted, every other granule in flight has landed that can, and the blocks before have completed: the
engine halts at the first granule that has not landed, with the earliest fault (09 R353, R354). -/
def execStreamHalt (c : CoreId) (e : Fin 2) (s : State) : Host.Outcome State Fault Refusal :=
  .next (
    let x := (s.core c).eng e.val
    match x.firstFault, x.blocks with
    | some q, b :: _ =>
      if x.active ∧ !b.full ∧ (inFlight s x).all (stuckGran s x) ∧ !s.fab.reqs.any (fun r => r.who == .stream c e.val) then
        let g := ((List.range (Desc.granules b.ws).length).find? (fun g => !b.has g)).getD 0
        let gr := granAt b.ws g
        let i := Desc.idx b.ws gr.1
        haltEng s c e.val b.blk q.subc
          (if b.ok then n64 (i.1 + i.2.1 <<< 16 + i.2.2.1 <<< 32 + i.2.2.2 <<< 48) else 0)
          (if b.ok then n64 ((Desc.granElems b.ws gr).1 * Desc.sb b.ws / 8) else 0) q.addr
      else s
    | _, _ => s)

/-! ### Semaphore pairs and barriers (09 R341 to R345, R360) -/

/-- SEMSIG: major 0x29, SUB 0000 (09 R341). -/
def execSemsig (c : CoreId) (f : BitVec 22) (s : State) : Host.Outcome State Fault Refusal :=
  issueSub c 0x29 0 f .plain (do
    illegalIf (!isCompute c || fld f 0 18 != 0)
    modify (fun s => signalPair s c (fld f 19 3) (bit f 18) 1)
    nextPC c 4) s

/-- SEMWAIT: major 0x29, SUB 0001 (09 R341, R343). -/
def execSemwait (c : CoreId) (f : BitVec 22) (s : State) : Host.Outcome State Fault Refusal :=
  issueSub c 0x29 1 f .plain (do
    illegalIf (!isCompute c || fld f 0 14 != 0)
    let p := fld f 19 3
    let lo := if bit f 18 then 16 else 0
    let w := vget (← coreOf c).str.sem p 0
    if bit w 32 then wrD c (fld f 14 4) 0
    else do
      waitIf (fld w lo 16 == 0)
      modC c (fun k => k.modPair p (fun w => setFld w lo 16 (fld w lo 16 - 1)))
      wrD c (fld f 14 4) 1
    nextPC c 4) s

/-- BARA: major 0x2A, SUB 0000: the core joins the generation now open (09 R344, R345). -/
def execBara (c : CoreId) (f : BitVec 22) (s : State) : Host.Outcome State Fault Refusal :=
  issueSub c 0x2A 0 f .plain (do
    illegalIf (fld f 0 18 != 0)
    let b := fld f 18 4
    let gen := (vget (← get).barriers b Barrier.reset).gen
    modify (fun s => arriveBarrier s b)
    modC c (fun k => { k with str := { k.str with bara := vput k.str.bara b (some gen) } })
    nextPC c 4) s

/-- BARW: major 0x2A, SUB 0001: it waits until the joined generation has been released (09 R345). -/
def execBarw (c : CoreId) (f : BitVec 22) (s : State) : Host.Outcome State Fault Refusal :=
  issueSub c 0x2A 1 f .plain (do
    illegalIf (fld f 0 18 != 0)
    let b := fld f 18 4
    let gen := (vget (← get).barriers b Barrier.reset).gen
    waitIf (vget (← coreOf c).str.bara b none == some gen)
    modC c (fun k => { k with str := { k.str with bara := vput k.str.bara b none } })
    nextPC c 4) s

/-- BARCFG: major 0x2A, SUB 0010 (09 R344, R360). -/
def execBarcfg (c : CoreId) (f : BitVec 22) (s : State) : Host.Outcome State Fault Refusal :=
  issueSub c 0x2A 2 f .plain (do
    illegalIf (fld f 0 14 != 0)
    let v ← rdD c (fld f 14 4)
    illegalIf (v == 0 || decide (4095 < v.toNat))
    needRing c 1
    let b := fld f 18 4
    modify (fun s =>
      let x : Barrier := { vget s.barriers b Barrier.reset with count := BitVec.ofNat 12 v.toNat, arr := 0 }
      { s with barriers := vput s.barriers b x })
    nextPC c 4) s

/-- BARGEN: major 0x2A, SUB 0011 (09 R345). -/
def execBargen (c : CoreId) (f : BitVec 22) (s : State) : Host.Outcome State Fault Refusal :=
  issueSub c 0x2A 3 f .plain (do
    illegalIf (fld f 0 14 != 0)
    let gen := (vget (← get).barriers (fld f 18 4) Barrier.reset).gen
    wrD c (fld f 14 4) (n64 gen.toNat)
    nextPC c 4) s

end Sys2Proof.Machine
end

