-- ==== Sys2Proof/Machine/Gather.lean ====
section
/-! DEFINITION. Machine/Gather.lean: gather engines: submission, the positions an engine handles, completion, refusal and
cancellation of jobs (10 R373 to R387). -/

namespace Sys2Proof.Machine

/-! ### The descriptor (10 R374) -/

/-- Word i of a job's descriptor. -/
def GJob.w (j : GJob) (i : Nat) : U64 := nth 0 j.desc i
/-- NIDX. -/
def GJob.nidx (j : GJob) : Nat := fld (j.w 3) 0 32
/-- Row length in 64-byte units; 0 means 64. -/
def GJob.rowu (j : GJob) : Nat := if fld (j.w 3) 32 6 = 0 then 64 else fld (j.w 3) 32 6
/-- OP. -/
def GJob.op (j : GJob) : Nat := fld (j.w 3) 40 2
/-- ADDF. -/
def GJob.addf (j : GJob) : Nat := fld (j.w 3) 43 2
/-- SHARD. -/
def GJob.shard (j : GJob) : Bool := bit (j.w 3) 45
/-- RPMLOG. -/
def GJob.rpm (j : GJob) : Nat := fld (j.w 3) 46 6
/-- Bytes of an index. -/
def GJob.isize (j : GJob) : Nat := if bit (j.w 3) 42 then 8 else 4
/-- Bytes between indices; 0 means the index size. -/
def GJob.ipitch (j : GJob) : Nat := if fld (j.w 5) 48 16 = 0 then j.isize else fld (j.w 5) 48 16
/-- TPITCH. -/
def GJob.tpitch (j : GJob) : Nat := fld (j.w 4) 0 32
/-- DPITCH. -/
def GJob.dpitch (j : GJob) : Nat := fld (j.w 4) 32 32
/-- NROWS. -/
def GJob.nrows (j : GJob) : Nat := fld (j.w 5) 0 48
/-- Bytes of a table row. -/
def GJob.trow (j : GJob) : Nat := 64 * j.rowu
/-- Bytes of a DATA row: half with ADDF 1. -/
def GJob.drow (j : GJob) : Nat := if j.op = 2 ∧ j.addf = 1 then 32 * j.rowu else 64 * j.rowu
/-- CALL0. -/
def GJob.call0 (j : GJob) : Nat := fld (j.w 6) 32 20
/-- Engines of the group, ascending: an engine's place is its rank (10 R376). -/
def GJob.engines (j : GJob) : List Nat := (List.range 32).filter (fun e => bit (j.w 6) e)
/-- Rank of an engine. -/
def GJob.rank (j : GJob) (e : Nat) : Nat := (j.engines.filter (fun x => decide (x < e))).length

/-- Rows of a table that lie on a module: the first of them and how many; with SHARD 0 all are here (10 R374). -/
def GJob.rowsOn (j : GJob) (call : Nat) : Nat :=
  if j.shard then (if call < j.call0 then 0 else min (2 ^ j.rpm) (j.nrows - (call - j.call0) * 2 ^ j.rpm)) else j.nrows

/-- The bytes n rows of a length span from a base at a pitch. -/
def rowSpan (base n pitch len : Nat) : Int × Int := (Int.ofNat base, Int.ofNat (base + (n - 1) * pitch + len))

/-- Whether a row lies, in part, in the ledger ring. -/
def rowsHitLedger (base n pitch len : Nat) : Bool :=
  decide (0 < n) && decide (base < 0x9000000000) &&
    (let k := if pitch = 0 then 0 else min (n - 1) ((0x9000000000 - 1 - base) / pitch)
     hitsLedger (base + k * pitch) len)

/-! ### Submission (10 R375) -/

/-- The code a descriptor is turned away with, in the order 0x14, 0x05, 0x0A, 0x08, 0x09 (10 R375; log 60). -/
def GJob.code (j : GJob) (s : State) (r : StreamRegs) : Option Nat :=
  let idx := (j.w 0).toNat
  let tb := (j.w 1).toNat
  let data := (j.w 2).toNat
  let crec := (j.w 7).toNat
  let cren := bit (j.w 6) 61
  let gat := j.op == 0
  let ring := j.ring.toNat
  let trows := j.rowsOn s.call
  let held (wr : Bool) (sp : Int × Int) : Bool :=
    decide (0 ≤ sp.1) && memRange sp.1.toNat (sp.2 - sp.1).toNat && (ring == 0 || holdOk r ring wr sp)
  let isp := rowSpan idx j.nidx j.ipitch j.isize
  let dsp := rowSpan data j.nidx j.dpitch j.drow
  let tsp := rowSpan tb trows j.tpitch j.trow
  if fld (j.w 3) 38 2 ≠ 0 ∨ fld (j.w 3) 52 12 ≠ 0 ∨ fld (j.w 6) 62 2 ≠ 0 ∨ j.op = 3 ∨ j.addf = 3 ∨ (j.addf ≠ 0 ∧ j.op ≠ 2) ∨ j.nidx = 0
      ∨ j.engines = [] ∨ (bit (j.w 6) 55 ∧ !isCompute j.core) then some 0x14
  else if idx % j.isize ≠ 0 ∨ tb % 64 ≠ 0 ∨ data % 64 ≠ 0 ∨ j.tpitch % 64 ≠ 0 ∨ j.dpitch % 64 ≠ 0 ∨ crec % 64 ≠ 0 then some 0x05
  else if (j.shard ∧ ring = 3) ∨ bit (j.w 0) 63 ∨ bit (j.w 1) 63 ∨ bit (j.w 2) 63 ∨ bit (j.w 7) 63
      ∨ (j.shard ∧ 0xFFFFF < j.call0 + (j.nrows - 1) / 2 ^ j.rpm) then some 0x0A
  else if !held false isp ∨ (!gat ∧ !held false dsp) ∨ (trows ≠ 0 ∧ j.op ≠ 1 ∧ !held false tsp) then some 0x08
  else if (gat ∧ !held true dsp) ∨ (!gat ∧ trows ≠ 0 ∧ !held true tsp) ∨ (cren ∧ !held true (rowSpan crec 1 0 32))
      ∨ rowsHitLedger data j.nidx j.dpitch j.drow ∨ rowsHitLedger tb trows j.tpitch j.trow ∨ (cren ∧ hitsLedger crec 32) then some 0x09
  else none

/-- Put a job in every queue of its group. -/
def submitJob (s : State) (j : GJob) : State :=
  { s with gather := {
      queue := Vector.ofFn (fun e => if bit (j.w 6) e.val then s.gather.queue.get e ++ [j.id] else s.gather.queue.get e),
      jobs := s.gather.jobs ++ [j], seq := s.gather.seq + 1 } }

/-- GSUBMIT's effect. -/
def gsubmitBody (c : CoreId) (f : BitVec 22) : Op U64 := do
  illegalIf (fld f 0 14 != 0)
  let dd := fld f 14 4
  let a ← rdA c (fld f 18 4)
  trapIf (a.toNat % 64 != 0) 0x05 a
  let bs ← tileRead c a 64
  let s ← get
  let k := s.core c
  let t := k.accTask
  let j0 : GJob := {
    id := s.gather.seq, core := c, ring := k.bank.ring, task := t, tord := (k.task (t.getD 0)).ord, addr := a,
    desc := (List.range 8).map (fun i => n64 (leNat ((bs.drop (8 * i)).take 8))), next := [], complete := [], skipped := 0, fail := none, hlog := [] }
  let j : GJob := { j0 with next := List.replicate j0.engines.length 0 }
  match j.code s k.str with
  | some r => wrD c dd (n64 r)
  | none =>
    if vget s.cur.fns 8 .enabled != .enabled || j.engines.any (fun e => decide (16 ≤ (vget s.gather.queue e []).length)) then wrD c dd 1
    else do
      modify (fun s => submitJob s j)
      wrD c dd 0
  nextPC c 4

/-- GSUBMIT: major 0x2B, SUB 0000 (10 R375, R386). -/
def execGsubmit (c : CoreId) (f : BitVec 22) (s : State) : Host.Outcome State Fault Refusal := issueSub c 0x2B 0 f .plain (gsubmitBody c f) s

/-! ### Memory of a gather engine (10 R380, R381) -/

/-- A job by number. -/
def State.job (s : State) (id : Nat) : Option GJob := s.gather.jobs.find? (fun j => j.id == id)
/-- Change a job. -/
def modJob (s : State) (id : Nat) (f : GJob → GJob) : State :=
  { s with gather := { s.gather with jobs := s.gather.jobs.map (fun j => if j.id = id then f j else j) } }

/-- The task a job still belongs to. -/
def GJob.liveTask (j : GJob) (s : State) : Option Nat :=
  match j.task with
  | some t => if ((s.core j.core).task t).st != .free && ((s.core j.core).task t).ord == j.tord then some t else none
  | none => none

/-- A local access of an engine: memory must be there, and a carrel's quadrant must take accesses (15 R555). -/
def gReach (pa n : Nat) : Op Unit := do
  let s ← get
  trapIf (!memRange pa n || (isCarrel pa && (vget s.cur.fns (2 + carrelOwner pa / 32) .enabled) != .enabled)) 0x0A (n64 pa)

/-- Read local bytes and whether each is poisoned; t is the task the position works for (08 R293, R310). -/
def gRead (j : GJob) (t : Option Nat) (pa n : Nat) : Op (List (Byte × Bool)) := do
  gReach pa n
  let s ← get
  let v : View := t.map (fun t => (j.core, t))
  let bs := s.view v pa n
  set (agentRead s j.core t pa n)
  return (rng 0 n).map (fun i => (nth 0 bs i, s.poisonedFor v (pa + i) 1))

/-- Write local bytes; poison travels with them (08 R293). -/
def gWrite (j : GJob) (t : Option Nat) (pa : Nat) (bs : List (Byte × Bool)) : Op Unit := do
  gReach pa bs.length
  modify (fun s => poisonBytes (agentWrite s j.core false t pa (bs.map (fun b => b.1))) j.core t pa bs)

/-- Whether the task a position works for has been aborted since it began: what is left of the position is discarded (10 R385). -/
def GJob.gone (j : GJob) (t : Option Nat) (s : State) : Bool := t.any (fun t => ((s.core j.core).task t).st == .free)

/-- The answer of a hall access of rank r: the logged one, or a wait for it. -/
def gAwait (id r : Nat) (q : HallReq) : Op HallRes := do
  let s ← get
  match (s.job id).bind (fun j => j.hlog.find? (fun h => h.1 == r && h.2.1 == q)) with
  | some h => do
    modify (fun s => modJob s id (fun j => { j with hlog := j.hlog.erase h }))
    return h.2.2
  | none => throw (.hall q 0)

/-- The global address of an offset on a module. -/
def gAddr (call off : Nat) : U64 := n64 (off + call <<< 40 + 1 <<< 63)

/-- Read a remote row in packets of up to 256 bytes. -/
def gReadFar (j : GJob) (t : Option Nat) (r call : Nat) : List (Nat × Nat) → Op (List (Byte × Bool))
  | [] => pure []
  | (off, n) :: ps => do
    let s ← get
    if j.gone t s then return []
    let q : HallReq := { addr := gAddr call off, op := .read n t.isSome }
    trapIf (decide (2 ^ 40 < off + n) || s.hallDest q != .away) 0x0A q.addr
    match ← gAwait j.id r q with
    | .refused _ => trap 0x0A q.addr
    | .ok d pm => do
      let rest ← gReadFar j t r call ps
      return (rng 0 n).map (fun i => (nth 0 d i, pm >>> (i / 64) % 2 == 1)) ++ rest

/-- Write a remote row in packets of up to 256 bytes. -/
def gWriteFar (j : GJob) (r call : Nat) : List (Nat × Nat) → List (Byte × Bool) → Op Unit
  | [], _ => pure ()
  | (off, n) :: ps, bs => do
    let s ← get
    let pm := ((List.range (n / 64)).map (fun i => if (((bs.take n).drop (64 * i)).take 64).any (fun b => b.2) then 2 ^ i else 0)).sum
    let q : HallReq := { addr := gAddr call off, op := .write ((bs.take n).map (fun b => b.1)) pm }
    trapIf (decide (2 ^ 40 < off + n) || s.hallDest q != .away) 0x0A q.addr
    match ← gAwait j.id r q with
    | .refused _ => trap 0x0A q.addr
    | .ok _ _ => gWriteFar j r call ps (bs.drop n)

/-- A row cut into pieces of 256 bytes. -/
def farPieces (off n : Nat) : List (Nat × Nat) := (List.range (cdiv n 256)).map (fun i => (off + 256 * i, min 256 (n - 256 * i)))

/-! ### A position (10 R376 to R380) -/

/-- The engine, by rank, that owns an index among g (10 R376). -/
def ownRank (x : U64) (g : Nat) : Nat := fld (x * 0x9E3779B97F4A7C15#64) 32 32 * g / 2 ^ 32

/-- Where a table row lies: its module, none for this one, and its address there (10 R374, R381). -/
def GJob.rowAt (j : GJob) (own x : Nat) : Option Nat × Nat :=
  if j.shard then
    let call := j.call0 + x / 2 ^ j.rpm
    (if call = own then none else some call, (j.w 1).toNat + x % 2 ^ j.rpm * j.tpitch)
  else (none, (j.w 1).toNat + x * j.tpitch)

/-- Whether an address is a byte of one of n rows. -/
def inRows (base n pitch len a : Nat) : Bool :=
  let k := if pitch = 0 then 0 else min (n - 1) ((a - base) / pitch)
  decide (0 < n) && decide (base ≤ a) && decide (a < base + k * pitch + len)

/-- Whether what is written at an address is not defined: it is one of the job's indices, or, in a GATHER, of its table rows (10
R380; log 1). -/
def GJob.undef (j : GJob) (own a : Nat) : Bool :=
  inRows (j.w 0).toNat j.nidx j.ipitch j.isize a || (j.op == 0 && inRows (j.w 1).toNat (j.rowsOn own) j.tpitch j.trow a)

/-- Bytes to write with the undefined ones free. -/
def GJob.blur (j : GJob) (s : State) (pa : Nat) (bs : List (Byte × Bool)) : List (Byte × Bool) :=
  (rng 0 bs.length).map (fun i => if j.undef s.call (pa + i) then (BitVec.ofNat 8 (Config.freeNat (s.free + i)), false) else nth (0, false) bs i)

/-- Write a row to this module. -/
def gStore (j : GJob) (t : Option Nat) (pa : Nat) (bs : List (Byte × Bool)) : Op Unit := do
  let s ← get
  gWrite j t pa (j.blur s pa bs)
  useFree bs.length

/-- The sum of a table element and a source element, both 4-byte codes or the source widened (10 R378). -/
def GJob.sum (j : GJob) (t x : Nat) : Nat :=
  match j.addf with
  | 0 => (deliver fp32 .rne ((decodeF fp32 t).add false (decodeF fp32 x))).1
  | 1 => (deliver fp32 .rne ((decodeF fp32 t).add false (decodeF bf16 x))).1
  | _ => (t + x) % 2 ^ 32

/-- A table row with a source row added, element by element. -/
def GJob.addRow (j : GJob) (t x : List (Byte × Bool)) : List (Byte × Bool) :=
  let n := if j.addf = 1 then 2 else 4
  (List.range (j.trow / 4)).flatMap (fun i =>
    let a := (t.drop (4 * i)).take 4
    let b := (x.drop (n * i)).take n
    let bad := a.any (fun p => p.2) || b.any (fun p => p.2)
    (leBytes 4 (j.sum (leNat (a.map (fun p => p.1))) (leNat (b.map (fun p => p.1))))).map (fun y => (y, bad)))

/-- Consumed poison raises machine check on the core that submitted (08 R293; log 61). -/
def gConsume (j : GJob) (pa : Nat) (bs : List (Byte × Bool)) : Op Unit :=
  if bs.any (fun b => b.2) then modify (fun s => machineCheck s j.core 2 pa) else pure ()

/-- Copy a row (GATHER), or write or add one (SCATTER, SCATTER-ADD). -/
def gRow (j : GJob) (t : Option Nat) (r p x : Nat) : Op Unit := do
  let s ← get
  let at' := j.rowAt s.call x
  let da := (j.w 2).toNat + p * j.dpitch
  match j.op, at'.1 with
  | 0, none => do
    let bs ← gRead j t at'.2 j.trow
    gStore j t da bs
  | 0, some call => do
    let bs ← gReadFar j t r call (farPieces at'.2 j.trow)
    gStore j t da bs
  | 1, none => do
    let bs ← gRead j t da j.trow
    gStore j t at'.2 bs
  | 1, some call => do
    if t.isSome then throw (.abort 4)
    let bs ← gRead j t da j.trow
    gWriteFar j r call (farPieces at'.2 j.trow) bs
  | _, _ => do
    let bs ← gRead j t da j.drow
    let old ← gRead j t at'.2 j.trow
    gConsume j da bs
    gConsume j at'.2 old
    gStore j t at'.2 (j.addRow old bs)

/-- Count an out-of-range position; GATHER writes zeros (10 R377). -/
def gSkip (j : GJob) (t : Option Nat) (p : Nat) : Op Unit := do
  modify (fun s => modJob s j.id (fun j => { j with skipped := j.skipped + 1 }))
  if j.op = 0 then gStore j t ((j.w 2).toNat + p * j.dpitch) (List.replicate j.trow (0, false))

/-- What the engine of rank r does at position p of a job, and whether the position is that engine's. -/
def gPosition (j : GJob) (t : Option Nat) (r p : Nat) : Op Bool := do
  let g := j.engines.length
  if j.op = 0 ∧ p % g ≠ r then return false
  let ia := (j.w 0).toNat + p * j.ipitch
  let ib ← gRead j t ia j.isize
  let x : Int := sx (8 * j.isize) (leNat (ib.map (fun b => b.1)))
  if j.op ≠ 0 ∧ ownRank (w64 x) g ≠ r then return false
  gConsume j ia ib
  if x = -1 then return true
  let s ← get
  if x < 0 ∨ Int.ofNat j.nrows ≤ x ∨ (j.op = 2 ∧ (j.rowAt s.call x.toNat).1.isSome) then gSkip j t p
  else gRow j t r p x.toNat
  return true

/-- The positions a job takes: all, or those below the lowest that failed (10 R382). -/
def GJob.limit (j : GJob) : Nat := j.fail.getD j.nidx

/-- The least position some engine of the group has not passed. -/
def GJob.behind (j : GJob) : Nat := j.next.foldl min j.nidx

/-- A rank is past its position, which is complete when it is that rank's. -/
def GJob.step (j : GJob) (r : Nat) (mine : Bool) : GJob :=
  let j1 : GJob := { j with
    next := (List.range j.next.length).map (fun i => nth 0 j.next i + (if i = r then 1 else 0)), hlog := j.hlog.filter (fun h => h.1 != r) }
  { j1 with complete := ((if mine then [nth 0 j.next r] else []) ++ j.complete).filter (fun p => decide (j1.behind ≤ p)) }

/-- The job an engine works on: the first in its queue that has positions left for it (10 R373, R376). -/
def State.jobAt (s : State) (e : Nat) : Option GJob :=
  ((vget s.gather.queue e []).filterMap s.job).find? (fun j => decide (nth 0 j.next (j.rank e) < j.limit))

/-- Ask for a hall access of a job's rank, unless it has been asked for or one to the same granule is outstanding (11 R410). -/
def gAsk (s : State) (id r : Nat) (q : HallReq) : State :=
  if s.holdsBack (.gather id r) q then s else sendHall s (.gather id r) true q

/-- GATHER_POSITION: an engine takes the next position of its job (10 R376 to R382). -/
def execGatherPosition (e : Fin 32) (s : State) : Host.Outcome State Fault Refusal :=
  .next (match s.jobAt e.val with
    | none => s
    | some j =>
      let r := j.rank e.val
      let p := nth 0 j.next r
      match gPosition j (j.liveTask s) r p s with
      | .ok mine s1 => modJob s1 j.id (fun j => j.step r mine)
      | .error (.trap _ _ _ _) _ => modJob s j.id (fun j => { j with fail := some (min (j.fail.getD p) p), hlog := j.hlog.filter (fun h => h.1 != r) })
      | .error (.hall q _) _ => gAsk s j.id r q
      | .error (.abort w) _ => (match j.liveTask s with
        | some t => abortTask s j.core t w
        | none => s)
      | .error _ _ => s)

/-! ### Ends of a job (10 R382 to R385) -/

/-- The record's bytes (10 R383). -/
def grecBytes (s : State) (fin reason skipped fail : Nat) : List Byte :=
  wordBytes [n64 (fin + reason <<< 8), s.hallt, n64 (skipped % 2 ^ 32 + (fail % 2 ^ 32) <<< 32), 0]

/-- Take a job off every queue; answers to its hall accesses go nowhere. -/
def dropJob (s : State) (id : Nat) : State :=
  { s with
    gather := { s.gather with
      jobs := s.gather.jobs.filter (fun j => j.id != id), queue := vmap (fun q => q.filter (fun i => i != id)) s.gather.queue },
    fab := { s.fab with reqs := s.fab.reqs.filter (fun q => match q.who with
      | .gather i _ => i != id
      | _ => true) } }

/-- End a job: its record, and its signals when it is done (10 R383). -/
def endJob (s : State) (j : GJob) (fin reason fail : Nat) : State :=
  let t := j.liveTask s
  let s1 := if bit (j.w 6) 61 then signal s j.core t (.record (j.w 7).toNat (grecBytes s fin reason j.skipped fail)) else s
  let s2 := if fin = 0 ∧ bit (j.w 6) 55 then signal s1 j.core t (.fill (fld (j.w 6) 52 3)) else s1
  let s3 := if fin = 0 ∧ bit (j.w 6) 60 then signal s2 j.core t (.barrier (fld (j.w 6) 56 4)) else s2
  dropJob s3 j.id

/-- Every engine is past the positions a job takes. -/
def GJob.done (j : GJob) : Bool := j.next.all (fun p => decide (j.limit ≤ p))

/-- The lowest position that is not complete: every position all engines have passed is (10 R384). -/
def GJob.lowest (j : GJob) : Nat :=
  min j.nidx ((((List.range (j.complete.length + 1)).map (fun i => j.behind + i)).find? (fun p => !j.complete.contains p)).getD j.nidx)

/-- GATHER_JOB_COMPLETE: every position is complete (10 R383). -/
def execGatherJobComplete (id : Nat) (s : State) : Host.Outcome State Fault Refusal :=
  .next (match s.job id with
    | some j => if j.fail.isNone && j.done then endJob s j 0 0 0 else s
    | none => s)

/-- Whether an engine of a job waits for the answer of a hall access. -/
def State.jobAsks (s : State) (id : Nat) : Bool := s.fab.reqs.any (fun q => match q.who with
  | .gather i _ => i == id
  | _ => false)

/-- GATHER_JOB_REFUSED: a remote access was refused, and what was issued has landed or failed (10 R382). -/
def execGatherJobRefused (id : Nat) (s : State) : Host.Outcome State Fault Refusal :=
  .next (match s.job id with
    | some j => (match j.fail with
      | some f => if j.done && !s.jobAsks id then endJob s j 2 0x0A f else s
      | none => s)
    | none => s)

/-- GCANCEL: major 0x2B, SUB 0001 (10 R384). -/
def execGcancel (c : CoreId) (f : BitVec 22) (s : State) : Host.Outcome State Fault Refusal :=
  issueSub c 0x2B 1 f .plain (do
    illegalIf (fld f 0 18 != 0)
    let a ← rdA c (fld f 18 4)
    let k ← coreOf c
    match (← get).gather.jobs.find? (fun j => j.core == c && j.addr == a && !(j.fail.isNone && j.done)) with
    | none => nextPC c 4
    | some j => do
      trapIf (decide (j.ring.toNat < k.ring)) 0x02
      modify (fun s => endJob s j 1 0 j.lowest)
      nextPC c 4) s

/-- An answer, or a timeout, of a job's hall access (11 R406, R410). -/
def gatherAnswered (s : State) (id r : Nat) (q : HallReq) (res : HallRes) : State :=
  modJob s id (fun j => { j with hlog := j.hlog ++ [(r, q, res)] })

/-- Cancel every job, as FN8's disabling does; a pair an aborted job would have filled is poisoned (15 R555, R556). -/
def cancelJobs (s : State) : State :=
  s.gather.jobs.foldl (fun s j =>
    let s := if bit (j.w 6) 55 then s.modCore j.core (fun k => k.modPair (fld (j.w 6) 52 3) (fun w => setBit w 32 true)) else s
    endJob s j 1 1 j.lowest) s

end Sys2Proof.Machine
end

