-- ==== Sys2Proof/Machine/Answer.lean ====
section
/-! DEFINITION. Machine/Answer.lean: what becomes of the answer, the refusal or the timeout of a hall access (11 R406, R410, R411). -/

namespace Sys2Proof.Machine

/-- The task a hall access belongs to, if it still exists (08 R310). -/
def reqTask (s : State) (q : PendReq) : Option (CoreId × Nat) :=
  match q.who with
  | .core c => (s.core c).accTask.map (fun t => (c, t))
  | .stream c e => ((s.core c).engTask ((s.core c).eng e)).map (fun t => (c, t))
  | .gather id _ => (s.job id).bind (fun j => (j.liveTask s).map (fun t => (j.core, t)))

/-- The lines a watched read names at its target, with SPACE above OFFSET: (call, line, tag) (11 R395, R411). -/
def watchLines (q : PendReq) : List (Nat × Nat × Nat) :=
  match q.req.op with
  | .read n true => (linesOf (fld q.req.addr 0 40 + fld q.req.addr 60 3 <<< 40) n).map (fun l => (fld q.req.addr 40 20, l, q.tag.toNat))
  | _ => []

/-- The watches of an answered read belong to its task; a task that has gone releases them (08 R310, R314). -/
def keepWatches (s : State) (q : PendReq) : State :=
  match watchLines q, reqTask s q with
  | [], _ => s
  | ws, some (c, t) => s.modCore c (fun k => k.setTask t (fun x => { x with watches := x.watches ++ ws }))
  | ws, none => relWatches s ws

/-- A core's hall access is answered: the instruction that waits for it can be executed again (11 R406). -/
def coreAnswered (s : State) (c : CoreId) (tag : BitVec 32) (r : HallReq) (res : HallRes) : State :=
  if (s.core c).ex.hwait = some tag then
    s.modCore c (fun k => { k with ex := { k.ex with hwait := none, hlog := k.ex.hlog ++ [(r, res)] } })
  else s

/-- A request's answer goes to the agent that waits for it (11 R406). -/
def answered (s : State) (q : PendReq) (res : HallRes) : State :=
  let s := { s with fab := { s.fab with reqs := s.fab.reqs.filter (fun x => x.tag != q.tag) } }
  match q.who with
  | .core c => coreAnswered s c q.tag q.req res
  | .stream c e => streamAnswered s c e q.req res
  | .gather id r => gatherAnswered s id r q.req res

/-- Tasks that hold a watch on a module: what breaks every one of those watches aborts them (11 R411). -/
def breakHeld (s : State) (call : Nat) : State :=
  abortTasks s 1 (s.tasksOf (fun t => t.watches.any (fun w => w.1 == call)))

/-- A request ends as a refusal with a STATUS; FUNCTION_UNAVAILABLE breaks the watches held on its target (11 R406, R411). -/
def refuseReq (s : State) (q : PendReq) (code : Nat) : State :=
  let s := if code = 3 then breakHeld s (fld q.req.addr 40 20) else s
  answered s q (.refused code)

/-- Every pending request ends as a refusal. -/
def refuseAll (s : State) (code : Nat) : State := s.fab.reqs.foldl (fun s q => answered s q (.refused code)) s

/-- The pending request a tag names (11 R395). -/
def State.reqOf (s : State) (tag : BitVec 32) : Option PendReq := s.fab.reqs.find? (fun q => q.tag == tag)

/-- REQUEST_TIMEOUT: a request that has no answer within FE_CTL.TMO ends as a refusal (11 R410). -/
def execRequestTimeout (tag : BitVec 32) (s : State) : Host.Outcome State Fault Refusal :=
  .next (match s.reqOf tag with
    | some q => answered ((s.advanceTo q.deadline).timedOut) q (.refused 0)
    | none => s)

end Sys2Proof.Machine
end

