-- ==== Sys2Proof/Machine/Functions.lean ====
section
/-! DEFINITION. Machine/Functions.lean: functions and their disabling, draining and reset; starting and stopping cores (15 R554 to
R560; 11 R436; 16 R571, R572). -/

namespace Sys2Proof.Machine

/-- The state of a function (15 R554). -/
def State.fnState (s : State) (fn : Nat) : FnSt := vget s.cur.fns fn .enabled
/-- A function's state set. -/
def State.setFn (s : State) (fn : Nat) (x : FnSt) : State := { s with cur := { s.cur with fns := vput s.cur.fns fn x } }
/-- The work under way on a function. -/
def State.fnWork (s : State) (fn : Nat) : Option FnWork := vget s.cur.work fn none
/-- It set. -/
def State.setWork (s : State) (fn : Nat) (w : Option FnWork) : State := { s with cur := { s.cur with work := vput s.cur.work fn w } }

/-- The cores a function holds. -/
def fnCores (fn : Nat) : List CoreId := (List.finRange 144).filter (fun c => coreFn c == fn)

/-! ### Cores stopped and started (15 R559, R560; 16 R571, R572) -/

/-- Where an interrupted core resumes: at its oldest unretired instruction (07 R276, 03 R113). -/
def Core.resumePC (k : Core) : U64 := match k.tile.queue with
  | e :: _ => e.pc
  | [] => k.pc

/-- A core executes, waits for a hall access, or is halted for debug. -/
def Core.active (k : Core) : Bool := k.ex.run == .running || k.ex.run == .halted

/-- Stop an active core at its next boundary, discarding what has not retired (15 R544, R559). -/
def haltByOrder (s : State) (c : CoreId) (r : StopReason) : State :=
  if (s.core c).active then
    let p := (s.core c).resumePC
    stopCore (discardTiles s c) c r 0 0 p
  else s

/-- Write the words of a gloss entry, commit and lock it (16 R571). -/
def loadGloss (s : State) (c : CoreId) (g : Nat × List U64) : State :=
  if 32 ≤ g.1 then s
  else
    let s := s.modCore c (fun k => { k with ex := { k.ex with
      glSel := n64 g.1,
      glTab := (List.range 17).foldl (fun t i =>
        let w := nth 0 g.2 i
        vput t (17 * g.1 + i) (if i = 0 then w &&& fmask 0 4 else w)) k.ex.glTab } })
    let s := glCommit s c
    s.modCore c (fun k => { k with ex := { k.ex with glLock := k.ex.glLock ||| BitVec.ofNat 32 (1 <<< g.1), glSel := 0, glErr := 0 } })

/-- The Curator fills a core's gloss table before its first instruction (16 R571). -/
def loadGlosses (s : State) (c : CoreId) : State := s.plat.img.glosses.foldl (fun s g => loadGloss s c g) s

/-- A core as a reset of its function leaves it: a stop record with reason command, arrays as fused and weeded, glosses loaded
(02 R64; 07 R260; 16 R571, R572). -/
def resetCore (s : State) (c : CoreId) : State :=
  let k := Core.reset
  let k := { k with
    ex := { k.ex with
      cycBase := n64 (s.clkOf c), run := if s.plat.parked.contains c.val then .parked else .stopped .command,
      stop := { StopRec.none with valid := true, time := s.hallt } },
    tile := { k.tile with fused := vget s.plat.fused c.val 0, weeded := vget s.plat.weeded c.val 0 } }
  loadGlosses (s.setCore c k) c

/-- Start a core at an entry in ring 0, bank B0, masked; the record is cleared (15 R560). -/
def startCore (s : State) (c : CoreId) (entry : U64) : State :=
  s.modCore c (fun k =>
    let b : Bank := { k.rr.banks.get 0 with ring := 0, gm := true, pc := entry }
    Core.syncMask {
      k with
        rr := { k.rr with banks := k.rr.banks.set 0 b, cur := 0, busy := k.rr.busy ||| 1 },
        tile := { k.tile with waitPair := none },
        ex := { k.ex with run := .running, stop := StopRec.none, afterRte := false, bpSkip := false, hlog := [], hwait := none } } s.now)

/-- Hub core 128 starts at the entry of the hub boot image, once one has been accepted (16 R572, R573). -/
def startHub (s : State) : State :=
  match s.plat.hubEntry with
  | some e => if s.fnState 1 == .enabled && (s.core 128).ex.run != .parked then { startCore s 128 e with plat := { s.plat with hubUp := true } } else s
  | none => s

/-! ### Drain and abort (15 R555, R556) -/

/-- Work of a function is still in flight (15 R555). -/
def drainBusy (s : State) (fn : Nat) : Bool :=
  let mine (c : CoreId) : Bool := coreFn c == fn
  if 1 ≤ fn ∧ fn ≤ 5 then
    s.fab.reqs.any (fun q => match q.who with
      | .core c => mine c
      | .stream c _ => mine c
      | .gather _ _ => false)
    || (fnCores fn).any (fun c => ((s.core c).active && (s.core c).midway) || !(s.core c).tile.queue.isEmpty ||
      (List.range 2).any (fun e => fld ((s.core c).eng e).stat 0 2 == 1 && ((s.core c).eng e).faults.isEmpty && ((s.core c).eng e).blocks.any (fun b => b.ok)))
  else if fn = 6 then !s.fab.reqs.isEmpty || !s.fab.planQ.isEmpty
  else if fn = 7 then s.led.quiet.isSome || s.led.window.isSome
  else if fn = 8 then !s.gather.jobs.isEmpty
  else false

/-- Poison a pair of a core (09 R343). -/
def poisonPair (s : State) (c : CoreId) (p : Nat) : State := s.modCore c (fun k => k.modPair p (fun w => setBit w 32 true))

/-- The pairs the blocks of a stream that have not completed would have filled, or every pair when a descriptor cannot be read
(15 R556). -/
def streamPairs (s : State) (c : CoreId) (e : Nat) : List Nat :=
  let x := (s.core c).eng e
  let bs := ((x.blocks.filter (fun b => !b.ok)).map (fun b => b.blk)) ++ rng x.nextBlk (x.nblk - x.nextBlk)
  let live := ((x.blocks.filter (fun b => b.ok && Desc.fills b.ws)).map (fun b => Desc.pair b.ws))
  let rest := bs.map (fun b => match readDesc c e x.list b s with
    | .ok d _ => some (if Desc.fills d then [Desc.pair d] else [])
    | .error _ _ => none)
  if rest.any (fun r => r.isNone) then List.range 8 else live ++ rest.flatMap (fun r => r.getD [])

/-- Abort a stream of a function: its pairs are poisoned and it ends as SCANCEL ends it, END 1 and REASON 0x01. A stream whose end was decided before
only loses the record it still waits to write; so does one whose record would go through the hall (15 R555, R556; log 46). -/
def abortStream (s : State) (c : CoreId) (e : Nat) : State :=
  let ended := ((s.core c).eng e).ending.isSome
  let ps := if ended then [] else streamPairs s c e
  let s := ps.foldl (fun s p => poisonPair s c p) s
  let s := s.modCore c (fun k => k.modEng e (fun x => { x with crec := x.crec.filter (fun a => !bit a 63) }))
  if ended then finishEnd s c e else endStream s c e 1 1

/-- The streams of a function's cores that have not ended. -/
def fnStreams (s : State) (fn : Nat) : List (CoreId × Nat) :=
  (fnCores fn).flatMap (fun c => ((List.range 2).filter (fun e => fld ((s.core c).eng e).stat 0 2 != 0)).map (fun e => (c, e)))

/-- The hall requests of a function's cores and engines are forgotten: their answers find nobody. -/
def dropReqs (s : State) (fn : Nat) : State :=
  { s with fab := { s.fab with reqs := s.fab.reqs.filter (fun q => match q.who with
      | .core c => coreFn c != fn
      | .stream c _ => coreFn c != fn
      | .gather _ _ => fn != 8) } }

/-- Mark plans broken; those a port's going down breaks are reported to the Curator (11 R420, R436; 15 R555). -/
def breakPlans (s : State) (ps : List Nat) (report : Bool) : State :=
  { s with
    fab := { s.fab with
      broken := ps.foldl (fun l p => setAdd p l) s.fab.broken, held := s.fab.held.filter (fun u => !ps.contains u.plan),
      runs := s.fab.runs.filter (fun r => !ps.contains r.plan) },
    cur := { s.cur with brokenRep := if report then ps.foldl (fun l p => setAdd p l) s.cur.brokenRep else s.cur.brokenRep } }

/-- Abort what remains of a function's work; answers how many items (15 R555). -/
def abortFn (s : State) (fn : Nat) : State × Nat :=
  if 1 ≤ fn ∧ fn ≤ 5 then
    let strs := fnStreams s fn
    let tiles := ((fnCores fn).map (fun c => (s.core c).tile.queue.length + b01 (s.core c).tile.waitPair.isSome)).sum
    let box := if fn = 1 ∧ (s.box 0).slip.isSome then 1 else 0
    let s := strs.foldl (fun s x => abortStream s x.1 x.2) s
    let s := (fnCores fn).foldl (fun s c =>
      let s := (s.core c).tile.queue.foldl (fun s e => match e.sem with
        | some p => poisonPair s c p
        | none => s) s
      let s := match (s.core c).tile.waitPair with
        | some p => (poisonPair s c p).modCore c (fun k => { k with tile := { k.tile with waitPair := none } })
        | none => s
      let s := if (s.core c).active then stopCore s c .command 0 0 (s.core c).pc else s
      if (s.core c).tile.queue.isEmpty then s
      else
        let p := (s.core c).resumePC
        (discardTiles s c).modCore c (fun k => { k with ex := { k.ex with stop := { k.ex.stop with pc := p } } })) s
    let s := if fn = 1 then s.modBox 0 (fun m => { m with slip := none, reply := none, stat := setBit m.stat 0 false }) else s
    (dropReqs s fn, strs.length + tiles + box)
  else if fn = 6 then
    let n := s.fab.reqs.length + s.fab.planQ.length
    let s := refuseAll s 3
    let s := breakPlans s (s.fab.planQ.map (fun w => fld w 0 12) ++ s.fab.held.map (fun u => u.plan)) false
    ({ s with fab := { s.fab with planQ := [] } }, n)
  else if fn = 7 then (s.modLed (fun l => { l with voted := true, votedDirty := true, heldGo := none }), 0)
  else if fn = 8 then (dropReqs (cancelJobs s) 8, s.gather.jobs.length)
  else if fn = 9 then (s.modPow (fun p => { p with broker := none }), 0)
  else (s, 0)

/-- The ledger pairs are poisoned while FN6 or FN7 is not enabled, and waiting packets are taken when both are (15 R556; 12 R463). -/
def ledgerPairs (s : State) : State :=
  let off := s.fnState 6 != .enabled || s.fnState 7 != .enabled
  let s := s.modLed (fun l => { l with pairs := vmap (fun w => setBit w 32 off) l.pairs })
  if s.fnState 7 == .enabled then ledDrain s else s

/-- Answer the slips that wait for the end of a function's disabling or reset; RET0 counts the aborted items (15 R555, R557). -/
def answerWaits (s : State) (ws : List (Nat × Bool)) (n : Nat) : State := ws.foldl (fun s w => reply s w.1 stOK [n64 n] []) s

/-- Intake stops: the function becomes DRAINING (15 R555). -/
def startDrain (s : State) (fn drain : Nat) (waits : List (Nat × Bool)) (reset stay : Bool) : State :=
  let s := (s.setFn fn .draining).setWork fn (some {
    drain := drain, limit := s.now + 1000 * drain, aborts := 0, reset := reset, stay := stay, waits := waits })
  let s := if 1 ≤ fn ∧ fn ≤ 5 then
      (fnCores fn).foldl (fun s c => if (s.core c).active then stopAtBoundary s c else s) s
    else s
  if fn = 6 ∨ fn = 7 then
    (ledEmpty s).modLed (fun l => { l with pairs := vmap (fun _ => 0x100400000#64) l.pairs })
  else s

/-- The drain ends: the rest is aborted, the function is DISABLED, and a reset follows if one was asked for (15 R555, R557). -/
def endDrain (s : State) (fn : Nat) : State :=
  match s.fnWork fn with
  | none => s
  | some w =>
    let r := abortFn s fn
    let s := r.1.setFn fn .disabled
    let s := { s with cur := { s.cur with fnLast := n64 (fn + w.drain <<< 4 + (min 0xFFFF r.2) <<< 24) } }
    let s := ownerNotice s 6 fn 2 (n64 r.2)
    let s := answerWaits s (w.waits.filter (fun x => !x.2)) r.2
    if w.reset then (s.setFn fn .resetting).setWork fn (some { w with aborts := r.2, waits := w.waits.filter (fun x => x.2) })
    else s.setWork fn none

/-- FN_DRAIN_END: the work is done, or the drain limit passes (15 R555). -/
def execFnDrainEnd (fn : Fin 10) (s : State) : Host.Outcome State Fault Refusal :=
  .next (match s.fnWork fn.val with
    | some w =>
      if s.fnState fn.val ≠ .draining then s
      else if drainBusy s fn.val then endDrain (s.advanceTo w.limit) fn.val
      else endDrain s fn.val
    | none => s)

/-! ### Reset (15 R554; 11 R436) -/

/-- Zero a range of memory: bytes, poison, watches and tasks in conflict (08 R293, R294, R312; 11 R411). -/
def zeroRange (s : State) (lo hi : Nat) : State :=
  let inR (a : Nat) : Bool := decide (lo ≤ a ∧ a < hi)
  let s := { s with mem := s.mem.filter (fun c => !inR c.1), poison := s.poison.filter (fun w => !inR (8 * w)) }
  let hit (t : Task) : Bool := t.reads.any (fun l => inR (128 * l)) || t.writes.any (fun w => inR w.1)
  breakWatches (abortTasks s 1 (s.tasksOf hit)) ((s.fab.watches.filter (fun w => inR (128 * w.line))).map (fun w => w.line))

/-- The owner's leaving: no owner, no grants, and an OWNER notice at every mailbox (15 R550). -/
def releaseOwner (s : State) : State :=
  let s := { s with cur := { s.cur with owner := none, grants := Vector.replicate 8 0 } }
  (List.range 8).foldl (fun s mb => queueNotice s mb (mkNotice s 2 0 0xFFFFFFFFFFFFFFFF#64 0)) s

/-- What a reset of a function clears, and nothing else (15 R554). A reset of FN9 leaves fixed-frequency mode, if that was set, with what leaving
it does; PW_RAMP.STEP is 0 after it (14 R514, R515, R531). -/
def clearFn (s : State) (fn : Nat) : State :=
  if 1 ≤ fn ∧ fn ≤ 5 then
    let s := abortTasks s 6 (s.tasksOf (fun _ => true) |>.filter (fun x => coreFn x.1 == fn))
    let s := (fnCores fn).foldl resetCore (dropReqs s fn)
    if fn = 1 then
      let s := s.modBox 0 (fun m => { m with
        slip := none, reply := none, notes := [], stage := [], stageOf := none, stat := setBit m.stat 0 false })
      let s := { s with cur := { s.cur with grants := vput s.cur.grants 0 0 }, plat := { s.plat with hubUp := false } }
      if s.isOwner 0 then releaseOwner s else s
    else
      let base := 0xC000000000 + 32 * (fn - 2) * 0x180000
      zeroRange s base (base + 32 * 0x180000)
  else if fn = 6 then
    let s := breakPlans (refuseAll s 3) (s.fab.held.map (fun u => u.plan)) false
    { s with fab := { s.fab with
        ctl := 0x03E80000#64, stat := 0, win := Vector.replicate 48 0, planErr := false, planQ := [],
        ports := vmap (fun p => { p with fell := false }) s.fab.ports } }
  else if fn = 7 then { s with led := LedState.reset, pow := s.pow.relieve }
  else if fn = 8 then { s with gather := { GatherState.reset with seq := s.gather.seq } }
  else if fn = 9 then
    let p := PowState.reset
    let left := s.pow.fixed
    { s with
      led := if left then { s.led with notrep := true } else s.led,
      pow := { s.pow with
        gates := vmap (fun g => { g with step := 0 }) s.pow.gates,
        capStr := if left then 0 else s.pow.capStr, thStr := if left then 0 else s.pow.thStr,
        ctl := p.ctl, cap := p.cap, stat := 0, slack := 0, share := 0, jobtag := 0, energy := 0, energyFrac := 0, opp := p.opp,
        total := 0, hist := [], broker := none, nextCap := none, nextTok := none },
      cur := { s.cur with tm := Vector.replicate 7 0, tmNext := 0, tmPeriod := 0, ecc := Vector.replicate 4 0 } }
  else s

/-- FN_RESET_DONE: the function's state is cleared, and it is ENABLED or stays DISABLED; after a reset of FN1 hub core 128 starts
(15 R554, 16 R572). -/
def execFnResetDone (fn : Fin 10) (s : State) : Host.Outcome State Fault Refusal :=
  .next (match s.fnWork fn.val with
    | some w =>
      if s.fnState fn.val ≠ .resetting then s
      else
        let s := ((clearFn s fn.val).setFn fn.val (if w.stay then .disabled else .enabled)).setWork fn.val none
        let s := if fn.val = 6 ∨ fn.val = 7 then ledgerPairs s else s
        let s := if fn.val = 1 ∧ !w.stay then startHub s else s
        answerWaits s w.waits w.aborts
    | none => s)

/-! ### Slips on functions (15 R544, R557) -/

/-- FN_QUERY. -/
def execFnQuery (mb : MailId) (s : State) : Host.Outcome State Fault Refusal :=
  onSlip s mb 0x20 (fun _ _ s => reply s mb.val stOK [s.fnStatus] [])

/-- FN_DISABLE (15 R555, R557). -/
def execFnDisable (mb : MailId) (s : State) : Host.Outcome State Fault Refusal :=
  onSlip s mb 0x21 (fun sl _ s =>
    let fn := (sl.arg 0).toNat
    let d := (sl.arg 1).toNat
    if fn < 1 ∨ 9 < fn ∨ 100000 < d then reply s mb.val stBADARG [] []
    else match s.fnState fn with
    | .disabled => reply s mb.val stOK [0] []
    | .enabled => startDrain (takeSlip s mb.val) fn (if d = 0 then 1000 else d) [(mb.val, false)] false false
    | .draining => (takeSlip s mb.val).setWork fn ((s.fnWork fn).map (fun w => { w with waits := w.waits ++ [(mb.val, false)] }))
    | .resetting => (takeSlip s mb.val).setWork fn ((s.fnWork fn).map (fun w => { w with stay := true, waits := w.waits ++ [(mb.val, true)] })))

/-- FN_ENABLE (15 R557); FN6 and FN7 clear the ledger pairs' poison when both are enabled (R556); after a reset that left FN1 disabled hub core 128
starts now (16 R572). -/
def execFnEnable (mb : MailId) (s : State) : Host.Outcome State Fault Refusal :=
  onSlip s mb 0x22 (fun sl _ s =>
    let fn := (sl.arg 0).toNat
    if fn < 1 ∨ 9 < fn then reply s mb.val stBADARG [] []
    else match s.fnState fn with
    | .disabled =>
      let s := s.setFn fn .enabled
      let s := if fn = 1 ∧ !s.plat.hubUp then startHub s else s
      reply (if fn = 6 ∨ fn = 7 then ledgerPairs s else s) mb.val stOK [] []
    | .enabled => reply s mb.val stOK [] []
    | _ => reply s mb.val stBUSY [] [])

/-- FN_RESET (15 R555, R557). -/
def execFnReset (mb : MailId) (s : State) : Host.Outcome State Fault Refusal :=
  onSlip s mb 0x23 (fun sl _ s =>
    let fn := (sl.arg 0).toNat
    let d := (sl.arg 1).toNat
    let stay := bit (sl.arg 2) 0
    if fn < 1 ∨ 9 < fn ∨ 100000 < d ∨ fld (sl.arg 2) 1 63 ≠ 0 then reply s mb.val stBADARG [] []
    else match s.fnState fn with
    | .enabled => startDrain (takeSlip s mb.val) fn (if d = 0 then 1000 else d) [(mb.val, true)] true stay
    | .disabled => ((takeSlip s mb.val).setFn fn .resetting).setWork fn (some {
        drain := 0, limit := s.now, aborts := 0, reset := true, stay := stay, waits := [(mb.val, true)] })
    | .draining => (takeSlip s mb.val).setWork fn ((s.fnWork fn).map (fun w => { w with
        reset := true, stay := stay, waits := w.waits ++ [(mb.val, true)] }))
    | .resetting => (takeSlip s mb.val).setWork fn ((s.fnWork fn).map (fun w => { w with waits := w.waits ++ [(mb.val, true)] })))

/-! ### Slips on cores (15 R544, R559, R560) -/

/-- A core named by an argument. -/
def coreArg (a : U64) : Option CoreId := if h : a.toNat < 144 then some ⟨a.toNat, h⟩ else none

/-- CORE_STOPREC (15 R559). -/
def execCoreStoprec (mb : MailId) (s : State) : Host.Outcome State Fault Refusal :=
  onSlip s mb 0x25 (fun sl _ s => match coreArg (sl.arg 0) with
    | none => reply s mb.val stBADARG [] []
    | some c =>
      let r := (s.core c).ex.stop
      if r.valid then reply s mb.val stOK [stopWord r, r.pc, r.time] [] else reply s mb.val stNOTFOUND [] [])

/-- CORE_RESTART (15 R560). -/
def execCoreRestart (mb : MailId) (s : State) : Host.Outcome State Fault Refusal :=
  onSlip s mb 0x26 (fun sl _ s => match coreArg (sl.arg 0) with
    | none => reply s mb.val stBADARG [] []
    | some c =>
      let k := s.core c
      if k.ex.run == .parked || s.fnState (coreFn c) != .enabled || !k.ex.stop.valid then reply s mb.val stSTATE [] []
      else if (sl.arg 1).toNat % 4 ≠ 0 then reply s mb.val stBADARG [] []
      else reply (startCore s c (sl.arg 1)) mb.val stOK [] [])

/-- CORE_STOP (15 R544). -/
def execCoreStop (mb : MailId) (s : State) : Host.Outcome State Fault Refusal :=
  onSlip s mb 0x27 (fun sl _ s => match coreArg (sl.arg 0) with
    | none => reply s mb.val stBADARG [] []
    | some c => reply (haltByOrder s c .command) mb.val stOK [] [])

/-- WDOG (07 R275, 15 R544). -/
def execWdog (mb : MailId) (s : State) : Host.Outcome State Fault Refusal :=
  onSlip s mb 0x28 (fun sl _ s =>
    let n := (sl.arg 0).toNat
    if n < 1 ∨ 100000 < n then reply s mb.val stBADARG [] []
    else reply { s with cur := { s.cur with wdLimit := 1000 * n } } mb.val stOK [] [])

/-- DBG_HALT: a running core stops as a breakpoint stops it (06 R254, 15 R560). -/
def execDbgHalt (mb : MailId) (s : State) : Host.Outcome State Fault Refusal :=
  onSlip s mb 0x29 (fun sl _ s => match coreArg (sl.arg 0) with
    | none => reply s mb.val stBADARG [] []
    | some c =>
      if (s.core c).ex.run == .running then
        let p := (s.core c).resumePC
        let s := discardTiles s c
        let s := s.modCore c (fun k => { k.setBank (fun b => { b with pc := p }) with ex := { k.ex with hlog := [], hwait := none } })
        reply (haltCore s c) mb.val stOK [] []
      else if (s.core c).ex.run == .halted then reply s mb.val stOK [] []
      else reply s mb.val stSTATE [] [])

/-- DBG_RESUME: a halted core resumes at its next step (06 R254, 15 R560). -/
def execDbgResume (mb : MailId) (s : State) : Host.Outcome State Fault Refusal :=
  onSlip s mb 0x2A (fun sl _ s => match coreArg (sl.arg 0) with
    | none => reply s mb.val stBADARG [] []
    | some c =>
      if (s.core c).ex.run == .halted then
        let s := s.modCore c (fun k => Core.syncMask { k with ex := { k.ex with run := .running, bpSkip := true } } s.now)
        reply s mb.val stOK [] []
      else reply s mb.val stSTATE [] [])

end Sys2Proof.Machine
end

