-- ==== Sys2Proof/Machine/Ownership.lean ====
section
/-! DEFINITION. Machine/Ownership.lean: ownership of the module: claims, contests, leases, grants, tokens and the force key (15 R546 to
R552). -/

namespace Sys2Proof.Machine

/-! ### The owner (15 R546 to R550) -/

/-- OWNER notices at every mailbox (15 R553). -/
def ownerNotices (s : State) (key : U64) (standing : BitVec 3) : State :=
  (List.range 8).foldl (fun s mb => queueNotice s mb (mkNotice s 2 0 key (standing.setWidth 64))) s

/-- A source becomes the owner: its lease runs, every grant ends, and OWNER notices are posted (15 R547 to R551). -/
def takeOwner (s : State) (key : U64) (standing : BitVec 3) : State :=
  ownerNotices { s with cur := { s.cur with
    owner := some { key := key, standing := standing, lease := s.now + 2000000000 }, grants := Vector.replicate 8 0 } } key standing

/-- The owner's lease renewed, with a standing (15 R548, R549). -/
def renewLease (s : State) (standing : BitVec 3) : State :=
  { s with cur := { s.cur with owner := s.cur.owner.map (fun o => { o with standing := standing, lease := s.now + 2000000000 }) } }

/-- Another source owns the module: HELD with its key and standing (15 R548). -/
def replyHeld (s : State) (mb : Nat) : State :=
  match s.cur.owner with
  | some o => reply s mb stHELD [o.key, o.standing.setWidth 64] []
  | none => s

/-- A lease that has ended leaves no owner before what comes after its end is judged (15 R549, R550). -/
def settleLease (s : State) : State := if s.cur.owner.isSome ∧ s.liveOwner.isNone then releaseOwner s else s

/-- OWN_QUERY (15 R544); the lease left is given in whole ms (log 71). -/
def execOwnQuery (mb : MailId) (s : State) : Host.Outcome State Fault Refusal :=
  onSlip s mb 0x01 (fun _ _ s => match s.liveOwner with
    | some o => reply s mb.val stOK [o.key, n64 (o.standing.toNat + ((o.lease - s.now) / 1000000) <<< 32), s.cur.challenge] []
    | none => reply s mb.val stOK [0xFFFFFFFFFFFFFFFF#64, 0, s.cur.challenge] [])

/-- OWN_CLAIM: the owner's own claim renews; one captured while another's lease is live, or met by an owner since, is HELD; one with no owner opens
a contest of 1 ms from its capture or joins it, and waits where it was captured after the close (15 R548). -/
def execOwnClaim (mb : MailId) (s : State) : Host.Outcome State Fault Refusal :=
  onSlip s mb 0x02 (fun sl _ s =>
    let s := settleLease s
    let st : BitVec 3 := (sl.arg 0).setWidth 3
    if 8 ≤ (sl.arg 0).toNat then reply s mb.val stBADARG [] []
    else if s.isOwner sl.key then reply (renewLease s st) mb.val stOK [] []
    else match sl.rival.or s.cur.owner with
    | some o => reply s mb.val stHELD [o.key, o.standing.setWidth 64] []
    | none =>
      let x := s.cur.contest.getD (sl.at' + 1000000, [])
      if x.1 ≤ sl.at' then s
      else takeSlip { s with cur := { s.cur with contest := some (x.1, x.2 ++ [(mb.val, sl.key, st)]) } } mb.val)

/-- A claim that wins over another: the higher standing, then the lower source key (15 R548). -/
def claimBeats (a b : Nat × U64 × BitVec 3) : Bool :=
  decide (b.2.2.toNat < a.2.2.toNat) || (a.2.2 == b.2.2 && decide (a.2.1.toNat < b.2.1.toNat))

/-- The claims captured before a contest's close that have not been taken up yet: they join it too (15 R548). -/
def State.lateClaims (s : State) (close : Nat) : List (Nat × U64 × BitVec 3) :=
  (List.range 8).filterMap (fun mb => match s.slipFor mb 0x02 with
    | some (sl, pay) =>
      if pay.isEmpty && !sl.own && sl.rival.isNone && decide ((sl.arg 0).toNat < 8) && decide (sl.at' < close) then
        some (mb, sl.key, (sl.arg 0).setWidth 3)
      else none
    | none => none)

/-- The claims of the contest whose slips still wait (15 R548, R555). -/
def State.claimants (s : State) : List (Nat × U64 × BitVec 3) := match s.cur.contest with
  | some (t, l) => l.filter (fun c => (s.box c.1).slip.isSome) ++ s.lateClaims t
  | none => []

/-- Answer every claim of a list HELD with the owner there is now. -/
def answerHeld (s : State) (l : List (Nat × U64 × BitVec 3)) : State := l.foldl (fun s c => replyHeld s c.1) s

/-- OWNERSHIP_CONTEST_CLOSE: the winner is answered OK, the others HELD (15 R548). -/
def execOwnershipContestClose (s : State) : Host.Outcome State Fault Refusal :=
  .next (match s.cur.contest with
    | none => s
    | some (t, _) =>
      let s := s.advanceTo t
      let l := s.claimants
      let s := { s with cur := { s.cur with contest := none } }
      match l with
      | [] => s
      | c :: cs =>
        let w := cs.foldl (fun w x => if claimBeats x w then x else w) c
        let s := reply (takeOwner s w.2.1 w.2.2) w.1 stOK [] []
        answerHeld s (l.filter (fun x => x.1 != w.1)))

/-- OWN_RENEW: a renewal the owner made before the expiry succeeds (15 R549). -/
def execOwnRenew (mb : MailId) (s : State) : Host.Outcome State Fault Refusal :=
  onSlip s mb 0x03 (fun sl _ s => match s.cur.owner with
    | some o =>
      if sl.own ∧ o.key = sl.key then reply (renewLease s o.standing) mb.val stOK [] [] else reply s mb.val stNOTOWNER [] []
    | none => reply s mb.val stNOTOWNER [] [])

/-- LEASE_EXPIRY: a lease not renewed leaves no owner and ends every grant (15 R549, R550). -/
def execLeaseExpiry (s : State) : Host.Outcome State Fault Refusal :=
  .next (match s.cur.owner with
    | some o => if s.renewing o.key then s else releaseOwner (s.advanceTo o.lease)
    | none => s)

/-- OWN_RELEASE; a source that is not the owner has nothing to end, and is answered NOTOWNER (15 R550; log 71). -/
def execOwnRelease (mb : MailId) (s : State) : Host.Outcome State Fault Refusal :=
  onSlip s mb 0x04 (fun sl _ s =>
    if s.isOwner sl.key then reply (releaseOwner s) mb.val stOK [] [] else reply s mb.val stNOTOWNER [] [])

/-- OWN_GRANT (15 R544, R547). -/
def execOwnGrant (mb : MailId) (s : State) : Host.Outcome State Fault Refusal :=
  onSlip s mb 0x05 (fun sl _ s =>
    let m := (sl.arg 0).toNat
    let g := (sl.arg 1).toNat
    if 8 ≤ m ∨ 64 ≤ g then reply s mb.val stBADARG [] []
    else if 2 ≤ m ∧ m ≤ 5 ∧ (s.box m).bind.isNone then reply s mb.val stSTATE [] []
    else reply { s with cur := { s.cur with grants := vput s.cur.grants m (BitVec.ofNat 6 g) } } mb.val stOK [] [])

/-! ### Tokens and the force key (15 R551, R552) -/

/-- Length of a token. -/
def tokenLen : Nat := 17152

/-- A token's 64-bit word at an offset. -/
def tokWord (tok : List Byte) (off : Nat) : Nat := leNat ((tok.drop off).take 8)

/-- A token is valid under a key (15 R551). -/
def State.tokenOk (s : State) (key tok : List Byte) : Bool :=
  let after := tokWord tok 0x18
  tok.length == tokenLen && bitsOf (tokWord tok 0) 0 32 == fld s.fab.shelf 0 32 && tokWord tok 8 == s.cur.challenge.toNat
    && !(after != 0 && bit s.hall.stat 0 && decide (after < s.hall.now.toNat))
    && ((tok.drop 0x20).take 0x20).all (fun b => b == 0) && Config.tokenVerify key (tok.take 0x40) (tok.drop 0x40)

/-- The challenge is replaced by a fresh random value, so that no token works twice (15 R551; log 1). -/
def newChallenge (s : State) : State :=
  let r := s.freeNext
  { r.2 with cur := { r.2.cur with challenge := n64 r.1 } }

/-- OWN_FORCE: a valid token makes its sender owner at once; the claims of a contest are HELD (15 R551). -/
def execOwnForce (mb : MailId) (s : State) : Host.Outcome State Fault Refusal :=
  onSlip s mb 0x06 (fun sl pay s => match s.plat.forceKey with
    | none => reply s mb.val stBADTOKEN [] []
    | some key =>
      if !s.tokenOk key pay then reply s mb.val stBADTOKEN [] []
      else
        let l := s.claimants
        let s := takeOwner (newChallenge { s with cur := { s.cur with contest := none } }) sl.key (BitVec.ofNat 3 (tokWord pay 0x10))
        reply (answerHeld s l) mb.val stOK [] [])

/-! ### Identity words and measurements (16 R566, R575) -/

/-- The words INFO returns (16 R566). -/
def State.infoWords (s : State) : List U64 :=
  let p := s.plat
  [n64 (p.serial.toNat + b01 p.grade <<< 32 + p.live <<< 34),
   n64 ((if p.recovery then 0 else p.img.version.toNat) + p.img.svn.toNat <<< 32 + p.arc <<< 40 + b01 p.recovery <<< 48),
   n64 (p.stage + p.code.toNat <<< 8 + p.unit.toNat <<< 16 + b01 p.fit <<< 24),
   n64 (p.tready % 2 ^ 32)]

/-- The weeding record's bytes (13 R485; log 71). -/
def PlatState.weedBytes (p : PlatState) : List Byte := Config.weedRecord (p.weeded.toList.map (fun w => w.toNat)) p.parked

/-- What MR1 is extended with (16 R575). -/
def State.mr1Data (s : State) : List Byte :=
  wordBytes (s.infoWords.take 2) ++ s.plat.weedBytes ++ s.plat.forceKey.getD (List.replicate 32 0) ++ [BitVec.ofNat 8 (b01 s.plat.quadLocal)]

/-- Extend one of MR0 to MR2 (16 R575). -/
def extendState (s : State) (i : Nat) (x : List Byte) : State :=
  { s with plat := { s.plat with mr := vput s.plat.mr i (extendMr (vget s.plat.mr i []) x) } }

/-- Install a force key and extend MR1 (15 R552, 16 R575). -/
def setForceKey (s : State) (key : List Byte) : State :=
  let s := { s with plat := { s.plat with forceKey := some key } }
  extendState s 1 s.mr1Data

/-- OWN_KEYSET: a first key alone, a later one with a token under the installed key behind it (15 R552). -/
def execOwnKeyset (mb : MailId) (s : State) : Host.Outcome State Fault Refusal :=
  onSlip s mb 0x07 (fun _ pay s => match s.plat.forceKey with
    | none => if pay.length ≠ 32 then reply s mb.val stBADLEN [] [] else reply (setForceKey s pay) mb.val stOK [] []
    | some key =>
      if pay.length ≠ 32 + tokenLen then reply s mb.val stBADLEN [] []
      else if !s.tokenOk key (pay.drop 32) then reply s mb.val stBADTOKEN [] []
      else reply (setForceKey (newChallenge s) (pay.take 32)) mb.val stOK [] [])

end Sys2Proof.Machine
end

