-- ==== Sys2Proof/Machine/Reset.lean ====
section
/-! DEFINITION. Machine/Reset.lean: what a device reset and a stop of main conversion leave (14 R530; 15 R554; 16 R564; 17 R588 to R591). -/

namespace Sys2Proof.Machine

/-- What the standby domain, the fuses and the flash keep when main conversion stops (15 R554; 17 R588, R591); a copy into the image slot
that was under way leaves the slot torn (16 R569). -/
def PlatState.kept (p : PlatState) : PlatState :=
  { PlatState.reset with
    present := p.present, main := false, vin := p.vin, lowSince := p.lowSince, pwrEn := p.pwrEn, pwrOff := p.pwrOff,
    modReset := p.modReset, uvTrip := p.uvTrip, ovTrip := p.ovTrip, thermTrip := p.thermTrip, stIn := p.stIn, stTemp := p.stTemp,
    tjLast := p.tjLast, vinAvg := p.vinAvg, iinAvg := p.iinAvg, pinAvg := p.pinAvg, c1 := p.c1, c2 := p.c2, straps := p.straps,
    staged := p.staged, slot := p.slot, torn := p.torn, weeded := p.weeded, parked := p.parked, forceKey := p.forceKey,
    arc := p.arc, serial := p.serial, grade := p.grade, fused := p.fused, pmb := p.pmb }

/-- Every core as a device reset leaves it: arrays as fused and weeded, parked if its record says so, and stopped (02 R64; 07 R260; 13 R485). -/
def resetCores (s : State) : State :=
  { s with cores := Vector.ofFn (fun (c : Fin 144) =>
      { Core.reset with
        ex := { Core.reset.ex with
          cycBase := n64 (s.clkOf c), run := if s.plat.parked.contains c.val then .parked else .stopped .command },
        tile := { Core.reset.tile with fused := vget s.plat.fused c.val 0, weeded := vget s.plat.weeded c.val 0 } }) }

/-- A module with every part reset, and a platform. -/
def freshModule (s : State) (p : PlatState) : State :=
  { State.reset with now := s.now, clk := s.clk, free := s.free, pending := s.pending, plat := p }

/-- Main conversion stops: every state outside the standby domain is lost (14 R530; 17 R591). -/
def stopConversion (s : State) : State := freshModule s s.plat.kept

/-- A device reset: bring-up starts again from stage 1. The choice of the interleave mode stays for the next HBM training, and the slot
number for the shelf mark; hall time runs freely from 0 (11 R421; 16 R563, R564, R566; 17 R592). -/
def deviceReset (s : State) : State :=
  let p := s.plat
  let s1 := freshModule s { p.kept with
    main := p.main, pgood := p.pgood, stageAt := s.now, hbmNext := p.hbmNext, jlive := p.jlive, ir := p.ir, mbx := p.mbx,
    bsr := p.bsr, extest := p.extest }
  resetCores { s1 with fab := { s1.fab with shelf := s.fab.shelf &&& 0xFF#64 } }

/-- DEV_RESET: answered OK, and the device reset follows 1 ms later; while firmware is copied it is BUSY (15 R544; 16 R569). -/
def execDevReset (mb : MailId) (s : State) : Host.Outcome State Fault Refusal :=
  onSlip s mb 0x24 (fun _ _ s =>
    if (s.plat.fw.bind (fun f => f.ending)).isSome then reply s mb.val stBUSY [] []
    else
      let t := s.cur.devReset.getD (s.now + 1000000)
      reply { s with cur := { s.cur with devReset := some t } } mb.val stOK [] [])

/-- DEVICE_RESET: the device reset that DEV_RESET scheduled (15 R544, R557; 16 R564). -/
def execDeviceReset (s : State) : Host.Outcome State Fault Refusal :=
  .next (match s.cur.devReset with
    | some t => deviceReset (s.advanceTo t)
    | none => s)

end Sys2Proof.Machine
end

