-- ==== Sys2Proof/Machine/Firmware.lean ====
section
/-! DEFINITION. Machine/Firmware.lean: the firmware image, its verification and its update (16 R566, R567, R569, R570). -/

namespace Sys2Proof.Machine

/-! ### The flash and the image (16 R566, R567) -/

/-- A byte of the image slot by offset (log 66). -/
def PlatState.slotByte (p : PlatState) (o : Nat) : Byte := match p.slot with
  | some l => spGet 0xFF#8 l o
  | none => Config.factoryFlash o

/-- A byte of the staging region by offset; an erased byte reads 0xFF (log 66). -/
def PlatState.stagedByte (p : PlatState) (o : Nat) : Byte := match p.staged with
  | some l => spGet 0xFF#8 l o
  | none => Config.factoryFlash (0x2000000 + o)

/-- Size of the staging region. -/
def stagingSize : Nat := 0x1F00000

/-- n bytes of a region from an offset. -/
def imgBytes (f : Nat → Byte) (o n : Nat) : List Byte := (rng o n).map f

/-- The 64-bit header word at an offset. -/
def imgWord (f : Nat → Byte) (o : Nat) : Nat := leNat (imgBytes f o 8)

/-- BODYLEN. -/
def imgBodyLen (f : Nat → Byte) : Nat := bitsOf (imgWord f 0x10) 0 32

/-- An image is valid against an anti-rollback counter (16 R567). -/
def imgValid (f : Nat → Byte) (arc : Nat) : Bool :=
  let vkey := imgBytes f 0x40 0x40
  bitsOf (imgWord f 0) 0 32 == 0x46575A4D && sha256 vkey == Config.vendorHash
    && Config.vendorVerify vkey (imgBytes f 0 0x80 ++ imgBytes f 0x8000 (imgBodyLen f)) (imgBytes f 0x80 0x7460)
    && decide (arc ≤ bitsOf (imgWord f 8) 32 8)

/-- The entries of the gloss section: 4 bytes of index and 17 words each (16 R571). -/
def imgGlosses (f : Nat → Byte) : List (Nat × List U64) :=
  let w := imgWord f 0x18
  (List.range (bitsOf w 32 16)).map (fun i =>
    let o := 0x8000 + bitsOf w 0 32 + 140 * i
    (leNat (imgBytes f o 4), (List.range 17).map (fun j => n64 (imgWord f (o + 4 + 8 * j)))))

/-- What a valid image brings (16 R567, R571). -/
def runImage (f : Nat → Byte) : RunImage :=
  let w := imgWord f 8
  { version := BitVec.ofNat 32 w, svn := BitVec.ofNat 8 (w >>> 32), roll := bitsOf w 40 1 == 1, glosses := imgGlosses f }

/-- The image slot verifies: no copy into it was cut short (16 R567, R569). -/
def PlatState.slotValid (p : PlatState) : Bool := !p.torn && imgValid p.slotByte p.arc

/-- The staged image copied into the image slot (16 R569, R570). -/
def installSlot (s : State) : State :=
  let f := s.plat.stagedByte
  let l := (List.range (0x8000 + imgBodyLen f)).filterMap (fun o => if f o = 0xFF#8 then none else some (o, f o))
  { s with plat := { s.plat with slot := some l, torn := false } }

/-! ### FW_UPDATE (16 R569, R570) -/

/-- Run one operation of FW_UPDATE on MB1's slip; BEGIN also answers operations that do not exist. -/
def onFw (s : State) (mb : MailId) (op : Nat → Bool) (f : Slip → List Byte → State → State) : Host.Outcome State Fault Refusal :=
  onSlip s mb 0x80 (fun sl pay s => if op (sl.arg 0).toNat then f sl pay s else s)

/-- BEGIN is admitted: by a token when a force key is installed, else without an owner or from the owner; the recovery loader asks for neither
(16 R569, R570). -/
def State.fwMay (s : State) (sl : Slip) (pay : List Byte) : Nat :=
  if s.plat.recovery then stOK
  else match s.plat.forceKey with
  | some key => if s.tokenOk key pay then stOK else stBADTOKEN
  | none => if s.cur.owner.isNone ∨ s.isOwner sl.key then stOK else stNOTOWNER

/-- FW_UPDATE_BEGIN: the staging region is erased; an update in progress is discarded, but a copy under way is BUSY (16 R569; log 71). -/
def execFwUpdateBegin (mb : MailId) (s : State) : Host.Outcome State Fault Refusal :=
  onFw s mb (fun op => op != 1 && op != 2) (fun sl pay s =>
    let n := (sl.arg 1).toNat
    let may := s.fwMay sl pay
    if sl.arg 0 ≠ 0 ∨ n = 0 ∨ stagingSize < n then reply s mb.val stBADARG [] []
    else if (s.plat.fw.bind (fun f => f.ending)).isSome then reply s mb.val stBUSY [] []
    else if may ≠ stOK then reply s mb.val may [] []
    else
      let s := if s.plat.recovery || s.plat.forceKey.isNone then s else newChallenge s
      reply { s with plat := { s.plat with staged := some [], fw := some { len := n, ending := none } } } mb.val stOK [] [])

/-- FW_UPDATE_DATA: image bytes at a multiple of 4,096 (16 R569). -/
def execFwUpdateData (mb : MailId) (s : State) : Host.Outcome State Fault Refusal :=
  onFw s mb (fun op => op == 1) (fun sl pay s => match s.plat.fw with
    | some { len := n, ending := none } =>
      let o := (sl.arg 1).toNat
      if 4096 < pay.length then reply s mb.val stBADLEN [] []
      else if o % 4096 ≠ 0 ∨ n < o + pay.length then reply s mb.val stBADARG [] []
      else reply { s with plat := { s.plat with staged := some (spSetAll 0xFF#8 (s.plat.staged.getD []) o pay) } } mb.val stOK [] []
    | _ => reply s mb.val stSTATE [] [])

/-- Post the DONE_LONG notice of a firmware update (15 R553, 16 R569). -/
def fwDone (s : State) (mb seq status : Nat) : State := queueNotice s mb (mkNotice s 1 0 (n64 seq) (n64 status))

/-- FW_UPDATE_END: STARTED; the staged image is verified, and a valid one starts to be copied into the image slot (16 R569). -/
def execFwUpdateEnd (mb : MailId) (s : State) : Host.Outcome State Fault Refusal :=
  onFw s mb (fun op => op == 2) (fun sl _ s => match s.plat.fw with
    | some { len := n, ending := none } =>
      if 2 ≤ (sl.arg 1).toNat then reply s mb.val stBADARG [] []
      else
        let s := reply s mb.val stSTARTED [] []
        if imgValid s.plat.stagedByte s.plat.arc then
          { s with plat := { s.plat with torn := true, fw := some { len := n, ending := some (mb.val, sl.seq, bit (sl.arg 1) 0) } } }
        else fwDone { s with plat := { s.plat with fw := none } } mb.val sl.seq stBADTOKEN
    | _ => reply s mb.val stSTATE [] [])

/-- IMAGE_SLOT_VERIFIED: the copy is finished and verified; DONE_LONG is posted, and a device reset follows when it was asked for or the
recovery loader runs (16 R569, R570). -/
def execImageSlotVerified (s : State) : Host.Outcome State Fault Refusal :=
  .next (match s.plat.fw.bind (fun f => f.ending) with
    | some (mb, seq, rst) =>
      let boot := rst || s.plat.recovery
      let s := installSlot s
      let s := fwDone { s with plat := { s.plat with fw := none } } mb seq stOK
      if boot then deviceReset s else s
    | none => s)

/-- RECOVERY_LOADER: a valid staged image is installed and a device reset performed; otherwise the loader goes on serving INFO and FW_UPDATE
(16 R570). -/
def execRecoveryLoader (s : State) : Host.Outcome State Fault Refusal :=
  .next (if s.plat.recovery && imgValid s.plat.stagedByte s.plat.arc then deviceReset (installSlot s) else s)

end Sys2Proof.Machine
end

