-- ==== Sys2Proof/Machine/Fabric.lean ====
section
/-! DEFINITION. Machine/Fabric.lean: the link layer, ports, the checks of a received packet, forwarding, fencing, probes, claims and
the exchange of hall time (11 R388 to R405, R421 to R434). -/

namespace Sys2Proof.Machine

/-! ### Form of a packet (11 R391, R395) -/

/-- IDLE. -/
def tyIDLE : BitVec 5 := 0x00

/-- The virtual channels and payload flits of a packet type (11 R391). -/
def tyForm (ty : BitVec 5) : Option (List (BitVec 3) × Nat × Nat) :=
  if ty = tyRDREQ then some ([0, 5, 6], 0, 0)
  else if ty = tyRDRESP then some ([1], 1, 4)
  else if ty = tyWRREQ then some ([0, 5, 6], 1, 4)
  else if ty = tyWRACK then some ([1], 0, 0)
  else if ty = tyATOMREQ then some ([0], 0, 0)
  else if ty = tyATOMRESP then some ([1], 0, 0)
  else if ty = tyREFUSE then some ([1], 0, 0)
  else if ty = tyWATCHREL then some ([0], 0, 0)
  else if ty = tyWATCHBREAK then some ([1], 0, 0)
  else if ty = tyREDUCE then some ([2], 4, 4)
  else if ty = tyMCAST then some ([3], 1, 4)
  else if ty = tyHARRIVE then some ([2], 0, 0)
  else if ty = tyHRELEASE then some ([3], 0, 0)
  else if ty = tyHELLO then some ([4], 1, 1)
  else if ty = tyLIVE then some ([4], 0, 0)
  else if ty = tyPROBE then some ([4], 0, 0)
  else if ty = tyPROBERESP then some ([4], 0, 0)
  else if ty = tyMGMT then some ([5], 0, 4)
  else if ty = tyLEDGER then some ([7], 0, 4)
  else none

/-- A packet's TYPE, VC and payload are as R391 allows (log 83). -/
def kindOk (k : Packet) : Bool := match tyForm k.ty with
  | some (vcs, lo, hi) => vcs.contains k.vc && decide (lo ≤ bodyNflit k.body ∧ bodyNflit k.body ≤ hi)
  | none => false

/-- A packet's reserved bits are zero: those beside the fields, and bits [63:43] of word +0x10 but in a LIVE (11 R395). -/
def bitsOk (k : Packet) : Bool := !k.rsv && (k.ty == tyLIVE || fld k.w2 43 21 == 0)

/-- A packet's form is as R391 and R395 allow. -/
def formOk (k : Packet) : Bool := kindOk k && bitsOk k

/-! ### Link layer (11 R393, R394) -/

/-- The retry buffer after an acknowledgement up to an LSEQ: what it covers leaves, and that is progress, from which replays are counted
anew. -/
def ackRetry (rs : List RetryEnt) (lack : BitVec 12) : List RetryEnt :=
  if rs.any (fun r => r.pkt.lseq == lack) then ((rs.dropWhile (fun r => r.pkt.lseq != lack)).drop 1).map (fun r => { r with replays := 0 }) else rs

/-- The link control of a received header flit: acknowledgement and credits (11 R393, R394). -/
def linkControl (s : State) (p : PortId) (k : Packet) : State :=
  let s := s.setPort p (fun ps => { ps with
    lastGood := s.now, retry := if k.ackv then ackRetry ps.retry k.lack else ps.retry,
    credit := vput ps.credit k.cvc.toNat (min (vcRoom k.cvc.toNat) (vget ps.credit k.cvc.toNat 0 + k.ccnt.toNat)) })
  drainTx s p

/-- A packet crosses a link: whether it is accepted, in order and with a good LCRC (11 R394, R396). -/
def linkIn (s : State) (p : PortId) (k : Packet) : State × Bool :=
  if !(s.port p).up ∨ k.lcrc ≠ pktL k then (s, false)
  else
    let s := linkControl s p k
    if k.ty = tyIDLE ∨ k.lseq ≠ (s.port p).rxNext then (s, false)
    else
      (s.setPort p (fun ps => { ps with rxNext := ps.rxNext + 1 }), true)

/-! ### Refusals and forwarding (11 R404, R405, R430) -/

/-- A REFUSE for a packet, to its source (11 R404, R405, R409, R432). -/
def refuseTo (s : State) (k : Packet) (status : Nat) (which : Bool) : State :=
  s.emit { pktEmpty with ty := tyREFUSE, vc := 1, dcall := k.scall, tag := k.tag, status := BitVec.ofNat 7 status, which := which }

/-- A REFUSE back through the port a packet came in on (11 R430). -/
def refuseBack (s : State) (p : PortId) (k : Packet) (status : Nat) : State :=
  s.sendOn p (s.stamp { pktEmpty with
    ty := tyREFUSE, vc := 1, dcall := 0xFFFFF#20, tag := k.tag, status := BitVec.ofNat 7 status })

/-- Send a packet on its way again, or for the first time, by its destination's route; without one, a request is refused and any other packet
dropped, and the room it took is free (11 R393, R404). -/
def sendAlong (s : State) (from' : Option PortId) (k : Packet) : State :=
  match s.route k with
  | (some q, s1) => s1.sendFrom from' q k
  | (none, s1) => if pktIsReq k then refuseTo (s1.owe from' k) k 2 false else (s1.owe from' k).drop

/-- Forward a packet that came in on a port towards its destination: at most 64 hops (11 R396, R404). -/
def forward (s : State) (p : PortId) (k : Packet) : State :=
  if 64 ≤ k.hops.toNat then (s.owe (some p) k).drop else sendAlong s (some p) { k with hops := k.hops + 1 }

/-! ### Fencing (11 R433, R434; 15 R532, R557) -/

/-- The call number of the cataloguer, as its claim and the catalogue name it (11 R402). -/
def State.catCall (s : State) : Option Nat :=
  s.fab.claim.bind (fun c => (s.fab.cat.find? (fun e => e.shelf == c.2.1 && e.state != .withdrawn)).map (fun e => e.call.toNat))

/-- A management message to a module (11 R391). -/
def sendMgmt (s : State) (call tag : Nat) (ws : List U64) : State :=
  s.send { pktEmpty with ty := tyMGMT, vc := 5, dcall := BitVec.ofNat 20 call, body := .words (BitVec.ofNat 8 tag) ws }

/-- Gather jobs that wait for the hall end as refused (11 R433). -/
def fenceJobs (s : State) : State :=
  (s.gather.jobs.filter (fun j => j.fail.isSome || s.fab.reqs.any (fun q => match q.who with
    | .gather i _ => i == j.id
    | _ => false))).foldl (fun s j => endJob s j 2 0x0A (j.fail.getD j.lowest)) s

/-- Traffic of the router, the hall clock and the catalogue, which neither a fenced endpoint nor FN6's state stops (15 R554, 11 R428, R433). -/
def routerTraffic (k : Packet) : Bool := k.vc == 4 || k.ty == tyMGMT

/-- FN8 is disabled with a drain limit of 0: a drain under way ends at once, and what a reset is to follow or is under way is disabled after it
(15 R532, R557). -/
def fenceGather (s : State) : State :=
  let stays (s : State) : State := s.setWork 8 ((s.fnWork 8).map (fun w => { w with stay := true }))
  match s.fnState 8 with
  | .enabled => endDrain (startDrain s 8 0 [] false false) 8
  | .draining => endDrain (stays s) 8
  | .resetting => stays s
  | .disabled => s

/-- The endpoint becomes fenced: what it has queued for sending is discarded but for MGMT; and the Curator stops the compute cores, disables FN8
and reports (11 R433, R434; 15 R532). -/
def fence (s : State) : State :=
  if s.feState = 3 then s
  else
    let s := { s with fab := { s.fab with
      id := setFld s.fab.id 36 2 3,
      ports := vmap (fun p => { p with
        txq := p.txq.filter (fun x => x.from'.isSome || routerTraffic x.pkt || x.pkt.dcall == 0xFFFFF#20) }) s.fab.ports } }
    let s := refuseAll (fenceJobs s) 1
    let s := ((List.finRange 144).filter isCompute).foldl (fun s c => haltByOrder s c .fence) s
    let s := fenceGather s
    let n := mkNotice s 7 0 (n64 s.call) (n64 s.edition)
    let s := queueNotice s s.ownerBox n
    let s := if s.ownerBox = 1 then s else queueNotice s 1 n
    match s.catCall with
    | some c => sendMgmt s c 2 [n64 s.call, n64 s.edition]
    | none => s

/-! ### Receiving (11 R396, R405, R430, R432) -/

/-- A packet is for this module (11 R405). -/
def forHere (s : State) (k : Packet) : Bool := k.dcall == 0xFFFFF#20 || k.dcall.toNat == s.call

/-- The endpoint's checks of a packet delivered to it: PCRC, fencing, editions, FN6; a fenced endpoint sends no answer (11 R396, R405, R409,
R432, R433). -/
def endpointIn (s : State) (k : Packet) : State × Bool :=
  let local' := k.dcall == 0xFFFFF#20
  if k.pcrc ≠ pktP k then (s.drop, false)
  else if s.feState = 3 ∧ !routerTraffic k then (s, false)
  else if !local' && newer 16 s.edition k.ded.toNat then (if s.feState = 3 then s.stale else refuseTo s.stale k 1 true, false)
  else if !local' && newer 16 k.ded.toNat s.edition then (fence s.stale, false)
  else if !routerTraffic k ∧ (s.fnState 6 = .disabled ∨ s.fnState 6 = .resetting ∨ (s.fnState 6 = .draining ∧ pktIsReq k)) then
    (if pktIsReq k then refuseTo s k 3 false else s.drop, false)
  else (s, true)

/-- A packet received on a port: whether it is delivered to this module. The room it took is free once it has left the port's buffer, but that
of a LEDGER packet taken here, whose credits the ledger engine returns (11 R391, R393 to R395, R405, R430; 12 R463). -/
def receive (s : State) (p : PortId) (k : Packet) : State × Bool :=
  let r := linkIn s p k
  let s := r.1.notePlan p k
  let out := s.owe (some p) k
  if !r.2 then (r.1, false)
  else if !kindOk k then (out.drop, false)
  else if !bitsOk k then (out, false)
  else if k.dcall ≠ 0xFFFFF#20 ∧ s.overtaken k.scall.toNat k.sed.toNat then (refuseBack out.stale p k 1, false)
  else if forHere s k then
    let d := endpointIn s k
    (if d.2 && k.ty == tyLEDGER then d.1 else d.1.owe (some p) k, d.2)
  else (forward s p k, false)

/-- Act on a packet of one type that is delivered here. -/
def onPacket (s : State) (p : PortId) (k : Packet) (ty : BitVec 5) (f : State → State) : Host.Outcome State Fault Refusal :=
  .next (if k.ty ≠ ty then s
    else
      let r := receive s p k
      if r.2 then f r.1 else r.1)

/-! ### Reports and claims (11 R401, R402) -/

/-- The lowest claim as one number: rank, then shelf mark. -/
def claimKey (rank : BitVec 3) (shelf : BitVec 32) : Nat := rank.toNat * 2 ^ 32 + shelf.toNat

/-- This module's shelf mark, once its chassis number is known (11 R397). -/
def State.mark (s : State) : Option (BitVec 32) := if bit s.fab.shelf 32 then some (s.fab.shelf.setWidth 32) else none

/-- A link-local MGMT packet. -/
def sendLocal (s : State) (p : PortId) (b : Body) : State :=
  s.sendOn p (s.stamp { pktEmpty with ty := tyMGMT, vc := 5, dcall := 0xFFFFF#20, body := b })

/-- The ports that are up, apart from one. -/
def State.otherPorts (s : State) (p : Option PortId) : List PortId := (List.finRange 24).filter (fun q => (s.port q).up && some q != p)

/-- Shelf marks that two modules present (11 R402). -/
def State.dup (s : State) (m : BitVec 32) : State :=
  { s with fab := { s.fab with dups := if s.fab.dups.contains m then s.fab.dups else s.fab.dups ++ [m] } }

/-- A claim is heard: the lowest is adopted and forwarded, and all are remembered in order; one with the own shelf mark and another rank comes
from a second module of that mark (11 R402). -/
def hearClaim (s : State) (from' : Option PortId) (rank : BitVec 3) (shelf : BitVec 32) : State :=
  let key := claimKey rank shelf
  let s := { s with fab := { s.fab with claims := setAdd key s.fab.claims } }
  let s := if from'.isSome && s.mark == some shelf && s.fab.rank != rank then s.dup shelf else s
  let low := match s.fab.claim with
    | some c => decide (key < claimKey c.1 c.2.1)
    | none => true
  if !low then s
  else
    let s := { s with fab := { s.fab with claim := some (rank, shelf, s.now) } }
    (s.otherPorts from').foldl (fun s q => sendLocal s q (.claim rank shelf)) s

/-- A module of a shelf mark, or one that is not known, has a call number of this catalogue. -/
def State.callIs (s : State) (call : BitVec 20) (far : Option (BitVec 32)) : Bool := match s.catOf call.toNat with
  | some e => far == some e.shelf
  | none => false

/-- The cataloguer takes in the report of a port: the links it knows follow it, a module with a port that is up again may become suspect anew,
a neighbour's fitness is noted, and a port that is up to two different modules, or to a module of its own mark, belongs to two modules of one
shelf mark (11 R401, R402, R428; 16 R566; log 83). -/
def noteLink (s : State) (shelf : BitVec 32) (p : BitVec 5) (far : Option (BitVec 32)) (up fit : Bool) : State :=
  let twice := up && (far == some shelf || s.fab.links.any (fun l => l.1 == shelf && l.2.1 == p && l.2.2.2 && l.2.2.1 != far))
  let s := if twice then s.dup shelf else s
  { s with fab := { s.fab with
      links := s.fab.links.filter (fun l => !(l.1 == shelf && l.2.1 == p)) ++ [(shelf, p, far, up)],
      unfit := if up then s.fab.unfit.filter (fun m => far != some m) ++ (if fit then [] else far.toList) else s.fab.unfit,
      suspects := s.fab.suspects.filter (fun x => !(up && x.answered && (s.callIs x.call (some shelf) || s.callIs x.call far))) } }

/-- The shelf mark this module presents: without a chassis number, its slot (11 R397, R401). -/
def State.presents (s : State) : BitVec 32 := (s.mark).getD (s.fab.shelf.setWidth 32 &&& 0xFF#32)

/-- Make the reports that wait for it, once the cataloguer is known (11 R401). -/
def flushReports (s : State) : State :=
  let rs := s.fab.reports
  if s.fab.isCat then
    rs.foldl (fun s r => noteLink s s.presents (BitVec.ofNat 5 r.1.val) r.2.1 r.2.2.1 r.2.2.2) { s with fab := { s.fab with reports := [] } }
  else match s.catCall with
  | some c => rs.foldl (fun s r => s.send { pktEmpty with
      ty := tyMGMT, vc := 5, dcall := BitVec.ofNat 20 c, body := .port s.presents (BitVec.ofNat 5 r.1.val) r.2.1 r.2.2.1 r.2.2.2 })
      { s with fab := { s.fab with reports := [] } }
  | none => s

/-- The layout with (shelf mark, call number) pairs of 8 bytes delivered from an index on (11 R403; 15 R544). -/
def mergeLayout (l : List (Nat × BitVec 32 × BitVec 20)) (first : Nat) (ws : List U64) : List (Nat × BitVec 32 × BitVec 20) :=
  l.filter (fun x => !decide (first ≤ x.1 ∧ x.1 < first + ws.length)) ++
    (List.range ws.length).map (fun i => (first + i, (nth 0 ws i).setWidth 32, (nth 0 ws i >>> 32).setWidth 20))

/-- Forward the layout that waits here to the cataloguer, once another module is known to be it; a packet carries an index and a pair, so that it
stays within 256 bytes (11 R390, R403; 15 R544; log 83). -/
def flushLayout (s : State) : State :=
  if s.fab.isCat then s
  else match s.catCall with
  | some c => s.fab.layout.foldl (fun s x => sendMgmt s c 4 [n64 x.1, n64 (x.2.1.toNat + x.2.2.toNat <<< 32)])
      { s with fab := { s.fab with layout := [] } }
  | none => s

/-- Report a port to the cataloguer, at once or when it is known (11 R401). -/
def reportPort (s : State) (p : PortId) (up : Bool) : State :=
  flushReports { s with fab := { s.fab with reports := s.fab.reports ++ [(p, (s.port p).nbr.map (fun n => n.shelf), up, ((s.port p).nbr.map (fun n => n.fit)).getD true)] } }

/-- Send HELLO on a port (11 R401, 16 R566). -/
def sendHello (s : State) (p : PortId) : State :=
  s.sendOn p (s.stamp { pktEmpty with
    ty := tyHELLO, vc := 4, dcall := 0xFFFFF#20,
    body := .hello s.presents (BitVec.ofNat 20 s.call) (BitVec.ofNat 16 s.edition) s.heldGen s.fab.rank s.plat.fit })

/-! ### Ports (11 R389, R394, R427) -/

/-- PORT_TRAINED: the port comes up with nothing outstanding and a whole room of credits, and HELLOs are exchanged (11 R389, R401). -/
def execPortTrained (p : PortId) (s : State) : Host.Outcome State Fault Refusal :=
  .next (if (s.port p).up || !s.plat.main || decide (s.plat.stage < 6) || s.plat.halted || s.plat.recovery then s
    else
      sendHello (s.setPort p (fun ps => { PortSt.reset with
        up := true, fell := ps.fell, lastGood := s.now, lastLive := s.now, credit := Vector.ofFn (fun v => vcRoom v.val) })) p)

/-- PORT_TRAINING_RETRY: a port that is down tries again every 10 ms (11 R389). -/
def execPortTrainingRetry (p : PortId) (s : State) : Host.Outcome State Fault Refusal :=
  .next (if (s.port p).up then s
    else
      let s := s.advanceTo (s.port p).retryAt
      s.setPort p (fun ps => { ps with retryAt := s.now + 10000000 }))

/-- The port to the time parent, if there is one (11 R422). -/
def State.parentPort (s : State) : Option PortId :=
  if h : fld s.hall.stat 36 5 < 24 then (if bit s.hall.stat 2 then none else some ⟨fld s.hall.stat 36 5, h⟩) else none

/-- Enter holdover (11 R424). -/
def holdover (s : State) : State :=
  if bit s.hall.stat 1 then s
  else { s with hall := { s.hall with stat := setBit s.hall.stat 1 true, holdFrom := s.now, good := 0 } }

/-- Calls of a plan entry's parent and children (11 R412). -/
def planCalls (ws : List U64) : List Nat :=
  let w0 := nth 0 ws 0
  let kids := (List.range (min 12 (fld w0 4 4))).map (fun j => fld (nth 0 ws (1 + j / 3)) (20 * (j % 3)) 20)
  if bit w0 2 then kids else fld w0 32 20 :: kids

/-- The plans whose deterministic route uses a port: those of this member whose route to the parent or a child leaves there, and those whose
packets have crossed it, in either direction or in transit (11 R420; log 67). -/
def plansVia (s : State) (p : PortId) : List Nat :=
  (s.fab.plans.filter (fun e => fld (nth 0 e.2 0) 0 2 != 0 && (planCalls e.2).any (fun c => match s.catOf c with
    | some x => x.det == p
    | none => false))).map (fun e => e.1)
  ++ (s.fab.planPorts.filter (fun x => x.2 == p)).map (fun x => x.1)

/-- A packet that waited at a port which has gone down takes another route; a link-local one is dropped (11 R404, R427; log 84). -/
def rerouted (s : State) (x : TxEnt) : State :=
  if x.pkt.dcall = 0xFFFFF#20 then s.owe x.from' x.pkt
  else match x.from' with
  | some _ => sendAlong s x.from' x.pkt
  | none =>
    match s.route x.pkt with
    | (some q, s1) => s1.sendOn q x.pkt
    | (none, s1) =>
      if pktIsReq x.pkt then { s1 with fab := { s1.fab with
        reqs := s1.fab.reqs.map (fun r => if r.tag = x.pkt.tag then { r with noRoute := true } else r) } }
      else s1.drop

/-- PORT_DOWN: no good flit for 16 µs, or eight replays without progress (11 R394, R420, R424, R427). -/
def execPortDown (p : PortId) (s : State) : Host.Outcome State Fault Refusal :=
  .next (if !(s.port p).up then s
    else
      let s := if (s.port p).retry.any (fun r => decide (8 ≤ r.replays)) then s else s.advanceTo ((s.port p).lastGood + 16000)
      let wait := (s.port p).txq
      let s := s.setPort p (fun ps => { ps with
        up := false, fell := true, retryAt := s.now, txq := [], retry := [], parts := none, liveRx := none, liveTx := [] })
      let s := breakPlans s (plansVia s p) true
      let s := { s with fab := { s.fab with planPorts := s.fab.planPorts.filter (fun x => x.2 != p) } }
      let s := wait.foldl rerouted s
      let s := if s.parentPort = some p then holdover s else s
      reportPort s p false)

/-- LINK_REPLAY: the oldest unacknowledged packet has waited 1 µs, and everything from it on is sent again (11 R394). -/
def execLinkReplay (p : PortId) (s : State) : Host.Outcome State Fault Refusal :=
  .next (match (s.port p).retry with
    | [] => s
    | r :: _ =>
      let s := s.advanceTo (r.sent + 1000)
      s.setPort p (fun ps => { ps with retry := ps.retry.map (fun r => { r with sent := s.now, replays := r.replays + 1 }) }))

/-- LINK_ACK: an IDLE header flit carries the acknowledgement and the credits owed (11 R390, R393, R394). -/
def execLinkAck (p : PortId) (s : State) : Host.Outcome State Fault Refusal :=
  .next (if (s.port p).up then s.setPort p (fun ps => ps.controlled) else s)

/-- PACKET_FORWARD: a received packet that no other row takes is checked and forwarded or dropped; an IDLE header flit carries link
control only (11 R390, R391, R404, R405, R430). Reports and messages to the cataloguer are taken in. -/
def execPacketForward (p : PortId) (k : Packet) (s : State) : Host.Outcome State Fault Refusal :=
  let own := match k.body with
    | .words t _ => t != 1
    | .port .. => true
    | _ => false
  let stray := k.ty == tyLEDGER && !decide (1 ≤ k.plan.toNat ∧ k.plan.toNat ≤ 6)
  .next (if formOk k && forHere s k && !(k.ty == tyMGMT && own) && !stray then s
    else
      let r := receive s p k
      if !r.2 then r.1
      else if stray then ledReceive r.1 p k
      else match k.body with
      | .port shelf q far up fit => if r.1.fab.isCat then noteLink r.1 shelf q far up fit else r.1
      | .words 3 _ => if r.1.fab.isCat then { r.1 with fab := { r.1.fab with wants := setAdd k.scall.toNat r.1.fab.wants } } else r.1
      | .words 4 ws => if r.1.fab.isCat then
          { r.1 with fab := { r.1.fab with layout := mergeLayout r.1.fab.layout (nth 0 ws 0).toNat (ws.drop 1) } } else r.1
      | _ => r.1)

/-! ### Hall time (11 R421 to R424) -/

/-- LIVE_SEND: TXS, and the stamps of the last LIVE received since the port came up, as it departs (11 R423, R427). -/
def execLiveSend (p : PortId) (s : State) : Host.Outcome State Fault Refusal :=
  .next (if !(s.port p).up then s
    else
      (s.sendOn p (s.stamp { pktEmpty with ty := tyLIVE, vc := 4, dcall := 0xFFFFF#20 })).setPort p (fun ps => { ps with lastLive := s.now }))

/-- The own-count stamps a port keeps, after the count has stepped by d (11 R421, R423). -/
def PortSt.shift (ps : PortSt) (d : Int) : PortSt :=
  { ps with
    liveRx := ps.liveRx.map (fun r => (r.1, r.2 + d)),
    liveTx := ps.liveTx.map (fun l => { l with at' := l.at' + d, echo := l.echo.map (fun r => (r.1, r.2 + d)) }) }

/-- A valid exchange with the time parent, whose LIVE says whether it is synchronised (11 R421, R423, R424). -/
def exchange (s : State) (offset delay : Int) (hs : Bool) : State :=
  let h := s.hall
  let meas := setFld (setFld h.meas 0 32 (wrapN 32 offset)) 32 16 (wrapN 16 delay)
  let first := hs && !h.once
  let good := if offset.natAbs ≤ 10 then h.good + 1 else 0
  let sync := bit h.stat 0 || (hs && decide (8 ≤ good))
  let s := { s with hall := { h with
    meas := meas, good := good, once := h.once || hs,
    now := if first then h.now + w64 (-offset) else h.now,
    slew := if first then 0 else if h.once then -offset else h.slew,
    lastEx := if hs then s.now else h.lastEx,
    stat := setBit (if hs then setBit h.stat 1 false else h.stat) 0 sync } }
  if first then { s with fab := { s.fab with ports := vmap (fun p => p.shift (-offset)) s.fab.ports } } else s

/-- LIVE: the stamps are kept, and a valid exchange with the time parent corrects hall time (11 R423). -/
def execLive (p : PortId) (k : Packet) (s : State) : Host.Outcome State Fault Refusal :=
  onPacket s p k tyLIVE (fun s =>
    let t := Int.ofNat s.hall.now.toNat
    let sent := (s.port p).liveTx.find? (fun l => l.txs == k.w2)
    let s := s.setPort p (fun ps => { ps with liveRx := some (k.arg0, t) })
    match (if bit k.tag 0 && s.parentPort == some p then sent else none) with
    | some l =>
      (match l.echo with
       | some (t1, t2) =>
         let a := t2 - Int.ofNat t1.toNat
         let b := Int.ofNat k.arg1.toNat - l.at'
         exchange s (fdiv (a - b) 2) (fdiv (a + b) 2) (bit k.tag 1)
       | none => s)
    | none => s)

/-- HT_HOLDOVER: 16 µs without a valid exchange with a synchronised parent (11 R424). -/
def execHtHoldover (s : State) : Host.Outcome State Fault Refusal :=
  .next (if bit s.hall.stat 2 ∨ bit s.hall.stat 1 then s else holdover (s.advanceTo (s.hall.lastEx + 16000)))

/-- HT_SYNC_LOST: HOLDMS ms in holdover (11 R424). -/
def execHtSyncLost (s : State) : Host.Outcome State Fault Refusal :=
  .next (if bit s.hall.stat 1 then
      let s := s.advanceTo (s.hall.holdFrom + 1000000 * fld s.hall.ctl 8 8)
      { s with hall := { s.hall with stat := setBit s.hall.stat 0 false, good := 0 } }
    else s)

/-! ### HELLO, claims and probes (11 R401, R402, R428, R431) -/

/-- The whole catalogue as an update, for an end that holds an older generation (11 R431). -/
def State.wholeUpdate (s : State) : CatUpdate :=
  { gen := s.fab.gen, tact := s.hall.now, entries := s.fab.cat, root := s.fab.timeRoot, more := false }

/-- An update as the packets that carry it: at most 12 entries each, the last one saying that no more follow (11 R390; log 83). -/
def splitUpdate : Nat → CatUpdate → List CatUpdate
  | 0, u => [u]
  | n + 1, u => if u.entries.length ≤ 12 then [u] else { u with entries := u.entries.take 12, more := true } :: splitUpdate n { u with entries := u.entries.drop 12 }

/-- Send updates over a port, ahead of all else that waits there but updates; its far end then holds the last one's generation
(11 R400, R431). -/
def sendUpdates (s : State) (p : PortId) (us : List CatUpdate) : State :=
  if !(s.port p).up || us.isEmpty then s
  else
    let ks := (us.flatMap (fun u => splitUpdate u.entries.length u)).map (fun u =>
      ({ pkt := s.stamp { pktEmpty with ty := tyMGMT, vc := 5, dcall := 0xFFFFF#20, body := .update u }, from' := none } : TxEnt))
    let s := s.setPort p (fun ps =>
      let n := (ps.txq.reverse.dropWhile (fun x => !x.isUpdate)).length
      { ps with
        txq := ps.txq.take n ++ ks ++ ps.txq.drop n,
        nbr := ps.nbr.map (fun x => { x with gen := (us.getLast?.map (fun u => u.gen)).getD x.gen }) })
    drainTx s p

/-- HELLO: the neighbour is recorded, the missing updates go to it first if it is behind, and then it is reported and hears the lowest claim
(11 R401, R402, R431). -/
def execHello (p : PortId) (k : Packet) (s : State) : Host.Outcome State Fault Refusal :=
  onPacket s p k tyHELLO (fun s => match k.body with
    | .hello shelf call ed gen rank fit =>
      let s := s.setPort p (fun ps => { ps with nbr := some { shelf := shelf, call := call, edition := ed, gen := gen, rank := rank, fit := fit } })
      let behind (g : BitVec 32) : Bool := newer 32 g.toNat gen.toNat
      let s := sendUpdates s p ((if behind s.fab.gen then [s.wholeUpdate] else []) ++ s.fab.pend.filter (fun u => behind u.gen))
      let s := reportPort s p true
      let s := match s.fab.claim with
        | some c => sendLocal s p (.claim c.1 c.2.1)
        | none => s
      drainTx s p
    | _ => s)

/-- CATALOGUE_CLAIM (11 R402). -/
def execCatalogueClaim (p : PortId) (k : Packet) (s : State) : Host.Outcome State Fault Refusal :=
  match k.body with
  | .claim rank shelf => onPacket s p k tyMGMT (fun s => hearClaim s (some p) rank shelf)
  | _ => .next s

/-- PROBE: the router answers, whatever the state of the rest (11 R428). -/
def execProbe (p : PortId) (k : Packet) (s : State) : Host.Outcome State Fault Refusal :=
  onPacket s p k tyPROBE (fun s => s.emit { pktEmpty with ty := tyPROBERESP, vc := 4, dcall := k.scall, tag := k.tag })

/-- PROBERESP: the module that answers is not withdrawn by the fabric (11 R428). -/
def execProberesp (p : PortId) (k : Packet) (s : State) : Host.Outcome State Fault Refusal :=
  onPacket s p k tyPROBERESP (fun s => { s with fab := { s.fab with
    suspects := s.fab.suspects.map (fun x => if x.call = k.scall then { x with answered := true } else x) } })

end Sys2Proof.Machine
end

