-- ==== Sys2Proof/Machine/Weed.lean ====
section
/-! DEFINITION. Machine/Weed.lean: known-answer tests, weeding of arrays and cores, and the withdrawal a module asks for (13 R484 to
R486, R505). -/

namespace Sys2Proof.Machine

/-- The compute cores. -/
def State.compute (s : State) : List Core := ((List.finRange 144).filter isCompute).map s.core

/-- The module asks the cataloguer to withdraw it (13 R485, R487, R505). -/
def requestWithdrawal (s : State) : State :=
  if s.cur.withdraw then s
  else
    let s := { s with cur := { s.cur with withdraw := true } }
    if s.fab.isCat then { s with fab := { s.fab with wants := setAdd s.call s.fab.wants } }
    else match s.catCall with
    | some c => sendMgmt s c 3 [n64 s.call, n64 s.edition]
    | none => s

/-- A core never issues again (13 R485). -/
def parkCore (s : State) (c : CoreId) : State :=
  let s := haltByOrder s c .command
  let s := s.modCore c (fun k => { k with ex := { k.ex with run := .parked } })
  { s with plat := { s.plat with parked := setAdd c.val s.plat.parked } }

/-- Weed arrays of a core and, if asked, the core; recorded in flash and reported. More than 16 weeded cores withdraw the module
(13 R485, 15 R553). -/
def weed (s : State) (c : CoreId) (mask : BitVec 4) (park : Bool) : State :=
  let new := mask &&& ~~~(s.core c).tile.weeded
  let parkNew := park && !s.plat.parked.contains c.val
  if new = 0 ∧ !parkNew then s
  else
    let s := s.modCore c (fun k => { k with tile := k.tile.withSets (k.tile.weeded ||| mask) (k.tile.suspect &&& ~~~mask) })
    let s := { s with plat := { s.plat with weeded := vput s.plat.weeded c.val (vget s.plat.weeded c.val 0 ||| mask) } }
    let s := if parkNew then parkCore s c else s
    let gone := decide (16 < s.plat.weededCores) && s.plat.stage == 8
    let s := ownerNotice s 8 c.val (n64 (new.toNat + b01 parkNew <<< 8 + b01 gone <<< 9)) 0
    if gone then requestWithdrawal s else s

/-- The known-answer test of a core's suspect arrays: those that pass return to use, and their repeat is recorded as transient;
those that fail are weeded. Which fail is a free value (13 R484; log 1). -/
def testSuspects (s : State) (c : CoreId) : State :=
  let sus := (s.core c).tile.suspect
  if sus = 0 then s
  else
    let r := s.freeNext
    let bad := sus &&& BitVec.ofNat 4 r.1
    let passed := sus &&& ~~~bad
    (weed r.2 c bad false).modCore c (fun k => { k with tile := { k.tile.withSets k.tile.weeded 0 with
      mgstat := if passed = 0 then k.tile.mgstat
        else setFld (setBit k.tile.mgstat 1 true) 16 16 (min 0xFFFF (fld k.tile.mgstat 16 16 + popN 4 passed.toNat)) } })

/-- The compute cores that are not parked. -/
def State.liveCores (s : State) : List CoreId := (List.finRange 144).filter (fun c => isCompute c && !s.plat.parked.contains c.val)

/-- Judge the suspect arrays at a seal, and park cores left with fewer than three arrays and cores outvoted in two twin comparisons within
1,024 steps (13 R484, R485; 02 R64; log 59). -/
def judgeArrays (s : State) : State :=
  s.liveCores.foldl (fun s c =>
    let s := testSuspects s c
    if (s.core c).tile.liveCount < 3 ∨ 2 ≤ (s.led.outvotes.filter (fun x => x.1 == c.val)).length then weed s c 0 true else s) s

/-- A known-answer test of every array and core, and in a reserve's cycle a march test of every carrel: what fails is a free value (13 R485,
R488, R489; log 1). A core that met the TCOUNT condition and fails is parked. Answers whether everything passed. -/
def testAll (s : State) (march : Bool) : State × Bool :=
  let r := s.liveCores.foldl (fun (r : State × Bool) c =>
    let f := r.1.freeNext
    let bad := BitVec.ofNat 4 f.1 &&& ~~~(f.2.core c).tile.fused &&& ~~~(f.2.core c).tile.weeded
    let core := bitsOf f.1 4 1 == 1
    let carrel := march && bitsOf f.1 5 1 == 1
    let s := weed f.2 c bad ((core || bad != 0) && f.2.cur.suspectCores.contains c.val)
    let s := s.modCore c (fun k => { k with tile := k.tile.withSets k.tile.weeded 0 })
    let s := if (s.core c).tile.liveCount < 3 then weed s c 0 true else s
    (s, r.2 && bad == 0 && !core && !carrel)) (s, true)
  ({ r.1 with cur := { r.1.cur with suspectCores := [] } }, r.2)

/-- The compute cores stopped on fault (07 R276). -/
def State.faulted (s : State) : List CoreId :=
  s.liveCores.filter (fun c => (s.core c).ex.run == .stopped .mask || (s.core c).ex.run == .stopped .spill || (s.core c).ex.run == .stopped .refill)

/-- The cores that stopped on fault in a pass that is replayed: a second stop in the passes of one step parks a core, and the quadrant
of every other one is reset (13 R485, R486). -/
def judgeStops (s : State) : State :=
  let fs := s.faulted
  let s := { s with led := { s.led with stops := s.led.stops ++ fs.map (fun c => c.val) } }
  let s := fs.foldl (fun s c => if 2 ≤ s.led.stops.count c.val then weed s c 0 true else s) s
  (List.range 4).foldl (fun s q =>
    if fs.any (fun c => coreQuad c == q) && s.fnState (2 + q) == .enabled then startDrain s (2 + q) 0 [] true false else s) s

/-- TCOUNT of a sealed step: a core whose transient repeats over 1,024 steps reach TLIM is to be tested (13 R485). -/
def countTransients (s : State) (n : U64) : State :=
  let new := (s.liveCores.filter (fun c => fld (s.core c).tile.mgstat 16 16 != 0)).map (fun c => (c.val, n.toNat, fld (s.core c).tile.mgstat 16 16))
  let all := s.led.tcounts.filter (fun x => decide (n.toNat < x.2.1 + 1024)) ++ new
  let hit := s.liveCores.filter (fun c => decide (fld s.led.alarm 16 8 ≤ ((all.filter (fun x => x.1 == c.val)).map (fun x => x.2.2)).sum))
  { s with
    led := { s.led with tcounts := all },
    cur := { s.cur with suspectCores := hit.foldl (fun l c => setAdd c.val l) s.cur.suspectCores } }

end Sys2Proof.Machine
end

