-- ==== Sys2Proof/Machine/Bringup.lean ====
section
/-! DEFINITION. Machine/Bringup.lean: the stages from power-good to READY, the hub boot image (08 R292, R294, R301; 13 R485; 16 R564 to
R573, R575). What a stage's test of the hardware finds is the operand of its command. -/

namespace Sys2Proof.Machine

/-- The stage that has ended last, if bring-up goes on. -/
def State.atStage (s : State) (n : Nat) : Bool :=
  s.plat.main && !s.plat.modReset && !s.plat.halted && !s.plat.recovery && s.plat.stage == n

/-- A stage ends. -/
def endStage (s : State) (n : Nat) : State := { s with plat := { s.plat with stage := n, stageAt := s.now } }

/-- Bring-up halts with a fault code and unit (16 R566). -/
def haltBringup (s : State) (code unit : Nat) : State :=
  { s with plat := { s.plat with halted := true, code := BitVec.ofNat 8 code, unit := BitVec.ofNat 8 unit } }

/-- The recovery loader takes over with a fault code (16 R566, R570). -/
def recover (s : State) (code : Nat) : State :=
  { s with plat := { s.plat with recovery := true, code := BitVec.ofNat 8 code, jlive := true } }

/-- FIRMWARE_VERIFY, stage 1: a valid image runs and is measured into MR0 (16 R566, R567, R575). -/
def execFirmwareVerify (s : State) : Host.Outcome State Fault Refusal :=
  .next (if !s.atStage 0 then s
    else if !s.plat.slotValid then recover s 1
    else
      let f := s.plat.slotByte
      let s := { s with plat := { s.plat with img := runImage f } }
      endStage (extendState s 0 (imgBytes f 0 0x8000 ++ imgBytes f 0x8000 (imgBodyLen f))) 1)

/-- CURATOR_BOOT, stage 2: the self-test passes or not; the weeding record and the force key are held in flash (16 R564, R566; 17 R593). -/
def execCuratorBoot (ok : Bool) (s : State) : Host.Outcome State Fault Refusal :=
  .next (if !s.atStage 1 then s
    else if !ok then recover s 2
    else endStage { s with plat := { s.plat with jlive := true } } 2)

/-- CALIBRATION, stage 3: rail, detectors and sensors can be calibrated or not (16 R564, R566). -/
def execCalibration (ok : Bool) (s : State) : Host.Outcome State Fault Refusal :=
  .next (if !s.atStage 2 then s else if !ok then haltBringup s 3 0 else endStage s 3)

/-- Every L1D line and L1I line invalid (08 R301). -/
def invalidateL1 (s : State) : State :=
  { s with cores := vmap (fun k => { k with mm := { k.mm with l1d := [], l1i := [] } }) s.cores }

/-- HBM_TRAINING, stage 4: a stack that fails training halts bring-up; else the L2 slices hold nothing and HBM holds zeros in the interleave
mode chosen (08 R292, R301; 15 R563; 16 R564, R566). -/
def execHbmTraining (bad : Option (Fin 12)) (s : State) : Host.Outcome State Fault Refusal :=
  .next (if !s.atStage 3 then s
    else match bad with
    | some k => haltBringup s 4 k.val
    | none =>
      let s := { zeroRange s 0 0x9000000000 with l2 := State.reset.l2 }
      endStage { s with plat := { s.plat with quadLocal := s.plat.hbmNext } } 4)

/-- CARREL_ZEROING, stage 5: carrels zero, tile state as R83 says, L1s invalid; a slice that fails halts bring-up (03 R83; 08 R294, R301; 16
R564, R566). -/
def execCarrelZeroing (bad : Option (Fin 64)) (s : State) : Host.Outcome State Fault Refusal :=
  .next (if !s.atStage 4 then s
    else match bad with
    | some k => haltBringup s 5 k.val
    | none =>
      let s := zeroRange s 0xC000000000 0xC00C000000
      let s := { s with cores := vmap (fun k => { k with tile := { TileRegs.reset with fused := k.tile.fused, weeded := k.tile.weeded } }) s.cores }
      endStage (invalidateL1 s) 5)


/-- SELF_TEST, stage 6: a failing array is weeded, a core with a failing memory is parked, a failing slice halts bring-up; with more than 16
compute cores parked the module is unfit (13 R484, R485; 16 R564, R566). -/
def execSelfTest (bad : Option (Fin 64)) (tests : List CoreTest) (s : State) : Host.Outcome State Fault Refusal :=
  .next (if !s.atStage 5 then s
    else match bad with
    | some k => haltBringup s 5 k.val
    | none =>
      let s := tests.foldl (fun s t => weed s t.1 (if isCompute t.1 then t.2.1 &&& ~~~(s.core t.1).tile.fused else 0) t.2.2) s
      let unfit := decide (16 < s.plat.weededCores)
      endStage { s with plat := { s.plat with
        live := (s.compute.map (fun k => k.tile.liveCount)).sum, fit := !unfit,
        code := if unfit then 6 else s.plat.code } } 6)

/-- LINK_TRAINING_STAGE, stage 7: it ends when every port that detects a partner's signal has trained, or 14.0 s after it began (16 R565). -/
def execLinkTrainingStage (partners : BitVec 24) (s : State) : Host.Outcome State Fault Refusal :=
  .next (if !s.atStage 6 then s
    else
      let all := (List.finRange 24).all (fun p => !bit partners p.val || (s.port p).up)
      endStage (if all then s else s.advanceTo (s.plat.stageAt + 14000000000)) 7)

/-- The anti-rollback fuses at READY (16 R568). -/
def PlatState.blow (p : PlatState) : PlatState := if p.img.roll then { p with arc := max p.arc p.img.svn.toNat } else p

/-- Every core holds a stop record with reason command and a resume address of 0 (16 R572). -/
def holdRecords (s : State) : State :=
  { s with cores := vmap (fun k => { k with ex := { k.ex with stop := { StopRec.none with valid := true, time := s.hallt } } }) s.cores }

/-- READY, stage 8: fuses as R568 says, MR1, the gloss tables, and every core but hub core 128 waits for CORE_RESTART (16 R564, R568, R571,
R572, R575). -/
def execReady (s : State) : Host.Outcome State Fault Refusal :=
  .next (if !s.atStage 7 then s
    else
      let s := { s with plat := s.plat.blow }
      let s := holdRecords ((List.finRange 144).foldl loadGlosses s)
      let s := endStage { s with plat := { s.plat with tready := (s.now - s.plat.pgood) / 1000 } } 8
      extendState s 1 s.mr1Data)

/-! ### The hub boot image (16 R572, R573, R575) -/

/-- A hub boot image is accepted: R573 names the load address, the length and the entry offset; the whole image lies below the ledger ring
and has come whole (log 73). -/
def bootOk (img : List Byte) : Bool :=
  let load := leNat ((img.drop 8).take 8)
  let len := leNat ((img.drop 16).take 8)
  let entry := leNat ((img.drop 24).take 8)
  decide (64 ≤ img.length) && load % 4096 == 0 && decide (load + len ≤ 0x8FFC000000) && decide (len ≤ 0x10000000)
    && decide (len ≤ img.length) && entry % 4 == 0 && decide (entry < len)

/-- A fetch has ended with a file or without one: an accepted image is written, measured and started; else the fetch is tried again (16 R573,
R575). -/
def bootFetch (s : State) (img : Option (List Byte)) : State :=
  let bad := { s with plat := { s.plat with hubTry := some s.now } }
  match img with
  | none => bad
  | some b =>
    if !bootOk b then bad
    else
      let load := leNat ((b.drop 8).take 8)
      let w := b.take (leNat ((b.drop 16).take 8))
      let s := extendState (homeWrite s none none load w) 2 w
      startHub { s with plat := { s.plat with hubTry := none, hubEntry := some (n64 (load + leNat ((b.drop 24).take 8))) } }

/-- HUB_BOOT_FETCH through the management port after READY: the file that came, if one did (16 R573). -/
def execHubBootFetch (img : Option (List Byte)) (s : State) : Host.Outcome State Fault Refusal :=
  .next (if !s.atStage 8 || s.plat.hubEntry.isSome || s.plat.hubTry.isSome then s else bootFetch s img)

/-- HUB_BOOT_RETRY: 10 s after a failed fetch the Curator fetches again (16 R573). -/
def execHubBootRetry (img : Option (List Byte)) (s : State) : Host.Outcome State Fault Refusal :=
  .next (match s.plat.hubTry with
    | some t => if !s.atStage 8 then s else bootFetch (s.advanceTo (t + 10000000000)) img
    | none => s)

end Sys2Proof.Machine
end

