-- ==== Sys2Proof/Machine/Plans.lean ====
section
/-! DEFINITION. Machine/Plans.lean: circulation plans: triggers, reduction, multicast and hall barriers (11 R412 to R420). -/

namespace Sys2Proof.Machine

/-! ### Plan entries (11 R412) -/

/-- A plan entry in use. -/
def State.plan (s : State) (p : Nat) : Option (List U64) :=
  (s.fab.plans.find? (fun e => e.1 == p && fld (nth 0 e.2 0) 0 2 != 0)).map (fun e => e.2)

/-- KIND: 1 reduce, 2 multicast, 3 hall barrier. -/
def planKind (e : List U64) : Nat := fld (nth 0 e 0) 0 2
/-- ROOT. -/
def planRoot (e : List U64) : Bool := bit (nth 0 e 0) 2
/-- LOCAL. -/
def planLocal (e : List U64) : Bool := bit (nth 0 e 0) 3
/-- CFMT: the contributions are FP32. -/
def planC32 (e : List U64) : Bool := bit (nth 0 e 0) 8
/-- WFMT: partial sums travel as FP32. -/
def planW32 (e : List U64) : Bool := bit (nth 0 e 0) 9
/-- BID. -/
def planBid (e : List U64) : Nat := fld (nth 0 e 0) 12 4
/-- JOBKEY. -/
def planKey (e : List U64) : BitVec 16 := BitVec.ofNat 16 (fld (nth 0 e 0) 16 16)
/-- PARENT. -/
def planParent (e : List U64) : Nat := fld (nth 0 e 0) 32 20
/-- The children's call numbers in plan order. -/
def planKids (e : List U64) : List Nat :=
  (List.range (min 12 (fld (nth 0 e 0) 4 4))).map (fun j => fld (nth 0 e (1 + j / 3)) (20 * (j % 3)) 20)
/-- LBASE. -/
def planLbase (e : List U64) : Nat := fld (nth 0 e 5) 0 48
/-- ABASE. -/
def planAbase (e : List U64) : Nat := fld (nth 0 e 6) 0 48
/-- LIMIT. -/
def planLimit (e : List U64) : Nat := fld (nth 0 e 7) 0 31
/-- The child a call number is, by plan order. -/
def planKid (e : List U64) (call : Nat) : Option Nat := (planKids e).findIdx? (fun c => c == call)

/-- A plan packet to a call number. -/
def planPacket (p : Nat) (e : List U64) (ty : BitVec 5) (vc : BitVec 3) (call unit : Nat) (mark : Bool) (bs : List Byte) : Packet :=
  { pktEmpty with
    ty := ty, vc := vc, mark := mark, dcall := BitVec.ofNat 20 call, jobkey := planKey e, plan := BitVec.ofNat 12 p,
    w2 := n64 unit, body := .flits bs }

/-- A plan's write to memory at its home; outside HBM and the carrels that take accesses, and in the ledger ring, nothing is
written (log 67). -/
def planWrite (s : State) (pa : Nat) (bs : List Byte) : State :=
  let shut := isCarrel pa && s.fnState (2 + carrelOwner pa / 32) != .enabled
  if memRange pa bs.length && !hitsLedger pa bs.length && !shut then homeWrite s none none pa bs else s

/-! ### Reduction (11 R416, R417) -/

/-- Values of a list of codes: FP32 as they stand, BF16 widened exactly. -/
def planVals (w32 : Bool) (n : Nat) (bs : List Byte) : List Nat :=
  if w32 then items 4 n bs else (items 2 n bs).map (fun x => x <<< 16)

/-- Poisoned words lie in a unit's accumulator (root with ACC). -/
def accBad (s : State) (e : List U64) (unit : Nat) : Bool :=
  planRoot e && bit (nth 0 e 0) 10 && s.poisoned (planAbase e + 512 * unit) 512

/-- Combine a unit: the own contribution, then the children in plan order, each rounded once to nearest-even. -/
def combine (e : List U64) (u : PlanUnit) : List Nat :=
  let ins := (if planLocal e then [u.own.getD []] else []) ++
    (List.range (planKids e).length).map (fun j => ((u.kids.find? (fun k => k.1 == j)).map (fun k => k.2)).getD [])
  match ins with
  | [] => List.replicate 128 0
  | a :: rest => (List.range 128).map (fun i => rest.foldl (fun c x => add32 c (nth 0 x i)) (nth 0 a i))

/-- A code rounded to a partial sum's format, as bytes. -/
def wireBytes (w32 : Bool) (xs : List Nat) : List Byte :=
  if w32 then xs.flatMap (fun x => leBytes 4 (deliver fp32 .rne (decodeF fp32 x)).1)
  else xs.flatMap (fun x => leBytes 2 (deliver bf16 .rne (decodeF fp32 x)).1)

/-- A sum as it is stored: a NaN is the canonical one (04 R127). -/
def canon32 (x : Nat) : Nat := (deliver fp32 .rne (decodeF fp32 x)).1

/-- A unit whose inputs are all in: into the root's accumulator, or to the parent (11 R417). -/
def reduceOut (s : State) (p : Nat) (e : List U64) (u : PlanUnit) : State :=
  let c := combine e u
  if planRoot e then
    let pa := planAbase e + 512 * u.unit
    let acc := bit (nth 0 e 0) 10
    let old := items 4 128 (s.bytes pa 512)
    let s := consumed (if acc then l2Touch s pa 512 false else s) (accBad s e u.unit)
    let new := if acc then (List.range 128).map (fun i => add32 (nth 0 old i) (nth 0 c i)) else c.map canon32
    let s := planWrite s pa (new.flatMap (fun x => leBytes 4 x))
    if u.mark && bit (nth 0 e 0) 11 then arriveBarrier s (planBid e) else s
  else
    let bs := wireBytes (planW32 e) c
    let k := planPacket p e tyREDUCE 2 (planParent e) u.unit u.mark (bs.take 256)
    let s := s.send k
    if planW32 e then s.send { k with tag := 1, body := .flits (bs.drop 256) } else s

/-- Every input of a held unit is in. -/
def unitFull (e : List U64) (u : PlanUnit) : Bool := (u.own.isSome || !planLocal e) && decide (u.kids.length = (planKids e).length)

/-- Send on the units at the front of a plan that have all their inputs, in the order the plan holds them (11 R416). -/
def reduceRun : Nat → State → Nat → List U64 → State
  | 0, s, _, _ => s
  | n + 1, s, p, e => match s.fab.held.find? (fun u => u.plan == p) with
    | none => s
    | some u =>
      if unitFull e u then
        reduceRun n (reduceOut { s with fab := { s.fab with held := s.fab.held.eraseP (fun u => u.plan == p) } } p e u) p e
      else s

/-- A plan unit not yet held. -/
def PlanUnit.fresh (p unit : Nat) : PlanUnit := { plan := p, unit := unit, own := none, kids := [], halves := [], mark := false }

/-- Change the first held unit that still lacks an input, or hold a new one. -/
def editUnit (p unit : Nat) (lacks : PlanUnit → Bool) (f : PlanUnit → PlanUnit) : List PlanUnit → List PlanUnit
  | [] => [f (PlanUnit.fresh p unit)]
  | u :: us => if u.plan == p && u.unit == unit && lacks u then f u :: us else u :: editUnit p unit lacks f us

/-- Hold an input of a unit and send on what is complete. -/
def heldInput (s : State) (p : Nat) (e : List U64) (unit : Nat) (lacks : PlanUnit → Bool) (f : PlanUnit → PlanUnit) : State :=
  let s := { s with fab := { s.fab with held := editUnit p unit lacks f s.fab.held } }
  reduceRun s.fab.held.length s p e

/-- A child's values of a whole unit, or of one half of it in FP32, as they come in (11 R395, R417). -/
def childInput (w32 : Bool) (j half : Nat) (xs : List Nat) (mark : Bool) (u : PlanUnit) : PlanUnit :=
  let u := { u with mark := u.mark || mark }
  if !w32 then { u with kids := u.kids ++ [(j, xs)] }
  else match u.halves.find? (fun h => h.1 == j && h.2.1 != half) with
    | some h => { u with
        halves := u.halves.filter (fun x => x.1 != j), kids := u.kids ++ [(j, if half = 0 then xs ++ h.2.2 else h.2.2 ++ xs)] }
    | none => { u with halves := u.halves ++ [(j, half, xs)] }

/-- A unit lacks an input of a child: the whole unit, or the given half. -/
def lacksKid (w32 : Bool) (j half : Nat) (u : PlanUnit) : Bool :=
  !(u.kids.any (fun k => k.1 == j)) && !(w32 && u.halves.any (fun h => h.1 == j && h.2.1 == half))

/-- REDUCE: a child's unit, in the format the child sends (11 R416, R417; 12 R440; log 67). -/
def execReduce (p : PortId) (k : Packet) (s : State) : Host.Outcome State Fault Refusal :=
  onPacket s p k tyREDUCE (fun s =>
    let n := k.plan.toNat
    match s.plan n with
    | some e =>
      (match planKid e k.scall.toNat with
       | some j =>
         if planKind e ≠ 1 ∨ s.fab.broken.contains n then s
         else
           let w32 := Config.childSendsFp32 n k.scall.toNat
           let half := b01 (bit k.tag 0)
           let xs := planVals w32 (if w32 then 64 else 128) (bodyBytes k.body)
           heldInput (consumed s (k.pmask != 0)) n e (fld k.w2 0 40) (lacksKid w32 j half) (childInput w32 j half xs k.mark)
       | none => s)
    | none => s)

/-- A reduce member with LOCAL injects one unit. -/
def inject (s : State) (p : Nat) (e : List U64) (unit : Nat) (mark : Bool) : State :=
  let esize := if planC32 e then 4 else 2
  let pa := planLbase e + unit * 128 * esize
  let xs := planVals (planC32 e) 128 (s.bytes pa (128 * esize))
  heldInput (consumed (l2Touch s pa (128 * esize) false) (s.poisoned pa (128 * esize))) p e unit (fun u => u.own.isNone) (fun u => { u with own := some xs, mark := u.mark || mark })

/-! ### Multicast (11 R418, 12 R458) -/

/-- A unit lands at a member with LOCAL: bytes, poison, the received digest, and the arrival after a marked unit. -/
def mcastLand (s : State) (p : Nat) (e : List U64) (unit : Nat) (mark : Bool) (pmask : Nat) (bs : List Byte) : State :=
  let pa := planLbase e + 256 * unit
  let s := planWrite s pa bs
  let s := (List.range (cdiv bs.length 64)).foldl (fun s f => if pmask.testBit f then s.addPoison (pa + 64 * f) 64 else s) s
  let s := s.modLed (fun l => l.digest true p unit bs)
  if mark && bit (nth 0 e 0) 11 then arriveBarrier s (planBid e) else s

/-- A unit goes to every child in plan order. -/
def mcastDown (s : State) (p : Nat) (e : List U64) (unit : Nat) (mark : Bool) (pmask : Nat) (bs : List Byte) : State :=
  (planKids e).foldl (fun s c => s.send { planPacket p e tyMCAST 3 c unit mark bs with pmask := BitVec.ofNat 4 pmask }) s

/-- MCAST: the parent's unit (11 R418). -/
def execMcast (p : PortId) (k : Packet) (s : State) : Host.Outcome State Fault Refusal :=
  onPacket s p k tyMCAST (fun s =>
    let n := k.plan.toNat
    match s.plan n with
    | some e =>
      if planKind e ≠ 2 ∨ planRoot e ∨ planParent e ≠ k.scall.toNat ∨ s.fab.broken.contains n then s
      else
        let unit := fld k.w2 0 40
        let s := mcastDown s n e unit k.mark k.pmask.toNat (bodyBytes k.body)
        if planLocal e then mcastLand s n e unit k.mark k.pmask.toNat (bodyBytes k.body) else s
    | none => s)

/-- A multicast root sends one unit, and receives it itself when LOCAL is set (11 R414, 12 R458). -/
def mcastSend (s : State) (p : Nat) (e : List U64) (unit : Nat) (mark : Bool) : State :=
  let pa := planLbase e + 256 * unit
  let bs := s.bytes pa 256
  let pm := ((List.range 4).map (fun f => b01 (s.poisoned (pa + 64 * f) 64) <<< f)).sum
  let s := (l2Touch s pa 256 false).modLed (fun l => l.digest false p unit bs)
  let s := mcastDown s p e unit mark pm bs
  if planLocal e then mcastLand s p e unit mark pm bs else s

/-! ### Hall barriers (11 R419) -/

/-- A plan's progress. -/
def State.run (s : State) (p : Nat) : PlanRun :=
  (s.fab.runs.find? (fun r => r.plan == p)).getD { plan := p, ownIn := false, kidsIn := [], relAt := none, waiting := false }

/-- A plan's progress changed. -/
def State.modRun (s : State) (p : Nat) (f : PlanRun → PlanRun) : State :=
  { s with fab := { s.fab with runs := s.fab.runs.filter (fun r => r.plan != p) ++ [f (s.run p)] } }

/-- This member arrives at the plan's module barrier: a synchronised start. The release of plan 2,047 ends a takeover (11 R419,
13 R496, 14 R526). -/
def hallArrive (s : State) (p : Nat) (e : List U64) (t : U64) : State :=
  let s := syncStart (arriveBarrier (s.modRun p (fun r => { r with relAt := none, waiting := false })) (planBid e)) t
  if p = 2047 then s.modLed (fun l => { l with svstat := setBit l.svstat 4 false }) else s

/-- A release for time t reaches a member: it goes on to the children; too late or without synchronised hall time it takes effect
at once (11 R419). -/
def release (s : State) (p : Nat) (e : List U64) (t : U64) : State :=
  let s := (planKids e).foldl (fun s c => s.send { planPacket p e tyHRELEASE 3 c 0 false [] with arg0 := t }) s
  if !planLocal e then s
  else if t.toNat < s.hall.now.toNat ∨ !bit s.hall.stat 0 then hallArrive s.late p e s.hall.now
  else s.modRun p (fun r => { r with relAt := some t })

/-- The own arrival and those of the children are all in: they go up, or the root releases (11 R419). -/
def barrierUp (s : State) (p : Nat) (e : List U64) : State :=
  let r := s.run p
  if (planLocal e && !r.ownIn) || r.kidsIn.length < (planKids e).length then s
  else
    let s := s.modRun p (fun r => { r with ownIn := false, kidsIn := [] })
    if planRoot e then release s p e (s.hall.now + n64 (fld (nth 0 e 6) 0 32))
    else s.send (planPacket p e tyHARRIVE 2 (planParent e) 0 false [])

/-- HARRIVE of a child (11 R419). -/
def execHarrive (p : PortId) (k : Packet) (s : State) : Host.Outcome State Fault Refusal :=
  onPacket s p k tyHARRIVE (fun s =>
    let n := k.plan.toNat
    match s.plan n with
    | some e =>
      (match planKid e k.scall.toNat with
       | some j =>
         if planKind e ≠ 3 ∨ s.fab.broken.contains n then s
         else barrierUp (s.modRun n (fun r => { r with kidsIn := setAdd j r.kidsIn })) n e
       | none => s)
    | none => s)

/-- HRELEASE of the parent (11 R419). -/
def execHrelease (p : PortId) (k : Packet) (s : State) : Host.Outcome State Fault Refusal :=
  onPacket s p k tyHRELEASE (fun s =>
    let n := k.plan.toNat
    match s.plan n with
    | some e =>
      if planKind e ≠ 3 ∨ planRoot e ∨ planParent e ≠ k.scall.toNat ∨ s.fab.broken.contains n then s
      else release s n e k.arg0
    | none => s)

/-- HALL_BARRIER_ARRIVE: hall time reaches a plan's release (11 R419). -/
def execHallBarrierArrive (p : BitVec 12) (s : State) : Host.Outcome State Fault Refusal :=
  .next (match s.plan p.toNat, (s.run p.toNat).relAt with
    | some e, some t => hallArrive (s.toHall t) p.toNat e t
    | _, _ => s)

/-! ### Triggers (11 R414, R415; 12 R453) -/

/-- The trigger at the head of the queue leaves it. -/
def popTrigger (s : State) : State := { s with fab := { s.fab with planQ := s.fab.planQ.drop 1 } }
/-- A trigger is discarded. -/
def badTrigger (s : State) : State := { popTrigger s with fab := { (popTrigger s).fab with planErr := true } }

/-- Act on each unit of a trigger in order; MARK goes with the last. -/
def overUnits (f : State → Nat → Bool → State) (s : State) (off len : Nat) (mark : Bool) : State :=
  (List.range len).foldl (fun s i => f s (off + i) (mark && decide (i + 1 = len))) s

/-- PLAN_TRIGGER: the trigger at the head of the queue runs (11 R414, R419; 12 R453). -/
def execPlanTrigger (s : State) : Host.Outcome State Fault Refusal :=
  .next (match s.fab.planQ with
    | [] => s
    | w :: _ =>
      let p := fld w 0 12
      let mark := bit w 12
      let off := fld w 13 31
      let len := fld w 44 20
      match s.plan p with
      | none => badTrigger s
      | some e =>
        if s.fab.broken.contains p || s.led.quiet.isSome || (planKind e != 3 && (len == 0 || decide (planLimit e < off + len))) then
          badTrigger s
        else match planKind e with
        | 1 => if planLocal e then overUnits (fun s u m => inject s p e u m) (popTrigger s) off len mark else popTrigger s
        | 2 => if planRoot e then overUnits (fun s u m => mcastSend s p e u m) (popTrigger s) off len mark else popTrigger s
        | _ =>
          if !planLocal e then popTrigger s
          else if (s.run p).waiting then s
          else barrierUp ((popTrigger s).modRun p (fun r => { r with ownIn := true, waiting := true })) p e)

/-- Flush the plans: the trigger queue and every unit held for reduce and multicast plans (12 R453). -/
def flushPlans (s : State) : State := { s with fab := { s.fab with planQ := [], held := [] } }

end Sys2Proof.Machine
end

