-- ==== Sys2Proof/Machine/Seal.lean ====
section
/-! DEFINITION. Machine/Seal.lean: the seal: the vote's sending, the ledger entry, SEALED and REPLAY outcomes, the power broker's
interval, the interval rule and the messages of the seal tree (12 R449 to R468; 13 R482 to R492; 14 R519 to R528). -/

namespace Sys2Proof.Machine

/-- FN7 still works: it is enabled or drains (15 R555). -/
def State.ledWorks (s : State) : Bool := s.fnState 7 == .enabled || s.fnState 7 == .draining

/-! ### The vote (12 R449) -/

/-- VOTE_SEND: the module's own request and every voting child's vote are in, and the previous step's post-seal phase is over or the
open step was opened by LG_START or SV_REWIND (12 R449). -/
def execVoteSend (s : State) : Host.Outcome State Fault Refusal :=
  .next (if s.voteOpen && !s.led.voted && s.led.st == 2 && (s.led.post.isNone || s.led.fresh)
      && s.led.voting.all (fun c => s.led.kidVotes.any (fun v => v.1 == c)) then castVote s else s)

/-! ### Messages of the seal tree (12 R462) -/

/-- A LEDGER packet of one kind. -/
def ledPacket (s : State) (p : PortId) (k : Packet) (kind : Nat) : Host.Outcome State Fault Refusal :=
  if k.plan.toNat = kind then onPacket s p k tyLEDGER (fun s => ledReceive s p k) else .next s

/-- VOTE (12 R449, R450). -/
def execVote (p : PortId) (k : Packet) (s : State) : Host.Outcome State Fault Refusal := ledPacket s p k 1
/-- OUTCOME (12 R451). -/
def execOutcome (p : PortId) (k : Packet) (s : State) : Host.Outcome State Fault Refusal := ledPacket s p k 2
/-- DIGUP (12 R459). -/
def execDigup (p : PortId) (k : Packet) (s : State) : Host.Outcome State Fault Refusal := ledPacket s p k 3
/-- DIGDOWN (12 R459). -/
def execDigdown (p : PortId) (k : Packet) (s : State) : Host.Outcome State Fault Refusal := ledPacket s p k 4
/-- UWRUP (12 R464). -/
def execUwrup (p : PortId) (k : Packet) (s : State) : Host.Outcome State Fault Refusal := ledPacket s p k 5
/-- RATIODN (12 R464). -/
def execRatiodn (p : PortId) (k : Packet) (s : State) : Host.Outcome State Fault Refusal := ledPacket s p k 6

/-! ### The ledger entry (12 R466, R467; 02 R67; 04 R157; 06 R251) -/

/-- An FP32 share of a count, +0 for no elements (12 R467). -/
def share32 (n d : Nat) : Nat := if d = 0 then 0 else if n = 0 then 0 else (deliver fp32 .rne (divExact false n 0 d 0)).1

/-- A counter set's 64 bytes: sums over the cores, the largest amax, and shares. -/
def setBytes (cs : List Counts) : List Byte :=
  let e := (cs.map (fun c => c.elems.toNat)).sum
  let sat := (cs.map (fun c => c.sat.toNat)).sum
  let fl := (cs.map (fun c => c.flush.toNat)).sum
  let na := (cs.map (fun c => c.nan.toNat)).sum
  let am := (cs.map (fun c => c.amax)).foldl maxAmax 0
  leBytes 8 e ++ leBytes 8 sat ++ leBytes 8 fl ++ leBytes 8 na ++ leBytes 4 am.toNat ++ leBytes 4 (share32 sat e)
    ++ leBytes 4 (share32 fl e) ++ leBytes 4 (share32 na e) ++ List.replicate 16 0

/-- The header of the entry of the open step, sealed with an outcome. -/
def entryHeader (s : State) (o : Outcome) : List Byte :=
  let l := s.led
  let w1 := 1 + b01 l.prof0.prof <<< 2 + (min 255 l.replays) <<< 8 + fld o.vote.word 0 10 <<< 16 + (s.ownWord % 1024) <<< 32
  wordBytes [l.step, n64 w1, o.time, n64 (fld l.prof0.nps 0 5 + fld l.prof0.npg 0 5 <<< 8), n64 (s.call + s.edition <<< 20),
    n64 (s.fab.gen.toNat + s.pow.jobtag.toNat <<< 32), s.pow.energy - l.energy0, l.loss, o.vote.loss, o.vote.tokens,
    n64 (fld l.probe 0 33), n64 (fld o.vote.members 0 32), 0, 0]

/-- A byte list filled with zeros to a length. -/
def padTo (n : Nat) (bs : List Byte) : List Byte := bs ++ List.replicate (n - bs.length) 0

/-- The whole entry of the open step as the seal writes it. -/
def entryBytes (s : State) (o : Outcome) : List Byte :=
  let cs := s.compute
  let a := padTo 0x400 (entryHeader s o) ++ wordBytes (cs.map (fun k => k.tile.mgstat))
  let b := padTo 0x1000 (a ++ wordBytes (cs.map (fun k => k.ex.glHash)))
  let c := b ++ (List.range 64).flatMap (fun i => setBytes (cs.map (fun k => vget k.num.chans i Counts.zero)))
  let d := c ++ (List.range 16).flatMap (fun i => setBytes (cs.map (fun k => vget k.num.fmts i Counts.zero)))
  padTo 0xC000 d ++ (if s.led.swbuf = 0 then List.replicate 0x4000 0 else s.bytes s.led.swbuf.toNat 0x4000)

/-- A core's latched counters from zero (02 R67, 04 R157). -/
def Core.zeroCounts (k : Core) : Core :=
  { k with
    num := { k.num with chans := Vector.replicate 64 Counts.zero, fmts := Vector.replicate 16 Counts.zero },
    tile := { k.tile with mgstat := 0 } }

/-- The latched counters of every compute core from zero (12 R452, R453). DESIGN CHOICE (log 79): a hub core's counter sets, which are never
latched, do not restart; 04 R157 and R158 say every counter, 12 R452 the latched ones. -/
def clearCounters (s : State) : State :=
  { s with cores := Vector.ofFn (fun c => if isCompute c then (s.cores.get c).zeroCounts else s.cores.get c) }

/-- XSTAT.NONREP of every core, compute and hub, cleared by a seal (06 R216, R253; 12 R452). -/
def clearNonrep (s : State) : State :=
  { s with cores := vmap (fun k => { k with ex := { k.ex with nonrep := false } }) s.cores }

/-- Commit every task that step n lets commit, on every core, at one instant (08 R312, R313). -/
def commitTo (s : State) (n : U64) : State :=
  let u := { s with led := { s.led with sealed := true, last := n } }
  commitTasks s ((List.finRange 144).flatMap (fun c => (u.dueTasks c).map (fun t => (c, t))))

/-! ### The interval rule (13 R482) -/

/-- A fraction's rounding with ties upward of the square root of a quarter of it, within bounds; without a step time the result is
not stated and is a free value (13 R482; log 1). -/
def State.interval (s : State) (four d bound : Nat) : Nat × State :=
  if d = 0 then
    let r := s.freeNext
    (max 1 (min bound r.1), r.2)
  else (max 1 (min bound ((isqrt (four / d) + 1) / 2)), s)

/-- The rule at T of the sealed outcome of step n: AINT, DINT, ADUE and DDUE (13 R482). -/
def intervalRule (s : State) (n : U64) : State :=
  let l := s.led
  let set (s : State) (a d : Nat) : State :=
    let adue := l.astep == 0xFFFFFFFFFFFFFFFF#64 || decide (a + l.astep.toNat ≤ n.toNat)
    let ddue := adue && (l.dstep == 0xFFFFFFFFFFFFFFFF#64 || decide (d + l.dstep.toNat ≤ n.toNat))
    s.modLed (fun l => { l with aint := a, svstat := setFld (setBit (setBit l.svstat 0 adue) 1 ddue) 32 16 d })
  if l.nseal < 2 then set s 1 1
  else
    let j := min 16 l.nseal - 1
    let dt := (s.ledWord n 0x10 - s.ledWord (n - n64 j) 0x10).toNat
    let m : Nat × Nat := if l.fails < 8 then (fld l.prior 0 32, 1) else (l.mest.1, l.mest.2 * 1000000000)
    let a := s.interval (8 * fld l.cost 0 32 * m.1 * j * j * 10 ^ 12) (m.2 * dt * dt) (fld l.pol 16 16)
    let d := a.2.interval (8 * fld l.cost 32 32 * fld l.prior 32 32 * j * j * 10 ^ 15) (dt * dt) (fld l.pol 32 16)
    set d.2 a.1 d.1

/-! ### The power broker (14 R519 to R522) -/

/-- The broker's order: least slack first, ties by lower call number. -/
def brokerLe (a b : Nat × Nat × Nat) : Bool := decide (a.2.1 < b.2.1) || (a.2.1 == b.2.1 && decide (a.1 ≤ b.1))

/-- What a member holds after the procedure: 25 W or 64 tokens move between the members of each pair (14 R521, R522). -/
def brokerMove (sharing : Bool) (floor : Nat) (ms : List (Nat × Nat × Nat)) (own : Nat) : Nat :=
  let v := sortBy brokerLe ms
  let n := v.length
  let at' (i : Nat) := nth (0, 0, 0) v i
  let mine := ((v.find? (fun x => x.1 == own)).map (fun x => x.2.2)).getD 0
  (List.range (n / 4)).foldl (fun x i =>
    let r := at' i
    let d := at' (n - 1 - i)
    let gap := decide (r.2.1 + 50000 ≤ d.2.1)
    if sharing then
      (if gap && decide (256 + 64 ≤ r.2.2) then (if r.1 = own then x - 64 else if d.1 = own then x + 64 else x) else x)
    else if gap && decide (r.2.2 + 25 ≤ 2400) && decide (floor + 25 ≤ d.2.2) then
      (if r.1 = own then x + 25 else if d.1 = own then x - 25 else x)
    else x) mine

/-- Run the procedure once every member's mean is held; the result applies at the next SEALED outcome. In fixed-frequency mode without SHARE
nothing moves (14 R521, R522). -/
def brokerRun (s : State) : State :=
  match s.pow.broker with
  | none => s
  | some (_, ms) =>
    if s.group.any (fun c => !(ms.any (fun m => m.1 == c))) then s
    else
      let sharing := bit s.pow.ctl 2
      if s.pow.fixed && !sharing then s.modPow (fun p => { p with broker := none })
      else
      let x := brokerMove sharing (fld s.pow.cap 16 12) ms s.call
      s.modPow (fun p => if sharing then { p with broker := none, nextTok := some x } else { p with broker := none, nextCap := some x })

/-- A mean of a member: its call number, mean slack, and cap or tokens. -/
def brokerMean (s : State) (call mean x : Nat) : State :=
  match s.pow.broker with
  | none => s
  | some (t, ms) =>
    if !(s.group.contains call) then s
    else brokerRun (s.modPow (fun p => { p with broker := some (t, ms.filter (fun m => m.1 != call) ++ [(call, mean, x)]) }))

/-- The broker's part of a SEALED outcome at T: an assignment takes effect, the slack is noted, and every sixteenth step opens an
interval (14 R519, R521, R522). -/
def brokerSeal (s : State) (n t : U64) (requested : Bool) : State :=
  let slack := min 0xFFFFFFFF (t - s.led.goAt).toNat
  let s := s.modPow (fun p =>
    let p := match p.nextCap with
      | some c => { p with cap := setFld p.cap 0 12 c, nextCap := none }
      | none => p
    let p := p.openShare
    if requested then { p with slack := setFld p.slack 0 32 slack, hist := (slack :: p.hist).take 16 } else p)
  if (n - s.led.first + 1).toNat % 16 ≠ 0 ∨ !bit s.pow.ctl 1 ∨ s.fnState 9 ≠ .enabled ∨ s.pow.hist.length < 16 then s
  else
    let mean := s.pow.hist.sum / 16
    let x := if bit s.pow.ctl 2 then fld s.pow.share 0 32 else fld s.pow.cap 0 12
    let s := s.modPow (fun p => { p with slack := setFld p.slack 32 32 mean, broker := some (s.now, []) })
    let s := (s.group.filter (fun c => c != s.call)).foldl (fun s c => sendMgmt s c 1 [n64 mean, n64 x]) s
    brokerMean s s.call mean x

/-- MEAN_SLACK: a member's mean arrives (14 R521). -/
def execMeanSlack (p : PortId) (k : Packet) (s : State) : Host.Outcome State Fault Refusal :=
  match k.body with
  | .words 1 ws => onPacket s p k tyMGMT (fun s => brokerMean s k.scall.toNat (nth 0 ws 0).toNat (nth 0 ws 1).toNat)
  | _ => .next s

/-- BROKER_MEAN_TIMEOUT: a mean has not come within 1 ms, and the interval passes (14 R521). -/
def execBrokerMeanTimeout (s : State) : Host.Outcome State Fault Refusal :=
  .next (match s.pow.broker with
    | some (t, _) => (s.advanceTo (t + 1000000)).modPow (fun p => { p with broker := none })
    | none => s)

/-! ### SEALED (12 R452) -/

/-- The profile the seal gives the next step: LG_NEXT, GUARDED while GRD is not 0 (12 R452, 13 R491). -/
def LedState.profNext (l : LedState) : StepProf :=
  { prof := bit l.next 16 || l.grd != 0, nps := n64 (fld l.next 0 5), npg := n64 (fld l.next 8 5) }

/-- The step barrier of LG_CTL.BID. -/
def stepArrive (s : State) : State := arriveBarrier s (fld s.led.ctl 1 4)

/-- The seal completes: the digests restart, a held request is taken, the module arrives at the step barrier, and a dirty vote that waited for it
goes (12 R446, R450, R452, R459). -/
def completeSeal (s : State) : State :=
  let s := s.modLed (fun l => match l.heldGo with
    | some d => { l with sent := [], recv := [], heldGo := none, dirty := d, stat := setFld l.stat 0 3 2 }
    | none => { l with sent := [], recv := [] })
  lateVote (stepArrive s)

/-- The registers of the ledger engine after step n has sealed with an outcome (12 R446, R452, R466). -/
def sealedRegs (l : LedState) (o : Outcome) (p : StepProf) (notrep : Bool) (energy : U64) : LedState :=
  let n := l.step
  let stat := setFld (setBit (setBit (setFld l.stat 0 3 3) 3 false) 14 false) 4 10 (fld o.vote.word 0 10)
  { l.newPhase.newVote with
    stat := stat, last := n, step := n + 1, sealt := o.time, sealed := true, fresh := false, post := some n, opening := false,
    prof0 := p, replays := 0, probe := setBit l.probe 32 false, voteMc := false, voteStop := false, markNonrep := false,
    notrep := notrep, energy0 := energy, nseal := l.nseal + 1, ownDirty := 0, stops := [],
    fprev := l.fprev.or (some o.time), wdPass := false,
    svstat := setFld l.svstat 8 8 (l.grd - 1) }

/-- The field-test window a seal opens or schedules: its rail lies below the operating point by SV_TEST.VDROP, its clock runs at 1.1 GHz
(13 R489). -/
def openWindow (s : State) (t : U64) : State :=
  let l := s.led
  let period := fld l.test 0 16 * 60000000000
  if l.tnext = 0 then s.modLed (fun l => { l with tnext := t + n64 period })
  else if l.tnext.toNat ≤ t.toNat then
    (s.modPow (fun p => p.stress 1100 (fld l.test 32 8))).modLed (fun l => { l with
      tnext := l.tnext + n64 period, window := some (t + n64 (fld l.test 16 16 * 1000000)), svstat := setBit l.svstat 25 true })
  else s

/-- A SEALED outcome at its T, in R452's order. Poison in the software record is consumed at the latch, and makes the next step's vote dirty. What a commit of step 3 adds to a counter is an update after the latch, so it counts toward
the next step: the counters that step 5 clears hold what was latched, and start again before the commits (04 R156, R157). -/
def applySealed (s : State) (o : Outcome) : State :=
  let n := s.led.step
  let requested := s.led.st == 2
  let s := s.toHall o.time
  let bad := s.led.swbuf != 0 && s.poisoned s.led.swbuf.toNat 0x4000
  let s := if s.led.swbuf = 0 then s else l2Touch s s.led.swbuf.toNat 0x4000 false
  let s := ledWrite s n 0 (entryBytes s o)
  let s := clearCounters (countTransients s n)
  let s := commitTo s n
  let p := s.led.profNext
  let s := setProfile (setStep s (n + 1)) p
  let s := judgeArrays (clearNonrep s)
  let s := s.modLed (fun l => { sealedRegs l o p s.pow.notrepNow s.pow.energy with voteMc := bad })
  let s := intervalRule s n
  let s := brokerSeal s n o.time requested
  let s := syncStart s o.time
  let s := openWindow s o.time
  if s.led.window.isSome then s else completeSeal s

/-- SEALED_OUTCOME_APPLY: hall time reaches T of a SEALED outcome (12 R451, R452). -/
def execSealedOutcomeApply (s : State) : Host.Outcome State Fault Refusal :=
  .next (match s.led.outcome with
    | some o => if o.replay || !s.ledWorks then s else applySealed s o
    | none => s)

/-! ### REPLAY (12 R453) -/

/-- What the module's own vote and the combined one mean for a pass that is replayed: MAXREP, in which a replay that a withdrawal caused does not
count, and a repeated non-finite loss (13 R485, R486, R492). -/
def judgeReplay (s : State) (own : Nat) (o : Outcome) (replays : Nat) (wd : Bool) : State :=
  let n := s.led.step
  let hard := bitsOf own 0 1 == 1 || bitsOf own 2 2 != 0
  let s := if replays = 0 ∨ wd then s else s.modLed (fun l => { l with ownDirty := if hard then l.ownDirty + 1 else 0 })
  let s := if decide (0 < replays) && fld o.vote.word 0 8 == 2 then
      raiseAlarm s n (((List.range 512).find? (fun t => bit (vget s.led.tags t 0) 31)).getD 0) else s
  if hard && decide (fld s.led.pol 3 3 ≤ s.led.ownDirty) then requestWithdrawal s else s

/-- The registers of the ledger engine after a REPLAY outcome at time t (12 R446, R453). -/
def replayRegs (l : LedState) (t : U64) : LedState :=
  { l.newVote with
    stat := setBit (if l.st = 2 then setFld l.stat 0 3 1 else l.stat) 3 true, sealt := t, replays := l.replays + 1,
    quiet := some (t + n64 (fld l.time 32 32)), voteMc := false, voteStop := false, heldGo := none }

/-- A REPLAY outcome at its T, in R453's order up to the first flush. -/
def applyReplay (s : State) (t : U64) : State :=
  let n := s.led.step
  let s := s.toHall t
  let s := abortTasks s 3 (s.tasksOf (fun x => x.step == n))
  let s := setProfile (setStep s n) s.led.prof0
  let s := noticeAll (clearCounters s)
  let s := flushPlans (s.modLed (fun l => replayRegs l t))
  judgeStops (judgeArrays (syncStart s t))

/-- REPLAY_OUTCOME_APPLY: hall time reaches T of a REPLAY outcome (12 R451, R453). -/
def execReplayOutcomeApply (s : State) : Host.Outcome State Fault Refusal :=
  .next (match s.led.outcome with
    | some o =>
      if !o.replay || !s.ledWorks then s
      else
        let own := s.ownWord
        let r := s.led.replays
        let wd := s.led.wdPass
        let s := applyReplay s o.time
        let s := s.modLed (fun l => { l with stat := setFld l.stat 4 10 (fld o.vote.word 0 10), wdPass := false })
        judgeReplay s own o r wd
    | none => s)

/-- The registers of the ledger engine block a standby image sets: not those whose store is an action. -/
def imageReg (off : Nat) : Bool := !(off == 0x010 || off == 0x018 || off == 0x038 || off == 0x080 || off == 0x230 || off == 0x238 || off == 0x268)

/-- The successor's Curator writes its plan table, ledger engine, windows and job key from the standby image (13 R496; log 70). -/
def loadStandby (s : State) : State :=
  if !s.cur.successor then s
  else
    let x := Config.standbyImage s.mem s.cur.standby.toNat s.call
    let all := 0xFFFFFFFFFFFFFFFF#64
    let s := { s with
      fab := { s.fab with plans := x.1, broken := [] }, cur := { s.cur with successor := false, brokenRep := [] } }
    let s := (x.2.1.filter (fun r => imageReg r.1)).foldl (fun s r => lgWrite s r.1 all r.2) s
    x.2.2.foldl (fun s r => feWrite s r.1 all r.2) s

/-- After the second flush of a takeover: the plan entries a port's going down broke are written again, and a successor loads its image
(13 R496). -/
def afterFlush (s : State) : State :=
  if !bit s.led.svstat 4 then s
  else
    let s := { s with
      fab := { s.fab with broken := s.fab.broken.filter (fun p => !s.cur.brokenRep.contains p) }, cur := { s.cur with brokenRep := [] } }
    loadStandby s

/-- REPLAY_QUIET_FLUSH: at T + QUIET the plans are flushed again, and the module arrives at the step barrier (12 R453). -/
def execReplayQuietFlush (s : State) : Host.Outcome State Fault Refusal :=
  .next (match s.led.quiet with
    | some t =>
      if !s.ledWorks then s
      else lateVote (afterFlush (stepArrive (flushPlans ((s.toHall t).modLed (fun l => { l with quiet := none })))))
    | none => s)

/-! ### Field tests (13 R488, R489) -/

/-- FIELD_TEST_WINDOW_END: every array and core has been tested, failures are weeded, and the delayed seal completes; a replay under
way makes the arrival itself (13 R489; log 69). -/
def execFieldTestWindowEnd (s : State) : Host.Outcome State Fault Refusal :=
  .next (match s.led.window with
    | some t =>
      if !s.ledWorks then s
      else
        let s := ((testAll (s.toHall t) false).1).modPow PowState.relieve
        let s := s.modLed (fun l => { l with window := none, svstat := setBit l.svstat 25 false })
        if s.led.quiet.isSome then s.modLed (fun l => { l with sent := [], recv := [], heldGo := none }) else completeSeal s
    | none => s)

/-- The 10 s of a test cycle: the arithmetic clock runs at 1,188 MHz for it, and only for it, with the rail 5 % below its operating point; a
junction temperature below 95 °C that the test load reaches is recorded, and which it is is a free value (13 R488; 14 R508; 17 R603;
log 1). -/
def stressCycle (s : State) : State :=
  let s := ((s.modPow (fun p => p.stress 1188 50)).advance 10000000000).modPow PowState.relieve
  let t := s.freeNext
  { t.2 with cur := { t.2.cur with testTemp := if t.1 % 256 < 95 then some (t.1 % 256) else none } }

/-- A reserve is qualified: its latest complete cycle passed, its weeded cores are at most RSVWEED, and its concordance verdict on the current
reading copy is clean (13 R488). -/
def State.qualified (s : State) : Bool :=
  s.feState == 2 && s.cur.qualCycle && decide (s.plat.weededCores ≤ fld s.led.pol 10 4) && bit s.led.stat 14 && bit s.led.stat 15

/-- RESERVE_TEST_CYCLE: a complete cycle of about 10 s at a reserve, or the one FTEST asked for (13 R488; 15 R544). -/
def execReserveTestCycle (s : State) : Host.Outcome State Fault Refusal :=
  .next (if s.feState ≠ 2 ∧ s.cur.ftest.isNone then s
    else
      let r := testAll (stressCycle s) true
      let s1 := { r.1 with cur := { r.1.cur with qualCycle := r.2, ftest := none } }
      match s.cur.ftest with
      | some (mb, seq) => queueNotice s1 mb (mkNotice s1 1 0 (n64 seq) 0)
      | none => s1)

end Sys2Proof.Machine
end

