-- ==== Sys2Proof/Machine/Catalogue.lean ====
section
/-! DEFINITION. Machine/Catalogue.lean: the catalogue: election, updates and what a module does when one takes effect, suspects and
withdrawal (11 R400 to R404, R411, R421, R422, R428, R433; 13 R483, R495, R504; 15 R534). -/

namespace Sys2Proof.Machine

/-! ### An update takes effect (11 R400) -/

/-- The catalogue with an update's entries. -/
def mergeCat (cat new : List CatEntry) : List CatEntry := cat.filter (fun e => !(new.any (fun n => n.call == e.call))) ++ new

/-- Give the endpoint a call number, an edition and a state (11 R400, R403). -/
def takeName (s : State) (e : CatEntry) : State :=
  let st := if e.state == .reserve then 2 else 1
  { s with fab := { s.fab with id := n64 (e.call.toNat + e.edition.toNat <<< 20 + st <<< 36) } }

/-- Every quadrant is reset before a fenced module is named anew (11 R434). -/
def resetQuadrants (s : State) : State := (List.range 4).foldl (fun s q => clearFn s (2 + q)) s

/-- An update takes this module's call number from it: it gives the number to a newer edition or marks it WITHDRAWN (11 R433). A reserve that the
same update makes active is not fenced: its former number is marked WITHDRAWN because it takes over (13 R494). -/
def State.deposed (s : State) (u : CatUpdate) : Bool :=
  s.feState != 0 && !(s.feState == 2 && u.entries.any (fun e => some e.shelf == s.mark && e.state == .active)) && u.entries.any (fun e => e.call.toNat == s.call && (e.state == .withdrawn || newer 16 e.edition.toNat s.edition))

/-- The entry of an update that names this module's shelf mark: the one of an active module before that of a reserve (11 R403). -/
def State.named (s : State) (u : CatUpdate) (st : CatState) : Option CatEntry :=
  u.entries.find? (fun e => some e.shelf == s.mark && e.state == st)

/-- What an update makes of this module's name. One that takes its call number fences it; a fenced module is named anew as a reserve only, its
quadrants reset before, and qualifies only by a complete test cycle after that; any other takes the name the entry of its shelf mark gives
it (11 R403, R433, R434; 13 R494, R497). -/
def ownName (s : State) (u : CatUpdate) : State :=
  let s := if s.deposed u then fence s else s
  if s.feState = 3 then (match s.named u .reserve with
    | some e => if e.call.toNat == s.call && e.edition.toNat == s.edition then s
      else takeName { resetQuadrants s with cur := { (resetQuadrants s).cur with qualCycle := false } } e
    | none => s)
  else match (s.named u .active).or (s.named u .reserve) with
  | some e =>
    let s1 := takeName s e
    if s.feState = 2 && e.state == .active then { s1 with cur := { s1.cur with successor := true } } else s1
  | none => s

/-- Watches and bindings of superseded editions end, and watches held on a module with a newer edition break (11 R411, 15 R534). -/
def superseded (s : State) (old : List CatEntry) : State :=
  let s := { s with fab := { s.fab with watches := s.fab.watches.filter (fun w => !s.overtaken w.scall.toNat w.sed.toNat) } }
  let s := (List.range 8).foldl (fun s mb => match (s.box mb).bind with
    | some b => if s.overtaken b.1.toNat b.2.2.toNat then unbind s mb else s
    | none => s) s
  (old.filter (fun e => s.overtaken e.call.toNat e.edition.toNat)).foldl (fun s e => breakHeld s e.call.toNat) s

/-- Hall time of the reference now (17 R599). -/
def State.reference (s : State) : Option U64 := match s.hall.refCur, s.hall.refEdge with
  | some sec, some e => some (n64 (sec * 1000000000 + (s.now - e)))
  | _, _ => none

/-- The time tree the root's shelf mark gives: the root is synchronised at once, and one with HALL_REF that never was steps to it; any other
module's parent is the neighbour one hop closer to the root on the lowest port, and its depth the links to the root (11 R421, R422, R424). -/
def timeTree (s : State) : State :=
  let h := s.hall
  let root := s.fab.cat.find? (fun e => some e.shelf == s.fab.timeRoot && e.state != .withdrawn)
  if s.fab.timeRoot.isSome && s.fab.timeRoot == s.mark then
    if bit h.stat 2 then s
    else
    let step := if !h.once && bit h.ctl 0 && bit h.stat 3 then s.reference else none
    let d : Int := match step with
      | some t => Int.ofNat t.toNat - Int.ofNat h.now.toNat
      | none => 0
    { s with
      hall := { h with
        stat := setFld (setFld (setFld (setFld h.stat 0 3 5) 8 5 0) 16 20 0xFFFFF) 36 5 0x1F, once := true,
        now := step.getD h.now, slew := if h.once then h.slew else 0 },
      fab := if step.isSome then { s.fab with ports := vmap (fun p => p.shift d) s.fab.ports } else s.fab }
  else match root, (root.bind (fun e => (s.upPorts e.minPorts).head?.or ((List.finRange 24).find? (fun p => e.minPorts.getLsbD p.val)))) with
  | some e, some p =>
    let call := match (s.port p).nbr with
      | some n => ((s.fab.cat.find? (fun e => e.shelf == n.shelf && e.state != .withdrawn)).map (fun e => e.call.toNat)).getD 0xFFFFF
      | none => 0xFFFFF
    let moved := s.parentPort != some p
    { s with hall := { h with
        stat := setFld (setFld (setFld (setBit h.stat 2 false) 8 5 e.dist.toNat) 16 20 call) 36 5 p.val,
        good := if moved then 0 else h.good } }
  | _, _ => s

/-! ### What a withdrawal does to the job (13 R483, R495, R504) -/

/-- The call numbers of the job an update withdraws or gives a new edition. -/
def State.lost (s : State) (old : List CatEntry) (u : CatUpdate) : List CatEntry :=
  u.entries.filter (fun n => decide (n.call.toNat < fld s.led.job 0 20) && (old.any (fun e =>
    e.call == n.call && ((n.state == .withdrawn && e.state != .withdrawn) || newer 16 n.edition.toNat e.edition.toNat))))

/-- The estimate of M after one withdrawal at a TACT; the first interval of a job without a seal is not stated (13 R483; log 1). -/
def countFailure (s : State) (tact : U64) : State :=
  let r := s.freeNext
  let x := match s.led.fprev with
    | some p => (tact - p).toNat
    | none => r.1
  let s := if s.led.fprev.isSome then s else r.2
  s.modLed (fun l =>
    let f := l.fails + 1
    let m : Nat × Nat := if f < 8 then l.mest else if f = 8 then (l.fsum + x, 8) else (7 * l.mest.1 + x * l.mest.2, 8 * l.mest.2)
    { l with fails := min 0xFFFF f, fprev := some tact, fsum := if f < 8 then l.fsum + x else l.fsum, mest := m })

/-- TKO, HOLD and SHRK after a withdrawal: whether every lost number has a successor (13 R495, R504). -/
def takeoverBits (l : LedState) (some' all : Bool) : U64 :=
  let shrink := !bit l.pol 0
  let tko := all || (shrink && some')
  let w := setBit (if tko then setBit l.svstat 4 true else l.svstat) 5 (!tko)
  if shrink && some' && !all then setBit w 6 true else w

/-- The withdrawal of voting members at a TACT: it is counted, the open step is replayed, and the job takes over or holds (13 R483, R495). -/
def withdrawal (s : State) (old : List CatEntry) (u : CatUpdate) : State :=
  let lost := s.lost old u
  if lost.isEmpty ∨ !s.ledWorks ∨ !bit s.led.ctl 0 then s
  else
    let active := lost.any (fun n => old.any (fun e => e.call == n.call && e.state == .active))
    let s := if active then countFailure s u.tact else s
    let s := if s.led.st = 0 then s
      else if s.led.quiet.isSome then (flushPlans s).modLed (fun l => { l with quiet := some (u.tact + n64 (fld l.time 32 32)) })
      else (applyReplay s u.tact).modLed (fun l => { l with wdPass := true })
    s.modLed (fun l => { l with svstat := takeoverBits l (lost.any (fun n => n.state == .active)) (lost.all (fun n => n.state == .active)) })

/-! ### Cataloguers (11 R402) -/

/-- The next standby takes the cataloguer's place when it is withdrawn. -/
def succession (s : State) (before : Option Nat) (lostCat : Bool) : State :=
  if !lostCat || before.isNone then s
  else
    let rest := s.fab.claims.drop 1
    let own := match s.mark with
      | some m => some (claimKey s.fab.rank m)
      | none => none
    { s with fab := { s.fab with
        claims := rest, isCat := rest.head?.isSome && rest.head? == own && s.fab.rank != 7,
        claim := rest.head?.map (fun k => (BitVec.ofNat 3 (k / 2 ^ 32), BitVec.ofNat 32 k, s.now)) } }

/-- An update takes effect at this router. What an older one still held says of the same call numbers no longer counts (11 R400). -/
def applyUpdate (s : State) (u : CatUpdate) : State :=
  let old := s.fab.cat
  let before := s.catCall
  let lostCat := match before with
    | some c => u.entries.any (fun n => n.call.toNat == c && (n.state == .withdrawn || newer 16 n.edition.toNat (s.catEd c)))
    | none => false
  let latest := s.noCatalogue || newer 32 u.gen.toNat s.fab.gen.toNat
  let names (c : BitVec 20) : Bool := u.entries.any (fun e => e.call == c)
  let s := { s with fab := { s.fab with
    cat := mergeCat old u.entries, gen := if latest then u.gen else s.fab.gen,
    timeRoot := if latest then u.root.or s.fab.timeRoot else s.fab.timeRoot,
    pend := (s.fab.pend.filter (fun x => x.gen != u.gen)).map (fun x =>
      if newer 32 u.gen.toNat x.gen.toNat then { x with entries := x.entries.filter (fun e => !names e.call) } else x),
    planPorts := [],
    suspects := s.fab.suspects.filter (fun x => !names x.call),
    wants := s.fab.wants.filter (fun x => !names (BitVec.ofNat 20 x)) } }
  let s := succession s before lostCat
  let s := superseded s old
  let s := timeTree s
  let s := ownName s u
  let s := withdrawal s old u
  let s := if s.led.quiet.isNone && s.cur.successor then loadStandby s else s
  (List.finRange 24).foldl drainTx (flushLayout (flushReports s))

/-- An update whose generation is newer than any applied or held goes on to the other ports, and takes effect at once when its TACT has passed; any
other is ignored (11 R400; log 83). -/
def takeUpdate (s : State) (from' : Option PortId) (u : CatUpdate) : State :=
  if !((s.noCatalogue && s.fab.pend.isEmpty) || newer 32 u.gen.toNat s.heldGen.toNat) then s
  else
    let s : State := match from' with
      | some p => s.setPort p (fun ps => { ps with nbr := ps.nbr.map (fun n => { n with gen := u.gen }) })
      | none => s
    let s := { s with fab := { s.fab with pend := s.fab.pend ++ [u] } }
    let s := (s.otherPorts from').foldl (fun s q => sendUpdates s q [u]) s
    if u.tact.toNat ≤ s.hall.now.toNat then applyUpdate s u else s

/-- One packet of an update that comes in on a port: the last one makes the update whole (11 R390, R400; log 83). -/
def updatePart (s : State) (p : PortId) (u : CatUpdate) : State :=
  let es := match (s.port p).parts with
    | some (g, es) => if g == u.gen then es ++ u.entries else u.entries
    | none => u.entries
  if u.more then s.setPort p (fun ps => { ps with parts := some (u.gen, es) })
  else takeUpdate (s.setPort p (fun ps => { ps with parts := none })) (some p) { u with entries := es }

/-! ### What the cataloguer may assign (11 R398, R399, R402, R403, R422) -/

/-- The catalogue as the next update finds it: what is in effect and what is held until TACT. -/
def State.heldCat (s : State) : List CatEntry := s.fab.pend.foldl (fun c u => mergeCat c u.entries) s.fab.cat

/-- An entry of the held catalogue. -/
def State.heldEntry (s : State) (call : BitVec 20) : Option CatEntry := s.heldCat.find? (fun e => e.call == call)

/-- The shelf marks of the modules the cataloguer may give a call number: its own and those its reports name, but for those that two modules
present and those of unfit modules (11 R402; 16 R566). -/
def State.marks (s : State) : List Nat :=
  let far := s.fab.links.foldl (fun l x => setAdd x.1.toNat (match x.2.2.1 with
    | some f => setAdd f.toNat l
    | none => l)) []
  let near := (List.finRange 24).foldl (fun l p => match (s.port p).nbr with
    | some n => setAdd n.shelf.toNat l
    | none => l) far
  (match s.mark with
   | some m => setAdd m.toNat near
   | none => near).filter (fun m => !s.fab.dups.contains (BitVec.ofNat 32 m) && !s.fab.unfit.contains (BitVec.ofNat 32 m)
     && (s.plat.fit || s.mark != some (BitVec.ofNat 32 m)))

/-- A call number lies in the range of its state (11 R398). -/
def rangeOk (e : CatEntry) : Bool := match e.state with
  | .active => decide (e.call.toNat < 0xF8000)
  | .reserve => decide (0xF8000 ≤ e.call.toNat ∧ e.call.toNat ≤ 0xFFFFE)
  | .withdrawn => decide (e.call.toNat ≤ 0xFFFFE)

/-- An entry's edition follows R399: the first is 1, and it rises by one each time another module takes over the number. -/
def State.editionOk (s : State) (e : CatEntry) : Bool := match s.heldEntry e.call with
  | none => e.edition == 1 && e.state != .withdrawn
  | some o => if o.shelf == e.shelf then e.edition == o.edition else e.edition == o.edition + 1 && e.state != .withdrawn

/-- Call numbers given for the first time come from the layout; without one they go upward in order of shelf mark, after those given before
(11 R403). The cataloguer knows the reserve mark of its own module (log 86). -/
def State.assignOk (s : State) (es : List CatEntry) : Bool :=
  let fresh := es.filter (fun e => (s.heldEntry e.call).isNone)
  let upward (st : CatState) (base top : Nat) : Bool :=
    let given := (s.heldCat.filter (fun e => decide (base ≤ e.call.toNat ∧ e.call.toNat < top))).length
    let new := sortBy (fun (a b : CatEntry) => decide (a.shelf.toNat ≤ b.shelf.toNat)) (fresh.filter (fun e => e.state == st))
    decide (new.map (fun e => e.call.toNat) = rng (base + given) new.length)
  if s.fab.layout.isEmpty then
    upward .active 0 0xF8000 && upward .reserve 0xF8000 0xFFFFF
      && fresh.all (fun e => some e.shelf != s.mark || (e.state == .reserve) == s.fab.reserve)
  else fresh.all (fun e => s.fab.layout.any (fun x => x.2 == (e.shelf, e.call)))

/-- The time root an update names: this module when it has REFEN and REFLOCK set, unless a known module of a lower shelf mark has; else a known
module that has them, or this one (11 R422; log 86). -/
def State.rootOk (s : State) (root : Option (BitVec 32)) : Bool := match s.mark, root with
  | some m, some r => s.marks.contains r.toNat && (!(bit s.hall.ctl 0 && bit s.hall.stat 3) || decide (r.toNat ≤ m.toNat))
  | _, _ => false

/-- A module that takes over a call number: a reserve gives up its former number, which the update marks WITHDRAWN, and this module itself is
chosen only when it is qualified; of the others' qualification the cataloguer learns by no message the spec names (13 R494, R504;
log 86). -/
def State.takeoverOk (s : State) (es : List CatEntry) : Bool :=
  es.all (fun e => match s.heldEntry e.call with
    | none => true
    | some o => o.shelf == e.shelf || ((some e.shelf != s.mark || s.qualified || s.feState == 1) &&
        (s.heldCat.filter (fun r => r.shelf == e.shelf && r.state == .reserve)).all (fun r =>
          es.any (fun x => x.call == r.call && x.state == .withdrawn))))

/-- An update that this module may issue as the cataloguer: the next generation, each call number named once, in its range and at its edition, each
shelf mark known and assigned as R403 says, and a time root (11 R398 to R400, R402, R403, R422). -/
def State.updateOk (s : State) (u : CatUpdate) : Bool :=
  u.gen == s.heldGen + 1 && !u.more && u.entries.all (fun e => rangeOk e && s.editionOk e && (e.state == .withdrawn || s.marks.contains e.shelf.toNat))
    && decide ((u.entries.map (fun e => e.call)).Nodup) && s.assignOk u.entries && s.takeoverOk u.entries && s.rootOk u.root

/-- CATALOGUE_UPDATE: an update arrives on a port, or this module issues it as the cataloguer at the next generation (11 R400, R402). -/
def execCatalogueUpdate (p : Option PortId) (k : Packet) (s : State) : Host.Outcome State Fault Refusal :=
  match p, k.body with
  | some p, .update u => onPacket s p k tyMGMT (fun s => updatePart s p u)
  | none, .update u => .next (if s.fab.isCat ∧ s.updateOk u then takeUpdate s none u else s)
  | _, _ => .next s

/-- The update held that reaches its TACT first. -/
def State.nextUpdate (s : State) : Option CatUpdate :=
  s.fab.pend.foldl (fun b u => match b with
    | some x => if u.tact.toNat < x.tact.toNat then some u else b
    | none => some u) none

/-- CATALOGUE_UPDATE_APPLY: an update held reaches its TACT (11 R400). -/
def execCatalogueUpdateApply (s : State) : Host.Outcome State Fault Refusal :=
  .next (match s.nextUpdate with
    | some u => applyUpdate (s.toHall u.tact) u
    | none => s)

/-! ### Election (11 R402, R403) -/

/-- A first catalogue names every known module that has a chassis number once, or every one of them that the layout names (11 R397, R403;
log 86). -/
def firstOk (s : State) (u : CatUpdate) : Bool :=
  let marks := u.entries.map (fun e => e.shelf.toNat)
  s.updateOk u && decide marks.Nodup && s.marks.all (fun m =>
    marks.contains m || decide (m < 256) || (!s.fab.layout.isEmpty && !s.fab.layout.any (fun x => x.2.1.toNat == m)))

/-- CATALOGUER_ELECTED: a claimant that has heard no lower claim for 1 ms becomes the cataloguer and announces generation 1 (11 R402). -/
def execCataloguerElected (u : CatUpdate) (s : State) : Host.Outcome State Fault Refusal :=
  .next (match s.mark, s.fab.claim with
    | some m, some (r, sh, t) =>
      if s.fab.rank = 7 ∨ s.fab.isCat ∨ r ≠ s.fab.rank ∨ sh ≠ m ∨ s.fab.gen ≠ 0 ∨ !firstOk s u then s
      else
        let s := s.advanceTo (t + 1000000)
        takeUpdate (flushReports { s with fab := { s.fab with isCat := true } }) none u
    | _, _ => s)

/-! ### Silent modules (11 R428) -/

/-- Probe a module over two routes that leave by different ports (11 R428). -/
def probe (s : State) (e : CatEntry) : State :=
  let ps := ((e.det :: s.upPorts e.minPorts ++ s.upPorts e.nonMin).eraseDups.filter (fun p => (s.port p).up)).take 2
  ps.foldl (fun s p => s.sendOn p (s.stamp { pktEmpty with ty := tyPROBE, vc := 4, dcall := e.call })) s

/-- MODULE_SUSPECT: every port of a module known to the catalogue has been reported down; it is probed (11 R428). -/
def execModuleSuspect (call : BitVec 20) (s : State) : Host.Outcome State Fault Refusal :=
  .next (match s.catOf call.toNat with
    | some e =>
      let ls := s.fab.links.filter (fun l => l.2.2.1 == some e.shelf)
      if !s.fab.isCat ∨ e.state == .withdrawn ∨ ls.isEmpty ∨ ls.any (fun l => l.2.2.2) ∨ s.fab.suspects.any (fun x => x.call == call) then s
      else probe { s with fab := { s.fab with suspects := s.fab.suspects ++ [{ call := call, since := s.now, answered := false }] } } e
    | none => s)

/-- An update withdraws a call number: it marks it WITHDRAWN, or gives it to another module at the next edition (11 R428). -/
def withdraws (s : State) (call : BitVec 20) (u : CatUpdate) : Bool :=
  s.updateOk u && u.entries.any (fun e => e.call == call && (e.state == .withdrawn || (match s.heldEntry call with
    | some o => o.shelf != e.shelf
    | none => false)))

/-- MODULE_WITHDRAWN: a suspect that has not answered within 100 µs is withdrawn by an update; one that asked for it is withdrawn when a reserve
takes over (11 R428; 13 R505). -/
def execModuleWithdrawn (call : BitVec 20) (u : CatUpdate) (s : State) : Host.Outcome State Fault Refusal :=
  .next (if !s.fab.isCat || !withdraws s call u then s
    else match s.fab.suspects.find? (fun x => x.call == call && !x.answered) with
    | some x => takeUpdate (s.advanceTo (x.since + 100000)) none u
    | none =>
      if s.fab.wants.contains call.toNat && u.entries.any (fun e => e.call == call && e.state == .active) then takeUpdate s none u else s)

end Sys2Proof.Machine
end

