-- ==== Sys2Proof/Machine/Curator.lean ====
section
/-! DEFINITION. Machine/Curator.lean: the Curator's commands on identity, power, fabric, survival, HBM and telemetry (14 R518 to R522;
15 R544, R561 to R563; 16 R574, R576). The order of checks and the layouts the spec leaves open: log 71. -/

namespace Sys2Proof.Machine

/-! ### Identity (15 R544; 16 R566, R574, R576) -/

/-- INFO (16 R566). -/
def execInfo (mb : MailId) (s : State) : Host.Outcome State Fault Refusal :=
  onSlip s mb 0x10 (fun _ _ s => reply s mb.val stOK s.infoWords [])

/-- ARRAY_MAP: TU_LIVE[18:0] of cores 0 to 127 (15 R544). -/
def execArrayMap (mb : MailId) (s : State) : Host.Outcome State Fault Refusal :=
  onSlip s mb 0x11 (fun _ _ s => reply s mb.val stOK [] (s.compute.flatMap (fun k => leBytes 4 (fld k.tile.live 0 19))))

/-- BOOKPLATE: 4,096 bytes of the certificate from an offset, or fewer at its end (16 R574). -/
def execBookplate (mb : MailId) (s : State) : Host.Outcome State Fault Refusal :=
  onSlip s mb 0x12 (fun sl _ s =>
    let o := (sl.arg 0).toNat
    if o % 4096 ≠ 0 then reply s mb.val stBADARG [] []
    else reply s mb.val stOK [n64 Config.bookplate.length] ((Config.bookplate.drop o).take 4096))

/-- The bytes of a quote that its signature covers (16 R576). -/
def State.quoteBody (s : State) (nonce : List Byte) : List Byte :=
  nonce ++ s.plat.mr.toList.flatten ++ wordBytes [
    n64 (fld s.fab.shelf 0 32 + s.call <<< 32), n64 (s.edition + s.fab.gen.toNat <<< 32), s.hall.now, n64 (fld s.hall.stat 0 1),
    nth 0 s.infoWords 1, nth 0 s.infoWords 0, 0, 0]

/-- Length of a quote. -/
def quoteLen : Nat := 17280

/-- QUOTE: a new quote with a nonce, or the next part of the one kept for the mailbox (16 R576). -/
def execQuote (mb : MailId) (s : State) : Host.Outcome State Fault Refusal :=
  onSlip s mb 0x13 (fun sl pay s =>
    let o := (sl.arg 0).toNat
    if o = 0 then
      if pay.length ≠ 32 then reply s mb.val stBADLEN [] []
      else
        let b := s.quoteBody pay
        let q := (padTo quoteLen (b ++ Config.quoteSign b)).take quoteLen
        reply (s.modBox mb.val (fun m => { m with quote := some q })) mb.val stOK [n64 quoteLen] (q.take 4096)
    else if o % 4096 ≠ 0 ∨ quoteLen ≤ o then reply s mb.val stBADARG [] []
    else if pay.length ≠ 0 then reply s mb.val stBADLEN [] []
    else match (s.box mb.val).quote with
    | some q => reply s mb.val stOK [n64 quoteLen] ((q.drop o).take 4096)
    | none => reply s mb.val stNOTFOUND [] [])

/-! ### Power (14 R514, R515, R518, R520, R522; 15 R544) -/

/-- A new PW_CTL: a change of mode ends the throttling and the cap stretch of the mode left, fixed-frequency mode pins the clock at 1,100 MHz, a
step that runs in dynamic mode is not repeatable, and without SHARE no TOKENS are valid (14 R514, R515, R529, R531). -/
def setMode (s : State) (v : U64) : State :=
  let was := s.pow.fixed
  let now := bit v 0
  let s := s.modPow (fun p => { p with
    ctl := v, share := setBit p.share 32 (bit p.share 32 && bit v 2),
    thDrop := if now && !was then 0 else p.thDrop, thStr := if was && !now then 0 else p.thStr,
    capStr := if was && !now then 0 else p.capStr })
  if now && !was then s.modPow (fun p => p.request 1100)
  else if now then s
  else { s with led := { s.led with notrep := true } }

/-- PW_MODE: SHARE without FIXED is refused (15 R544). -/
def execPwMode (mb : MailId) (s : State) : Host.Outcome State Fault Refusal :=
  onSlip s mb 0x30 (fun sl _ s =>
    let a := sl.arg 0
    if a &&& ~~~0xFF07#64 ≠ 0 ∨ (bit a 2 ∧ !bit a 0) ∨ 143 < fld a 8 8 then reply s mb.val stBADARG [] []
    else reply (setMode s a) mb.val stOK [] [])

/-- PW_OPP: an entry of the phase table, its FREQ a step of the arithmetic clock (14 R508) and its SHARE 1 to 64 (14 R512, R518, R531). -/
def execPwOpp (mb : MailId) (s : State) : Host.Outcome State Fault Refusal :=
  onSlip s mb 0x31 (fun sl _ s =>
    let n := (sl.arg 0).toNat
    let f := (sl.arg 1).toNat
    let h := (sl.arg 2).toNat
    if 16 ≤ n ∨ f < 600 ∨ 1350 < f ∨ f % 25 ≠ 0 ∨ h < 1 ∨ 64 < h then reply s mb.val stBADARG [] []
    else reply (s.modPow (fun p => { p with opp := vput p.opp n (n64 (f + h <<< 16)) })) mb.val stOK [] [])

/-- PW_GROUP: the broker group, its total and the floor; the changed member takes an equal share (14 R520). -/
def execPwGroup (mb : MailId) (s : State) : Host.Outcome State Fault Refusal :=
  onSlip s mb 0x32 (fun sl _ s =>
    let g := (sl.arg 0).toNat
    let f := (sl.arg 2).toNat
    if 2 ^ 16 ≤ g ∨ f < 1600 ∨ 2400 < f then reply s mb.val stBADARG [] []
    else
      let s := s.modPow (fun p => { p with cap := setFld (setFld p.cap 32 16 g) 16 12 f, total := (sl.arg 1).toNat })
      reply (shareCap s) mb.val stOK [] [])

/-- PW_SHARESET: the tokens of the next step; before a job's first vote they are the open step's (14 R522; log 70). -/
def execPwShareset (mb : MailId) (s : State) : Host.Outcome State Fault Refusal :=
  onSlip s mb 0x33 (fun sl _ s =>
    let t := (sl.arg 0).toNat
    if 2 ^ 32 ≤ t then reply s mb.val stBADARG [] []
    else if s.led.st = 0 ∨ (s.led.fresh ∧ !s.led.voted) then
      reply (s.modPow (fun p => { p with share := n64 (t + b01 (bit p.ctl 2) <<< 32) })) mb.val stOK [] []
    else reply (s.modPow (fun p => { p with nextTok := some t })) mb.val stOK [] [])

/-- PW_READ: the power and clock block, to the end of PW_OPP15 (14 R531; 15 R544). -/
def execPwRead (mb : MailId) (s : State) : Host.Outcome State Fault Refusal :=
  onSlip s mb 0x34 (fun _ _ s => reply s mb.val stOK [] (wordBytes ((List.range 48).map (fun i => s.powWord (8 * i)))))

/-! ### Fabric (11 R397, R401 to R403, R412, R413; 13 R505; 15 R534) -/

/-- FAB_SHELF: chassis number, cataloguer rank and reserve mark; every up port presents them in its next HELLO, and a module that may act as
cataloguer claims the catalogue (11 R397, R401, R402; 15 R563). -/
def execFabShelf (mb : MailId) (s : State) : Host.Outcome State Fault Refusal :=
  onSlip s mb 0x40 (fun sl _ s =>
    let c := (sl.arg 0).toNat
    let a := sl.arg 1
    if 2 ^ 24 ≤ c ∨ a &&& ~~~0x107#64 ≠ 0 then reply s mb.val stBADARG [] []
    else
      let s := { s with fab := { s.fab with
        shelf := n64 (fld s.fab.shelf 0 8 + c <<< 8 + 2 ^ 32), rank := a.setWidth 3, reserve := bit a 8 } }
      let s := (s.otherPorts none).foldl sendHello s
      let s := if s.fab.rank = 7 then s else hearClaim s none s.fab.rank (s.fab.shelf.setWidth 32)
      reply s mb.val stOK [] [])

/-- FAB_LAYOUT: pairs of shelf mark and call number, from an index on, go to the cataloguer; a module that knows none yet keeps them till it does
(11 R403; 15 R544). -/
def execFabLayout (mb : MailId) (s : State) : Host.Outcome State Fault Refusal :=
  onSlip s mb 0x41 (fun sl pay s =>
    let ws := (items 8 (pay.length / 8) pay).map n64
    if pay.length % 8 ≠ 0 then reply s mb.val stBADLEN [] []
    else
      reply (flushLayout { s with fab := { s.fab with layout := mergeLayout s.fab.layout (sl.arg 0).toNat ws } }) mb.val stOK [] [])

/-- The plans a slip names by first plan and count, if they are in range. -/
def Slip.plans (sl : Slip) : Option (List Nat) :=
  let p := (sl.arg 0).toNat
  let n := (sl.arg 1).toNat
  if 1 ≤ n ∧ n ≤ 64 ∧ p + n ≤ 4096 then some (rng p n) else none

/-- The bits a plan entry's word may have (11 R412). -/
def planMask (i : Nat) : U64 :=
  if i = 0 then fmask 0 52 else if i ≤ 4 then fmask 0 60 else if i ≤ 6 then fmask 0 48 else fmask 0 31

/-- A plan entry has no bit set that R412 does not show, and at most 12 children. -/
def planEntryOk (e : List U64) : Bool :=
  decide (fld (nth 0 e 0) 4 4 ≤ 12) && (List.range 8).all (fun i => nth 0 e i &&& ~~~(planMask i) == 0)

/-- A plan has a queued trigger or a held unit (11 R413). -/
def State.planBusy (s : State) (p : Nat) : Bool := s.fab.planQ.any (fun w => fld w 0 12 == p) || s.fab.held.any (fun u => u.plan == p)

/-- Write plan entries from p; a written plan is no longer broken (11 R412, R420). -/
def writePlans (s : State) (ps : List (Nat × List U64)) : State :=
  let hit (p : Nat) : Bool := ps.any (fun x => x.1 == p)
  { s with
    fab := { s.fab with
      plans := s.fab.plans.filter (fun e => !hit e.1) ++ ps.filter (fun x => x.2.any (fun w => w != 0)),
      planPorts := s.fab.planPorts.filter (fun x => !hit x.1),
      broken := s.fab.broken.filter (fun p => !hit p), runs := s.fab.runs.filter (fun r => !hit r.plan) },
    cur := { s.cur with brokenRep := s.cur.brokenRep.filter (fun p => !hit p) } }

/-- PLAN_WRITE: all or none of 1 to 64 entries; a plan in use is BUSY (11 R412, R413). -/
def execPlanWrite (mb : MailId) (s : State) : Host.Outcome State Fault Refusal :=
  onSlip s mb 0x42 (fun sl pay s => match sl.plans with
    | none => reply s mb.val stBADARG [] []
    | some ps =>
      let ws := (items 8 (8 * ps.length) pay).map n64
      let es := (List.range ps.length).map (fun i => (ws.drop (8 * i)).take 8)
      if pay.length ≠ 64 * ps.length then reply s mb.val stBADLEN [] []
      else if !es.all planEntryOk then reply s mb.val stBADARG [] []
      else if ps.any s.planBusy then reply s mb.val stBUSY [] []
      else reply (writePlans s (ps.zip es)) mb.val stOK [] [])

/-- A plan's entry as it was written, zeros before (11 R412). -/
def State.planEntry (s : State) (p : Nat) : List U64 := ((s.fab.plans.find? (fun e => e.1 == p)).map (fun e => e.2)).getD (List.replicate 8 0)

/-- PLAN_READ (11 R412). -/
def execPlanRead (mb : MailId) (s : State) : Host.Outcome State Fault Refusal :=
  onSlip s mb 0x43 (fun sl _ s => match sl.plans with
    | none => reply s mb.val stBADARG [] []
    | some ps => reply s mb.val stOK [] (wordBytes (ps.flatMap s.planEntry)))

/-- A catalogue entry's 16 bytes (15 R544; log 71). -/
def State.catRecord (s : State) (call : Nat) : List Byte :=
  let b := match s.catOf call with
    | some e => Config.catBytes call e.shelf.toNat e.edition.toNat (match e.state with
      | .active => 1
      | .reserve => 2
      | .withdrawn => 3)
    | none => Config.catBytes call 0 0 0
  (padTo 16 b).take 16

/-- CAT_READ: at most 256 entries (15 R544). -/
def execCatRead (mb : MailId) (s : State) : Host.Outcome State Fault Refusal :=
  onSlip s mb 0x44 (fun sl _ s =>
    let c := (sl.arg 0).toNat
    let n := (sl.arg 1).toNat
    if 256 < n ∨ 2 ^ 20 < c + n then reply s mb.val stBADARG [] []
    else reply s mb.val stOK [] ((rng c n).flatMap s.catRecord))

/-- WITHDRAW: the planned withdrawal of this module is asked for (13 R505). -/
def execWithdraw (mb : MailId) (s : State) : Host.Outcome State Fault Refusal :=
  onSlip s mb 0x45 (fun _ _ s => reply (requestWithdrawal s) mb.val stOK [] [])

/-- MB_BIND (15 R534). -/
def execMbBind (mb : MailId) (s : State) : Host.Outcome State Fault Refusal :=
  onSlip s mb 0x46 (fun sl _ s =>
    let m := (sl.arg 0).toNat
    let c := (sl.arg 1).toNat
    if m < 2 ∨ 5 < m then reply s mb.val stBADARG [] []
    else if c = 0xFFFFF ∨ c = 0xFFFFFFFFFFFFFFFF then reply (unbind s m) mb.val stOK [] []
    else if 2 ^ 20 ≤ c ∨ 2 ^ 16 ≤ (sl.arg 2).toNat then reply s mb.val stBADARG [] []
    else reply (bindBox s m (BitVec.ofNat 20 c) ((sl.arg 2).setWidth 16) (BitVec.ofNat 16 (s.catEd c))) mb.val stOK [] [])

/-! ### Survival and HBM (13 R485, R488, R493; 15 R544, R563) -/

/-- WEED_READ (13 R485). -/
def execWeedRead (mb : MailId) (s : State) : Host.Outcome State Fault Refusal :=
  onSlip s mb 0x50 (fun _ _ s => reply s mb.val stOK [] s.plat.weedBytes)

/-- WEED_CLEAR: with a valid token the record of a core is cleared, from its next reset on, and MR1 is extended (13 R485; 15 R544, R552;
16 R575). -/
def execWeedClear (mb : MailId) (s : State) : Host.Outcome State Fault Refusal :=
  onSlip s mb 0x51 (fun sl pay s =>
    let u := (sl.arg 0).toNat
    match s.plat.forceKey with
    | none => reply s mb.val stBADTOKEN [] []
    | some key =>
      if 144 ≤ u then reply s mb.val stBADARG [] []
      else if !s.tokenOk key pay then reply s mb.val stBADTOKEN [] []
      else
        let s := newChallenge s
        let s := { s with plat := { s.plat with weeded := vput s.plat.weeded u 0, parked := setDel u s.plat.parked } }
        reply (extendState s 1 s.mr1Data) mb.val stOK [] [])

/-- FTEST: one field-test cycle is started (13 R488). -/
def execFtest (mb : MailId) (s : State) : Host.Outcome State Fault Refusal :=
  onSlip s mb 0x52 (fun sl _ s =>
    if s.cur.ftest.isSome then reply s mb.val stBUSY [] []
    else reply { s with cur := { s.cur with ftest := some (mb.val, sl.seq) } } mb.val stSTARTED [] [])

/-- STANDBY_SET: the physical address of the standby image (13 R493, R496). -/
def execStandbySet (mb : MailId) (s : State) : Host.Outcome State Fault Refusal :=
  onSlip s mb 0x53 (fun sl _ s =>
    if !isMem (sl.arg 0).toNat then reply s mb.val stBADARG [] []
    else reply { s with cur := { s.cur with standby := sl.arg 0 } } mb.val stOK [] [])

/-- HBM_MODE: the interleave mode of the next HBM training (08 R292; 15 R563). -/
def execHbmMode (mb : MailId) (s : State) : Host.Outcome State Fault Refusal :=
  onSlip s mb 0x60 (fun sl _ s =>
    if 2 ≤ (sl.arg 0).toNat then reply s mb.val stBADARG [] []
    else reply { s with plat := { s.plat with hbmNext := bit (sl.arg 0) 0 } } mb.val stOK [] [])

/-! ### Telemetry and the ledger (15 R561, R562; 16 R578) -/

/-- TELEM_READ: the latest record (15 R561). -/
def execTelemRead (mb : MailId) (s : State) : Host.Outcome State Fault Refusal :=
  onSlip s mb 0x70 (fun _ _ s => reply s mb.val stOK [] (wordBytes s.cur.tm.toList))

/-- TELEM_LATCH: the hall time of the next latch and the period; before the first synchronisation STATE (15 R561; 16 R578). -/
def execTelemLatch (mb : MailId) (s : State) : Host.Outcome State Fault Refusal :=
  onSlip s mb 0x71 (fun sl _ s =>
    if !s.hall.once then reply s mb.val stSTATE [] []
    else reply { s with cur := { s.cur with tmNext := sl.arg 0, tmPeriod := sl.arg 1 } } mb.val stOK [] [])

/-- TM_CORES: compute cores stopped and parked, and arrays weeded or fused (15 R561). -/
def State.tmCores (s : State) : U64 :=
  let cs := s.compute
  let stopped := (cs.filter (fun k => match k.ex.run with
    | .stopped _ => true
    | _ => false)).length
  let parked := (cs.filter (fun k => k.ex.run == .parked)).length
  n64 (stopped + parked <<< 8 + ((cs.map (fun k => popN 4 (k.tile.fused ||| k.tile.weeded).toNat)).sum % 1024) <<< 16)

/-- The record of a latch (15 R561). -/
def State.tmRecord (s : State) : Vector U64 7 :=
  let e (i : Nat) : Nat := min 0xFFFF (vget s.cur.ecc i 0)
  #v[s.hallt, s.pow.nowWord, s.pow.thermWord, n64 (e 0 + e 1 <<< 16 + e 2 <<< 32 + e 3 <<< 48), s.fab.stat, s.fePorts, s.tmCores]

/-- TELEMETRY_LATCH_TAKEN: at the named hall time a record is latched and the next time is set; while FN9 is not enabled none is taken
(15 R555, R561). -/
def execTelemetryLatchTaken (s : State) : Host.Outcome State Fault Refusal :=
  .next (if s.cur.tmNext = 0 then s
    else
      let s := s.toHall s.cur.tmNext
      let next := if s.cur.tmPeriod = 0 then 0 else s.cur.tmNext + s.cur.tmPeriod
      let s1 := if s.fnState 9 == .enabled then
          { s with cur := { s.cur with tm := s.tmRecord, ecc := Vector.replicate 4 0 } } else s
      { s1 with cur := { s1.cur with tmNext := next } })

/-- LEDGER_READ: bytes of the entry of a step, NOTFOUND when its place holds another step or none (15 R562). -/
def execLedgerRead (mb : MailId) (s : State) : Host.Outcome State Fault Refusal :=
  onSlip s mb 0x72 (fun sl _ s =>
    let o := (sl.arg 1).toNat
    let n := (sl.arg 2).toNat
    if 4096 < n ∨ 0x10000 < o + n then reply s mb.val stBADARG [] []
    else if s.ledWord (sl.arg 0) 0 ≠ sl.arg 0 ∨ fld (s.ledWord (sl.arg 0) 8) 0 2 = 0 then reply s mb.val stNOTFOUND [] []
    else reply (l2Touch s (entryPa (sl.arg 0) + o) n false) mb.val stOK [] (s.bytes (entryPa (sl.arg 0) + o) n))

end Sys2Proof.Machine
end

