-- ==== Sys2Proof/Machine/DeviceRows.lean ====
section
/-! DEFINITION. Machine/DeviceRows.lean: stores of a core to the device registers, one row of the opcode table for each register with a
behaviour of its own, and instruction words that no chapter allocates (00 R11; 06 R204, R608; 08 R285; 11 R414; 12 R446 to R468;
13 R476 to R500; 14 R528; 15 R535, R536). -/

namespace Sys2Proof.Machine

/-- A core's store of n bytes at an offset from the device register base (08 R284, R285). -/
def devStore (c : CoreId) (off n : Nat) (v : U64) (s : State) : Host.Outcome State Fault Refusal :=
  .next (issue c 0 .plain (do
    scalarStore c (n64 (0xE000000000 + off)) (leBytes n v.toNat)
    nextPC c 4) s)

/-- The ledger engine block. -/
def lgBase : Nat := 0x500000

/-- DEVICE_REGISTER_WRITE: an aligned 4- or 8-byte store (08 R285). -/
def execDeviceRegisterWrite (c : CoreId) (off : BitVec 24) (wide : Bool) (v : U64) (s : State) : Host.Outcome State Fault Refusal :=
  devStore c off.toNat (if wide then 8 else 4) v s

/-- PLAN_GO: an 8-byte store of a trigger (11 R414, R415). -/
def execPlanGo (c : CoreId) (v : U64) (s : State) : Host.Outcome State Fault Refusal := devStore c 0x400400 8 v s

/-- LG_START: open step k (12 R468). -/
def execLgStart (c : CoreId) (k : U64) (s : State) : Host.Outcome State Fault Refusal := devStore c (lgBase + 0x010) 8 k s

/-- LG_SEAL_GO: request the seal of the open step, with DIRTY (12 R446). -/
def execLgSealGo (c : CoreId) (dirty : Bool) (s : State) : Host.Outcome State Fault Refusal :=
  devStore c (lgBase + 0x018) 8 (n64 (1 + 2 * b01 dirty)) s

/-- LG_POST_UWR (12 R455). -/
def execLgPostUwr (c : CoreId) (s : State) : Host.Outcome State Fault Refusal := devStore c (lgBase + 0x080) 8 1 s
/-- LG_POST_ROOTDONE (12 R459). -/
def execLgPostRootdone (c : CoreId) (s : State) : Host.Outcome State Fault Refusal := devStore c (lgBase + 0x080) 8 2 s
/-- LG_POST_RECVDONE (12 R460). -/
def execLgPostRecvdone (c : CoreId) (s : State) : Host.Outcome State Fault Refusal := devStore c (lgBase + 0x080) 8 4 s
/-- LG_POST_TWIN: TWIN3 and TWINX (12 R465). -/
def execLgPostTwin (c : CoreId) (t3 tx : BitVec 16) (s : State) : Host.Outcome State Fault Refusal :=
  devStore c (lgBase + 0x080) 8 (n64 (t3.toNat <<< 16 + tx.toNat <<< 32)) s

/-- SV_CMD_BUILD (13 R476). -/
def execSvCmdBuild (c : CoreId) (s : State) : Host.Outcome State Fault Refusal := devStore c (lgBase + 0x238) 8 1 s
/-- SV_CMD_BUILT (13 R476). -/
def execSvCmdBuilt (c : CoreId) (s : State) : Host.Outcome State Fault Refusal := devStore c (lgBase + 0x238) 8 2 s
/-- SV_CMD_HELD (13 R476). -/
def execSvCmdHeld (c : CoreId) (s : State) : Host.Outcome State Fault Refusal := devStore c (lgBase + 0x238) 8 4 s
/-- SV_CMD_ABANDON (13 R476). -/
def execSvCmdAbandon (c : CoreId) (s : State) : Host.Outcome State Fault Refusal := devStore c (lgBase + 0x238) 8 8 s
/-- SV_CMD_DEPOSITED (13 R480). -/
def execSvCmdDeposited (c : CoreId) (s : State) : Host.Outcome State Fault Refusal := devStore c (lgBase + 0x238) 8 16 s
/-- SV_REWIND: open step k again (13 R500). -/
def execSvRewind (c : CoreId) (k : U64) (s : State) : Host.Outcome State Fault Refusal := devStore c (lgBase + 0x268) 8 k s

/-- PW_JOBTAG: set the job tag (14 R528). -/
def execPwJobtag (c : CoreId) (v : U64) (s : State) : Host.Outcome State Fault Refusal := devStore c 0x200030 8 v s

/-- MB_DOOR of a mailbox (15 R536). -/
def execMbDoor (c : CoreId) (mb : MailId) (v : U64) (s : State) : Host.Outcome State Fault Refusal := devStore c (0x10000 * mb.val) 8 v s

/-- MB_NPOP of a mailbox (15 R535). -/
def execMbNpop (c : CoreId) (mb : MailId) (v : U64) (s : State) : Host.Outcome State Fault Refusal := devStore c (0x10000 * mb.val + 0x18) 8 v s

/-! ### Words that no chapter allocates (00 R11, 06 R204, R608) -/

/-- The number of allocated values of the sub-operation field, and its lowest bit, of a major whose rows fix that field. -/
def subAlloc (major : Nat) : Option (Nat × Nat) :=
  match major with
  | 0x0C => some (3, 23)
  | 0x18 => some (2, 23)
  | 0x25 => some (4, 23)
  | 0x28 => some (5, 22)
  | 0x29 => some (2, 22)
  | 0x2A => some (4, 22)
  | 0x2B => some (2, 22)
  | 0x2C => some (8, 22)
  | 0x2D => some (5, 22)
  | 0x2E => some (4, 22)
  | 0x2F => some (1, 22)
  | _ => none

/-- A word that is illegal on a core whatever its other fields: a major not allocated, a sub-operation not allocated, a prefix without a word
that takes it, and on a hub core the tile, stream and semaphore majors. -/
def wordIllegal (c : CoreId) (w : BitVec 32) : Bool :=
  let m := fld w 26 6
  m == 0x13 || m == 0x17 || m == 0x26 || m == 0x27 || decide (0x30 ≤ m ∧ m ≤ 0x37) || decide (0x39 ≤ m ∧ m ≤ 0x3E)
    || (match subAlloc m with
        | some (n, lo) => decide (n ≤ fld w lo (26 - lo))
        | none => false)
    || (!isCompute c && (decide (0x20 ≤ m ∧ m ≤ 0x25) || m == 0x28 || m == 0x29))

/-- ILLEGAL_INSTRUCTION: such a word raises cause 0x01; a word that another row stands for has no effect here. -/
def execIllegalInstruction (c : CoreId) (w : BitVec 32) (s : State) : Host.Outcome State Fault Refusal :=
  .next (if wordIllegal c w then issue c (n64 w.toNat) .plain illegal s else s)

end Sys2Proof.Machine
end

