-- ==== Sys2Proof/Machine/HallTarget.lean ====
section
/-! DEFINITION. Machine/HallTarget.lean: inbound hall requests and their checks, the answers of outbound ones, and watches (11 R405
to R411, 15 R534). -/

namespace Sys2Proof.Machine

/-! ### Checks of the target (11 R409) -/

/-- OFFSET of a hall request; a read or write acts on the whole granule that holds it (11 R406; log 68). -/
def pktOff (k : Packet) : Nat :=
  let off := fld k.w2 0 40
  if k.ty = tyATOMREQ then off else off / 64 * 64
/-- SPACE of a hall request. -/
def pktSpace (k : Packet) : Nat := fld k.w2 40 3

/-- Bytes a request touches: its granules, or an atomic's word. -/
def pktLen (k : Packet) : Nat :=
  if k.ty = tyRDREQ then 64 * k.ngran.toNat else if k.ty = tyWRREQ then 64 * bodyNflit k.body else 2 ^ k.asz.toNat

/-- The physical address of a request to memory or to the ledger ring. -/
def pktPa (k : Packet) : Nat := if pktSpace k = 2 then 0x8FFC000000 + pktOff k else pktOff k

/-- The request's form is one a conforming endpoint sends (11 R395, R406, R409). -/
def reqForm (k : Packet) : Bool :=
  if k.ty = tyATOMREQ then pktSpace k == 0 && (k.asz == 2 || k.asz == 3) && pktOff k % 2 ^ k.asz.toNat == 0 && decide (k.aop.toNat ≤ 9)
  else k.ty != tyRDREQ || decide (1 ≤ k.ngran.toNat ∧ k.ngran.toNat ≤ 4)

/-- The address and form of a request, and the function of the carrel it names: the STATUS of a failure (11 R409 step 3). -/
def State.addressBad (s : State) (k : Packet) : Option Nat :=
  let n := pktLen k
  let off := pktOff k
  let ok := reqForm k && (match pktSpace k with
    | 0 => memRange off n && (k.ty == tyRDREQ || !hitsLedger off n)
    | 1 => decide (0x20000 ≤ off ∧ off + n ≤ 0x60000)
    | 2 => decide (off + n ≤ 0x4000000) && k.ty == tyRDREQ
    | _ => false)
  if !ok then some 4
  else if pktSpace k = 0 && (List.range (cdiv n 64)).any (fun g =>
      isCarrel (off + 64 * g) && s.fnState (2 + carrelOwner (off + 64 * g) / 32) != .enabled) then some 3
  else none

/-- How far a request gets with one window: 5 NOWINDOW, 6 KEY, 7 RIGHTS, 0 granted (11 R406, R409 step 4). -/
def State.windowTry (s : State) (k : Packet) (w : Nat) : Nat :=
  let b := vget s.fab.win (3 * w) 0
  let lim := vget s.fab.win (3 * w + 1) 0
  let src := vget s.fab.win (3 * w + 2) 0
  let off := pktOff k
  let call := k.scall.toNat
  if !(bit b 0 && fld b 4 2 == pktSpace k && decide (fld b 12 28 * 4096 ≤ off) && decide (off + pktLen k ≤ fld lim 12 28 * 4096)
      && decide (fld src 0 20 ≤ call) && decide (call ≤ fld src 20 20)) then 5
  else if fld src 40 16 ≠ k.jobkey.toNat then 6
  else if (if k.ty = tyRDREQ then bit b 1 else if k.ty = tyWRREQ then bit b 2 else bit b 3) then 0
  else 7

/-- The windows' answer: granted by some window, or refused with the furthest any window got (log 68). -/
def State.windowBad (s : State) (k : Packet) : Option Nat :=
  let rs := (List.range 16).map (s.windowTry k)
  if rs.contains 0 then none else some (rs.foldl max 5)

/-! ### The mailboxes (15 R534) -/

/-- The bytes a write names, with their offsets in SPACE 1: the mask of a packet of one flit, every byte of a longer one. -/
def wrBytes (k : Packet) : List (Nat × Byte) :=
  let bs := bodyBytes k.body
  let one := bodyNflit k.body == 1
  ((List.range bs.length).filter (fun i => !one || bit k.arg0 i)).map (fun i => (pktOff k + i, nth 0 bs i))

/-- The mailboxes a request names. -/
def pktBoxes (k : Packet) : List Nat := rng (pktOff k / 0x10000) ((pktOff k + pktLen k - 1) / 0x10000 - pktOff k / 0x10000 + 1)

/-- A mailbox admits a request (15 R534). -/
def State.boxAdmits (s : State) (k : Packet) (mb : Nat) : Bool :=
  let offs := ((wrBytes k).filter (fun b => b.1 / 0x10000 == mb)).map (fun b => b.1 % 0x10000)
  let area (o : Nat) : Bool := decide (0x1000 ≤ o ∧ o < 0x2040)
  let named (o : Nat) : Bool := decide (o < 8) || decide (0x10 ≤ o ∧ o < 0x20) || area o
  match (s.box mb).bind with
  | some b => b.1 == k.scall && b.2.1 == k.jobkey && (k.ty == tyRDREQ || offs.all named)
  | none =>
    if k.ty = tyRDREQ then pktOff k % 0x10000 == 0 && k.ngran == 1
    else offs.all area || (offs.any (fun o => decide (o < 8)) && offs.all named)

/-- A byte of the request area is written. -/
def boxByte (s : State) (mb off : Nat) (b : Byte) : State :=
  s.modBox mb (fun m => { m with req := spSet 0 m.req (off - 0x1000) b })

/-- Write the named bytes of one 8-byte word of a window: the request area by bytes, the registers by whole 4-byte halves. -/
def boxWord (s : State) (word : Nat) (bs : List (Nat × Byte)) : State :=
  let mb := word / 0x2000
  let off := word * 8 % 0x10000
  if 0x1000 ≤ off then bs.foldl (fun s b => boxByte s mb (b.1 % 0x10000) b.2) s
  else
    let v := leNat (bs.map (fun b => b.2))
    if bs.length = 8 then boxWrite s mb off 8 v
    else
      let lo := bs.filter (fun b => decide (b.1 % 8 < 4))
      let hi := bs.filter (fun b => decide (4 ≤ b.1 % 8))
      let s := if lo.length = 4 then boxWrite s mb off 4 (leNat (lo.map (fun b => b.2))) else s
      if hi.length = 4 then boxWrite s mb (off + 4) 4 (leNat (hi.map (fun b => b.2))) else s

/-- A mailbox write: the first that names an unbound mailbox's MB_DOOR binds it (15 R534). -/
def boxStore (s : State) (k : Packet) : State :=
  let bs := wrBytes k
  let s := (pktBoxes k).foldl (fun s mb =>
    if (s.box mb).bind.isNone && bs.any (fun b => b.1 / 0x10000 == mb && decide (b.1 % 0x10000 < 8)) then
      bindBox s mb k.scall k.jobkey k.sed else s) s
  (rng (pktOff k / 8) (8 * bodyNflit k.body)).foldl (fun s w =>
    let here := bs.filter (fun b => b.1 / 8 == w)
    if here.isEmpty then s else boxWord s w here) s

/-! ### Performing a request (11 R409, R411) -/

/-- What the target answers to a request, if it refuses it. -/
def State.requestBad (s : State) (k : Packet) : Option Nat :=
  match s.addressBad k with
  | some c => some c
  | none =>
    if pktSpace k = 1 then (if (pktBoxes k).all (s.boxAdmits k) then none else some 7)
    else s.windowBad k

/-- Inbound watches a slice holds (11 R411). -/
def State.sliceWatches (s : State) (sl : Nat) : Nat :=
  (s.fab.watches.filter (fun w => sliceOf s.plat.quadLocal (128 * w.line) == sl)).length

/-- Set a watch on each line, or none when one slice has no room: whether they were set (11 R411; log 68). -/
def setWatches (s : State) (k : Packet) (ls : List Nat) : State × Bool :=
  let r := ls.foldl (fun (r : State × Bool) l =>
    if 1024 ≤ r.1.sliceWatches (sliceOf s.plat.quadLocal (128 * l)) then (r.1, false)
    else ({ r.1 with fab := { r.1.fab with
        watches := r.1.fab.watches ++ [{ line := l, scall := k.scall, sed := k.sed, tag := k.tag }] } }, r.2)) (s, true)
  if r.2 then r else (s, false)

/-- An answer to a request. -/
def answerTo (k : Packet) (ty : BitVec 5) : Packet := { pktEmpty with ty := ty, vc := 1, dcall := k.scall, tag := k.tag }

/-- Perform a read and send its data. -/
def doRdreq (s : State) (k : Packet) : State :=
  let n := pktLen k
  if pktSpace k = 1 then
    s.send { answerTo k tyRDRESP with body := .flits ((rng (pktOff k) n).map (fun o => (s.box (o / 0x10000)).byteAt (o % 0x10000))) }
  else
    let pa := pktPa k
    let pm := ((List.range k.ngran.toNat).map (fun g => b01 (s.poisoned (pa + 64 * g) 64) <<< g)).sum
    let s := l2Touch s pa n false
    let r := if k.watch then setWatches s k (linesOf pa n) else (s, true)
    r.1.send { answerTo k tyRDRESP with
      pmask := BitVec.ofNat 4 pm, status := if r.2 then 0 else 8, body := .flits (s.bytes pa n) }

/-- Perform a write at the home of its bytes, granule by granule; poisoned flits are written poisoned. -/
def doWrreq (s : State) (k : Packet) : State :=
  if pktSpace k = 1 then (boxStore s k).send (answerTo k tyWRACK)
  else
    let bs := wrBytes k
    let s := (List.range (bodyNflit k.body)).foldl (fun s g =>
      let here := bs.filter (fun b => b.1 / 64 == pktOff k / 64 + g)
      let runs := heldRuns (here.map (fun b => (b.1, some b.2)))
      let s := homeWrites s none none runs
      if bit k.pmask g then runs.foldl (fun s r => s.addPoison r.1 r.2.length) s else s) s
    s.send (answerTo k tyWRACK)

/-- Perform an atomic; one on a poisoned word is not performed (08 R293). -/
def doAtomreq (s : State) (k : Packet) : State :=
  let r := atomicHome s none k.aop.toNat (2 ^ k.asz.toNat) (pktOff k) k.arg0 k.arg1
  r.2.2.send { answerTo k tyATOMRESP with arg0 := n64 (leNat r.1), pmask := if r.2.1 then 1 else 0 }

/-- Check a request that has passed editions and FN6, and perform or refuse it. -/
def perform (s : State) (k : Packet) (f : State → Packet → State) : State :=
  match s.requestBad k with
  | some st => refuseTo s k st false
  | none => f s k

/-- RDREQ (11 R409). -/
def execRdreq (p : PortId) (k : Packet) (s : State) : Host.Outcome State Fault Refusal :=
  onPacket s p k tyRDREQ (fun s => perform s k doRdreq)

/-- WRREQ (11 R409). -/
def execWrreq (p : PortId) (k : Packet) (s : State) : Host.Outcome State Fault Refusal :=
  onPacket s p k tyWRREQ (fun s => perform s k doWrreq)

/-- ATOMREQ (11 R409). -/
def execAtomreq (p : PortId) (k : Packet) (s : State) : Host.Outcome State Fault Refusal :=
  onPacket s p k tyATOMREQ (fun s => perform s k doAtomreq)

/-! ### Answers to this module's requests (11 R406, R410, R411) -/

/-- The pending request an answer is for: its tag, from the module asked. -/
def State.asked (s : State) (k : Packet) : Option PendReq :=
  (s.reqOf k.tag).filter (fun q => k.scall.toNat == fld q.req.addr 40 20)

/-- RDRESP: the bytes go to their reader. With WATCHFULL its task is then aborted with CAPACITY; an answer that finds no request is
discarded (11 R406, R410, R411). -/
def execRdresp (p : PortId) (k : Packet) (s : State) : Host.Outcome State Fault Refusal :=
  onPacket s p k tyRDRESP (fun s =>
    match s.asked k with
    | some q =>
      if !q.req.isRead then s
      else
        let data := ((bodyBytes k.body).drop (fld q.req.addr 0 40 % 64)).take q.req.len
        let t := reqTask s q
        let s := if k.status = 0 then keepWatches s q else s
        let s := answered s q (.ok data k.pmask.toNat)
        (match k.status == 8, t with
         | true, some (c, t) => abortTask s c t 2
         | _, _ => s)
    | none => s)

/-- WRACK: the write has been accepted at its home (11 R406, R409). -/
def execWrack (p : PortId) (k : Packet) (s : State) : Host.Outcome State Fault Refusal :=
  onPacket s p k tyWRACK (fun s => match s.asked k with
    | some q => if q.req.isRead || q.req.isAtomic then s else answered s q (.ok [] 0)
    | none => s)

/-- ATOMRESP: the old value; PMASK bit 0 says that the word was poisoned (08 R293, 11 R406). -/
def execAtomresp (p : PortId) (k : Packet) (s : State) : Host.Outcome State Fault Refusal :=
  onPacket s p k tyATOMRESP (fun s => match s.asked k with
    | some q => if q.req.isAtomic then answered s q (.ok (leBytes q.req.len k.arg0.toNat) k.pmask.toNat) else s
    | none => s)

/-- What a REFUSE does: SUPERSEDED with WHICH 0 fences the endpoint; every other ends the access it names (11 R406, R432, R433). -/
def refused (s : State) (k : Packet) : State :=
  if k.status = 1 ∧ !k.which then fence s
  else match s.reqOf k.tag with
  | some q => refuseReq s q k.status.toNat
  | none => s

/-- REFUSE, from a port, or from this module's own router for a request that found no route (11 R404, R406). -/
def execRefuse (p : Option PortId) (k : Packet) (s : State) : Host.Outcome State Fault Refusal :=
  match p with
  | some p => onPacket s p k tyREFUSE (fun s => refused s k)
  | none => .next (match s.reqOf k.tag with
    | some q => if q.noRoute then refuseReq s q 2 else s
    | none => s)

/-- WATCHREL drops the watch it names (11 R411). -/
def execWatchrel (p : PortId) (k : Packet) (s : State) : Host.Outcome State Fault Refusal :=
  onPacket s p k tyWATCHREL (fun s => { s with fab := { s.fab with
    watches := s.fab.watches.filter (fun w => !(w.line == pktPa k / 128 && w.scall == k.scall && w.sed == k.sed && w.tag == k.tag)) } })

/-- The task whose watched read is still unanswered, when a break names that read. -/
def State.breakEarly (s : State) (k : Packet) : List (CoreId × Nat) := match s.asked k with
  | some q => if (watchLines q).isEmpty then [] else (reqTask s q).toList
  | none => []

/-- WATCHBREAK: the task that holds the watch is aborted with CONFLICT (08 R312, 11 R411). -/
def execWatchbreak (p : PortId) (k : Packet) (s : State) : Host.Outcome State Fault Refusal :=
  onPacket s p k tyWATCHBREAK (fun s =>
    abortTasks s 1 (s.tasksOf (fun t => t.watches.any (fun w => w.1 == k.scall.toNat && w.2.2 == k.tag.toNat)) ++ s.breakEarly k))

end Sys2Proof.Machine
end

