-- ==== Sys2Proof/Machine/Input.lean ====
section
/-! DEFINITION. Machine/Input.lean: the input, the trips, PWR_EN and MOD_RESET_N, and PMBus (14 R530; 16 R564; 17 R588 to R592, R594 to
R598). A voltage is an operand in mV. -/

namespace Sys2Proof.Machine

/-- The platform changed. -/
def State.modPlat (s : State) (f : PlatState → PlatState) : State := { s with plat := f s.plat }

/-- The input voltage is sampled; what stands below 20 V counts towards removal (17 R588). -/
def sense (s : State) (mv : Nat) : State :=
  s.modPlat (fun p => { p with vin := mv, lowSince := if 20000 ≤ mv then none else some (p.lowSince.getD s.now) })

/-- STATUS_INPUT bits that an input voltage latches when it leaves 38.0 to 42.0 V (17 R595, R597). -/
def rangeBits (mv : Nat) : BitVec 8 := if 42000 < mv then 0x40#8 else if mv < 38000 then 0x20#8 else 0

/-- STATUS_INPUT bits latched. -/
def latchIn (s : State) (b : BitVec 8) : State := s.modPlat (fun p => { p with stIn := p.stIn ||| b })

/-! ### Signals (17 R589, R590) -/

/-- READY is driven high: from stage 8 on. -/
def State.readyPin (s : State) : Bool := s.plat.main && s.plat.stage == 8
/-- ALERT_N is driven low. -/
def State.alert (s : State) : Bool :=
  s.plat.present && (s.plat.stIn != 0 || s.plat.stTemp != 0 || s.plat.halted || s.plat.recovery || s.plat.thermTrip)

/-! ### Power-good and reset (16 R564; 17 R589, R591, R592) -/

/-- POWER_GOOD: with no trip set, an input of at least 38.0 V, PWR_EN and a deasserted MOD_RESET_N come to hold together after not holding
together: main conversion is on, the straps are latched, and a device reset takes place. PWR_EN reasserted within 100 ms of its deassertion takes effect 100 ms after it. -/
def execPowerGood (mv : BitVec 16) (straps : BitVec 8) (s : State) : Host.Outcome State Fault Refusal :=
  let p := s.plat
  .next (if !p.present || decide (mv.toNat < 38000) || p.uvTrip || p.ovTrip || p.thermTrip || (p.main && !p.modReset && decide (38000 ≤ p.vin)) then s
    else
      let s := match p.pwrEn, p.pwrOff with
        | false, some t => s.advanceTo (t + 100000000)
        | _, _ => s
      let s := (sense s mv.toNat).modPlat (fun p => { p with
        main := true, pwrEn := true, modReset := false, straps := straps, pgood := s.now, extest := false })
      let s := deviceReset s
      { s with fab := { s.fab with shelf := straps.setWidth 64 } })

/-- MOD_RESET_N: a low level of at least 1 µs holds a module whose main conversion is on in device reset (16 R564; 17 R591). -/
def execModResetN (ns : BitVec 32) (s : State) : Host.Outcome State Fault Refusal :=
  .next (if !s.plat.main || s.plat.modReset || decide (ns.toNat < 1000) then s
    else deviceReset ((s.advance 1000).modPlat (fun p => { p with modReset := true })))

/-- PWR_EN_DEASSERT: main conversion stops (17 R589, R591). -/
def execPwrEnDeassert (s : State) : Host.Outcome State Fault Refusal :=
  .next (if !s.plat.pwrEn then s
    else stopConversion (s.modPlat (fun p => { p with pwrEn := false, pwrOff := some s.now })))

/-! ### Trips (14 R530; 17 R597) -/

/-- UNDERVOLTAGE_LOCKOUT: an input below 36.0 V (14 R530; 17 R595, R597). -/
def execUndervoltageLockout (mv : BitVec 16) (s : State) : Host.Outcome State Fault Refusal :=
  .next (if !s.plat.present || decide (36000 ≤ mv.toNat) then s
    else stopConversion (latchIn ((sense s mv.toNat).modPlat (fun p => { p with uvTrip := true })) 0x38#8))

/-- OVERVOLTAGE_SHUTDOWN: an input above 44.0 V; the trip latches (14 R530; 17 R595, R597). -/
def execOvervoltageShutdown (mv : BitVec 16) (s : State) : Host.Outcome State Fault Refusal :=
  .next (if !s.plat.present || decide (mv.toNat ≤ 44000) then s
    else stopConversion (latchIn ((sense s mv.toNat).modPlat (fun p => { p with ovTrip := true })) 0xC0#8))

/-- THERMTRIP: a junction above 110 °C; THERMTRIP_N is driven low and latches (14 R530; 17 R595, R597). -/
def execThermtrip (t : BitVec 8) (s : State) : Host.Outcome State Fault Refusal :=
  .next (if !s.plat.main || decide (t.toNat ≤ 110) then s
    else stopConversion (s.modPlat (fun p => { p with
      thermTrip := true, tjLast := Int.ofNat t.toNat,
      stTemp := p.stTemp ||| (if s.pow.throt.toNat < t.toNat then 0xC0#8 else 0x80#8) })))

/-- UNDERVOLTAGE_LOCKOUT_CLEAR: above 37.0 V the undervoltage trip clears, and nothing starts (14 R530; 16 R564). -/
def execUndervoltageLockoutClear (mv : BitVec 16) (s : State) : Host.Outcome State Fault Refusal :=
  .next (if !s.plat.present || !s.plat.uvTrip || decide (mv.toNat ≤ 37000) then s
    else (sense s mv.toNat).modPlat (fun p => { p with uvTrip := false }))

/-- VIN_WARNING: the input leaves 38.0 to 42.0 V (17 R595, R597). -/
def execVinWarning (mv : BitVec 16) (s : State) : Host.Outcome State Fault Refusal :=
  .next (if s.plat.present then latchIn (sense s mv.toNat) (rangeBits mv.toNat) else s)

/-- INPUT_PRESENT: an input above 20 V supplies the standby domain, whose latches start clear (17 R588, R589). -/
def execInputPresent (mv : BitVec 16) (s : State) : Host.Outcome State Fault Refusal :=
  .next (if s.plat.present || decide (mv.toNat ≤ 20000) then s else (sense s mv.toNat).modPlat (fun p => { p with present := true }))

/-- INPUT_REMOVED: the input has stood below 20 V for 100 ms: nothing is powered, and every latch of the standby domain clears (17 R588). -/
def execInputRemoved (s : State) : Host.Outcome State Fault Refusal :=
  .next (if !s.plat.present then s
    else
      let s := stopConversion (s.advanceTo (s.plat.lowSince.getD s.now + 100000000))
      s.modPlat (fun p => { p with
        present := false, vin := 0, lowSince := none, uvTrip := false, ovTrip := false, thermTrip := false, stIn := 0, stTemp := 0,
        tjLast := 0, pwrOff := none, pmb := [] }))

/-! ### PMBus (17 R594 to R598) -/

/-- The PMBus interface answers with bytes, in every state but Unpowered (17 R596). -/
def pmbus (s : State) (bs : List Byte) : Host.Outcome State Fault Refusal :=
  .next (if s.plat.present then s.modPlat (fun p => { p with pmb := bs }) else s)

/-- The LINEAR11 words that stand for a value of v thousandths exactly: mantissa and exponent + 16. -/
def linearExact (v : Int) : List (Int × Nat) :=
  (List.range 32).filterMap (fun i =>
    let num := v * 2 ^ 16
    let den : Int := 1000 * 2 ^ i
    if num % den = 0 ∧ -1024 ≤ num / den ∧ num / den ≤ 1023 then some (num / den, i) else none)

/-- The nearest LINEAR11 word of the finest exponent that holds a value of v thousandths. -/
def linearNear (v : Int) : Int × Nat :=
  (((List.range 32).map (fun i => (fdiv (2 * v * 2 ^ 16 + 1000 * 2 ^ i) (2000 * 2 ^ i), i))).find? (fun x =>
    decide (-1024 ≤ x.1) && decide (x.1 ≤ 1023))).getD (0, 16)

/-- A LINEAR11 word: exponent 5, mantissa 11, both signed. Which of the words that stand for one value is sent is not stated (log 72). -/
def linear11 (v : Int) : List Byte :=
  let es := linearExact v
  let x := if es.isEmpty then linearNear v else nth (0, 16) es (Config.linearChoice v % es.length)
  leBytes 2 (wrapN 11 x.1 + ((x.2 + 16) % 32) <<< 11)

/-- STATUS_WORD (17 R598). -/
def State.statusWord (s : State) : Nat :=
  let p := s.plat
  b01 (p.stTemp != 0) <<< 2 + b01 (!p.main) <<< 6 + b01 (p.halted || p.recovery) <<< 12 + b01 (p.stIn != 0) <<< 13

/-- CLEAR_FAULTS: every latched bit whose condition has ended clears, but not those of the trips (17 R598). -/
def execClearFaults (s : State) : Host.Outcome State Fault Refusal :=
  .next (if !s.plat.present then s
    else s.modPlat (fun p =>
      let keepIn : BitVec 8 := (if p.ovTrip then 0x80#8 else 0) ||| rangeBits p.vin ||| (if p.uvTrip then 0x18#8 else 0)
      let keepTemp : BitVec 8 := 0x80#8 ||| (if p.main && decide (s.pow.throt.toNat < s.pow.tj.toNat) then 0x40#8 else 0)
      { p with stIn := p.stIn &&& keepIn, stTemp := p.stTemp &&& keepTemp }))

/-- CAPABILITY. -/
def execCapability (s : State) : Host.Outcome State Fault Refusal := pmbus s [0xB0#8]
/-- OT_FAULT_LIMIT: 110 °C. -/
def execOtFaultLimit (s : State) : Host.Outcome State Fault Refusal := pmbus s (linear11 110000)
/-- VIN_OV_FAULT_LIMIT: 44.0 V. -/
def execVinOvFaultLimit (s : State) : Host.Outcome State Fault Refusal := pmbus s (linear11 44000)
/-- VIN_OV_WARN_LIMIT: 42.0 V. -/
def execVinOvWarnLimit (s : State) : Host.Outcome State Fault Refusal := pmbus s (linear11 42000)
/-- VIN_UV_WARN_LIMIT: 38.0 V. -/
def execVinUvWarnLimit (s : State) : Host.Outcome State Fault Refusal := pmbus s (linear11 38000)
/-- VIN_UV_FAULT_LIMIT: 36.0 V. -/
def execVinUvFaultLimit (s : State) : Host.Outcome State Fault Refusal := pmbus s (linear11 36000)
/-- STATUS_WORD (17 R598). -/
def execStatusWord (s : State) : Host.Outcome State Fault Refusal := pmbus s (leBytes 2 s.statusWord)
/-- STATUS_INPUT. -/
def execStatusInput (s : State) : Host.Outcome State Fault Refusal := pmbus s [s.plat.stIn]
/-- STATUS_TEMPERATURE. -/
def execStatusTemperature (s : State) : Host.Outcome State Fault Refusal := pmbus s [s.plat.stTemp]
/-- READ_VIN of a 10 ms average in mV. -/
def execReadVin (mv : BitVec 16) (s : State) : Host.Outcome State Fault Refusal :=
  pmbus (if s.plat.present then s.modPlat (fun p => { p with vinAvg := mv.toNat }) else s) (linear11 (Int.ofNat mv.toNat))
/-- READ_IIN of a 10 ms average in mA. -/
def execReadIin (ma : BitVec 32) (s : State) : Host.Outcome State Fault Refusal :=
  pmbus (if s.plat.present then s.modPlat (fun p => { p with iinAvg := ma.toNat }) else s) (linear11 (Int.ofNat ma.toNat))
/-- READ_TEMPERATURE_1: the hottest junction as last read while main conversion was on. -/
def execReadTemperature1 (s : State) : Host.Outcome State Fault Refusal := pmbus s (linear11 (1000 * s.plat.tjLast))
/-- READ_TEMPERATURE_2: coolant at C1 in °C. -/
def execReadTemperature2 (t : BitVec 8) (s : State) : Host.Outcome State Fault Refusal :=
  pmbus (if s.plat.present then s.modPlat (fun p => { p with c1 := t.toInt }) else s) (linear11 (1000 * t.toInt))
/-- READ_TEMPERATURE_3: coolant at C2 in °C. -/
def execReadTemperature3 (t : BitVec 8) (s : State) : Host.Outcome State Fault Refusal :=
  pmbus (if s.plat.present then s.modPlat (fun p => { p with c2 := t.toInt }) else s) (linear11 (1000 * t.toInt))
/-- READ_PIN of a 10 ms average in mW. -/
def execReadPin (mw : BitVec 32) (s : State) : Host.Outcome State Fault Refusal :=
  pmbus (if s.plat.present then s.modPlat (fun p => { p with pinAvg := mw.toNat }) else s) (linear11 (Int.ofNat mw.toNat))
/-- PMBUS_REVISION. -/
def execPmbusRevision (s : State) : Host.Outcome State Fault Refusal := pmbus s [0x33#8]

/-- The bytes of a name in ASCII. -/
def ascii (x : String) : List Byte := x.toList.map (fun c => BitVec.ofNat 8 c.toNat)

/-- MFR_ID. -/
def execMfrId (s : State) : Host.Outcome State Fault Refusal := pmbus s (ascii "CHERUKEL")
/-- MFR_MODEL: the part number of the grade (17 R607). -/
def execMfrModel (s : State) : Host.Outcome State Fault Refusal :=
  pmbus s (if s.plat.grade then ascii "OHM-MZ1200-480" else ascii "OHM-MZ1200-512")

/-- A hexadecimal digit in ASCII; the case of its letters is not stated (log 72). -/
def hexDigit (n : Nat) : Byte := if n < 10 then BitVec.ofNat 8 (48 + n) else BitVec.ofNat 8 ((if Config.linearChoice 0 % 2 = 0 then 55 else 87) + n)

/-- MFR_SERIAL: the serial number as 8 hexadecimal digits. -/
def execMfrSerial (s : State) : Host.Outcome State Fault Refusal :=
  pmbus s ((List.range 8).map (fun i => hexDigit (fld s.plat.serial (28 - 4 * i) 4)))

end Sys2Proof.Machine
end

