-- ==== Sys2Proof/Machine/Pins.lean ====
section
/-! DEFINITION. Machine/Pins.lean: HALL_REF and JTAG (17 R599 to R602). -/

namespace Sys2Proof.Machine

/-! ### HALL_REF (17 R599, R600) -/

/-- The CRC-16 of the time code: polynomial 0x1021, initial value 0xFFFF, no reflection. -/
def crc16 (bs : List Byte) : BitVec 16 :=
  bs.foldl (fun (c : BitVec 16) (b : Byte) =>
    (List.range 8).foldl (fun (c : BitVec 16) _ => if bit c 15 then (c <<< 1) ^^^ 0x1021#16 else c <<< 1) (c ^^^ (b.setWidth 16 <<< 8))) 0xFFFF#16

/-- The seconds a message names, if it is correct and the source is locked. -/
def timeCode (bs : List Byte) : Option Nat :=
  let b (i : Nat) : Byte := nth 0 bs i
  if bs.length = 16 ∧ b 0 = 0x5A#8 ∧ b 1 = 0xA5#8 ∧ bit (b 10) 0 ∧ (crc16 (bs.take 14)).toNat = leNat (bs.drop 14) then
    some (leNat ((bs.drop 2).take 8))
  else none

/-- The hall clock changed. -/
def State.modHall (s : State) (f : HallClock → HallClock) : State := { s with hall := f s.hall }

/-- REFLOCK clears; at the root the count continues from its own value. -/
def HallClock.unlock (h : HallClock) : HallClock :=
  { h with stat := setBit h.stat 3 false, refGood := 0, slew := if bit h.stat 2 && bit h.stat 3 then 0 else h.slew }

/-- HALL_REF_TIME_CODE: a message names the second of the next edge; two that fail in a row, or one out of sequence, clear REFLOCK. -/
def execHallRefTimeCode (bs : List Byte) (s : State) : Host.Outcome State Fault Refusal :=
  .next (if !s.plat.main then s
    else s.modHall (fun h => match timeCode bs with
      | some x =>
        let h1 := { h with
          refSec := some x, refNew := true, refBad := 0, refSeq := match h.refSec with
            | some y => x == y + 1
            | none => false }
        if h.refCur.isSome && h.refCur != some (x - 1) then h1.unlock else h1
      | none =>
        let h1 := { h with refSec := none, refNew := true, refSeq := false, refBad := h.refBad + 1 }
        if 2 ≤ h1.refBad then h1.unlock else h1))

/-- HALL_REF_EDGE, n ns from now: the second before it is judged; three good ones in a row set REFLOCK, unless a hall time that has been
synchronised differs by more than 1 ms; at the root the count is corrected by rate towards the reference. -/
def execHallRefEdge (n : BitVec 32) (s : State) : Host.Outcome State Fault Refusal :=
  .next (if !s.plat.main then s
    else
      let s := s.advance n.toNat
      s.modHall (fun h =>
        let period := match h.refEdge with
          | some e => decide (e + 999999000 ≤ s.now) && decide (s.now ≤ e + 1000001000)
          | none => false
        let good := period && h.refNew && h.refSec.isSome && h.refSeq
        let cur := if h.refNew && h.refSec.isSome then h.refSec else h.refCur.map (fun c => c + 1)
        let count := if good then h.refGood + 1 else 0
        let off : Int := match cur with
          | some c => Int.ofNat (c * 1000000000) - Int.ofNat h.now.toNat
          | none => 0
        let lock := bit h.stat 3 || (decide (3 ≤ count) && (!h.once || decide (off.natAbs ≤ 1000000)))
        { h with
          refEdge := some s.now, refNew := false, refCur := cur, refGood := count, stat := setBit h.stat 3 lock,
          slew := if lock && bit h.stat 2 && bit h.ctl 0 && h.once then off else h.slew }))

/-- HALL_REF_LOSS: 1.5 s without an edge clear REFLOCK. -/
def execHallRefLoss (s : State) : Host.Outcome State Fault Refusal :=
  .next (match s.hall.refEdge with
    | some e => (s.advanceTo (e + 1500000000)).modHall (fun h => { h.unlock with refEdge := none, refCur := none })
    | none => s)

/-! ### JTAG (17 R601, R602) -/

/-- JTAG is live from the end of stage 2 until main conversion stops. -/
def State.jtagLive (s : State) : Bool := s.plat.main && s.plat.jlive

/-- Select an instruction; EXTEST stops driving. -/
def selectIr (s : State) (code : BitVec 8) : State := s.modPlat (fun p => { p with ir := code, extest := false })

/-- The instruction a live TAP is given. -/
def jtag (s : State) (f : State → State) : Host.Outcome State Fault Refusal := .next (if s.jtagLive then f s else s)

/-- The data register the present instruction captures: its length and value (17 R601, R602). -/
def State.jtagCapture (s : State) : Nat × Nat :=
  let p := s.plat
  if p.ir = 0x01#8 ∨ (p.ir = 0x00#8 ∧ p.extest) then (bsrLen, p.bsr.foldr (fun b a => b01 b + 2 * a) 0)
  else if p.ir = 0x02#8 then (32, 0x0A7E5C43)
  else if p.ir = 0x30#8 then (82, p.mbx.toNat)
  else (1, 0)

/-- EXTEST with cells shifted in: they are driven only while MOD_RESET_N is held low; otherwise it acts as BYPASS. -/
def execExtest (cells : BitVec 21) (s : State) : Host.Outcome State Fault Refusal :=
  jtag s (fun s =>
    let s := selectIr s 0x00#8
    if s.plat.modReset then s.modPlat (fun p => { p with extest := true, bsr := (List.range bsrLen).map (fun i => bit cells i) }) else s)

/-- The pins as sampled: what the chassis drives or pulls, and what the module drives. -/
def State.pins (s : State) (ext : BitVec 21) : List Bool :=
  (List.range bsrLen).map (fun i =>
    if i = 2 then bit ext 2 && !s.alert
    else if i = 3 then bit ext 3 && !s.plat.thermTrip
    else if i = 4 then s.readyPin
    else if i = 7 then false
    else bit ext i)

/-- SAMPLE_PRELOAD with the levels outside the module. -/
def execSamplePreload (ext : BitVec 21) (s : State) : Host.Outcome State Fault Refusal :=
  jtag s (fun s => (selectIr s 0x01#8).modPlat (fun p => { p with bsr := s.pins ext }))

/-- IDCODE. -/
def execIdcode (s : State) : Host.Outcome State Fault Refusal := jtag s (fun s => selectIr s 0x02#8)

/-- BYPASS, with the instruction code shifted in: 0xFF or any other that names no instruction. -/
def execBypass (code : BitVec 8) (s : State) : Host.Outcome State Fault Refusal :=
  jtag s (fun s => if code = 0x00#8 ∨ code = 0x01#8 ∨ code = 0x02#8 ∨ code = 0x30#8 then s else selectIr s code)

/-- MBX at Update-DR: an 8-byte read or write of the MB7 window at a multiple of 8; the register then holds DATA and DONE. Before the Curator
runs, and at an offset that is no multiple of 8, nothing is accessed and DONE stays 0 (log 37). -/
def execMbx (dr : BitVec 82) (s : State) : Host.Outcome State Fault Refusal :=
  jtag s (fun s =>
    let s := selectIr s 0x30#8
    let off := fld dr 64 16
    let held (data done : Nat) : State → State := fun s => s.modPlat (fun p => { p with
      mbx := BitVec.ofNat 82 (data + fld dr 64 17 <<< 64 + done <<< 81) })
    if off % 8 ≠ 0 ∨ !s.portLive then held (fld dr 0 64) 0 s
    else if bit dr 80 then held (fld dr 0 64) 1 (boxWrite s 7 off 8 (fld dr 0 64))
    else held ((s.box 7).readN off 8) 1 s)

/-- TAP_RESET: IDCODE is selected. -/
def execTapReset (s : State) : Host.Outcome State Fault Refusal := jtag s (fun s => selectIr s 0x02#8)

end Sys2Proof.Machine
end

