-- ==== Sys2Proof/Machine/Vector.lean ====
section
/-! DEFINITION. Machine/Vector.lean: the vector registers, SETVL, predicate logic, integer and floating-point arithmetic,
reductions, permutes and conversions (05 R163 to R180). -/

namespace Sys2Proof.Machine

/-- The vector registers. -/
abbrev VFile := Vector (BitVec 2048) 32

/-- Element i of width w of the group at register g (05 R163). -/
def vElem (v : VFile) (g w i : Nat) : Nat := fld (vget v (g + i * w / 2048) 0) (i * w % 2048) w

/-- A register with the w bits at lo replaced. -/
def setVBits (x : BitVec 2048) (lo w e : Nat) : BitVec 2048 :=
  (x &&& ~~~(BitVec.ofNat 2048 ((2 ^ w - 1) <<< lo))) ||| BitVec.ofNat 2048 ((e % 2 ^ w) <<< lo)

/-- The registers with element i of width w of the group at g replaced. -/
def vSetElem (v : VFile) (g w i e : Nat) : VFile :=
  vput v (g + i * w / 2048) (setVBits (vget v (g + i * w / 2048) 0) (i * w % 2048) w e)

/-- The vector configuration and predication an instruction executes under (05 R165, R166, R169). -/
structure VCtx where
  sew : Nat
  lmul : Nat
  hf : Bool
  vl : Nat
  vlmax : Nat
  pe : Bool
  pred : Nat
  pz : Bool
deriving DecidableEq, Repr

/-- The configuration of a core with an instruction's PE, PRED and PZ. -/
def Core.vctx (k : Core) (pe : Bool) (pred : Nat) (pz : Bool) : VCtx :=
  { sew := 2 ^ (3 + fld k.vec.vtype 0 2), lmul := 2 ^ fld k.vec.vtype 2 2, hf := bit k.vec.vtype 4, vl := k.vec.vl.toNat,
    vlmax := vlmaxOf k.vec.vtype, pe := pe, pred := pred, pz := pz }

/-- The size of a predicate group (05 R165). -/
def VCtx.pgrp (x : VCtx) : Nat := max 1 (x.vlmax / 256)

/-- Bit i of the predicate group at p (05 R165). -/
def predBit (ps : Vector (BitVec 256) 8) (p i : Nat) : Bool := bit (vget ps (p + i / 256) 0) (i % 256)

/-- Predicates with bit i of the group at p set to b. -/
def setPred (ps : Vector (BitVec 256) 8) (p i : Nat) (b : Bool) : Vector (BitVec 256) 8 :=
  let r := vget ps (p + i / 256) 0
  let m := BitVec.ofNat 256 (1 <<< (i % 256))
  vput ps (p + i / 256) (if b then r ||| m else r &&& ~~~m)

/-- Whether element i is active (05 R169). -/
def VCtx.active (x : VCtx) (v : VecRegs) (i : Nat) : Bool := decide (i < x.vl) && (!x.pe || predBit v.p x.pred i)

/-- The active elements in increasing order. -/
def VCtx.actives (x : VCtx) (v : VecRegs) : List Nat := (List.range x.vl).filter (x.active v)

/-- Registers a group of elements of width w occupies; a part of a register counts as one (05 R168, R179). -/
def VCtx.group (x : VCtx) (w : Nat) : Nat := max 1 (x.lmul * w / x.sew)

/-- Whether register n may name a group of elements of width w (05 R168). -/
def VCtx.groupOk (x : VCtx) (n w : Nat) : Bool :=
  let g := x.group w
  decide (g ≤ 8) && n % g == 0 && decide (n + g ≤ 32)

/-- The checks of a predicated instruction's predicate field (05 R165). -/
def VCtx.predOk (x : VCtx) : Bool := !x.pe || x.pred % x.pgrp == 0

/-- Write an element result for each active element i below VL; masked elements are kept or zeroed (05 R169, R174). -/
def VCtx.writeElems (x : VCtx) (v : VecRegs) (vd w : Nat) (f : Nat → Option Nat) : VecRegs :=
  { v with v := (List.range x.vl).foldl (fun q i =>
      if x.active v i then (match f i with
        | some e => vSetElem q vd w i e
        | none => q)
      else if x.pz then vSetElem q vd w i 0 else q) v.v }

/-- Write a compare's predicate: 0 for every element that is not active, up to VLMAX (05 R169). -/
def VCtx.writePred (x : VCtx) (v : VecRegs) (pd : Nat) (f : Nat → Bool) : VecRegs :=
  { v with p := (List.range x.vlmax).foldl (fun q i => setPred q pd i (x.active v i && f i)) v.p }

/-- Change the vector registers. -/
def modV (c : CoreId) (f : VecRegs → VecRegs) : Op Unit := modC c (fun k => { k with vec := f k.vec })

/-! ### SETVL and predicate logic -/

/-- SETVL's effect: VTYPE, VL and DD (05 R167). -/
def setvlBody (c : CoreId) (f : BitVec 23) : Op U64 := do
  let sew := fld f 13 2
  illegalIf (fld f 0 10 != 0 || (bit f 10 && sew != 1))
  let req ← rdD c (fld f 15 4)
  let vtype := n64 (sew + fld f 11 2 <<< 2 + b01 (bit f 10) <<< 4)
  let vl := min req.toNat (vlmaxOf vtype)
  modV c (fun v => { v with vtype := vtype, vl := BitVec.ofNat 12 vl })
  wrD c (fld f 19 4) (n64 vl)
  nextPC c 4

/-- SETVL: major 0x18, SUB 000 (05 R167, R172). -/
def execSetvl (c : CoreId) (f : BitVec 23) (s : State) : Host.Outcome State Fault Refusal :=
  .next (issue c (wordOf 0x18 (0#3 ++ f)) .plain (setvlBody c f) s)

/-- A predicate logic operation (05 R172). -/
def plogOp (op : Nat) (a b : BitVec 256) : BitVec 256 :=
  match op with
  | 0 => a &&& b
  | 1 => a ||| b
  | 2 => a ^^^ b
  | _ => a &&& ~~~b

/-- PLOG's effect on all 256 bits of one register (05 R172). -/
def plogBody (c : CoreId) (f : BitVec 23) : Op U64 := do
  illegalIf (fld f 0 12 != 0)
  modV c (fun v => { v with
    p := vput v.p (fld f 20 3) (plogOp (fld f 12 2) (vget v.p (fld f 17 3) 0) (vget v.p (fld f 14 3) 0)) })
  nextPC c 4

/-- PLOG: major 0x18, SUB 001 (05 R172). -/
def execPlog (c : CoreId) (f : BitVec 23) (s : State) : Host.Outcome State Fault Refusal :=
  .next (issue c (wordOf 0x18 (1#3 ++ f)) .plain (plogBody c f) s)

/-! ### The common fields of majors 0x19, 0x1A and 0x1E -/

/-- VD. -/
def vVD (f : BitVec 26) : Nat := fld f 21 5
/-- VS1. -/
def vVS1 (f : BitVec 26) : Nat := fld f 16 5
/-- VS2. -/
def vVS2 (f : BitVec 26) : Nat := fld f 11 5
/-- FUNCT. -/
def vFunct (f : BitVec 26) : Nat := fld f 6 5
/-- SX. -/
def vSX (f : BitVec 26) : Bool := bit f 0
/-- The configuration with the PE, PRED and PZ of bits [5:1]. -/
def Core.vctxOf (k : Core) (f : BitVec 26) : VCtx := k.vctx (bit f 5) (fld f 2 3) (bit f 1)

/-! ### Integer arithmetic (05 R173, R175) -/

/-- One element of an integer operation of SEW w; the result of a shift by w or more is not stated and is the free value. -/
def vIntOp (funct w x y free : Nat) : Nat :=
  let a := sx w x
  let b := sx w y
  let shiftOr (v : Nat) : Nat := if y < w then v else free % 2 ^ w
  match funct with
  | 0x00 => (x + y) % 2 ^ w
  | 0x01 => wrapN w (a - b)
  | 0x02 => (x * y) % 2 ^ w
  | 0x03 => wrapN w (fdiv (a * b) (2 ^ w))
  | 0x04 => x * y / 2 ^ w
  | 0x05 => x &&& y
  | 0x06 => x ||| y
  | 0x07 => x ^^^ y
  | 0x08 => shiftOr (x <<< y % 2 ^ w)
  | 0x09 => shiftOr (x >>> y)
  | 0x0A => shiftOr (wrapN w (fdiv a (2 ^ y)))
  | 0x0B => if a ≤ b then x else y
  | 0x0C => if a ≤ b then y else x
  | 0x0D => min x y
  | 0x0E => max x y
  | 0x0F => wrapN w (clampW w (a + b))
  | _ => wrapN w (clampW w (a - b))

/-- One element of VCMPEQ, VCMPLT and VCMPLTU. -/
def vIntCmp (funct w x y : Nat) : Bool :=
  match funct with
  | 0x11 => x == y
  | 0x12 => decide (sx w x < sx w y)
  | _ => decide (x < y)

/-- Whether a word's destination and sources are groups it may name: widths 0 stand for an operand it does not use. -/
def VCtx.operandsOk (x : VCtx) (vd wd vs1 w1 vs2 w2 : Nat) : Bool :=
  x.predOk && (wd == 0 || x.groupOk vd wd) && (w1 == 0 || x.groupOk vs1 w1) && (w2 == 0 || x.groupOk vs2 w2)

/-- Whether a compare may name its predicate destination: [25:24] are 0 and the group is aligned (05 R165, R172). -/
def VCtx.predDestOk (x : VCtx) (f : BitVec 26) : Bool := fld f 24 2 == 0 && fld f 21 3 % x.pgrp == 0

/-- Major 0x19 (05 R172, R173). -/
def vecIntBody (c : CoreId) (f : BitVec 26) : Op U64 := do
  let s ← get
  let k := s.core c
  let x := k.vctxOf f
  let w := x.sew
  let fn := vFunct f
  illegalIf (decide (0x16 < fn))
  let cmp := decide (0x11 ≤ fn ∧ fn ≤ 0x13)
  let two := decide (fn ≤ 0x13)
  let wd := if cmp then 0 else if fn = 0x15 then 2 * w else if fn = 0x16 then w / 2 else w
  illegalIf (!x.operandsOk (vVD f) wd (vVS1 f) (if fn = 0x14 ∧ vSX f then 0 else w) (vVS2 f) (if two && !vSX f then w else 0)
    || (cmp && !x.predDestOk f))
  let v := k.vec
  let scalar := (k.readD (vVS2 f % 16)).toNat % 2 ^ w
  let a (i : Nat) : Nat := vElem v.v (vVS1 f) w i
  let b (i : Nat) : Nat := if vSX f then scalar else vElem v.v (vVS2 f) w i
  if x.vl = 0 then pure ()
  else if cmp then modV c (fun v => x.writePred v (fld f 21 3) (fun i => vIntCmp fn w (a i) (b i)))
  else
    modV c (fun v => x.writeElems v (vVD f) wd (fun i => some (
      if fn = 0x14 then (if vSX f then scalar else a i)
      else if fn = 0x15 then wrapN (2 * w) (sx w (a i))
      else if fn = 0x16 then wrapN (w / 2) (clampW (w / 2) (sx w (a i)))
      else vIntOp fn w (a i) (b i) (Config.freeNat (s.free + i)))))
    if 0x08 ≤ fn ∧ fn ≤ 0x0A then useFree x.vl
  nextPC c 4

/-- VECTOR_INTEGER_OP: major 0x19 (05 R173). -/
def execVectorIntegerOp (c : CoreId) (f : BitVec 26) (s : State) : Host.Outcome State Fault Refusal :=
  .next (issue c (wordOf 0x19 f) .plain (vecIntBody c f) s)

/-! ### Floating point (05 R173, R175, R178) -/

/-- The floating-point format of a configuration; there is none at SEW 8 (05 R173). -/
def VCtx.fmt (x : VCtx) : Option Fmt :=
  match x.sew with
  | 16 => some (if x.hf then fp16 else bf16)
  | 32 => some fp32
  | 64 => some fp64
  | _ => none

/-- The flags of all active elements together (04 R134). -/
def VCtx.flagsOf (x : VCtx) (v : VecRegs) (f : Nat → FFlags) : FFlags := (x.actives v).foldl (fun a i => a ||| f i) 0

/-- Operations with one source: VFABS, VFSQRT to VFTANH, VFNEG. -/
def fpUnary (fn : Nat) : Bool := fn == 0x07 || decide (0x09 ≤ fn ∧ fn ≤ 0x0F) || fn == 0x14

/-- Major 0x1A (05 R172, R173, R175, R178). DESIGN CHOICE (log 81): in this and every other vector instruction the checks of groups, predicate
groups, formats and overlaps raise cause 0x01 whatever VL holds; R170's "raises no fault" is read as one of the elements' work. -/
def vecFpBody (c : CoreId) (f : BitVec 26) : Op U64 := do
  let k ← coreOf c
  let x := k.vctxOf f
  let fn := vFunct f
  match x.fmt with
  | none => illegal
  | some fm =>
    let w := x.sew
    let wide := fn == 0x13
    let cmp := decide (0x10 ≤ fn ∧ fn ≤ 0x12)
    illegalIf (decide (0x14 < fn) || (w == 64 && decide (0x0A ≤ fn ∧ fn ≤ 0x0F)) || (wide && w != 16))
    illegalIf (!x.operandsOk (vVD f) (if cmp then 0 else if wide then 32 else w) (vVS1 f) w (vVS2 f) (if fpUnary fn || vSX f then 0 else w)
      || (cmp && !x.predDestOk f))
    let v := k.vec
    let a (i : Nat) : Nat := vElem v.v (vVS1 f) w i
    let b (i : Nat) : Nat := if vSX f then k.readF (vVS2 f) w else vElem v.v (vVS2 f) w i
    if x.vl = 0 then pure ()
    else if cmp then
      let r (i : Nat) := fpCompare fn fm (a i) (b i)
      addFlags c (x.flagsOf v (fun i => (r i).2))
      modV c (fun v => x.writePred v (fld f 21 3) (fun i => (r i).1))
    else
      let wd := if wide then 32 else w
      let r (i : Nat) : Nat × FFlags :=
        if wide then fFma fp32 k.vrm (decodeF fp32 (vElem v.v (vVD f) 32 i)) (decodeF fm (a i)) (decodeF fm (b i))
        else fpArith fn fm k.vrm (vElem v.v (vVD f) w i) (a i) (b i)
      addFlags c (x.flagsOf v (fun i => (r i).2))
      modV c (fun v => x.writeElems v (vVD f) wd (fun i => some (r i).1))
    nextPC c 4

/-- VECTOR_FP_OP: major 0x1A, arithmetic, FMA and compares (05 R175). -/
def execVectorFpOp (c : CoreId) (f : BitVec 26) (s : State) : Host.Outcome State Fault Refusal :=
  .next (issue c (wordOf 0x1A f) .plain (vecFpBody c f) s)

/-- The bits of major 0x1A around a FUNCT of 0x08 to 0x0F. -/
def transBits (hi : BitVec 15) (fn : BitVec 3) (lo : BitVec 6) : BitVec 26 := hi ++ 1#2 ++ fn ++ lo

/-- VECTOR_TRANSCENDENTAL: major 0x1A, FUNCT 0x08 to 0x0F (05 R178). -/
def execVectorTranscendental (c : CoreId) (hi : BitVec 15) (fn : BitVec 3) (lo : BitVec 6) (s : State) : Host.Outcome State Fault Refusal :=
  .next (issue c (wordOf 0x1A (transBits hi fn lo)) .plain (vecFpBody c (transBits hi fn lo)) s)

/-! ### Reductions (05 R177) -/

/-- One level of the tree: adjacent pairs combined, a partner that is absent leaves its entry unchanged. -/
def treeLevel {α : Type} (f : α → α → α) : List (Option α) → List (Option α)
  | x :: y :: r =>
    (match x, y with
     | some a, some b => some (f a b)
     | some a, none => some a
     | none, b => b) :: treeLevel f r
  | l => l

/-- The tree over n levels; positions beyond the list are absent. -/
def treeFold {α : Type} (f : α → α → α) : Nat → List (Option α) → Option α
  | 0, l => (match l with
    | x :: _ => x
    | [] => none)
  | n + 1, l => treeFold f n (treeLevel f l)

/-- A value with the flags of the operations that formed it. -/
abbrev FlagVal := Nat × FFlags

/-- One addition or comparison of a floating-point reduction: to nearest-even (05 R177). -/
def fpRedOp (fn : Nat) (fm : Fmt) (a b : FlagVal) : FlagVal :=
  let r := match fn with
    | 0 => fAdd fm .rne (decodeF fm a.1) (decodeF fm b.1)
    | 1 => fMinMax fm true a.1 b.1
    | _ => fMinMax fm false a.1 b.1
  (r.1, r.2 ||| a.2 ||| b.2)

/-- One step of an integer reduction of width w. -/
def intRedOp (fn w : Nat) (a b : Nat) : Nat :=
  match fn with
  | 3 => (a + b) % 2 ^ w
  | 4 => if sx w a ≤ sx w b then b else a
  | _ => if sx w a ≤ sx w b then a else b

/-- A 16-bit element widened exactly to FP32; a NaN is canonical (05 R177). -/
def widenF (fm : Fmt) (x : Nat) : Nat := (deliver fp32 .rne (decodeF fm x)).1

/-- FUNCT 0x00 to 0x05 of major 0x1E (05 R177). DESIGN CHOICE (log 81): a reduction without an active element has no tree result, and writes
the initial value also where VL is above 0; a D register that the 5-bit VD or VS2 of major 0x1E names is taken modulo 16. -/
def vecRedBody (c : CoreId) (f : BitVec 26) : Op U64 := do
  let s ← get
  let k := s.core c
  let x := k.vctxOf f
  let fn := vFunct f
  let w := x.sew
  illegalIf (!x.operandsOk 0 0 (vVS1 f) w 0 0)
  let at' (i : Nat) : Option Nat := if x.active k.vec i then some (vElem k.vec.v (vVS1 f) w i) else none
  let elems := (List.range x.vl).map at'
  if fn ≤ 2 then
    match x.fmt with
    | none => illegal
    | some fm =>
      let rf := if w = 16 then fp32 else fm
      let xs : List (Option FlagVal) := elems.map (fun e => e.map (fun e => (if w = 16 then widenF fm e else e, 0)))
      let init := k.readF (vVS2 f) rf.width
      let r : FlagVal := match treeFold (fpRedOp fn rf) 11 xs with
        | some t => fpRedOp fn rf t (init, 0)
        | none => (if (decodeF rf init).isNan then rf.qnan else init, 0)
      modC c (fun k => (k.raiseFlags r.2).writeF (vVD f) r.1)
      nextPC c 4
  else
    let init := k.readF (vVS2 f) w
    let r := match treeFold (intRedOp fn w) 11 elems with
      | some t => intRedOp fn w t init
      | none => init
    wrD c (vVD f % 16) (n64 (r + (Config.freeNat s.free % 2 ^ (64 - w)) <<< w))
    if w ≠ 64 then useFree 1
    nextPC c 4

/-- VECTOR_REDUCTION: major 0x1E, FUNCT 0x00 to 0x05 (05 R177); another FUNCT is a permute or raises cause 0x01. -/
def execVectorReduction (c : CoreId) (f : BitVec 26) (s : State) : Host.Outcome State Fault Refusal :=
  .next (issue c (wordOf 0x1E f) .plain (do
    illegalIf (decide (5 < vFunct f))
    vecRedBody c f) s)

/-! ### Permutes (05 R173) -/

/-- Source values of the permutes before any write: those of VS1, in the order each names. -/
def permElem (fn : Nat) (x : VCtx) (v : VecRegs) (f : BitVec 26) (amt free : Nat) (i : Nat) : Option Nat :=
  let src (j : Nat) : Nat := vElem v.v (vVS1 f) x.sew j
  match fn with
  | 0x06 => if amt ≤ i then some (src (i - amt)) else none
  | 0x07 => some (if i + amt < x.vlmax then src (i + amt) else Config.freeNat (free + i) % 2 ^ x.sew)
  | 0x08 =>
    let j := vElem v.v (vVS2 f) x.sew i
    some (if j < x.vlmax then src j else 0)
  | _ => some (i % 2 ^ x.sew)

/-- VCOMPRESS: the active elements packed from element 0; with PZ the masked elements not packed into are zeroed. -/
def compress (x : VCtx) (v : VecRegs) (f : BitVec 26) : VecRegs :=
  let src := (x.actives v).map (fun j => vElem v.v (vVS1 f) x.sew j)
  let n := src.length
  { v with v := (List.range x.vl).foldl (fun q i =>
      if i < n then vSetElem q (vVD f) x.sew i (nth 0 src i)
      else if !x.active v i && x.pz then vSetElem q (vVD f) x.sew i 0 else q) v.v }

/-- FUNCT 0x06 to 0x0B of major 0x1E (05 R173). DESIGN CHOICE (log 81): the D register VD of VPCNT or VS2 of a slide is taken modulo 16. -/
def vecPermBody (c : CoreId) (f : BitVec 26) : Op U64 := do
  let s ← get
  let k := s.core c
  let x := k.vctxOf f
  let fn := vFunct f
  let w := x.sew
  illegalIf (!x.operandsOk (vVD f) (if fn = 0x0B then 0 else w) (vVS1 f) (if 0x0A ≤ fn then 0 else w) (vVS2 f) (if fn = 0x08 then w else 0))
  if x.vl = 0 then pure ()
  else if fn = 0x0B then wrD c (vVD f % 16) (n64 (x.actives k.vec).length)
  else if fn = 0x09 then modV c (fun v => compress x v f)
  else
    modV c (fun v => x.writeElems v (vVD f) w (permElem fn x v f (k.readD (vVS2 f % 16)).toNat s.free))
    if fn = 0x07 then useFree x.vl
  nextPC c 4

/-- VECTOR_PERMUTE: major 0x1E, FUNCT 0x06 to 0x0B (05 R173); another FUNCT is a reduction or raises cause 0x01. -/
def execVectorPermute (c : CoreId) (f : BitVec 26) (s : State) : Host.Outcome State Fault Refusal :=
  .next (issue c (wordOf 0x1E f) .plain (do
    illegalIf (decide (vFunct f < 6 ∨ 0x0B < vFunct f))
    vecPermBody c f) s)

/-! ### Conversions (05 R179, R180) -/

/-- The width of a source element's place: a nibble for the 4-bit formats, else SEW, or the format's width when it is wider. -/
def cvtSrcWidth (sew code : Nat) : Nat := if codeBits code = 4 then 4 else max sew (codeBits code)

/-- A conversion's destination checks for a format: its group (05 R168, R179). -/
def VCtx.cvtDestOk (x : VCtx) (vd fmt : Nat) : Bool := x.groupOk vd (codeBits fmt)

/-- Convert each active element: the new registers and the counts. -/
def cvtElems (x : VCtx) (v : VecRegs) (conv : Nat → Nat × CvClass × FV) (vd fmt : Nat) : VecRegs × Counts :=
  (x.writeElems v vd (codeBits fmt) (fun i => some (conv i).1),
   (x.actives v).foldl (fun a i => a.add (Counts.elem (conv i).2.1 (conv i).2.2)) Counts.zero)

/-- Major 0x1B with its channel and scale (05 R179, R180). -/
def vcvtBody (c : CoreId) (p : Option (BitVec 26)) (f : BitVec 26) : Op U64 := do
  let k ← coreOf c
  let x := k.vctxOf f
  let sf := fld f 8 4
  let cls := fld f 6 2
  let ovr := bit f 0
  let h : BitVec 26 := p.getD 0
  let chan := fld h 20 6
  let sc : Option Nat := if bit h 14 then some (k.readF (fld h 15 5) 32) else none
  let sw := cvtSrcWidth x.sew sf
  let out := if ovr then (fld f 12 4, false) else classOut k.num.mode k.num.prof cls sf
  let df := out.1
  illegalIf (fld h 0 14 != 0 || decide (0xE ≤ sf) || !x.operandsOk 0 0 (vVS1 f) sw 0 0)
  illegalIf (ovr && (isMX df || decide (0xE ≤ df) || !x.cvtDestOk (vVD f) df))
  illegalIf (!ovr && cls == 3 && isMX sf)
  if x.vl = 0 then pure ()
  else
    trapIf (!ovr && (isMX df || !canProduce sf df)) 0x14
    illegalIf (!x.cvtDestOk (vVD f) df)
    let conv (i : Nat) : Nat × CvClass × FV :=
      let v := decodeCode sf (vElem k.vec.v (vVS1 f) sw i)
      let r := convert df k.nonsat (convMode out.2 k.num.srStep chan (k.num.srBase + n64 i)) (scaled sc v)
      (r.1, r.2, v)
    let r := cvtElems x k.vec conv (vVD f) df
    modV c (fun _ => r.1)
    countConversion c r.2 df cls chan
  nextPC c (if p.isSome then 8 else 4)

/-- VCVT: major 0x1B with an optional prefix 0x31 (05 R171, R179). -/
def execVcvt (c : CoreId) (p : Option (BitVec 26)) (f : BitVec 26) (s : State) : Host.Outcome State Fault Refusal :=
  .next (issue c (match p with
    | some h => wordOf 0x31 h
    | none => wordOf 0x1B f) .plain (vcvtBody c p f) s)

end Sys2Proof.Machine
end

