-- ==== Sys2Proof/Machine/VectorMem.lean ====
section
/-! DEFINITION. Machine/VectorMem.lean: vector loads and stores: addresses, the order of elements, and how an instruction
stopped part-way records its place and resumes (05 R181 to R192). -/

namespace Sys2Proof.Machine

/-- The memory an element access reaches: a carrel or HBM; a global address, a misaligned, a device register's or an untranslated one
faults (05 R182, 08 R285). -/
def vElemAddr (c : CoreId) (acc : Acc) (va : U64) (n : Nat) : Op Nat := do
  trapIf (va.toNat % n != 0) 0x05 va
  trapIf (bit va 63) 0x0A va
  let pa ← xlateAt c (← ringOf c) acc va
  trapIf (isDevice pa) 0x05 va
  trapIf (!isMem pa || (← get).carrelShut c pa) acc.cause va
  return pa

/-- Load one field of an element into a register group; `first` marks the access that updates the prefetcher (08 R299). -/
def vLoadElem (c : CoreId) (va : U64) (n g i : Nat) (first : Bool) : Op Unit := do
  let pa ← vElemAddr c .load va n
  let bs ← memLoad c pa n va
  if first then detect c va (some pa)
  modV c (fun v => { v with v := vSetElem v.v g (8 * n) i (leNat bs) })

/-- Store one field of an element from a register group. -/
def vStoreElem (c : CoreId) (va : U64) (n g i : Nat) : Op Unit := do
  let pa ← vElemAddr c .store va n
  let k ← coreOf c
  memStore c pa (leBytes n (vElem k.vec.v g (8 * n) i)) va

/-- What a vector memory instruction does: its configuration, direction, fields, groups and the address of field f of
element i. -/
structure VMem where
  ctx : VCtx
  store : Bool
  nf : Nat
  vr : Nat
  addr : Nat → Nat → U64
  /-- it is one of the forms the prefetcher watches (08 R299) -/
  watch : Bool

/-- Bytes of an element. -/
def VMem.bytes (m : VMem) : Nat := m.ctx.sew / 8

/-- The fields f, f + 1, … of element i. -/
def VMem.fields (m : VMem) (c : CoreId) (i : Nat) (first : Bool) : Nat → Op Unit
  | 0 => pure ()
  | n + 1 => do
    let f := m.nf - (n + 1)
    let g := m.vr + f * m.ctx.lmul
    if m.store then vStoreElem c (m.addr i f) m.bytes g i
    else vLoadElem c (m.addr i f) m.bytes g i (first && m.watch && f == 0)
    VMem.fields m c i first n

/-- The record of a stopped vector memory instruction (05 R188, R189). -/
def vRecord (i subc : Nat) : U64 := n64 (i + subc <<< 16 + 1 <<< 24)

/-- A masked element below VL of a load: kept, or zeroed in every field when PZ is 1 (05 R169). -/
def VMem.masked (m : VMem) (v : VecRegs) (i : Nat) : VecRegs :=
  if m.ctx.pz && !m.store then
    { v with v := (List.range m.nf).foldl (fun q f => vSetElem q (m.vr + f * m.ctx.lmul) m.ctx.sew i 0) v.v }
  else v

/-- The elements i, i + 1, … below VL in increasing order. done says that this execution has performed an element; first that
no element has. A fault stops at its element with the record of R188; an event that R189 lets the core take at a boundary is
taken or not by a free choice. -/
def VMem.run (m : VMem) (c : CoreId) : Nat → Bool → State → EStateM.Result Stop State Unit
  | 0, _, s => .ok () s
  | n + 1, done, s =>
    let i := m.ctx.vl - (n + 1)
    let v := (s.core c).vec
    if m.ctx.active v i then
      let pend := done && (s.core c).eligible.isSome
      let s := if pend then { s with free := s.free + 1 } else s
      if pend && Config.freeNat (s.free - 1) % 2 == 1 then
        .error .event (s.modCore c (fun k => { k with vec := { k.vec with vresume := vRecord i 0 } }))
      else match m.fields c i (!done) m.nf s with
      | .ok _ s1 => VMem.run m c n true s1
      | .error (.trap cause _ info _) _ =>
        .error (.trap 0x10 cause info true)
          (s.modCore c (fun k => { k with vec := { k.vec with vresume := vRecord i cause, vfaddr := info } }))
      | .error e s1 => .error e s1
    else VMem.run m c n done (s.modCore c (fun k => { k with vec := m.masked k.vec i }))

/-- Perform a vector memory instruction of n bytes of code: from element 0, or from VRESUME.INDEX when it is resumed (05 R190). -/
def VMem.perform (m : VMem) (c : CoreId) : Op U64 := do
  let k ← coreOf c
  let resumed := k.ex.afterRte && bit k.vec.vresume 24
  let start := if resumed then fld k.vec.vresume 0 11 else 0
  (fun s => m.run c (m.ctx.vl - start) false s)
  if resumed then modV c (fun v => { v with vresume := setBit v.vresume 24 false })
  nextPC c 4

/-- The checks every vector memory form shares: predicate group, data groups, no zeroing store (05 R165, R168, R172, R184). -/
def VMem.ok (m : VMem) : Bool :=
  m.ctx.predOk && !(m.store && m.ctx.pz) && decide (m.nf * m.ctx.lmul ≤ 8) && m.vr % m.ctx.lmul == 0
    && decide (m.vr + m.nf * m.ctx.lmul ≤ 32)

/-- VECTOR_LOAD_STORE's effect: major 0x1C (05 R172, R181). -/
def vecLoadStoreBody (c : CoreId) (f : BitVec 26) : Op U64 := do
  let k ← coreOf c
  let x := k.vctxOf f
  let base := k.readA (fld f 17 4)
  let stride := if bit f 11 then k.readA (fld f 13 4) else n64 (x.sew / 8)
  let m : VMem := { ctx := x, store := bit f 12, nf := 1, vr := fld f 21 5, addr := fun i _ => base + n64 i * stride, watch := true }
  illegalIf (fld f 6 5 != 0 || bit f 0 || !m.ok)
  m.perform c

/-- VECTOR_LOAD_STORE: major 0x1C (05 R181, R185). -/
def execVectorLoadStore (c : CoreId) (f : BitVec 26) (s : State) : Host.Outcome State Fault Refusal :=
  .next (issue c (wordOf 0x1C f) .vmem (vecLoadStoreBody c f) s)

/-- Whether two ranges of registers share one. -/
def groupsMeet (a n b m : Nat) : Bool := decide (a < b + m) && decide (b < a + n)

/-- VECTOR_GATHER_SCATTER's effect: major 0x1D (05 R172, R181, R192). -/
def vecGatherBody (c : CoreId) (f : BitVec 26) : Op U64 := do
  let k ← coreOf c
  let x := k.vctxOf f
  let base := k.readA (fld f 17 4)
  let iw := if bit f 8 then 64 else 32
  let vi := fld f 12 5
  let v := k.vec.v
  let m : VMem := { ctx := x, store := bit f 11, nf := 1, vr := fld f 21 5, watch := false,
                    addr := fun i _ => base + w64 (sx iw (vElem v vi iw i)) <<< fld f 9 2 }
  illegalIf (fld f 6 2 != 0 || bit f 0 || !m.ok || !x.groupOk vi iw)
  illegalIf (!m.store && groupsMeet m.vr x.lmul vi (x.group iw))
  m.perform c

/-- VECTOR_GATHER_SCATTER: major 0x1D (05 R181, R185). -/
def execVectorGatherScatter (c : CoreId) (f : BitVec 26) (s : State) : Host.Outcome State Fault Refusal :=
  .next (issue c (wordOf 0x1D f) .vmem (vecGatherBody c f) s)

/-- VECTOR_STRUCTURE_LOAD_STORE's effect: major 0x1F (05 R172, R181, R184). -/
def vecStructBody (c : CoreId) (f : BitVec 26) : Op U64 := do
  let k ← coreOf c
  let x := k.vctxOf f
  let base := k.readA (fld f 17 4)
  let nf := fld f 10 2 + 1
  let m : VMem := { ctx := x, store := bit f 12, nf := nf, vr := fld f 21 5, watch := false,
                    addr := fun i j => base + n64 ((i * nf + j) * (x.sew / 8)) }
  illegalIf (fld f 6 4 != 0 || fld f 13 4 != 0 || bit f 0 || nf == 1 || !m.ok)
  m.perform c

/-- VECTOR_STRUCTURE_LOAD_STORE: major 0x1F (05 R184). -/
def execVectorStructureLoadStore (c : CoreId) (f : BitVec 26) (s : State) : Host.Outcome State Fault Refusal :=
  .next (issue c (wordOf 0x1F f) .vmem (vecStructBody c f) s)

end Sys2Proof.Machine
end

