-- ==== Sys2Proof/Machine/Dispatch.lean ====
section
/-! DEFINITION. Machine/Dispatch.lean: one arm per command. -/

namespace Sys2Proof.Machine

def exec (i : Instr) (s : State) : Host.Outcome State Fault Refusal :=
  match i with
  | .tcfg c f => Sys2Proof.Machine.execTcfg c f s
  | .tld c p hi lo => Sys2Proof.Machine.execTld c p hi lo s
  | .tst c p hi lo => Sys2Proof.Machine.execTst c p hi lo s
  | .zld c hi lo => Sys2Proof.Machine.execZld c hi lo s
  | .zst c hi lo => Sys2Proof.Machine.execZst c hi lo s
  | .tlw c f => Sys2Proof.Machine.execTlw c f s
  | .tlwDelivery c => Sys2Proof.Machine.execTlwDelivery c s
  | .tmma4 c f us => Sys2Proof.Machine.execTmma4 c f us s
  | .tmma4Complete c => Sys2Proof.Machine.execTmma4Complete c s
  | .tstz c p f => Sys2Proof.Machine.execTstz c p f s
  | .tzeroT c f => Sys2Proof.Machine.execTzeroT c f s
  | .tzeroZ c f => Sys2Proof.Machine.execTzeroZ c f s
  | .tmov c f => Sys2Proof.Machine.execTmov c f s
  | .zmov c f => Sys2Proof.Machine.execZmov c f s
  | .nchAmaxclr c rd => Sys2Proof.Machine.execNchAmaxclr c rd s
  | .setvl c f => Sys2Proof.Machine.execSetvl c f s
  | .plog c f => Sys2Proof.Machine.execPlog c f s
  | .vectorIntegerOp c f => Sys2Proof.Machine.execVectorIntegerOp c f s
  | .vectorFpOp c f => Sys2Proof.Machine.execVectorFpOp c f s
  | .vectorTranscendental c hi fn lo => Sys2Proof.Machine.execVectorTranscendental c hi fn lo s
  | .vectorReduction c f => Sys2Proof.Machine.execVectorReduction c f s
  | .vectorPermute c f => Sys2Proof.Machine.execVectorPermute c f s
  | .vcvt c p f => Sys2Proof.Machine.execVcvt c p f s
  | .vectorLoadStore c f => Sys2Proof.Machine.execVectorLoadStore c f s
  | .vectorGatherScatter c f => Sys2Proof.Machine.execVectorGatherScatter c f s
  | .vectorStructureLoadStore c f => Sys2Proof.Machine.execVectorStructureLoadStore c f s
  | .integerRegisterOp c f => Sys2Proof.Machine.execIntegerRegisterOp c f s
  | .integerImmediateOp c x f => Sys2Proof.Machine.execIntegerImmediateOp c x f s
  | .addressOp c m x f => Sys2Proof.Machine.execAddressOp c m x f s
  | .ld c x f => Sys2Proof.Machine.execLd c x f s
  | .st c x f => Sys2Proof.Machine.execSt c x f s
  | .ldaSta c x f => Sys2Proof.Machine.execLdaSta c x f s
  | .branch c f => Sys2Proof.Machine.execBranch c f s
  | .branchOnZero c f => Sys2Proof.Machine.execBranchOnZero c f s
  | .jmp c f => Sys2Proof.Machine.execJmp c f s
  | .jmpr c f => Sys2Proof.Machine.execJmpr c f s
  | .call c f => Sys2Proof.Machine.execCall c f s
  | .callr c f => Sys2Proof.Machine.execCallr c f s
  | .ret c f => Sys2Proof.Machine.execRet c f s
  | .scalarAtomic c f => Sys2Proof.Machine.execScalarAtomic c f s
  | .afadd c hi lo => Sys2Proof.Machine.execAfadd c hi lo s
  | .csel c f => Sys2Proof.Machine.execCsel c f s
  | .nop c => Sys2Proof.Machine.execNop c s
  | .mtc c f => Sys2Proof.Machine.execMtc c f s
  | .deviceRegisterWrite c off wide v => Sys2Proof.Machine.execDeviceRegisterWrite c off wide v s
  | .fixedPointMac c f => Sys2Proof.Machine.execFixedPointMac c f s
  | .accumulatorArithmetic c f => Sys2Proof.Machine.execAccumulatorArithmetic c f s
  | .accumulatorMove c f => Sys2Proof.Machine.execAccumulatorMove c f s
  | .scalarFpOp c f => Sys2Proof.Machine.execScalarFpOp c f s
  | .fldFst c f => Sys2Proof.Machine.execFldFst c f s
  | .fpMoveConvert c f => Sys2Proof.Machine.execFpMoveConvert c f s
  | .rpt c p x w => Sys2Proof.Machine.execRpt c p x w s
  | .rpti c p x w => Sys2Proof.Machine.execRpti c p x w s
  | .gloss c f => Sys2Proof.Machine.execGloss c f s
  | .glWord c rd => Sys2Proof.Machine.execGlWord c rd s
  | .glCtlCommit c rd => Sys2Proof.Machine.execGlCtlCommit c rd s
  | .glLock c rd => Sys2Proof.Machine.execGlLock c rd s
  | .breakpointHalt c => Sys2Proof.Machine.execBreakpointHalt c s
  | .callg c f => Sys2Proof.Machine.execCallg c f s
  | .retg c f => Sys2Proof.Machine.execRetg c f s
  | .rte c f => Sys2Proof.Machine.execRte c f s
  | .mfb c f => Sys2Proof.Machine.execMfb c f s
  | .mtb c f => Sys2Proof.Machine.execMtb c f s
  | .gms c f => Sys2Proof.Machine.execGms c f s
  | .gmc c f => Sys2Proof.Machine.execGmc c f s
  | .wait c f => Sys2Proof.Machine.execWait c f s
  | .elinkWrite c rd => Sys2Proof.Machine.execElinkWrite c rd s
  | .stWrite c rd => Sys2Proof.Machine.execStWrite c rd s
  | .xsend c rd => Sys2Proof.Machine.execXsend c rd s
  | .xtimerWrite c rd => Sys2Proof.Machine.execXtimerWrite c rd s
  | .timerEvent c => Sys2Proof.Machine.execTimerEvent c s
  | .takeAsyncEvent c => Sys2Proof.Machine.execTakeAsyncEvent c s
  | .watchdog c => Sys2Proof.Machine.execWatchdog c s
  | .fence c f => Sys2Proof.Machine.execFence c f s
  | .dczl c f => Sys2Proof.Machine.execDczl c f s
  | .pref c f => Sys2Proof.Machine.execPref c f s
  | .icsync c f => Sys2Proof.Machine.execIcsync c f s
  | .tlbi c f => Sys2Proof.Machine.execTlbi c f s
  | .tspecBegin c f => Sys2Proof.Machine.execTspecBegin c f s
  | .tspecCommit c f => Sys2Proof.Machine.execTspecCommit c f s
  | .tspecAbort c f => Sys2Proof.Machine.execTspecAbort c f s
  | .tspecWait c f => Sys2Proof.Machine.execTspecWait c f s
  | .taskAbortRedirect c => Sys2Proof.Machine.execTaskAbortRedirect c s
  | .sstart c f => Sys2Proof.Machine.execSstart c f s
  | .sresume c f => Sys2Proof.Machine.execSresume c f s
  | .scancel c f => Sys2Proof.Machine.execScancel c f s
  | .swait c f => Sys2Proof.Machine.execSwait c f s
  | .swaitb c f => Sys2Proof.Machine.execSwaitb c f s
  | .streamBlockIssue c e => Sys2Proof.Machine.execStreamBlockIssue c e s
  | .granuleLands c e blk g => Sys2Proof.Machine.execGranuleLands c e blk g s
  | .streamBlockComplete c e => Sys2Proof.Machine.execStreamBlockComplete c e s
  | .streamHalt c e => Sys2Proof.Machine.execStreamHalt c e s
  | .semsig c f => Sys2Proof.Machine.execSemsig c f s
  | .semwait c f => Sys2Proof.Machine.execSemwait c f s
  | .semPairWrite c n rd => Sys2Proof.Machine.execSemPairWrite c n rd s
  | .bara c f => Sys2Proof.Machine.execBara c f s
  | .barw c f => Sys2Proof.Machine.execBarw c f s
  | .barcfg c f => Sys2Proof.Machine.execBarcfg c f s
  | .bargen c f => Sys2Proof.Machine.execBargen c f s
  | .gsubmit c f => Sys2Proof.Machine.execGsubmit c f s
  | .gcancel c f => Sys2Proof.Machine.execGcancel c f s
  | .gatherPosition e => Sys2Proof.Machine.execGatherPosition e s
  | .gatherJobComplete id => Sys2Proof.Machine.execGatherJobComplete id s
  | .gatherJobRefused id => Sys2Proof.Machine.execGatherJobRefused id s
  | .portTrained p => Sys2Proof.Machine.execPortTrained p s
  | .portTrainingRetry p => Sys2Proof.Machine.execPortTrainingRetry p s
  | .portDown p => Sys2Proof.Machine.execPortDown p s
  | .linkReplay p => Sys2Proof.Machine.execLinkReplay p s
  | .linkAck p => Sys2Proof.Machine.execLinkAck p s
  | .live p k => Sys2Proof.Machine.execLive p k s
  | .liveSend p => Sys2Proof.Machine.execLiveSend p s
  | .htHoldover => Sys2Proof.Machine.execHtHoldover s
  | .htSyncLost => Sys2Proof.Machine.execHtSyncLost s
  | .hello p k => Sys2Proof.Machine.execHello p k s
  | .catalogueClaim p k => Sys2Proof.Machine.execCatalogueClaim p k s
  | .cataloguerElected u => Sys2Proof.Machine.execCataloguerElected u s
  | .catalogueUpdate p k => Sys2Proof.Machine.execCatalogueUpdate p k s
  | .catalogueUpdateApply => Sys2Proof.Machine.execCatalogueUpdateApply s
  | .moduleSuspect call => Sys2Proof.Machine.execModuleSuspect call s
  | .moduleWithdrawn call u => Sys2Proof.Machine.execModuleWithdrawn call u s
  | .probe p k => Sys2Proof.Machine.execProbe p k s
  | .proberesp p k => Sys2Proof.Machine.execProberesp p k s
  | .packetForward p k => Sys2Proof.Machine.execPacketForward p k s
  | .rdreq p k => Sys2Proof.Machine.execRdreq p k s
  | .wrreq p k => Sys2Proof.Machine.execWrreq p k s
  | .atomreq p k => Sys2Proof.Machine.execAtomreq p k s
  | .rdresp p k => Sys2Proof.Machine.execRdresp p k s
  | .wrack p k => Sys2Proof.Machine.execWrack p k s
  | .atomresp p k => Sys2Proof.Machine.execAtomresp p k s
  | .refuse p k => Sys2Proof.Machine.execRefuse p k s
  | .watchrel p k => Sys2Proof.Machine.execWatchrel p k s
  | .watchbreak p k => Sys2Proof.Machine.execWatchbreak p k s
  | .requestTimeout tag => Sys2Proof.Machine.execRequestTimeout tag s
  | .planGo c v => Sys2Proof.Machine.execPlanGo c v s
  | .planTrigger => Sys2Proof.Machine.execPlanTrigger s
  | .reduce p k => Sys2Proof.Machine.execReduce p k s
  | .mcast p k => Sys2Proof.Machine.execMcast p k s
  | .harrive p k => Sys2Proof.Machine.execHarrive p k s
  | .hrelease p k => Sys2Proof.Machine.execHrelease p k s
  | .hallBarrierArrive p => Sys2Proof.Machine.execHallBarrierArrive p s
  | .lgStart c k => Sys2Proof.Machine.execLgStart c k s
  | .lgSealGo c dirty => Sys2Proof.Machine.execLgSealGo c dirty s
  | .voteSend => Sys2Proof.Machine.execVoteSend s
  | .vote p k => Sys2Proof.Machine.execVote p k s
  | .outcome p k => Sys2Proof.Machine.execOutcome p k s
  | .sealedOutcomeApply => Sys2Proof.Machine.execSealedOutcomeApply s
  | .replayOutcomeApply => Sys2Proof.Machine.execReplayOutcomeApply s
  | .replayQuietFlush => Sys2Proof.Machine.execReplayQuietFlush s
  | .lgPostUwr c => Sys2Proof.Machine.execLgPostUwr c s
  | .lgPostRootdone c => Sys2Proof.Machine.execLgPostRootdone c s
  | .lgPostRecvdone c => Sys2Proof.Machine.execLgPostRecvdone c s
  | .lgPostTwin c t3 tx => Sys2Proof.Machine.execLgPostTwin c t3 tx s
  | .digup p k => Sys2Proof.Machine.execDigup p k s
  | .digdown p k => Sys2Proof.Machine.execDigdown p k s
  | .uwrup p k => Sys2Proof.Machine.execUwrup p k s
  | .ratiodn p k => Sys2Proof.Machine.execRatiodn p k s
  | .svCmdBuild c => Sys2Proof.Machine.execSvCmdBuild c s
  | .svCmdBuilt c => Sys2Proof.Machine.execSvCmdBuilt c s
  | .svCmdHeld c => Sys2Proof.Machine.execSvCmdHeld c s
  | .svCmdAbandon c => Sys2Proof.Machine.execSvCmdAbandon c s
  | .svCmdDeposited c => Sys2Proof.Machine.execSvCmdDeposited c s
  | .svRewind c k => Sys2Proof.Machine.execSvRewind c k s
  | .fieldTestWindowEnd => Sys2Proof.Machine.execFieldTestWindowEnd s
  | .reserveTestCycle => Sys2Proof.Machine.execReserveTestCycle s
  | .phase c f => Sys2Proof.Machine.execPhase c f s
  | .phaseTakesEffect => Sys2Proof.Machine.execPhaseTakesEffect s
  | .frequencyLoopTick w => Sys2Proof.Machine.execFrequencyLoopTick w s
  | .pllRelocked => Sys2Proof.Machine.execPllRelocked s
  | .voltageRampDone => Sys2Proof.Machine.execVoltageRampDone s
  | .frequencySwitch => Sys2Proof.Machine.execFrequencySwitch s
  | .frequencyIncreaseAbandoned => Sys2Proof.Machine.execFrequencyIncreaseAbandoned s
  | .droopTrip q d => Sys2Proof.Machine.execDroopTrip q d s
  | .droopClear q => Sys2Proof.Machine.execDroopClear q s
  | .powerMeasurement w => Sys2Proof.Machine.execPowerMeasurement w s
  | .averageLimiterTick w => Sys2Proof.Machine.execAverageLimiterTick w s
  | .capStretchTick w => Sys2Proof.Machine.execCapStretchTick w s
  | .thermalRead t => Sys2Proof.Machine.execThermalRead t s
  | .brokerMeanTimeout => Sys2Proof.Machine.execBrokerMeanTimeout s
  | .arrayGateOpen q => Sys2Proof.Machine.execArrayGateOpen q s
  | .rampStep q => Sys2Proof.Machine.execRampStep q s
  | .pwJobtag c v => Sys2Proof.Machine.execPwJobtag c v s
  | .undervoltageLockout mv => Sys2Proof.Machine.execUndervoltageLockout mv s
  | .overvoltageShutdown mv => Sys2Proof.Machine.execOvervoltageShutdown mv s
  | .thermtrip t => Sys2Proof.Machine.execThermtrip t s
  | .mbDoor c mb v => Sys2Proof.Machine.execMbDoor c mb v s
  | .mbNpop c mb v => Sys2Proof.Machine.execMbNpop c mb v s
  | .managementFrame bs => Sys2Proof.Machine.execManagementFrame bs s
  | .slipAnswered mb => Sys2Proof.Machine.execSlipAnswered mb s
  | .ownQuery mb => Sys2Proof.Machine.execOwnQuery mb s
  | .ownClaim mb => Sys2Proof.Machine.execOwnClaim mb s
  | .ownershipContestClose => Sys2Proof.Machine.execOwnershipContestClose s
  | .ownRenew mb => Sys2Proof.Machine.execOwnRenew mb s
  | .leaseExpiry => Sys2Proof.Machine.execLeaseExpiry s
  | .ownRelease mb => Sys2Proof.Machine.execOwnRelease mb s
  | .ownGrant mb => Sys2Proof.Machine.execOwnGrant mb s
  | .ownForce mb => Sys2Proof.Machine.execOwnForce mb s
  | .ownKeyset mb => Sys2Proof.Machine.execOwnKeyset mb s
  | .info mb => Sys2Proof.Machine.execInfo mb s
  | .arrayMap mb => Sys2Proof.Machine.execArrayMap mb s
  | .bookplate mb => Sys2Proof.Machine.execBookplate mb s
  | .quote mb => Sys2Proof.Machine.execQuote mb s
  | .fnQuery mb => Sys2Proof.Machine.execFnQuery mb s
  | .fnDisable mb => Sys2Proof.Machine.execFnDisable mb s
  | .fnDrainEnd fn => Sys2Proof.Machine.execFnDrainEnd fn s
  | .fnEnable mb => Sys2Proof.Machine.execFnEnable mb s
  | .fnReset mb => Sys2Proof.Machine.execFnReset mb s
  | .fnResetDone fn => Sys2Proof.Machine.execFnResetDone fn s
  | .devReset mb => Sys2Proof.Machine.execDevReset mb s
  | .deviceReset => Sys2Proof.Machine.execDeviceReset s
  | .coreStoprec mb => Sys2Proof.Machine.execCoreStoprec mb s
  | .coreRestart mb => Sys2Proof.Machine.execCoreRestart mb s
  | .coreStop mb => Sys2Proof.Machine.execCoreStop mb s
  | .wdog mb => Sys2Proof.Machine.execWdog mb s
  | .dbgHalt mb => Sys2Proof.Machine.execDbgHalt mb s
  | .dbgResume mb => Sys2Proof.Machine.execDbgResume mb s
  | .pwMode mb => Sys2Proof.Machine.execPwMode mb s
  | .pwOpp mb => Sys2Proof.Machine.execPwOpp mb s
  | .pwGroup mb => Sys2Proof.Machine.execPwGroup mb s
  | .pwShareset mb => Sys2Proof.Machine.execPwShareset mb s
  | .pwRead mb => Sys2Proof.Machine.execPwRead mb s
  | .fabShelf mb => Sys2Proof.Machine.execFabShelf mb s
  | .fabLayout mb => Sys2Proof.Machine.execFabLayout mb s
  | .planWrite mb => Sys2Proof.Machine.execPlanWrite mb s
  | .planRead mb => Sys2Proof.Machine.execPlanRead mb s
  | .catRead mb => Sys2Proof.Machine.execCatRead mb s
  | .withdraw mb => Sys2Proof.Machine.execWithdraw mb s
  | .mbBind mb => Sys2Proof.Machine.execMbBind mb s
  | .mailboxBindingExpiry mb => Sys2Proof.Machine.execMailboxBindingExpiry mb s
  | .weedRead mb => Sys2Proof.Machine.execWeedRead mb s
  | .weedClear mb => Sys2Proof.Machine.execWeedClear mb s
  | .ftest mb => Sys2Proof.Machine.execFtest mb s
  | .standbySet mb => Sys2Proof.Machine.execStandbySet mb s
  | .hbmMode mb => Sys2Proof.Machine.execHbmMode mb s
  | .telemRead mb => Sys2Proof.Machine.execTelemRead mb s
  | .telemLatch mb => Sys2Proof.Machine.execTelemLatch mb s
  | .telemetryLatchTaken => Sys2Proof.Machine.execTelemetryLatchTaken s
  | .ledgerRead mb => Sys2Proof.Machine.execLedgerRead mb s
  | .fwUpdateBegin mb => Sys2Proof.Machine.execFwUpdateBegin mb s
  | .fwUpdateData mb => Sys2Proof.Machine.execFwUpdateData mb s
  | .fwUpdateEnd mb => Sys2Proof.Machine.execFwUpdateEnd mb s
  | .powerGood mv straps => Sys2Proof.Machine.execPowerGood mv straps s
  | .modResetN ns => Sys2Proof.Machine.execModResetN ns s
  | .pwrEnDeassert => Sys2Proof.Machine.execPwrEnDeassert s
  | .inputRemoved => Sys2Proof.Machine.execInputRemoved s
  | .firmwareVerify => Sys2Proof.Machine.execFirmwareVerify s
  | .curatorBoot ok => Sys2Proof.Machine.execCuratorBoot ok s
  | .calibration ok => Sys2Proof.Machine.execCalibration ok s
  | .hbmTraining bad => Sys2Proof.Machine.execHbmTraining bad s
  | .carrelZeroing bad => Sys2Proof.Machine.execCarrelZeroing bad s
  | .selfTest bad tests => Sys2Proof.Machine.execSelfTest bad tests s
  | .linkTrainingStage partners => Sys2Proof.Machine.execLinkTrainingStage partners s
  | .ready => Sys2Proof.Machine.execReady s
  | .recoveryLoader => Sys2Proof.Machine.execRecoveryLoader s
  | .hubBootFetch img => Sys2Proof.Machine.execHubBootFetch img s
  | .hubBootRetry img => Sys2Proof.Machine.execHubBootRetry img s
  | .hallRefEdge n => Sys2Proof.Machine.execHallRefEdge n s
  | .hallRefTimeCode bs => Sys2Proof.Machine.execHallRefTimeCode bs s
  | .hallRefLoss => Sys2Proof.Machine.execHallRefLoss s
  | .clearFaults => Sys2Proof.Machine.execClearFaults s
  | .capability => Sys2Proof.Machine.execCapability s
  | .otFaultLimit => Sys2Proof.Machine.execOtFaultLimit s
  | .vinOvFaultLimit => Sys2Proof.Machine.execVinOvFaultLimit s
  | .vinOvWarnLimit => Sys2Proof.Machine.execVinOvWarnLimit s
  | .vinUvWarnLimit => Sys2Proof.Machine.execVinUvWarnLimit s
  | .vinUvFaultLimit => Sys2Proof.Machine.execVinUvFaultLimit s
  | .statusWord => Sys2Proof.Machine.execStatusWord s
  | .statusInput => Sys2Proof.Machine.execStatusInput s
  | .statusTemperature => Sys2Proof.Machine.execStatusTemperature s
  | .readVin mv => Sys2Proof.Machine.execReadVin mv s
  | .readIin ma => Sys2Proof.Machine.execReadIin ma s
  | .readTemperature1 => Sys2Proof.Machine.execReadTemperature1 s
  | .readTemperature2 t => Sys2Proof.Machine.execReadTemperature2 t s
  | .readTemperature3 t => Sys2Proof.Machine.execReadTemperature3 t s
  | .readPin mw => Sys2Proof.Machine.execReadPin mw s
  | .pmbusRevision => Sys2Proof.Machine.execPmbusRevision s
  | .mfrId => Sys2Proof.Machine.execMfrId s
  | .mfrModel => Sys2Proof.Machine.execMfrModel s
  | .mfrSerial => Sys2Proof.Machine.execMfrSerial s
  | .extest cells => Sys2Proof.Machine.execExtest cells s
  | .samplePreload ext => Sys2Proof.Machine.execSamplePreload ext s
  | .idcode => Sys2Proof.Machine.execIdcode s
  | .bypass code => Sys2Proof.Machine.execBypass code s
  | .mbx dr => Sys2Proof.Machine.execMbx dr s
  | .tapReset => Sys2Proof.Machine.execTapReset s
  | .illegalInstruction c w => Sys2Proof.Machine.execIllegalInstruction c w s
  | .tldComplete c => Sys2Proof.Machine.execTldComplete c s
  | .meanSlack p k => Sys2Proof.Machine.execMeanSlack p k s
  | .undervoltageLockoutClear mv => Sys2Proof.Machine.execUndervoltageLockoutClear mv s
  | .inputPresent mv => Sys2Proof.Machine.execInputPresent mv s
  | .vinWarning mv => Sys2Proof.Machine.execVinWarning mv s
  | .imageSlotVerified => Sys2Proof.Machine.execImageSlotVerified s

end Sys2Proof.Machine
end

