-- ==== Sys2Proof/Safety.lean ====
section
/-! DEFINITION. Safety.lean: the terms the statements use: what a safe state is, when a core's instruction issues and in which
state its effect is computed, and what a frame leaves alone. -/

namespace Sys2Proof.Machine

/-- A safe state: memory is in its canonical form. A run is safe when every state of it is. -/
def State.safe (s : State) : Bool := Memory.wf s.mem

/-- The conditions under which core c issues an instruction of a kind: it runs and waits for no hall access, no redirection is
due, no event is taken first, no breakpoint stops it, and the tile queue is empty unless the kind may run beside it (06 R254;
07 R266; 08 R314; 03 R113, log 11). -/
def Core.issues (k : Core) (kind : IKind) : Bool :=
  k.ex.run == .running && k.ex.hwait.isNone && k.redirectNow.isNone && (k.eventFirst kind).isNone && (!k.bpMatch || k.ex.bpSkip)
    && (k.tile.queue.isEmpty || (kind == .tile && !k.ex.dbgStep && !k.bpMatch))

/-- The function that holds core c lets it take an instruction: it is enabled, or the instruction waits for hall answers already (15 R555). -/
def State.mayIssue (s : State) (c : CoreId) : Bool := vget s.cur.fns (coreFn c) .enabled == .enabled || !(s.core c).ex.hlog.isEmpty

/-- The state in which the effect of an instruction of core c is computed: s with what was due done, after the fetch at the PC. None where
core c does not issue, or the fetch raises a cause. -/
def State.issued (s0 : State) (c : CoreId) (kind : IKind) : Option State :=
  let s := ready s0 c
  if (s.core c).issues kind && s.mayIssue c then
    match fetchAt s c with
    | .ok _ s1 => some (s1.modCore c (fun k => k.dropRecords kind))
    | .error _ _ => none
  else none

/-- The state after an instruction of n bytes retires whose effect left u. -/
def State.done (u : State) (c : CoreId) (n : Nat) : State := retire u c ((u.core c).pc + n64 n) false

/-- An immediate of n bits, sign-extended, with an IMX prefix's 26 bits above it (06 R206). -/
def signedImm (x : Option (BitVec 26)) (n v : Nat) : U64 :=
  match x with
  | none => w64 (sx n v)
  | some h => w64 (sx (26 + n) (h.toNat <<< n + v))

/-- An immediate of n bits, zero-extended, with an IMX prefix's 26 bits above it (06 R206). -/
def plainImm (x : Option (BitVec 26)) (n v : Nat) : U64 :=
  match x with
  | none => n64 v
  | some h => n64 (h.toNat <<< n + v)

/-- Bytes of code of an instruction with or without a prefix word. -/
def codeBytes (x : Option (BitVec 26)) : Nat := if x.isSome then 8 else 4

/-- A state after an address register's increment, where the mode makes one (06 R207). -/
def State.incremented (s : State) (c : CoreId) (ab : Nat) (ea : EA) : State :=
  match ea.upd with
  | some v => s.modCore c (fun k => k.writeA ab v)
  | none => s

/-- Whether an effective address may be used for n bytes: aligned, its increment above the stack limit (06 R208, R230). -/
def Core.eaOk (k : Core) (ab : Nat) (ea : EA) (n : Nat) : Bool :=
  ea.addr.toNat % n == 0 && (match ea.upd with
    | some v => !k.slimFault ab v
    | none => true)

/-- A core after an exact result x is delivered to accumulator i: clamped or wrapped, with FXCTL.FXOV where it left 80 bits (04 R148). -/
def Core.accPut (k : Core) (i sato : Nat) (x : Int) : Core :=
  let r := accFit (k.satMode sato) x
  let k1 := { k with ex := { k.ex with acc := vput k.ex.acc i r.1 } }
  if r.2 then { k1 with num := { k1.num with fxctl := setBit k1.num.fxctl 3 true } } else k1

/-- A core with an accepted tile instruction at the end of its queue, which counts in INSTRET when it retires (03 R113). -/
def Core.queued (k : Core) (op : TileOp) (sem : Option Nat) : Core :=
  { k with tile := { k.tile with queue := k.tile.queue ++ [{ pc := k.pc, op := op, sem := sem, cnt := 0 }] },
           ex := { k.ex with instret := k.ex.instret - 1 } }

/-- The same for one that has been executed: it stands in the queue only behind others (03 R113). -/
def Core.behind (k : Core) (op : TileOp) : Core := if k.tile.queue = [] then k else k.queued op none

/-- The registers of a core that an instruction names: D, A, the vectors, the accumulators and the numeric state. -/
structure Core.sameRegs (k k' : Core) : Prop where
  d : k'.bank.d = k.bank.d
  a : k'.bank.a = k.bank.a
  sp : k'.rr.sp = k.rr.sp
  v : k'.vec.v = k.vec.v
  acc : k'.ex.acc = k.ex.acc
  num : k'.num = k.num
  tile : k'.tile = k.tile

/-- Every core other than c is as it was. -/
def State.othersSame (s t : State) (c : CoreId) : Prop := ∀ d : CoreId, d ≠ c → t.core d = s.core d

/-- A core at ring 0 outside any task: its stores to the device registers are neither translated nor held back (08 R285, R286, R310). -/
def Core.direct (k : Core) : Prop := k.ring = 0 ∧ k.accTask = none

/-- A packet of a type that port p accepts and delivers to this module, leaving u before the packet acts (11 R391, R394, R405, R432). -/
def State.takes (s : State) (p : PortId) (k : Packet) (ty : BitVec 5) (u : State) : Prop := k.ty = ty ∧ receive s p k = (u, true)

end Sys2Proof.Machine
end

