-- ==== Sys2Proof/Certificates/Slice0/Obligations.lean ====
section
/-! DEFINITION. Certificates/Slice0/Obligations.lean: the statements about the machine, one definition each, listed in OBLIGATIONS.json. -/

section
open Sys2Proof Sys2Proof.Machine

/-- A step takes the command at the front of the queue and is its effect on the state with the queue's rest; on an empty queue the module idles
and 1 ns passes (the queue and the idle tick are the model's choice, log 2). -/
def Obligations.StepRunsFront : Prop :=
  (∀ (s : State) (i : Instr) (rest : List Instr), s.pending = i :: rest → step s = exec i { s with pending := rest }) ∧
  (∀ s : State, s.pending = [] → step s = .next (s.advance 1))

/-- Every step of every command keeps memory in its canonical form: addresses strictly rising, no entry equal to what an unlisted address reads
as (08 R294; the form is the model's, log 3). -/
def Obligations.StepKeepsMemory : Prop := ∀ s t : State, s.safe = true → step s = .next t → t.safe = true

/-- The module right after reset: safe, nothing queued, no time passed, every core stopped in ring 0 and bank B0 with GM 1, BANKS.BUSY 0x1, its
ELINK not valid and its A, D and vector registers zero (06 R199; 07 R260), every function enabled, no owner, no link up (11 R389; 15 R550,
R554). That the cores stand stopped before READY is the model's reading (log 5). -/
def Obligations.ResetState : Prop :=
  State.reset.safe = true ∧ State.reset.pending = [] ∧ State.reset.now = 0 ∧ State.reset.plat.stage = 0 ∧
  (∀ c : CoreId, let k := State.reset.core c
    k.ex.run = .stopped .command ∧ k.ring = 0 ∧ k.rr.cur = 0 ∧ k.bank.gm = true ∧ k.rr.busy = 1 ∧ bit k.bank.elink 5 = false ∧
    (∀ i, k.readD i = 0 ∧ k.readA i = 0) ∧ k.openTask = none) ∧
  (∀ n, 1 ≤ n → n ≤ 9 → State.reset.fnState n = .enabled) ∧ State.reset.cur.owner = none ∧
  (∀ p : PortId, (State.reset.port p).up = false)

/-- Every step takes exactly the front of the queue, and time never goes back (the queue and the clock of the model, log 2). -/
def Obligations.StepKeepsQueueAndTime : Prop := ∀ s t : State, step s = .next t → t.pending = s.pending.tail ∧ s.now ≤ t.now

/-- What stands around every instruction's own effect (06 R200, R253): a core with no tile instruction at work and no task to commit comes to it
as it is; the fetch leaves memory, the rest of the module, the other cores and the core's registers as they are, but for what poison does
(08 R293); retiring moves the PC past the instruction's words, counts it and halts a core that steps, and leaves everything else named. -/
def Obligations.IssueAndRetireFrame : Prop :=
  (∀ (s : State) (c : CoreId), (s.core c).tile.queue = [] → s.dueTasks c = [] → ready s c = s) ∧
  (∀ (s u : State) (c : CoreId) (kind : IKind), s.issued c kind = some u →
    let v := ready s c
    u.mem = v.mem ∧ u.poison = v.poison ∧ u.barriers = v.barriers ∧ u.gather = v.gather ∧ u.hall = v.hall ∧
    u.pow = v.pow ∧ u.cur = v.cur ∧ u.plat = v.plat ∧ u.now = v.now ∧ u.pending = v.pending ∧ (v.core c).sameRegs (u.core c) ∧
    (u.core c).str = (v.core c).str ∧ v.othersSame u c ∧
    (v.poison = [] → u.fab = v.fab ∧ u.led = v.led ∧ (u.core c).rr = (v.core c).rr)) ∧
  (∀ (u : State) (c : CoreId) (n : Nat), (u.core c).ex.dbgStep = false →
    let t := u.done c n
    t.mem = u.mem ∧ t.poison = u.poison ∧ t.barriers = u.barriers ∧ t.gather = u.gather ∧ t.fab = u.fab ∧ t.hall = u.hall ∧ t.led = u.led ∧
    t.pow = u.pow ∧ t.cur = u.cur ∧ t.plat = u.plat ∧ t.now = u.now ∧ t.pending = u.pending ∧ (u.core c).sameRegs (t.core c) ∧
    (t.core c).pc = (u.core c).pc + n64 n ∧ (t.core c).ring = (u.core c).ring ∧ (t.core c).rr.cur = (u.core c).rr.cur ∧
    (t.core c).bank.gm = (u.core c).bank.gm ∧ (t.core c).ex.instret = (u.core c).ex.instret + 1 ∧ (t.core c).mm = (u.core c).mm ∧
    (t.core c).str = (u.core c).str ∧ u.othersSame t c) ∧
  (∀ (u : State) (c : CoreId) (n : Nat), (u.core c).ex.dbgStep = true → (u.core c).ex.run = .running → (u.core c).tile.queue = [] →
    ((u.done c n).core c).ex.run = .halted)

/-- CSEL (06 R217): it writes D[RA] to D[RD] when D[RC] is non-zero, and D[RB] otherwise, and the next instruction follows. -/
def Obligations.CselSelects : Prop :=
  ∀ (s u : State) (c : CoreId) (f : BitVec 26), s.issued c .plain = some u → fld f 0 10 = 0 →
    let k := u.core c
    let v := if k.readD (fld f 18 4) ≠ 0 then k.readD (fld f 14 4) else k.readD (fld f 10 4)
    let t := (u.modCore c (fun k => k.writeD (fld f 22 4) v)).done c 4
    exec (.csel c f) s = .next t ∧ (t.core c).readD (fld f 22 4) = v ∧ ∀ i, i < 16 → i ≠ fld f 22 4 → (t.core c).readD i = k.readD i

/-- Majors 0x00 and 0x01 and NOP (06 R205, R206, R211, R213): every listed FUNCT with its operands writes its result to D[RD] and
the next instruction follows; nothing else of the fetched state changes. An IMX prefix widens the immediate to 40 bits. -/
def Obligations.IntegerInstructionsComplete : Prop :=
  (∀ (s u : State) (c : CoreId) (f : BitVec 26) (v : U64), s.issued c .plain = some u → fld f 0 8 = 0 →
    (0x16 ≤ fld f 8 6 → fld f 14 4 = 0) →
    intOp (fld f 8 6) ((u.core c).readD (fld f 18 4)) ((u.core c).readD (fld f 14 4)) = some v →
    exec (.integerRegisterOp c f) s = .next ((u.modCore c (fun k => k.writeD (fld f 22 4) v)).done c 4)) ∧
  (∀ (s u : State) (c : CoreId) (x : Option (BitVec 26)) (f : BitVec 26) (v : U64), s.issued c .plain = some u →
    (4 ≤ fld f 14 4 → fld f 14 4 ≤ 6 → fld (plainImm x 14 (fld f 0 14)) 6 58 = 0) →
    (fld f 14 4 = 7 → fld f 18 4 = 0) →
    immOp (fld f 14 4) ((u.core c).readD (fld f 18 4))
      (signedImm x 14 (fld f 0 14)) (plainImm x 14 (fld f 0 14)) = some v →
    exec (.integerImmediateOp c x f) s =
      .next ((u.modCore c (fun k => k.writeD (fld f 22 4) v)).done c (codeBytes x))) ∧
  (∀ (s u : State) (c : CoreId), s.issued c .plain = some u → exec (.nop c) s = .next (u.done c 4))

/-- Division (06 R212): the quotient is rounded toward zero and the remainder takes the sign of the dividend; a divisor of 0 gives -1, 2^64 - 1,
the dividend and the dividend, and -2^63 by -1 gives -2^63 and 0; the instruction completes with that result in D[RD] and raises nothing. -/
def Obligations.DivisionCases : Prop :=
  ∀ (s u : State) (c : CoreId) (f : BitVec 26), s.issued c .plain = some u → fld f 0 8 = 0 → 0x0B ≤ fld f 8 6 → fld f 8 6 ≤ 0x0E →
    let a := (u.core c).readD (fld f 18 4)
    let b := (u.core c).readD (fld f 14 4)
    ∃ q, exec (.integerRegisterOp c f) s = .next ((u.modCore c (fun k => k.writeD (fld f 22 4) q)).done c 4) ∧
      (b = 0 → (fld f 8 6 = 0x0B → q.toInt = -1) ∧ (fld f 8 6 = 0x0C → q.toNat = 2 ^ 64 - 1) ∧ (0x0D ≤ fld f 8 6 → q = a)) ∧
      (a.toInt = -(2 ^ 63) → b.toInt = -1 → (fld f 8 6 = 0x0B → q.toInt = -(2 ^ 63)) ∧ (fld f 8 6 = 0x0D → q.toInt = 0)) ∧
      (b ≠ 0 →
        (fld f 8 6 = 0x0B → ¬(a.toInt = -(2 ^ 63) ∧ b.toInt = -1) → q.toInt = Int.tdiv a.toInt b.toInt) ∧
        (fld f 8 6 = 0x0C → q.toNat = a.toNat / b.toNat) ∧
        (fld f 8 6 = 0x0D → q.toInt = a.toInt - b.toInt * Int.tdiv a.toInt b.toInt ∧ (q.toInt ≠ 0 → (q.toInt < 0 ↔ a.toInt < 0))) ∧
        (fld f 8 6 = 0x0E → q.toNat = a.toNat % b.toNat))

/-- Majors 0x02, 0x03 and 0x04 (06 R214): every listed address instruction writes its result, an A15 result under the stack check of
R230; the rest of the fetched state is as it was. -/
def Obligations.AddressInstructionsComplete : Prop :=
  (∀ (s u : State) (c : CoreId) (f : BitVec 26), s.issued c .plain = some u → fld f 0 8 = 0 →
    let a := (u.core c).readA (fld f 18 4)
    let bD := (u.core c).readD (fld f 14 4)
    let bA := (u.core c).readA (fld f 14 4)
    let rd := fld f 22 4
    (∀ v, (fld f 8 6 = 0x00 ∧ v = a + bD) ∨ (fld f 8 6 = 0x01 ∧ v = a - bD) → (u.core c).slimFault rd v = false →
      exec (.addressOp c .reg none f) s = .next ((u.modCore c (fun k => k.writeA rd v)).done c 4)) ∧
    (∀ v, (fld f 8 6 = 0x08 ∧ v = a - bA) ∨ (fld f 8 6 = 0x10 ∧ v = (if a = bA then 1 else 0)) ∨
        (fld f 8 6 = 0x11 ∧ v = (if a.toNat < bA.toNat then 1 else 0)) ∨ (fld f 8 6 = 0x12 ∧ v = (if a.toNat ≤ bA.toNat then 1 else 0)) →
      exec (.addressOp c .reg none f) s = .next ((u.modCore c (fun k => k.writeD rd v)).done c 4))) ∧
  (∀ (s u : State) (c : CoreId) (x : Option (BitVec 26)) (f : BitVec 26) (v : U64), s.issued c .plain = some u →
    let a := (u.core c).readA (fld f 18 4)
    let imm := signedImm x 14 (fld f 0 14)
    (fld f 14 4 = 0 ∧ v = a + imm) ∨ (fld f 14 4 = 1 ∧ v = a <<< fld imm 0 6) ∨ (fld f 14 4 = 2 ∧ v = a >>> fld imm 0 6) ∨
      (fld f 14 4 = 3 ∧ fld f 18 4 = 0 ∧ v = (u.core c).pc + imm) →
    (u.core c).slimFault (fld f 22 4) v = false →
    exec (.addressOp c .imm x f) s =
      .next ((u.modCore c (fun k => k.writeA (fld f 22 4) v)).done c (codeBytes x))) ∧
  (∀ (s u : State) (c : CoreId) (f : BitVec 26), s.issued c .plain = some u → fld f 0 8 = 0 → fld f 18 4 = 0 →
    (∀ v, (fld f 8 6 = 0x00 ∧ v = (u.core c).readD (fld f 14 4)) ∨ (fld f 8 6 = 0x02 ∧ v = (u.core c).readA (fld f 14 4)) →
      (u.core c).slimFault (fld f 22 4) v = false →
      exec (.addressOp c .move none f) s = .next ((u.modCore c (fun k => k.writeA (fld f 22 4) v)).done c 4)) ∧
    (fld f 8 6 = 0x01 → exec (.addressOp c .move none f) s =
      .next ((u.modCore c (fun k => k.writeD (fld f 22 4) (k.readA (fld f 14 4)))).done c 4)))

/-- Majors 0x05, 0x06, 0x07 and 0x15 (06 R205 to R209, R225): a load whose operand can be read writes it, sign- or zero-extended, and a store
whose operand can be written stores it, at the effective address of its mode; the increment of modes 10 and 11 is written back. An ECC error
that LD carries is counted or poisons its word before it (08 R293; the operand is the model's, log 77). -/
def Obligations.LoadsAndStoresComplete : Prop :=
  (∀ (s u u1 : State) (c : CoreId) (x : Option (BitVec 26)) (f : BitVec 26) (bs : List Byte), s.issued c .plain = some u →
    let k := u.core c
    let n := 2 ^ fld f 14 2
    let ab := fld f 18 4
    let ea := formEA (fld f 16 2) (k.readA ab) (signedImm x 13 (fld f 0 13)) (k.readD (fld f 9 4)) (fld f 7 2)
    (fld f 16 2 = 1 → x = none ∧ fld f 0 7 = 0) → k.eaOk ab ea n = true →
    (∀ (s0 : State) (errs : List MemErr), errs.foldl (memError c) s0 = s → (bit f 13 = true → n ≠ 8) → scalarLoad c ea.addr n u = .ok bs u1 →
      exec (.ld ⟨c, errs⟩ x f) s0 = .next (((u1.incremented c ab ea).modCore c (fun k =>
        k.writeD (fld f 22 4) (extend n (bit f 13) (leNat bs)))).done c (codeBytes x))) ∧
    (bit f 13 = false → scalarStore c ea.addr (leBytes n (k.readD (fld f 22 4)).toNat) u = .ok () u1 →
      exec (.st c x f) s = .next ((u1.incremented c ab ea).done c (codeBytes x))) ∧
    (bit f 13 = false → n = 8 → (2 ≤ fld f 16 2 → fld f 22 4 ≠ ab) → scalarLoad c ea.addr 8 u = .ok bs u1 →
      (u1.core c).slimFault (fld f 22 4) (n64 (leNat bs)) = false →
      exec (.ldaSta c x f) s = .next (((u1.incremented c ab ea).modCore c (fun k =>
        k.writeA (fld f 22 4) (n64 (leNat bs)))).done c (codeBytes x))) ∧
    (bit f 13 = true → n = 8 → scalarStore c ea.addr (leBytes 8 (k.readA (fld f 22 4)).toNat) u = .ok () u1 →
      exec (.ldaSta c x f) s = .next ((u1.incremented c ab ea).done c (codeBytes x)))) ∧
  (∀ (s u u1 : State) (c : CoreId) (f : BitVec 26) (bs : List Byte), s.issued c .plain = some u →
    let k := u.core c
    let n := 2 ^ fld f 13 2
    let ab := fld f 17 4
    let ea := formEA (fld f 15 2) (k.readA ab) (w64 (sx 12 (fld f 0 12))) (k.readD (fld f 8 4)) (fld f 6 2)
    (fld f 15 2 = 1 → fld f 0 6 = 0) → n ≠ 1 → k.eaOk ab ea n = true →
    (bit f 12 = false → scalarLoad c ea.addr n u = .ok bs u1 →
      exec (.fldFst c f) s = .next (((u1.incremented c ab ea).modCore c (fun k => k.writeF (fld f 21 5) (leNat bs))).done c 4)) ∧
    (bit f 12 = true → scalarStore c ea.addr (leBytes n (k.readF (fld f 21 5) (8 * n))) u = .ok () u1 →
      exec (.fldFst c f) s = .next ((u1.incremented c ab ea).done c 4)))

/-- Loads and stores of memory (06 R207, R208; 08 R285, R302): at ring 0 outside any task, LD of an aligned operand in memory writes its bytes,
least significant first, to D[RD] and changes no byte; ST writes the low bytes of D[RD] there and changes no other byte. -/
def Obligations.LoadsAndStoresOfMemory : Prop :=
  ∀ (s u : State) (c : CoreId) (f : BitVec 26), s.issued c .plain = some u → (u.core c).direct →
    let k := u.core c
    let n := 2 ^ fld f 14 2
    let ea := formEA (fld f 16 2) (k.readA (fld f 18 4)) (w64 (sx 13 (fld f 0 13))) (k.readD (fld f 9 4)) (fld f 7 2)
    let a := ea.addr.toNat
    (fld f 16 2 = 1 → fld f 0 7 = 0) → k.eaOk (fld f 18 4) ea n = true → memRange a n = true → u.carrelShut c a = false →
    ((bit f 13 = true → n ≠ 8) → ∃ t, exec (.ld ⟨c, []⟩ none f) s = .next t ∧
      (t.core c).readD (fld f 22 4) = extend n (bit f 13) (((List.range n).map (fun i => (u.byte (a + i)).toNat * 256 ^ i)).sum) ∧
      ∀ x, t.byte x = u.byte x) ∧
    (hitsLedger a n = false → bit f 13 = false → ∃ t, exec (.st c none f) s = .next t ∧
      (∀ i, i < n → (t.byte (a + i)).toNat = (k.readD (fld f 22 4)).toNat / 256 ^ i % 256) ∧
      ∀ x, x < a ∨ a + n ≤ x → t.byte x = u.byte x)

/-- Majors 0x08 to 0x0C (06 R205, R227 to R229): a branch goes to its target, the address of its word plus four times its displacement, when its
condition holds and to the next word otherwise; JMP and JMPR go to theirs. No register but the PC changes. -/
def Obligations.BranchesAndJumpsComplete : Prop :=
  (∀ (s u : State) (c : CoreId) (f : BitVec 26) (t : Bool), s.issued c .plain = some u →
    let a := (u.core c).readD (fld f 22 4)
    let b := (u.core c).readD (fld f 18 4)
    (fld f 15 3 = 0 ∧ t = decide (a = b)) ∨ (fld f 15 3 = 1 ∧ t = decide (a ≠ b)) ∨ (fld f 15 3 = 2 ∧ t = decide (a.toInt < b.toInt)) ∨
      (fld f 15 3 = 3 ∧ t = decide (b.toInt ≤ a.toInt)) ∨ (fld f 15 3 = 4 ∧ t = decide (a.toNat < b.toNat)) ∨
      (fld f 15 3 = 5 ∧ t = decide (b.toNat ≤ a.toNat)) →
    exec (.branch c f) s = .next (retire u c ((u.core c).pc + (if t then w64 (4 * sx 15 (fld f 0 15)) else 4)) false)) ∧
  (∀ (s u : State) (c : CoreId) (f : BitVec 26) (t : Bool), s.issued c .plain = some u →
    let a := (u.core c).readD (fld f 22 4)
    (fld f 20 2 = 0 ∧ t = decide (a = 0)) ∨ (fld f 20 2 = 1 ∧ t = decide (a ≠ 0)) ∨ (fld f 20 2 = 2 ∧ t = decide (a.toInt < 0)) ∨
      (fld f 20 2 = 3 ∧ t = decide (0 ≤ a.toInt)) →
    exec (.branchOnZero c f) s = .next (retire u c ((u.core c).pc + (if t then w64 (4 * sx 20 (fld f 0 20)) else 4)) false)) ∧
  (∀ (s u : State) (c : CoreId) (f : BitVec 26), s.issued c .plain = some u →
    exec (.jmp c f) s = .next (retire u c ((u.core c).pc + w64 (4 * sx 26 f.toNat)) false)) ∧
  (∀ (s u : State) (c : CoreId) (f : BitVec 23), s.issued c .plain = some u → fld f 0 19 = 0 →
    let t := (u.core c).readA (fld f 19 4)
    t.toNat % 4 = 0 → exec (.jmpr c f) s = .next (retire u c t false))

/-- CALL, CALLR and RET (06 R228, R229): a call stores the next address 8 bytes below A15, moves A15 there and goes to its target; RET reads the
word at A15, moves A15 up and goes there. -/
def Obligations.CallsAndReturnsComplete : Prop :=
  (∀ (s u u1 : State) (c : CoreId) (f : BitVec 26), s.issued c .plain = some u →
    let t := (u.core c).pc + w64 (4 * sx 26 f.toNat)
    let new := (u.core c).readA 15 - 8
    t.toNat % 4 = 0 → new.toNat % 8 = 0 → (u.core c).slimFault 15 new = false →
    scalarStore c new (leBytes 8 ((u.core c).pc + 4).toNat) u = .ok () u1 →
    exec (.call c f) s = .next (retire (u1.modCore c (fun k => k.writeA 15 new)) c t false)) ∧
  (∀ (s u u1 : State) (c : CoreId) (f : BitVec 23), s.issued c .plain = some u → fld f 0 19 = 0 →
    let t := (u.core c).readA (fld f 19 4)
    let new := (u.core c).readA 15 - 8
    t.toNat % 4 = 0 → new.toNat % 8 = 0 → (u.core c).slimFault 15 new = false →
    scalarStore c new (leBytes 8 ((u.core c).pc + 4).toNat) u = .ok () u1 →
    exec (.callr c f) s = .next (retire (u1.modCore c (fun k => k.writeA 15 new)) c t false)) ∧
  (∀ (s u u1 : State) (c : CoreId) (bs : List Byte), s.issued c .plain = some u →
    let sp := (u.core c).readA 15
    scalarLoad c sp 8 u = .ok bs u1 → (n64 (leNat bs)).toNat % 4 = 0 →
    exec (.ret c 0) s = .next (retire (u1.modCore c (fun k => k.writeA 15 (sp + 8))) c (n64 (leNat bs)) false))

/-- SCALAR_ATOMIC and AFADD (06 R215, R216): D[RD] receives the old value, sign-extended, and AFADD sets XSTAT.NONREP; in this module's
memory, outside tasks, poison and the ledger ring, the bytes at the address become those of the operation's new value and no other byte changes. -/
def Obligations.AtomicsComplete : Prop :=
  (∀ (s u u1 u2 : State) (c : CoreId) (f : BitVec 26) (pa : Nat) (bs : List Byte), s.issued c .plain = some u →
    let n := 2 ^ fld f 4 2
    let va := (u.core c).readA (fld f 18 4)
    let a := (u.core c).readD (fld f 14 4)
    let b := (u.core c).readD (fld f 10 4)
    let t := (if fld f 6 4 = 9 then u2.modCore c (fun k => { k with ex := { k.ex with nonrep := true } }) else u2).modCore c
      (fun k => k.writeD (fld f 22 4) (w64 (sx (8 * n) (leNat bs))))
    fld f 0 4 = 0 → fld f 6 4 ≤ 9 → 2 ≤ fld f 4 2 → va.toNat % n = 0 →
    (bit va 63 = true ∧ hallAtomic c (fld f 6 4) (fld f 4 2) a b va u = .ok bs u2) ∨
      (bit va 63 = false ∧ xlateAt c (u.core c).ring .store va u = .ok pa u1 ∧ isDevice pa = false ∧
        localAtomic c (fld f 6 4) n pa a b va u1 = .ok bs u2) →
    exec (.scalarAtomic c f) s = .next (t.done c 4) ∧
    (∀ hi lo, f = afaddBits hi lo → exec (.afadd c hi lo) s = .next (t.done c 4))) ∧
  (∀ (s : State) (c : CoreId) (op n pa v : Nat) (a b va : U64), memRange pa n = true → hitsLedger pa n = false →
    s.carrelShut c pa = false → (s.core c).accTask = none → s.poisoned pa n = false →
    atomicNew op n (leNat (s.bytes pa n)) (a.toNat % 2 ^ (8 * n)) (b.toNat % 2 ^ (8 * n)) = some v →
    ∃ t, localAtomic c op n pa a b va s = .ok (s.bytes pa n) t ∧ (∀ i, i < n → (t.byte (pa + i)).toNat = v / 256 ^ i % 256) ∧
      ∀ x, x < pa ∨ pa + n ≤ x → t.byte x = s.byte x)

/-- Major 0x0E and the CSR writes that are rows of their own (06 R205, R232, R247, R248; 04 R159; 07 R272, R274, R278, R283; 09 R362): a CSR that the
core has is read into D[RD], and written where its ring rule allows, with the effect of its register. -/
def Obligations.CsrAccessesComplete : Prop :=
  (∀ (s u : State) (c : CoreId) (f : BitVec 26) (v : U64), s.issued c .plain = some u → fld f 0 8 = 0 →
    csrRead u c (fld f 12 10) = some v →
    (fld f 8 4 = 1 → exec (.mtc c f) s = .next ((u.modCore c (fun k => k.writeD (fld f 22 4) v)).done c 4)) ∧
    (fld f 8 4 = 2 → csrMayWrite (u.core c).ring (fld f 12 10) ((u.core c).readD (fld f 22 4)) = true →
      exec (.mtc c f) s = .next ((csrWrite u c (fld f 12 10) ((u.core c).readD (fld f 22 4))).done c 4))) ∧
  (∀ (s u : State) (c : CoreId) (rd : BitVec 4), s.issued c .plain = some u →
    let v := (u.core c).readD rd.toNat
    let r := (u.core c).ring
    let ex (g : ExecRegs → ExecRegs) : State := u.modCore c (fun k => { k with ex := g k.ex })
    exec (.nchAmaxclr c rd) s = .next ((u.modCore c (fun k => { k with num := { k.num with
      chans := vput k.num.chans (fld v 0 6) { (vget k.num.chans (fld v 0 6) Counts.zero) with amax := 0 } } })).done c 4) ∧
    (r = 0 → exec (.glWord c rd) s = .next ((ex (fun x => glWordWrite x v)).done c 4)) ∧
    (r = 0 → exec (.glCtlCommit c rd) s = .next ((if bit v 0 then glCommit u c else u).done c 4)) ∧
    (r = 0 → exec (.glLock c rd) s = .next ((ex (fun x => { x with glLock := x.glLock ||| BitVec.ofNat 32 v.toNat })).done c 4)) ∧
    (r ≤ 2 → exec (.elinkWrite c rd) s =
      .next ((u.modCore c (fun k => k.setBank (fun b => { b with elink := elinkWrite b.elink v r }))).done c 4)) ∧
    (r ≤ 2 → exec (.stWrite c rd) s = .next ((u.modCore c (fun k => k.setBank (fun b => { b with gm := bit v 4 }))).done c 4)) ∧
    (r ≤ 1 → ∀ h : fld v 0 8 < 144, exec (.xsend c rd) s = .next ((u.modCore ⟨fld v 0 8, h⟩ (fun k => { k with
      rr := { k.rr with xpend := setBit k.rr.xpend 1 true } })).done c 4)) ∧
    (r ≤ 1 → 144 ≤ fld v 0 8 → exec (.xsend c rd) s = .next (u.done c 4)) ∧
    (r ≤ 1 → exec (.xtimerWrite c rd) s = .next ((u.modCore c (fun k => { k with
      rr := { k.rr with xtimer := v, xpend := setBit k.rr.xpend 0 false } })).done c 4)) ∧
    (r ≤ 1 → c.val < 128 → ∀ n : BitVec 3, exec (.semPairWrite c n rd) s = .next ((u.modCore c (fun k => { k with
      str := { k.str with sem := vput k.str.sem n.toNat (pairWrite (vget k.str.sem n.toNat 0) v) } })).done c 4)))

/-- Majors 0x10, 0x11 and 0x12 (06 R219 to R222; 04 R146 to R149): the exact product is added to, subtracted from or moved to the accumulator,
the memory forms also advance their two A registers by the operand size; accumulator arithmetic and moves deliver their exact result. -/
def Obligations.FixedPointComplete : Prop :=
  (∀ (s u : State) (c : CoreId) (f : BitVec 26) (x : Int), s.issued c .plain = some u →
    let k := u.core c
    let qf := fld f 13 2
    let n := 2 ^ (qf + 1)
    let acc := (vget k.ex.acc (fld f 23 3) 0).toInt
    fld f 0 6 = 0 → qf < 3 → fld f 8 2 < 3 →
    (∀ p, p = fxProduct qf (k.rndMode (fld f 6 2)) (sx (8 * n) (k.readD (fld f 19 4)).toNat) (sx (8 * n) (k.readD (fld f 15 4)).toNat) →
      (fld f 10 3 = 0 ∧ x = acc + p) ∨ (fld f 10 3 = 1 ∧ x = acc - p) ∨ (fld f 10 3 = 2 ∧ x = p) →
      exec (.fixedPointMac c f) s = .next ((u.modCore c (fun k => k.accPut (fld f 23 3) (fld f 8 2) x)).done c 4)) ∧
    (∀ (u1 u2 : State) (ba bb : List Byte) (p : Int),
      let pa := k.readA (fld f 19 4)
      let pb := k.readA (fld f 15 4)
      fld f 19 4 ≠ fld f 15 4 → pa.toNat % n = 0 → pb.toNat % n = 0 → k.slimFault (fld f 19 4) (pa + n64 n) = false →
      k.slimFault (fld f 15 4) (pb + n64 n) = false → scalarLoad c pa n u = .ok ba u1 → scalarLoad c pb n u1 = .ok bb u2 →
      p = fxProduct qf (k.rndMode (fld f 6 2)) (sx (8 * n) (leNat ba)) (sx (8 * n) (leNat bb)) →
      (fld f 10 3 = 3 ∧ x = acc + p) ∨ (fld f 10 3 = 4 ∧ x = acc - p) →
      exec (.fixedPointMac c f) s = .next ((u2.modCore c (fun k =>
        ((k.accPut (fld f 23 3) (fld f 8 2) x).writeA (fld f 19 4) (pa + n64 n)).writeA (fld f 15 4) (pb + n64 n))).done c 4))) ∧
  (∀ (s u : State) (c : CoreId) (f : BitVec 26) (x : Int), s.issued c .plain = some u →
    let k := u.core c
    let op := fld f 12 4
    let a := (vget k.ex.acc (fld f 23 3) 0).toInt
    let b := (vget k.ex.acc (fld f 20 3) 0).toInt
    let qf := fld f 10 2
    bit f 0 = false → fld f 8 2 < 3 → qf < 3 → (1 < op → fld f 20 3 = 0) → (op ≠ 7 → fld f 16 4 = 0 ∧ qf = 0) →
    (op ≠ 5 → op ≠ 6 → fld f 1 7 = 0) → fld f 1 7 ≤ 79 →
    (op = 0 ∧ x = a + b) ∨ (op = 1 ∧ x = a - b) ∨ (op = 2 ∧ x = 0) ∨ (op = 3 ∧ x = -a) ∨ (op = 4 ∧ x = if a < 0 then -a else a) ∨
      (op = 5 ∧ x = a * 2 ^ fld f 1 7) ∨ (op = 6 ∧ x = fdiv a (2 ^ fld f 1 7)) ∨
      (op = 7 ∧ x = sx (8 * 2 ^ (qf + 1)) (k.readD (fld f 16 4)).toNat * 2 ^ (if qf = 0 then 48 else if qf = 1 then 32 else 0)) →
    exec (.accumulatorArithmetic c f) s = .next ((u.modCore c (fun k => k.accPut (fld f 23 3) (fld f 8 2) x)).done c 4)) ∧
  (∀ (s u : State) (c : CoreId) (f : BitVec 26), s.issued c .plain = some u →
    let k := u.core c
    let i := fld f 19 3
    let a := vget k.ex.acc i 0
    let rd := fld f 22 4
    let put (v : BitVec 80) : State := u.modCore c (fun k => { k with ex := { k.ex with acc := vput k.ex.acc i v } })
    fld f 0 10 = 0 → fld f 17 2 < 3 → fld f 15 2 < 3 → (fld f 10 3 ≠ 0 → fld f 13 6 = 0) →
    (fld f 10 3 = 0 → ∀ r, r = fxExtract (k.satMode (fld f 15 2)) (k.rndMode (fld f 13 2)) a.toInt (8 * 2 ^ (fld f 17 2 + 1) - 1) →
      exec (.accumulatorMove c f) s = .next ((u.modCore c (fun k =>
        let k1 := k.writeD rd (w64 r.1)
        if r.2 then { k1 with num := { k1.num with fxctl := setBit k1.num.fxctl 3 true } } else k1)).done c 4)) ∧
    (fld f 10 3 = 1 → exec (.accumulatorMove c f) s = .next ((u.modCore c (fun k => k.writeD rd (n64 (a.toNat % 2 ^ 64)))).done c 4)) ∧
    (fld f 10 3 = 2 → exec (.accumulatorMove c f) s =
      .next ((u.modCore c (fun k => k.writeD rd (w64 (sx 16 (a.toNat >>> 64))))).done c 4)) ∧
    (fld f 10 3 = 3 → exec (.accumulatorMove c f) s =
      .next ((put (BitVec.ofNat 80 ((a.toNat >>> 64) <<< 64 + (k.readD rd).toNat))).done c 4)) ∧
    (fld f 10 3 = 4 → exec (.accumulatorMove c f) s =
      .next ((put (BitVec.ofNat 80 (fld (k.readD rd) 0 16 <<< 64 + a.toNat % 2 ^ 64))).done c 4)))

/-- Majors 0x14 and 0x16 (06 R224, R226; 04 R134): the operation's result is written to F[FD], or a compare's and a conversion's integer to
D[RD], and its flags are added to NUM_FLAGS. -/
def Obligations.ScalarFloatComplete : Prop :=
  (∀ (s u : State) (c : CoreId) (f : BitVec 26), s.issued c .plain = some u →
    let k := u.core c
    let fn := fld f 6 5
    let fm := fmt14 (fld f 4 2)
    let a := k.readF (fld f 16 5) fm.width
    let b := k.readF (fld f 11 5) fm.width
    fld f 0 4 = 0 → fn ≤ 0x14 → fn ≠ 0x13 → (fld f 4 2 = 1 → fn < 0x0A ∨ 0x0F < fn) →
    (0x10 ≤ fn → fn ≤ 0x12 → fld f 21 5 < 16 → exec (.scalarFpOp c f) s = .next ((u.modCore c (fun k =>
      (k.raiseFlags (fpCompare fn fm a b).2).writeD (fld f 21 5) (if (fpCompare fn fm a b).1 then 1 else 0))).done c 4)) ∧
    (fn < 0x10 ∨ 0x12 < fn → ∀ r, r = fpArith fn fm k.vrm (k.readF (fld f 21 5) fm.width) a b →
      exec (.scalarFpOp c f) s = .next ((u.modCore c (fun k => (k.raiseFlags r.2).writeF (fld f 21 5) r.1)).done c 4))) ∧
  (∀ (s u : State) (c : CoreId) (f : BitVec 26), s.issued c .plain = some u →
    let k := u.core c
    let op := fld f 4 4
    let dst := fld f 21 5
    let src := fld f 16 5
    let v := decodeF (fmt16 (fld f 8 4)) (k.readF src (fmt16 (fld f 8 4)).width)
    fld f 0 4 = 0 → fmtOk16 (fld f 12 4) = true → fmtOk16 (fld f 8 4) = true →
    (op = 0 → ∀ r, r = deliver (fmt16 (fld f 12 4)) k.vrm v →
      exec (.fpMoveConvert c f) s = .next ((u.modCore c (fun k => (k.raiseFlags r.2).writeF dst r.1)).done c 4)) ∧
    (op = 1 → exec (.fpMoveConvert c f) s = .next ((u.modCore c (fun k => k.writeF dst (k.readD (src % 16)).toNat)).done c 4)) ∧
    (op = 2 → exec (.fpMoveConvert c f) s = .next ((u.modCore c (fun k => k.writeD (dst % 16) (n64 (k.readF src 64)))).done c 4)) ∧
    (op = 3 → ∀ r, r = fToInt k.vrm v →
      exec (.fpMoveConvert c f) s = .next ((u.modCore c (fun k => (k.raiseFlags r.2).writeD (dst % 16) r.1)).done c 4)) ∧
    (op = 4 → ∀ r, r = deliver (fmt16 (fld f 12 4)) k.vrm (FV.ofInt (k.readD (src % 16)).toInt) →
      exec (.fpMoveConvert c f) s = .next ((u.modCore c (fun k => (k.raiseFlags r.2).writeF dst r.1)).done c 4)))

/-- RPT, RPTI and GLOSS (06 R234 to R238, R243, R245, R249, R253): a repeat executes its word COUNT times, one iteration after another, and
counts each in INSTRET once; RPTI counts RCNT down. A gloss executes the micro-ops of its entry in order, its temporaries zero before and after. -/
def Obligations.RepeatsAndGlossesComplete : Prop :=
  (∀ (r : Bool) (s u : State) (c : CoreId) (p : BitVec 25) (x : Option (BitVec 26)) (w : BitVec 32) (n : Nat) (σ ρ : Nat → State),
    s.issued c (.rep r) = some u →
    let k := u.core c
    let resumed := k.ex.afterRte && bit k.ex.rstat 0 && bit k.ex.rstat 1 == r
    fld p 7 13 = 0 → (bit p 24 = false → fld p 20 4 = 0 ∧ (r = false → fld p 0 7 ≤ 64)) → repAllowed x w = true →
    n = (if resumed then k.ex.rcnt.toNat else if bit p 24 then (k.readD (fld p 20 4)).toNat else fld p 0 7) →
    n ≤ (if r then 2 ^ 32 - 1 else 64) →
    σ 0 = (if r = true ∧ n ≠ 0 then u.modCore c (fun k => { k with ex := { k.ex with rcnt := BitVec.ofNat 32 n } }) else u) →
    (∀ i < n, repBody c x w (σ i) = .ok () (ρ i)) →
    (∀ i < n, σ (i + 1) = (ρ i).modCore c (fun k => { k with ex := { k.ex with
      instret := k.ex.instret + 1, rcnt := if r then BitVec.ofNat 32 (n - 1 - i) else k.ex.rcnt } })) →
    (∀ i, r = true → i + 1 < n → ((σ (i + 1)).core c).eligible = none ∧ ((σ (i + 1)).core c).ex.dbgStep = false) →
    let t := ((σ n).modCore c (fun k => { k with ex := { k.ex with
      rstat := if resumed then setBit k.ex.rstat 0 false else k.ex.rstat, instret := k.ex.instret - 1 } })).done c (if x.isSome then 12 else 8)
    (r = true → exec (.rpti c p x w) s = .next t) ∧ (r = false → exec (.rpt c p x w) s = .next t)) ∧
  (∀ (s u : State) (c : CoreId) (f : BitVec 26) (σ : Nat → State), s.issued c .plain = some u →
    let h := vget (u.core c).ex.glTab (17 * fld f 21 5) 0
    let temps (t : State) : State := t.modCore c (fun k => { k with ex := { k.ex with gtmp := Vector.replicate 8 0 } })
    bit h 4 = true → σ 0 = temps u →
    (∀ i ≤ fld h 0 4, microOp c f (vget ((σ i).core c).ex.glTab (17 * fld f 21 5 + i + 1) 0) (σ i) = .ok () (σ (i + 1))) →
    exec (.gloss c f) s = .next ((temps (σ (fld h 0 4 + 1))).done c 4))

/-- CALLG and RETG (07 R261 to R263, R281): a gate call from a permitted ring enters the gate's ring at its entry point, the return address and
the caller's ring below the new stack pointer; RETG takes both from the stack and returns to an equal or outer ring. -/
def Obligations.GateCallsComplete : Prop :=
  (∀ (s u u2 u3 : State) (c : CoreId) (f : BitVec 22), s.issued c .plain = some u →
    let k := u.core c
    let r := k.ring
    let g := if bit f 21 then fld (k.readD (fld f 17 4)) 0 8 else fld f 9 8
    let at' := fld k.rr.gatebase 12 36 <<< 12 + 16 * g
    let e0 := n64 (leNat (u.bytes at' 8))
    let e1 := n64 (leNat (u.bytes (at' + 8) 8))
    let tring := fld e0 0 2
    let new := (if bit e1 1 then n64 (fld e1 4 60 <<< 4) else vget k.rr.sp tring 0) - 16
    let u1 := (l2Touch u at' 16 false).modCore c (fun k => k.setBank (fun b => { b with ring := BitVec.ofNat 2 tring }))
    fld f 0 9 = 0 → (bit f 21 = true → fld f 9 8 = 0) → memRange at' 16 = true → u.poisoned at' 16 = false →
    bit e1 0 = true → r ≤ fld e1 2 2 → tring ≤ r → new.toNat % 8 = 0 → (vget k.rr.slim tring 0).toNat ≤ new.toNat →
    scalarStore c new (leBytes 8 (k.pc + 4).toNat) u1 = .ok () u2 → scalarStore c (new + 8) (leBytes 8 (r + g <<< 2)) u2 = .ok () u3 →
    exec (.callg c f) s = .next (retire (u3.modCore c (fun k => k.writeA 15 new)) c (n64 (fld e0 2 62 <<< 2)) false)) ∧
  (∀ (s u u1 u2 : State) (c : CoreId) (b0 b1 : List Byte), s.issued c .plain = some u →
    let sp := (u.core c).readA 15
    let p := leNat b1 % 4
    scalarLoad c sp 8 u = .ok b0 u1 → scalarLoad c (sp + 8) 8 u1 = .ok b1 u2 → (u.core c).ring ≤ p → (n64 (leNat b0)).toNat % 4 = 0 →
    exec (.retg c 0) s = .next (retire (u2.modCore c (fun k =>
      (k.writeA 15 (sp + 16)).setBank (fun b => { b with ring := BitVec.ofNat 2 p }))) c (n64 (leNat b0)) false))

/-- Taking an exception (00 R11; 07 R265, R267 to R269): an illegal word raises cause 0x01 with the word as EINFO at the ring its route
and the running ring give; entry to ring t writes the resume address to the interrupted bank, ECAUSE, EINFO, ELINK, ST and PC of bank t and BANKS.BUSY,
after a spill of the 512-byte frame where bank t is busy; every A and D register keeps its value. -/
def Obligations.ExceptionEntry : Prop :=
  (∀ (s u : State) (c : CoreId) (w : BitVec 32), s.issued c .plain = some u → wordIllegal c w = true → (u.core c).tile.queue = [] →
    (u.core c).bank.gm = false →
    exec (.illegalInstruction c w) s = .next (enterRing u c (min ((u.core c).route 1) (u.core c).ring) 1 0 false (n64 w.toNat) (u.core c).pc)) ∧
  (∀ (s : State) (c : CoreId) (t cause subc : Nat) (async : Bool) (info p : U64), t < 3 → bit (s.core c).rr.busy t = false →
    t ≠ (s.core c).rr.cur.toNat →
    let k := s.core c
    let r := enterRing s c t cause subc async info p
    let k' := r.core c
    let b := vget k'.rr.banks t Bank.reset
    k'.rr.cur.toNat = t ∧ bit k'.rr.busy t = true ∧ b.ring.toNat = t ∧ b.gm = true ∧ b.pc = vget k.rr.xvec t 0 ∧
      b.ecause = n64 (cause % 256 + (subc % 256) <<< 8 + (if async then 0x10000 else 0)) ∧ b.einfo = info ∧
      b.elink = n64 (k.rr.cur.toNat + k.ring <<< 2 + 0x20) ∧ (vget k'.rr.banks k.rr.cur.toNat Bank.reset).pc = p ∧
      (∀ i < 4, (vget k'.rr.banks i Bank.reset).a = (vget k.rr.banks i Bank.reset).a ∧
        (vget k'.rr.banks i Bank.reset).d = (vget k.rr.banks i Bank.reset).d) ∧
      k'.rr.sp = k.rr.sp ∧ k'.rr.ssp = k.rr.ssp ∧ k'.vec = k.vec ∧ k'.ex.acc = k.ex.acc ∧ k'.num = k.num ∧ r.mem = s.mem ∧
      s.othersSame r c) ∧
  (∀ (s : State) (c : CoreId) (t cause subc : Nat) (async : Bool) (info p : U64), bit (s.core c).rr.busy t = true →
    let k := s.core c
    let top := (vget k.rr.ssp t 0).toNat
    512 + (vget k.rr.sslim t 0).toNat ≤ top → memRange (top - 512) 512 = true → hitsLedger (top - 512) 512 = false →
    let s1 := s.setCore c (k.setBank (fun b => { b with pc := p }))
    let fr := frameBytes (vget (s1.core c).rr.banks t Bank.reset) t
    enterRing s c t cause subc async info p =
      (homeWrite s1 (some c) none (top - 512) fr).modCore c (fun k =>
        ({ k with rr := { k.rr with ssp := vput k.rr.ssp t (n64 (top - 512)) } }.enter t cause subc async info p true).syncMask s.now))

/-- The interrupted context and the mask bit (07 R270 to R274, R281): MFB reads and MTB writes a register of the linked or the named bank or of the
frame, GMS and GMC write ST.GM, and RTE makes the linked context current: from the frame at SSP where ELINK.SPILLED is 1, else from its bank. -/
def Obligations.ContextMovesComplete : Prop :=
  (∀ (s u : State) (c : CoreId), s.issued c .plain = some u → (u.core c).ring ≤ 2 →
    exec (.gms c 0) s = .next ((u.modCore c (fun k => k.setBank (fun b => { b with gm := true }))).done c 4) ∧
    exec (.gmc c 0) s = .next ((u.modCore c (fun k => k.setBank (fun b => { b with gm := false }))).done c 4)) ∧
  (∀ (s u u1 : State) (c : CoreId) (f : BitVec 22) (b : Nat) (v : U64) (bs : List Byte), s.issued c .plain = some u →
    let k := u.core c
    let sel := fld f 12 6
    fld f 0 9 = 0 → sel ≤ 36 → sel ≠ 15 →
    ((bit f 11 = true ∧ b = fld f 9 2 ∧ b ≠ k.rr.cur.toNat ∧ k.ring = 0) ∨ (bit f 11 = false ∧ fld f 9 2 = 0 ∧ k.ring ≤ 2 ∧
        bit k.bank.elink 5 = true ∧ k.linked = .bank b) →
      ((vget k.rr.banks b Bank.reset).sel b sel = some v →
        exec (.mfb c f) s = .next ((u.modCore c (fun k => k.writeD (fld f 18 4) v)).done c 4)) ∧
      exec (.mtb c f) s = .next (retire (u.modCore c (fun k =>
        let w := (vget k.rr.banks b Bank.reset).mtb sel k.ring (k.readD (fld f 18 4)) (b == k.rr.cur.toNat)
        { k with rr := { k.rr with banks := vput k.rr.banks b w } })) c
        (if b = k.rr.cur.toNat ∧ sel = 33 then setFld (k.readD (fld f 18 4)) 0 2 0 else k.pc + 4) false)) ∧
    (bit f 11 = false → fld f 9 2 = 0 → k.ring ≤ 2 → bit k.bank.elink 5 = true →
      let pa := (vget k.rr.ssp k.rr.cur.toNat 0).toNat
      let a := pa + frameOff sel
      k.linked = .frame pa →
      (memLoad c a 8 (n64 a) u = .ok bs u1 →
        exec (.mfb c f) s = .next ((u1.modCore c (fun k => k.writeD (fld f 18 4) (n64 (leNat bs)))).done c 4)) ∧
      (sel ≠ 34 → sel ≠ 35 → memRange a 8 = true →
        memStore c a (leBytes 8 (frameMtb (n64 (leNat (u.bytes a 8))) (k.readD (fld f 18 4)) sel k.ring).toNat) (n64 a) (l2Touch u a 8 false) = .ok () u1 →
        exec (.mtb c f) s = .next (retire u1 c (k.pc + 4) false)) ∧
      (sel = 34 ∨ sel = 35 → memRange a 8 = true → exec (.mtb c f) s = .next (retire (l2Touch u a 8 false) c (k.pc + 4) false))) ∧
    (bit f 11 = false → fld f 9 2 = 0 → k.ring ≤ 2 → bit k.bank.elink 5 = false →
      exec (.mfb c f) s = .next ((u.modCore c (fun k => k.writeD (fld f 18 4) 0)).done c 4) ∧
      exec (.mtb c f) s = .next (retire u c (k.pc + 4) false))) ∧
  (∀ (s u : State) (c : CoreId), s.issued c .rte = some u →
    let k := u.core c
    let t := k.rr.cur.toNat
    let e := k.bank.elink
    let b := fld e 0 2
    let pa := (vget k.rr.ssp t 0).toNat
    let fb := bankOfFrame (fun i => n64 (leNat (u.bytes (pa + 8 * i) 8)))
    let target := if b = t then fb else vget k.rr.banks b Bank.reset
    let now := BitVec.ofNat 3 (1 <<< b)
    k.ring ≤ 2 → bit e 5 = true → k.ring ≤ target.ring.toNat → fld e 2 2 ≤ target.ring.toNat →
    (bit e 4 = false → b ≠ t → exec (.rte c 0) s = .next (retire (u.modCore c (fun k =>
      let k1 := k.setBank (fun x => { x with elink := setBit x.elink 5 false })
      { k1 with rr := { k1.rr with busy := (k.rr.busy &&& ~~~(BitVec.ofNat 3 (1 <<< t))) ||| now, cur := BitVec.ofNat 2 b } })) c target.pc true)) ∧
    (bit e 4 = true → (vget k.rr.sslim t 0).toNat ≤ pa → memRange pa 512 = true → u.poisoned pa 512 = false →
      exec (.rte c 0) s = .next (retire ((l2Touch u pa 512 false).modCore c (fun k => { k with rr := { k.rr with
        banks := vput k.rr.banks t fb, ssp := vput k.rr.ssp t (n64 (pa + 512)), cur := BitVec.ofNat 2 b, busy := k.rr.busy ||| now } })) c target.pc true)))

/-- Entry and return (07 R267, R273): after entry to a ring t whose bank is free, RTE at once makes the interrupted bank current again, with its PC
the resume address and its ring and GM as they were, every A and D register as before the entry, and BANKS.BUSY as before it with the bit of the
bank that is current again. -/
def Obligations.EntryThenReturnRestores : Prop :=
  ∀ (s u : State) (c : CoreId) (t cause subc : Nat) (async : Bool) (info p : U64), t < 3 → t ≤ (s.core c).ring →
    bit (s.core c).rr.busy t = false → t ≠ (s.core c).rr.cur.toNat →
    (enterRing s c t cause subc async info p).issued c .rte = some u →
    let k := s.core c
    ∃ v, exec (.rte c 0) (enterRing s c t cause subc async info p) = .next v ∧ (v.core c).rr.cur = k.rr.cur ∧ (v.core c).pc = p ∧
      (v.core c).ring = k.ring ∧ (v.core c).bank.gm = k.bank.gm ∧ (v.core c).rr.busy = k.rr.busy ||| BitVec.ofNat 3 (1 <<< k.rr.cur.toNat) ∧ (v.core c).rr.sp = k.rr.sp ∧
      (∀ i < 4, (vget (v.core c).rr.banks i Bank.reset).a = (vget k.rr.banks i Bank.reset).a ∧
        (vget (v.core c).rr.banks i Bank.reset).d = (vget k.rr.banks i Bank.reset).d)

/-- WAIT and the events of a core (06 R254; 07 R266, R275, R278, R281; 08 R314): each completes with its effect under the condition it names, on
the core as its tile unit and its tasks have come up to now. -/
def Obligations.CoreEventsComplete : Prop :=
  (∀ (s u : State) (c : CoreId), s.issued c .plain = some u → (u.core c).rr.xpend ≠ 0 → exec (.wait c 0) s = .next (u.done c 4)) ∧
  (∀ (s : State) (c : CoreId), let v := ready s c
    let k := v.core c
    k.atBoundary = true → k.redirectNow = none →
    (k.eligible = none → k.tile.queue = [] → k.bpMatch = true → k.ex.bpSkip = false → exec (.breakpointHalt c) s = .next (haltCore v c)) ∧
    (∀ cause, k.eligible = some cause → k.held = false →
      (k.ex.afterRte = true → bit k.ex.rstat 0 = false ∧ bit k.vec.vresume 24 = false) → exec (.takeAsyncEvent c) s =
      .next (enterRing (discardTiles v c) c (k.route cause) cause 0 true (k.asyncInfo cause)
        (match k.tile.queue with
         | e :: _ => e.pc
         | [] => k.pc)))) ∧
  (∀ (s : State) (c : CoreId), s.hall.once = true → (s.core c).rr.xtimer ≠ 0 → exec (.timerEvent c) s =
    .next ((s.toHall (s.core c).rr.xtimer).modCore c (fun k => { k with rr := { k.rr with xpend := setBit k.rr.xpend 0 true } }))) ∧
  (∀ (s : State) (c : CoreId) (t : Nat), (s.core c).ex.run = .running → (s.core c).ex.wdPosted = false → (s.core c).ex.maskFrom = some t →
    let s1 := s.advanceTo (t + s.cur.wdLimit + 1)
    exec (.watchdog c) s = .next (ownerNotice (s1.modCore c (fun k => { k with ex := { k.ex with wdPosted := true } })) 3 c.val
      (n64 ((s1.now - t) / 1000)) 0)) ∧
  (∀ (s : State) (c : CoreId) (a : U64), let v := ready s c
    (v.core c).ex.run = .running → (v.core c).ex.hwait = none → (v.core c).redirectNow = some a →
    ∃ t, exec (.taskAbortRedirect c) s = .next t ∧ (t.core c).pc = a ∧ (t.core c).ring = (v.core c).ring ∧
      (t.core c).rr.cur = (v.core c).rr.cur ∧ (t.core c).bank.gm = (v.core c).bank.gm ∧ (t.core c).mm.redirect = none ∧
      (t.core c).tile.queue = [] ∧ t.mem = v.mem ∧ v.othersSame t c)

/-- Major 0x2D (08 R290, R298, R300, R305, R306, R316): FENCE orders and changes nothing else; DCZL zeros a line and fills it into the L1D; PREF
fetches its line into the L1D, or with L2ONLY into its slice, and raises nothing; ICSYNC empties the L1I; TLBI drops the translations it names
from the core's TLBs and its engines'. -/
def Obligations.CacheInstructionsComplete : Prop :=
  (∀ (s u : State) (c : CoreId) (f : BitVec 22), s.issued c .plain = some u → fld f 0 20 = 0 → fld f 20 2 ≠ 0 →
    exec (.fence c f) s = .next (u.done c 4)) ∧
  (∀ (s u u1 u2 : State) (c : CoreId) (f : BitVec 22) (pa : Nat), s.issued c .plain = some u → fld f 0 18 = 0 →
    let va := (u.core c).readA (fld f 18 4)
    va.toNat % 128 = 0 → bit va 63 = false → xlateAt c (u.core c).ring .store va u = .ok pa u1 → isDevice pa = false →
    u1.carrelShut c pa = false → memStore c pa (List.replicate 128 0) va u1 = .ok () u2 →
    exec (.dczl c f) s = .next ((fillLines u2 c [pa / 128]).done c 4)) ∧
  (∀ (s u : State) (c : CoreId) (f : BitVec 22), s.issued c .plain = some u → fld f 0 17 = 0 →
    ∃ r u1, prefLine c ((u.core c).readA (fld f 18 4)) u = .ok r u1 ∧ exec (.pref c f) s = .next ((match r with
      | some l => if bit f 17 then l2Line u1 l 0xF false else fillLine u1 c l 0xF
      | none => u1).done c 4)) ∧
  (∀ (s u : State) (c : CoreId), s.issued c .plain = some u →
    exec (.icsync c 0) s = .next ((u.modCore c (fun k => { k with mm := { k.mm with l1i := [] } })).done c 4)) ∧
  (∀ (s u : State) (c : CoreId) (f : BitVec 22), s.issued c .plain = some u → fld f 0 17 = 0 → (bit f 21 = true → fld f 17 4 = 0) →
    (u.core c).ring ≤ 1 →
    let left (l : List TlbEntry) : List TlbEntry := if bit f 21 then [] else l.filter (fun t =>
      !t.covers (fld (u.core c).mm.xctl 16 16) ((u.core c).readA (fld f 17 4)).toNat)
    exec (.tlbi c f) s = .next ((u.modCore c (fun k => { k with
      mm := { k.mm with tlb := left k.mm.tlb, tlb2 := left k.mm.tlb2 },
      str := { k.str with eng := vmap (fun e => { e with tlb := left e.tlb }) k.str.eng } })).done c 4))

/-- Major 0x2E (08 R309, R313 to R315): BEGIN opens a free task number or answers all ones, COMMIT ends the open task and commits it at once where its
step has sealed or is all ones and no other task of the core is left (in the order they were opened otherwise, log 78), ABORT aborts it and goes
on at the next instruction, WAIT answers whether a finished task committed. -/
def Obligations.TaskInstructionsComplete : Prop :=
  (∀ (s u : State) (c : CoreId) (f : BitVec 22), s.issued c .plain = some u → fld f 0 10 = 0 →
    let k := u.core c
    let a := k.readA (fld f 10 4)
    let free := (List.range 4).find? (fun t => (k.task t).st == .free)
    a.toNat % 4 = 0 →
    (∀ t, free = some t → k.openTask = none → exec (.tspecBegin c f) s = .next ((u.modCore c (fun k =>
      let k1 := k.setTask t (fun _ => { Task.none with
        st := .opened, ring := k.bank.ring, step := k.readD (fld f 14 4), abortAt := a, ord := k.mm.taskSeq + 1 })
      { k1 with mm := { k1.mm with taskSeq := k1.mm.taskSeq + 1 } }.writeD (fld f 18 4) (n64 t))).done c 4)) ∧
    (free = none ∨ k.openTask ≠ none → exec (.tspecBegin c f) s =
      .next ((u.modCore c (fun k => k.writeD (fld f 18 4) 0xFFFFFFFFFFFFFFFF#64)).done c 4))) ∧
  (∀ (s u : State) (c : CoreId), s.issued c .plain = some u →
    ((u.core c).openTask = none → exec (.tspecCommit c 0) s = .next (u.done c 4) ∧ exec (.tspecAbort c 0) s = .next (u.done c 4)) ∧
    (∀ t, (u.core c).openTask = some t →
      let u1 := u.modCore c (fun k => k.setTask t (fun x => { x with st := .ended }))
      let st := ((u.core c).task t).step
      exec (.tspecCommit c 0) s =
        .next ((commitTasks u1 ((u1.dueTasks c).map (fun t => (c, t)))).done c 4) ∧
      ((∀ i, i < 4 → i ≠ t → ((u.core c).task i).st = .free) →
        u1.dueTasks c = if st = 0xFFFFFFFFFFFFFFFF#64 ∨ (u.led.sealed = true ∧ st.toNat ≤ u.led.last.toNat) then [t] else []) ∧
      exec (.tspecAbort c 0) s =
        .next (((abortTask u c t 5).modCore c (fun k => { k with mm := { k.mm with redirect := none } })).done c 4))) ∧
  (∀ (s u : State) (c : CoreId) (f : BitVec 22), s.issued c .plain = some u → fld f 0 14 = 0 →
    let x := (u.core c).task (fld ((u.core c).readD (fld f 14 4)) 0 2)
    x.st = .free → exec (.tspecWait c f) s =
      .next ((u.modCore c (fun k => k.writeD (fld f 18 4) (if x.committed then 1 else 0))).done c 4))

/-- SETVL, PLOG, reductions and permutes (05 R167, R172, R173, R177): SETVL sets VTYPE and VL = min(request, VLMAX) and writes VL; PLOG acts on all
256 bits; a reduction writes F[VD] or D[VD], a permute its active elements, VCPOP its count to D[VD]; VL 0 writes no element. -/
def Obligations.VectorSetupAndMovesComplete : Prop :=
  (∀ (s u : State) (c : CoreId) (f : BitVec 23), s.issued c .plain = some u → fld f 0 10 = 0 → (bit f 10 = true → fld f 13 2 = 1) →
    let vt := n64 (fld f 13 2 + fld f 11 2 <<< 2 + (if bit f 10 then 16 else 0))
    let vl := min ((u.core c).readD (fld f 15 4)).toNat (2048 / 2 ^ (3 + fld vt 0 2) * 2 ^ fld vt 2 2)
    exec (.setvl c f) s = .next ((u.modCore c (fun k =>
      { k with vec := { k.vec with vtype := vt, vl := BitVec.ofNat 12 vl } }.writeD (fld f 19 4) (n64 vl))).done c 4)) ∧
  (∀ (s u : State) (c : CoreId) (f : BitVec 23) (g : BitVec 256 → BitVec 256 → BitVec 256), s.issued c .plain = some u → fld f 0 12 = 0 →
    (fld f 12 2 = 0 ∧ g = fun a b => a &&& b) ∨ (fld f 12 2 = 1 ∧ g = fun a b => a ||| b) ∨ (fld f 12 2 = 2 ∧ g = fun a b => a ^^^ b) ∨
      (fld f 12 2 = 3 ∧ g = fun a b => a &&& ~~~b) →
    exec (.plog c f) s = .next ((u.modCore c (fun k => { k with vec := { k.vec with
      p := vput k.vec.p (fld f 20 3) (g (vget k.vec.p (fld f 17 3) 0) (vget k.vec.p (fld f 14 3) 0)) } })).done c 4)) ∧
  (∀ (s u : State) (c : CoreId) (f : BitVec 26), s.issued c .plain = some u →
    let k := u.core c
    let x := k.vctxOf f
    let w := x.sew
    let fn := vFunct f
    let elems := (List.range x.vl).map (fun i => if x.active k.vec i then some (vElem k.vec.v (vVS1 f) w i) else none)
    fn ≤ 5 → x.operandsOk 0 0 (vVS1 f) w 0 0 = true →
    (∀ fm, x.fmt = some fm → fn ≤ 2 →
      let rf := if w = 16 then fp32 else fm
      let xs := elems.map (fun e => e.map (fun e => (if w = 16 then widenF fm e else e, (0 : FFlags))))
      let init := k.readF (vVS2 f) rf.width
      let r := match treeFold (fpRedOp fn rf) 11 xs with
        | some t => fpRedOp fn rf t (init, 0)
        | none => (if (decodeF rf init).isNan then rf.qnan else init, 0)
      exec (.vectorReduction c f) s = .next ((u.modCore c (fun k => (k.raiseFlags r.2).writeF (vVD f) r.1)).done c 4)) ∧
    (3 ≤ fn → ∃ v : U64, fld v 0 w = (match treeFold (intRedOp fn w) 11 elems with
        | some t => intRedOp fn w t (k.readF (vVS2 f) w)
        | none => k.readF (vVS2 f) w) % 2 ^ w ∧
      exec (.vectorReduction c f) s = .next ({ u.modCore c (fun k => k.writeD (vVD f % 16) v) with
        free := u.free + (if w = 64 then 0 else 1) }.done c 4))) ∧
  (∀ (s u : State) (c : CoreId) (f : BitVec 26), s.issued c .plain = some u →
    let k := u.core c
    let x := k.vctxOf f
    let w := x.sew
    let fn := vFunct f
    6 ≤ fn → fn ≤ 0x0B →
    x.operandsOk (vVD f) (if fn = 0x0B then 0 else w) (vVS1 f) (if 0x0A ≤ fn then 0 else w) (vVS2 f) (if fn = 0x08 then w else 0) = true →
    (x.vl = 0 → exec (.vectorPermute c f) s = .next (u.done c 4)) ∧
    (x.vl ≠ 0 → fn = 0x0B → exec (.vectorPermute c f) s =
      .next ((u.modCore c (fun k => k.writeD (vVD f % 16) (n64 (x.actives k.vec).length))).done c 4)) ∧
    (x.vl ≠ 0 → fn = 0x09 → exec (.vectorPermute c f) s =
      .next ((u.modCore c (fun k => { k with vec := compress x k.vec f })).done c 4)) ∧
    (x.vl ≠ 0 → fn ≠ 0x0B → fn ≠ 0x09 →
      let e := permElem fn x k.vec f (k.readD (vVS2 f % 16)).toNat u.free
      exec (.vectorPermute c f) s = .next ({ u.modCore c (fun k => { k with vec := x.writeElems k.vec (vVD f) w e }) with
        free := u.free + (if fn = 0x07 then x.vl else 0) }.done c 4)))

/-- Majors 0x19, 0x1A and 0x1B (05 R169, R170, R172 to R175, R178 to R180): with legal groups, an integer operation, a floating-point operation or
transcendental, and a conversion each write their active elements (a compare its predicate), add their flags or counts, and do nothing at VL 0. -/
def Obligations.VectorArithmeticComplete : Prop :=
  (∀ (s u : State) (c : CoreId) (f : BitVec 26), s.issued c .plain = some u →
    let k := u.core c
    let x := k.vctxOf f
    let w := x.sew
    let fn := vFunct f
    let scalar := (k.readD (vVS2 f % 16)).toNat % 2 ^ w
    let a (i : Nat) : Nat := vElem k.vec.v (vVS1 f) w i
    let b (i : Nat) : Nat := if vSX f then scalar else vElem k.vec.v (vVS2 f) w i
    let cmp := fn = 0x11 ∨ fn = 0x12 ∨ fn = 0x13
    let wd := if cmp then 0 else if fn = 0x15 then 2 * w else if fn = 0x16 then w / 2 else w
    fn ≤ 0x16 → x.operandsOk (vVD f) wd (vVS1 f) (if fn = 0x14 ∧ vSX f then 0 else w) (vVS2 f) (if fn ≤ 0x13 ∧ vSX f = false then w else 0) = true →
    (cmp → x.predDestOk f = true) →
    (x.vl = 0 → exec (.vectorIntegerOp c f) s = .next (u.done c 4)) ∧
    (x.vl ≠ 0 → cmp →
      let p (i : Nat) : Bool := vIntCmp fn w (a i) (b i)
      exec (.vectorIntegerOp c f) s = .next ((u.modCore c (fun k => { k with vec := x.writePred k.vec (fld f 21 3) p })).done c 4)) ∧
    (x.vl ≠ 0 → ¬cmp →
      let r (i : Nat) : Option Nat := some (if fn = 0x14 then (if vSX f then scalar else a i) else if fn = 0x15 then wrapN (2 * w) (sx w (a i))
        else if fn = 0x16 then wrapN (w / 2) (clampW (w / 2) (sx w (a i))) else vIntOp fn w (a i) (b i) (Config.freeNat (u.free + i)))
      exec (.vectorIntegerOp c f) s = .next ({ u.modCore c (fun k => { k with vec := x.writeElems k.vec (vVD f) wd r }) with
        free := u.free + (if 0x08 ≤ fn ∧ fn ≤ 0x0A then x.vl else 0) }.done c 4))) ∧
  (∀ (s u : State) (c : CoreId) (f : BitVec 26) (fm : Fmt), s.issued c .plain = some u →
    let k := u.core c
    let x := k.vctxOf f
    let w := x.sew
    let fn := vFunct f
    let a (i : Nat) : Nat := vElem k.vec.v (vVS1 f) w i
    let b (i : Nat) : Nat := if vSX f then k.readF (vVS2 f) w else vElem k.vec.v (vVS2 f) w i
    let cmp := fn = 0x10 ∨ fn = 0x11 ∨ fn = 0x12
    let wd := if fn = 0x13 then 32 else w
    x.fmt = some fm → fn ≤ 0x14 → (w = 64 → fn < 0x0A ∨ 0x0F < fn) → (fn = 0x13 → w = 16) →
    x.operandsOk (vVD f) (if cmp then 0 else wd) (vVS1 f) w (vVS2 f) (if fpUnary fn ∨ vSX f then 0 else w) = true → (cmp → x.predDestOk f = true) →
    (∀ t, t = (if x.vl = 0 then u.done c 4
        else if cmp then
          let r (i : Nat) : Bool × FFlags := fpCompare fn fm (a i) (b i)
          (u.modCore c (fun k => { k.raiseFlags (x.flagsOf k.vec (fun i => (r i).2)) with
            vec := x.writePred k.vec (fld f 21 3) (fun i => (r i).1) })).done c 4
        else
          let r (i : Nat) : Nat × FFlags := if fn = 0x13
            then fFma fp32 k.vrm (decodeF fp32 (vElem k.vec.v (vVD f) 32 i)) (decodeF fm (a i)) (decodeF fm (b i))
            else fpArith fn fm k.vrm (vElem k.vec.v (vVD f) w i) (a i) (b i)
          (u.modCore c (fun k => { k.raiseFlags (x.flagsOf k.vec (fun i => (r i).2)) with
            vec := x.writeElems k.vec (vVD f) wd (fun i => some (r i).1) })).done c 4) →
      exec (.vectorFpOp c f) s = .next t ∧ (∀ hi g lo, f = transBits hi g lo → exec (.vectorTranscendental c hi g lo) s = .next t))) ∧
  (∀ (s u : State) (c : CoreId) (p : Option (BitVec 26)) (f : BitVec 26), s.issued c .plain = some u →
    let k := u.core c
    let x := k.vctxOf f
    let sf := fld f 8 4
    let h : BitVec 26 := p.getD 0
    let chan := fld h 20 6
    let out := if bit f 0 then (fld f 12 4, false) else classOut k.num.mode k.num.prof (fld f 6 2) sf
    let conv (i : Nat) : Nat × CvClass × FV :=
      let v := decodeCode sf (vElem k.vec.v (vVS1 f) (cvtSrcWidth x.sew sf) i)
      let r := convert out.1 k.nonsat (convMode out.2 k.num.srStep chan (k.num.srBase + n64 i))
        (scaled (if bit h 14 then some (k.readF (fld h 15 5) 32) else none) v)
      (r.1, r.2, v)
    let r := cvtElems x k.vec conv (vVD f) out.1
    fld h 0 14 = 0 → sf < 0xE → x.operandsOk 0 0 (vVS1 f) (cvtSrcWidth x.sew sf) 0 0 = true → x.cvtDestOk (vVD f) out.1 = true →
    isMX out.1 = false → out.1 < 0xE → (bit f 0 = false → canProduce sf out.1 = true ∧ (fld f 6 2 = 3 → isMX sf = false)) →
    (x.vl = 0 → exec (.vcvt c p f) s = .next (u.done c (codeBytes p))) ∧
    (x.vl ≠ 0 →
      let t := u.modCore c (fun k => { k with vec := r.1, num := { k.num with nlast := nlastWord r.2 out.1 (fld f 6 2) chan } })
      exec (.vcvt c p f) s = .next ((addCounts t c k.accTask chan out.1 r.2).done c (codeBytes p))))

/-- Majors 0x1C, 0x1D and 0x1F (05 R165, R168, R172, R181, R184, R188 to R190, R192): a vector load or store of legal groups whose elements can all be accessed and
that takes no event retires once the elements from VRESUME.INDEX, or 0, to VL have been done in order; a resumed one clears VRESUME.VALID. -/
def Obligations.VectorMemoryComplete : Prop :=
  ∀ (s u u1 : State) (c : CoreId) (f : BitVec 26) (m : VMem), s.issued c .vmem = some u →
    let k := u.core c
    let x := k.vctxOf f
    let base := k.readA (fld f 17 4)
    let resumed := k.ex.afterRte && bit k.vec.vresume 24
    let t := if resumed then u1.modCore c (fun k => { k with vec := { k.vec with vresume := setBit k.vec.vresume 24 false } }) else u1
    bit f 0 = false → m.ok = true →
    m.run c (x.vl - (if resumed then fld k.vec.vresume 0 11 else 0)) false u = .ok () u1 →
    (fld f 6 5 = 0 → m = { ctx := x, store := bit f 12, nf := 1, vr := fld f 21 5, watch := true,
                            addr := fun i _ => base + n64 i * (if bit f 11 then k.readA (fld f 13 4) else n64 (x.sew / 8)) } →
      exec (.vectorLoadStore c f) s = .next (t.done c 4)) ∧
    (∀ iw, iw = (if bit f 8 then 64 else 32) → fld f 6 2 = 0 → x.groupOk (fld f 12 5) iw = true →
      (bit f 11 = false → groupsMeet (fld f 21 5) x.lmul (fld f 12 5) (x.group iw) = false) →
      m = { ctx := x, store := bit f 11, nf := 1, vr := fld f 21 5, watch := false,
                            addr := fun i _ => base + w64 (sx iw (vElem k.vec.v (fld f 12 5) iw i)) <<< fld f 9 2 } →
      exec (.vectorGatherScatter c f) s = .next (t.done c 4)) ∧
    (fld f 6 4 = 0 → fld f 13 4 = 0 → fld f 10 2 ≠ 0 →
      m = { ctx := x, store := bit f 12, nf := fld f 10 2 + 1, vr := fld f 21 5, watch := false,
                            addr := fun i j => base + n64 ((i * (fld f 10 2 + 1) + j) * (x.sew / 8)) } →
      exec (.vectorStructureLoadStore c f) s = .next (t.done c 4))

/-- Major 0x20 (03 R84, R97 to R104, R113, R121, R122; 09 R342, R343): on a compute core a TLD whose rows can be read loads its tile register,
reserving a unit of its pair with SEMEN; TST and ZST store their rows in order, ZLD makes a fresh tile of the raw bits; a TLD that has finished
takes its reserved unit from FILL and gives FREE one. The ECC errors an instruction carries come first (log 44). -/
def Obligations.TileLoadsAndStoresComplete : Prop :=
  (∀ (u : State) (c : CoreId) (p : Option (BitVec 26)) (isTld : Bool) (f : BitVec 26), c.val < 128 → fld f 0 7 = 0 → fld (p.getD 0) 0 21 = 0 →
    fld f 9 2 ≠ 3 → (isTld = false → fld f 9 2 = 0 ∧ bit f 11 = false) →
    let k := u.core c
    tileMemOf c p isTld f u = .ok { reg := fld f 23 3, base := k.readA (fld f 19 4), stride := k.readA (fld f 15 4), sem := fld f 12 3,
                                    semen := bit f 11, conv := fld f 9 2, scv := bit (p.getD 0) 21, asc := k.readA (fld (p.getD 0) 22 4) } u) ∧
  (∀ (s u u1 u2 : State) (c : CoreId) (p : Option (BitVec 26)) (hi : BitVec 17) (lo : BitVec 7) (m : TileMem)
      (x : List (List Byte) × List (List Byte)), s.issued c .tile = some u → tileMemOf c p true (tileMemBits hi 0 lo) u = .ok m u →
    let k := u.core c
    let t := vget k.tile.t m.reg TileReg.reset
    let w := vget k.str.sem m.sem 0
    k.tile.queue.length < 16 → (m.conv ≠ 0 → t.code = 0) → (isMX t.code = true → m.scv = true) → m.aligned u = .ok () u →
    k.tile.unfed m.reg (u.clkOf c) = false →
    (m.semen = true → bit w 32 = false ∧ vget k.str.resv m.sem 0 < fld w 0 16) → tldRead c m t u = .ok x u1 →
    semReserve c m.semen m.sem u1 = .ok () u2 →
    let u3 := u2.modCore c (fun k =>
      if m.semen = true then k.queued (.tld m.reg t) (some m.sem) else k.behind (.tld m.reg t))
    exec (.tld c p hi lo) s = .next ((u3.modCore c (fun k => { k with
      tile := k.tile.setT m.reg (t.load (x.1.map (convRow m.conv)) x.2 (fun _ => true)) })).done c (codeBytes p))) ∧
  (∀ (s u u1 : State) (c : CoreId) (p : Option (BitVec 26)) (hi : BitVec 17) (lo : BitVec 7) (ecc : List Bool) (m : TileMem),
    s.issued c .wait = some u →
    let k := u.core c
    let t := vget k.tile.t m.reg TileReg.reset
    let z := vget k.tile.z m.reg ZTile.reset
    let u0 := ecc.foldl (eccError c) u
    m.aligned u = .ok () u →
    (tileMemOf c p false (tileMemBits hi 1 lo) u = .ok m u → (isMX t.code = true → m.scv = true) →
      storeRows c ((List.range t.nrows).map (fun r => (rowAddr m.base m.stride r, spRead 0 t.rows (128 * r) t.rbytes)) ++
        (if m.scv then (List.range t.nrows).map (fun r => (m.asc + n64 (8 * r), spRead t.sdef t.scale (8 * r) t.sbytes)) else [])) u0 = .ok () u1 →
      exec (.tst ⟨c, ecc⟩ p hi lo) s = .next (u1.done c (codeBytes p))) ∧
    (tileMemOf c none false (tileMemBits hi 3 lo) u = .ok m u →
      storeRows c ((List.range z.nrows).map (fun r => (rowAddr m.base m.stride r, z.rowBytes r))) u0 = .ok () u1 →
      exec (.zst ⟨c, ecc⟩ hi lo) s = .next (u1.done c 4))) ∧
  (∀ (s u u1 : State) (c : CoreId) (hi : BitVec 17) (lo : BitVec 7) (m : TileMem) (rows : List (List Byte)) (p : Nat) (ps : List Nat),
    s.issued c .tile = some u → tileMemOf c none false (tileMemBits hi 2 lo) u = .ok m u →
    let k := u.core c
    let z := vget k.tile.z m.reg ZTile.reset
    k.tile.queue.length < 16 → m.aligned u = .ok () u → k.tile.adding none = false → k.tile.pool = p :: ps →
    readRows c ((List.range z.nrows).map (fun r => (rowAddr m.base m.stride r, 64 * z.ebytes))) u = .ok rows u1 →
    ∃ n : ZTile, exec (.zld c hi lo) s = .next ((u1.modCore c (fun k =>
        let k1 := k.behind (.zset m.reg z (vget k.tile.zmap m.reg 0))
        { k1 with tile := k1.tile.mapTile m.reg n p })).done c 4) ∧
      n.shape = setBit z.shape 26 false ∧ n.data = (List.range z.nrows).flatMap (fun r => spFrom 0 (64 * r) ((List.range 64).map (fun i =>
        n64 (bitsOf (leNat (nth [] rows r)) (8 * z.ebytes * i) (8 * z.ebytes)))))) ∧
  (∀ (s : State) (c : CoreId) (e : TileEntry) (rest : List TileEntry) (p : Nat), let v := tileSync s c
    (v.core c).tile.queue = e :: rest → e.sem = some p → (v.core c).ex.run ≠ .halted → (∃ reg old, e.op = .tld reg old) ∨ (∃ b, e.op = .tlw b true) →
    exec (.tldComplete c) s = .next (stepDone (v.modCore c (fun k =>
      let k1 := k.modPair p (fun w => pairAdd (setFld w 0 16 (fld w 0 16 - 1)) true 1)
      Core.settle { k1 with
        str := { k1.str with resv := vput k1.str.resv p (vget k1.str.resv p 0 - 1) },
        tile := { k1.tile with queue := { e with sem := none } :: rest } })) c))

/-- TCFG, TLW, TMMA4 and their events (02 R39, R40, R57 to R61, R70, R72; 03 R89 to R91, R105 to R114, R117): TCFG applies a shape and clears what
changes; TLW stages its weights in a free buffer and is delivered in order; TMMA4 captures its live rows, its registers and its weights, and maps
its fresh tiles when it completes, with its margin record; TSTZ stores the converted elements. -/
def Obligations.TileComputeComplete : Prop :=
  (∀ (s u : State) (c : CoreId) (f : BitVec 26), s.issued c .wait = some u → c.val < 128 → fld f 0 18 = 0 →
    let w := (u.core c).readD (fld f 18 4)
    let i := fld f 22 3
    (bit f 25 = true → zShapeOk w = true → exec (.tcfg c f) s = .next ((u.modCore c (fun k => { k with tile := { k.tile with
      count := 0, z := vput k.tile.z i ((vget k.tile.z i ZTile.reset).reshape w) } })).done c 4)) ∧
    (bit f 25 = false → tShapeOk w = true → exec (.tcfg c f) s = .next ((u.modCore c (fun k => { k with
      tile := ({ k.tile with count := 0 }).setT i ((vget k.tile.t i TileReg.reset).reshape w) })).done c 4))) ∧
  (∀ (s u u1 u2 u3 : State) (c : CoreId) (f : BitVec 26) (b : Nat) (bs par : List Byte), s.issued c .tile = some u → c.val < 128 →
    let k := u.core c
    let exp := fld f 10 2
    let wf := fld f 12 4
    let side := tlwSide exp wf
    fld f 0 6 = 0 → exp ≠ 3 → k.tile.queue.length < 16 → k.tile.inuse ≠ 0 → wf < 0xC → (exp ≠ 0 → wf = 0 ∨ wf = 2 ∨ wf = 3) →
    (k.readA (fld f 22 4)).toNat % 128 = 0 → (side ≠ 0 → (k.readA (fld f 18 4)).toNat % 64 = 0) →
    (List.range 2).find? (fun b => (vget k.tile.bufs b none).isNone) = some b →
    semReserve c (bit f 6) (fld f 7 3) u = .ok () u1 →
    tileRead c (k.readA (fld f 22 4)) (if exp = 0 then 8192 else if wf = 0 then 2048 else 4096) u1 = .ok bs u2 →
    tileRead c (k.readA (fld f 18 4)) side u2 = .ok par u3 →
    let w : Weights := {
      fmt := BitVec.ofNat 4 wf, bytes := spFrom 0 0 (if exp = 0 then bs else expandAll exp (wf == 0) wf (leNat bs) par),
      scales := if exp = 0 then spFrom 0 0 par else [], live := vget (u3.core c).tile.mcol (fld f 16 2) 0 }
    exec (.tlw c f) s = .next ((u3.modCore c (fun k =>
      Core.queued { k with tile := { k.tile with bufs := vput k.tile.bufs b (some w) } } (.tlw b false)
        (if bit f 6 then some (fld f 7 3) else none))).done c 4)) ∧
  (∀ (s : State) (c : CoreId) (ecc : List Bool) (q : List TileEntry) (b : Nat), let v := tileSync s c
    let w0 := (v.core c).tile.w0 (v.clkOf c)
    deliverFirst (v.core c).tile.queue = some (q, b) → v.gateOpen c = true → (v.core c).ex.run ≠ .halted →
    let t := ecc.foldl (eccError c) ((feedArrays v c).modCore c (fun k => { k with tile := { k.tile with
      queue := q, w := (vget k.tile.bufs b none).getD k.tile.w, pathAt := w0 + 64, count := 0 } }))
    exec (.tlwDelivery ⟨c, ecc⟩) s = .next (stepDone ((tileSyncAt (t.toClk c (w0 + 64)) c (w0 + 64)).modCore c Core.settle) c)) ∧
  (∀ (s u : State) (c : CoreId) (f : BitVec 26) (us : List Upset), s.issued c .tile = some u → c.val < 128 → fld f 0 22 = 0 →
    let k := u.core c
    let g := 4 * b01 (bit f 25)
    let live (r : Nat) : Bool := bit (vget k.tile.mrow (4 * fld f 22 2 + r / 64) 0) (r % 64)
    k.tile.queue.length < 16 → k.tile.inuse ≠ 0 → tmmaOk k.tile k.tile.weights (bit f 25) (bit f 24) = true →
    ∃ v e x, exec (.tmma4 c f us) s = .next v ∧ (v.core c).tile.queue.length = k.tile.queue.length + 1 ∧
      (v.core c).tile.queue.getLast? = some e ∧ e.pc = k.pc ∧ e.op = .tmma x ∧ x.tg = bit f 25 ∧ x.zg = bit f 24 ∧ x.us = us ∧ x.rep = false ∧
      x.rows = (List.range (vget k.tile.t g TileReg.reset).nrows).filter live ∧ x.w = k.tile.weights ∧
      x.src = (List.range 4).map (fun q => vget k.tile.t (g + q) TileReg.reset) ∧
      (v.core c).tile.t = k.tile.t ∧ (v.core c).tile.z = k.tile.z ∧ (v.core c).tile.zmap = k.tile.zmap ∧ (v.core c).tile.w = k.tile.w ∧
      (v.core c).pc = k.pc + 4 ∧ (v.core c).bank.d = k.bank.d ∧ (v.core c).bank.a = k.bank.a ∧ v.mem = u.mem) ∧
  (∀ (s : State) (c : CoreId) (e : TileEntry) (x : Tmma) (rest : List TileEntry), (s.core c).ex.run ≠ .halted →
    let v := toDone (toDone (tileSync s c) c) c
    let fs := if x.rep then x.fails (fld (v.core c).tile.mgctl 0 5) true else []
    let y := firstFail fs v.free
    let t1 := (feedArrays v c).modCore c (fun k =>
      Core.settle { k with tile := k.tile.complete x e.pc rest fs y, ex := { k.ex with instret := k.ex.instret + 1 } })
    let t := { t1 with free := t1.free + 1 }
    (v.core c).tile.queue = e :: rest → e.op = .tmma x → x.fed = true → (v.core c).ex.run ≠ .halted →
    (y = none ∨ bit (t.core c).tile.mgctl 8 = false → (t.core c).tile.inuse ≠ 0 → exec (.tmma4Complete c) s = .next (stepDone (tileSync t c) c)) ∧
    (y = none ∨ bit (t.core c).tile.mgctl 8 = false → (t.core c).tile.inuse = 0 →
      ((t.core c).tile.queue = [] → exec (.tmma4Complete c) s = .next (stepDone t c)) ∧
      (∀ n r, (t.core c).tile.queue = n :: r → exec (.tmma4Complete c) s =
        .next ((discardTiles t c).modCore c (fun k => k.setBank (fun b => { b with pc := n.pc }))))) ∧
    (y ≠ none → bit (t.core c).tile.mgctl 8 = true →
      exec (.tmma4Complete c) s = .next (raiseSync (discardTiles t c) c 0x15 0 (t.core c).tile.mgpc (e.pc + 4)))) ∧
  (∀ (s u u1 : State) (c : CoreId) (p : Option (BitVec 26)) (f : BitVec 26) (ecc : List Bool) (rows : List (U64 × List Byte)) (x : Tstz),
    s.issued c .wait = some u → c.val < 128 →
    let k := u.core c
    let u0 := ecc.foldl (eccError c) u
    let h : BitVec 26 := p.getD 0
    let layout := fld f 11 2
    let z := vget k.tile.z (fld f 23 3) ZTile.reset
    let cls := fld f 13 2
    let src := zcode z.zfmt
    let out := if bit h 19 then (fld h 15 4, false) else classOut k.num.mode k.num.prof cls src
    let chan := fld h 20 6
    let scales := isMX out.1 && p.isSome
    let ab := k.readA (fld f 19 4)
    let stride := k.readA (fld f 15 4)
    let asc := k.readA (fld h 3 4)
    let elem (r n : Nat) : Nat × Nat × FV := (r, n, decodeCode src (z.get r n).toNat)
    let lines := if layout = 1 then (List.range 64).map (fun n => (List.range z.nrows).map (fun r => elem r n))
      else (List.range z.nrows).map (fun r => (List.range 64).map (fun n => elem r n))
    let cnt := if z.tagged then Counts.zero else
      (List.zip lines (lines.map x.line)).foldl (fun a lo => (List.zip lo.1 lo.2.2).foldl (fun a e => a.add (Counts.elem e.2.2 e.1.2.2)) a) Counts.zero
    fld f 0 11 = 0 → fld h 0 3 = 0 → layout ≠ 3 → fld h 7 2 ≠ 3 → canProduce src out.1 = true → (fld h 7 2 ≠ 0 → out.1 = 0) →
    (layout = 1 → codeBits out.1 ≠ 64 ∧ (isMX out.1 = true → z.nrows % 32 = 0)) → (layout = 2 → z.nrows % 64 = 0) →
    ab.toNat % 4 = 0 → stride.toNat % 4 = 0 → (scales = true → asc.toNat % 4 = 0) →
    x = { src := src, fmt := out.1, sr := out.2, nonsat := k.nonsat, step := k.num.srStep, base := k.num.srBase, chan := chan,
          scale := if bit h 9 && !z.tagged then some (k.readF (fld h 10 5) 32) else none, split := fld h 7 2 } →
    rows = (List.range lines.length).flatMap (fun i =>
      let o := nth ([], []) (lines.map x.line) i
      tstzPlace layout ab stride i (packElems (codeBits out.1) (u0.free + i) (o.2.map (fun e => e.1))) ++ (if scales then [(asc + n64 (8 * i), o.1)] else [])) →
    storeRows c rows { u0 with free := u0.free + 64 } = .ok () u1 →
    let u2 := u1.modCore c (fun k => { k with
      tile := { k.tile with tamax := n64 (cnt.amax.toNat + chan <<< 32 + 1 <<< 38) },
      num := { k.num with nlast := nlastWord cnt out.1 cls chan } })
    exec (.tstz ⟨c, ecc⟩ p f) s = .next ((addCounts u2 c (u1.core c).accTask chan out.1 cnt).done c (codeBytes p)))

/-- Major 0x25 (03 R84, R113, R120 to R122): TZERO fills a tile register with zero bytes and scale bytes 0x7F or sets an accumulator tile's zero
tag; TMOV and ZMOV copy a register or an accumulator tile to another of equal shape, a fresh physical tile. None goes past a read or a write of
its registers that is still at work, and behind other tile instructions each stands in the queue. -/
def Obligations.TileMovesComplete : Prop :=
  ∀ (s u : State) (c : CoreId) (f : BitVec 23), s.issued c .tile = some u → c.val < 128 → fld f 0 17 = 0 →
    let k := u.core c
    let dst := fld f 20 3
    let src := fld f 17 3
    let td := vget k.tile.t dst TileReg.reset
    let ts := vget k.tile.t src TileReg.reset
    let zd := vget k.tile.z dst ZTile.reset
    let zs := vget k.tile.z src ZTile.reset
    let phys := vget k.tile.zmap dst 0
    let put (u : State) (op : TileOp) (g : TileRegs → TileRegs) : State :=
      (u.modCore c (fun k => { k.behind op with tile := g (k.behind op).tile })).done c 4
    k.tile.queue.length < 16 →
    (src = 0 → k.tile.unfed dst (u.clkOf c) = false →
      exec (.tzeroT c f) s = .next (put u (.tset dst td) (fun t => t.setT dst { td with rows := [], sdef := 0x7F, scale := [] }))) ∧
    (src = 0 → k.tile.adding (some (decide (4 ≤ dst))) = false →
      exec (.tzeroZ c f) s = .next (put u (.zset dst zd phys) (fun t => { t with z := vput t.z dst { shape := setBit zd.shape 26 true, data := [] } }))) ∧
    (∀ ecc, ts.shape = td.shape → k.tile.loading src = false → k.tile.unfed dst (u.clkOf c) = false →
      exec (.tmov ⟨c, ecc⟩ f) s = .next (put (ecc.foldl (eccError c) u) (.tset dst td) (fun t => t.setT dst ts))) ∧
    (∀ ecc p ps, zs.nrows = zd.nrows → zs.zfmt = zd.zfmt → k.tile.adding none = false → k.tile.pool = p :: ps →
      exec (.zmov ⟨c, ecc⟩ f) s = .next (put (ecc.foldl (eccError c) u) (.zset dst zd phys) (fun t => t.mapTile dst zs p)))

/-- Major 0x28 (09 R336 to R340, R355 to R357): on a compute core, for an engine that is IDLE or whose stream's ring the caller may name: SSTART
answers 1 for a busy engine, 0 for a list that passes its checks and 2 for one that does not, whose stream ends with END 2 and its reason;
SRESUME restarts a halted stream, or writes its record again; SCANCEL cancels a stream; SWAIT and SWAITB answer once their stream has stopped or
their block has completed or cannot. -/
def Obligations.StreamInstructionsComplete : Prop :=
  ∀ (s u : State) (c : CoreId) (f : BitVec 22), s.issued c .plain = some u → isCompute c = true →
    let k := u.core c
    let e := fld f 21 1
    let x := k.eng e
    (fld x.stat 0 2 = 0 ∨ k.ring ≤ fld x.stat 2 2) →
    (fld f 0 13 = 0 →
      (fld x.stat 0 2 ≠ 0 → exec (.sstart c f) s = .next ((u.modCore c (fun k => k.writeD (fld f 13 4) 1)).done c 4)) ∧
      (fld x.stat 0 2 = 0 →
        let list := k.readA (fld f 17 4)
        let u1 := u.modCore c (fun k => k.modEng e (fun x => captured k x list))
        (∀ u2 n cr, startChecks c e list u1 = .ok (.ok (n, cr)) u2 →
          exec (.sstart c f) s = .next (((u2.modCore c (fun k => k.modEng e (fun x => { x with nblk := n, crec := cr, hlog := [] }))).modCore c
            (fun k => k.writeD (fld f 13 4) 0)).done c 4)) ∧
        (∀ u2 r, startChecks c e list u1 = .ok (.error r) u2 →
          exec (.sstart c f) s = .next (((endStream (u2.modCore c (fun k => k.modEng e (fun x => { x with
              stat := (match r.blk with
                | some b => setBit (setFld x.stat 32 16 b) 48 true
                | none => x.stat),
              crec := if r.record then x.crec else none }))) c e 2 r.reason).modCore c (fun k => k.writeD (fld f 13 4) 2)).done c 4)))) ∧
    (fld f 0 21 = 0 →
      (k.ring ≤ 1 →
        (fld x.stat 0 2 ≠ 2 → exec (.sresume c f) s = .next (u.done c 4)) ∧
        (fld x.stat 0 2 = 2 → x.recPend = false →
          exec (.sresume c f) s = .next ((u.modCore c (fun k => k.modEng e resumeEng)).done c 4)) ∧
        (fld x.stat 0 2 = 2 → x.recPend = true → exec (.sresume c f) s = .next ((finishEnd (u.modCore c (fun k => k.modEng e
          (fun x => { x with stat := setFld x.stat 0 2 1, hrec := setBit x.hrec 24 false, recPend := false, hlog := [] }))) c e).done c 4))) ∧
      exec (.scancel c f) s = .next ((cancelStream u c e).done c 4)) ∧
    (fld f 0 17 = 0 → fld x.stat 0 2 ≠ 1 → exec (.swait c f) s = .next ((u.modCore c (fun k => k.writeD (fld f 17 4) x.stat)).done c 4)) ∧
    (fld f 0 13 = 0 →
      let b := (k.readD (fld f 17 4)).toNat
      let complete := b < x.nblk ∧ bit x.stat 48 = true ∧ ¬(fld x.stat 0 2 = 0 ∧ fld x.stat 7 2 = 2) ∧ b ≤ fld x.stat 32 16
      (complete → exec (.swaitb c f) s = .next ((u.modCore c (fun k => k.writeD (fld f 13 4) 1)).done c 4)) ∧
      (¬complete → bit x.stat 0 = false ∨ x.nblk ≤ b →
        exec (.swaitb c f) s = .next ((u.modCore c (fun k => k.writeD (fld f 13 4) 0)).done c 4)))

/-- What a stream engine does on its own (09 R322, R323, R327 to R329, R340, R341, R343, R345, R353, R354), while its stream runs and neither ends
nor is being cancelled: in an enabled function the next block issues once its descriptor passes and its pair and barrier let it, taking its FREE
unit, waits while they do not, starts the end at a poisoned pair, and stands as a fault where its descriptor cannot be read or is inconsistent; a
granule in flight that need not wait lands, or faults; the oldest block completes when its granules have landed; and an engine with a fault whose
other granules in flight make no progress halts at its oldest block with the first fault's record, and stream halted pends on its core. -/
def Obligations.StreamEventsComplete : Prop :=
  ∀ (s : State) (c : CoreId) (e : Fin 2),
    let x := (s.core c).eng e.val
    fld x.stat 0 2 = 1 → x.cancelled = false → x.ending = none →
    (vget s.cur.fns (coreFn c) .enabled = .enabled → x.poisoned = false → x.faults = [] → x.nextBlk < x.nblk →
      (∀ q ∈ x.blocks, x.nextBlk < q.blk + 4) →
      (∀ d s1, readDesc c e.val x.list x.nextBlk s = .ok d s1 →
        let df := (Desc.out d x.cmod x.cprof).1
        let why := Desc.reason d df (engPhys s1 x .load)
        let pair := vget (s1.core c).str.sem (Desc.pair d) 0
        let behind := ((vget s1.barriers (Desc.bid d) Barrier.reset).gen - BitVec.ofNat 16 (Desc.bgen d)).toNat
        (x.cmode = true ∨ (why = none ∧ Desc.badOverlap d df = false) →
          ((Desc.freew d = true → bit pair 32 = false ∧ fld pair 16 16 ≠ 0) → (Desc.bwait d = true → behind < 32768) →
            exec (.streamBlockIssue c e) s = .next (s1.modCore c (fun k =>
              (if Desc.freew d then k.modPair (Desc.pair d) (fun w => setFld w 16 16 (fld w 16 16 - 1)) else k).modEng e.val (fun y => { y with
                blocks := y.blocks ++ [BlockProg.fresh x.nextBlk d true (Desc.freew d)], nextBlk := x.nextBlk + 1 })))) ∧
          ((Desc.freew d = true → bit pair 32 = false) → (Desc.freew d = true ∧ fld pair 16 16 = 0) ∨ (Desc.bwait d = true ∧ 32768 ≤ behind) →
            exec (.streamBlockIssue c e) s = .next s1) ∧
          (Desc.freew d = true → bit pair 32 = true → exec (.streamBlockIssue c e) s =
            .next (endIfDone (s1.modCore c (fun k => k.modEng e.val (fun y => { y with poisoned := true }))) c e.val))) ∧
        (∀ r a, x.cmode = false → why = some (r, a) → ∃ v, (∀ b, a = some b → v = b) ∧
          exec (.streamBlockIssue c e) s = .next (faultBlock { s1 with free := s1.free + 1 } c e.val x.nextBlk r v)) ∧
        (x.cmode = false → why = none → Desc.badOverlap d df = true → ∃ v,
          exec (.streamBlockIssue c e) s = .next (faultBlock { s1 with free := s1.free + 1 } c e.val x.nextBlk 0x14 v))) ∧
      (∀ cause sub info b s1, readDesc c e.val x.list x.nextBlk s = .error (.trap cause sub info b) s1 →
        exec (.streamBlockIssue c e) s = .next (faultBlock s1 c e.val x.nextBlk cause info))) ∧
    (∀ (n : BitVec 16) (g : Nat) (b : BlockProg), x.block n.toNat = some b → b.ok = true → g < (Desc.granules b.ws).length → b.has g = false →
      x.faulted b.blk g = false → (b.blk, g) ∈ inFlight s x →
      (b.reads.any (fun r => r.1 == g) = true ∨ (b.isRead (x.conv b.ws) g = false ∧ mustWait s x b g = false)) →
      let w := s.worker c e.val
      ((x.conv b.ws).square = false → ∀ y s1, readOnce w b g s = .ok y s1 →
        ∀ s2, finishGran w ((((s1.core c).eng e.val).block b.blk).getD b) g y s1 = .ok () s2 → exec (.granuleLands c e n g) s = .next s2) ∧
      ((x.conv b.ws).square = false → ∀ cause sub info q s1, readOnce w b g s = .error (.trap cause sub info q) s1 →
        exec (.granuleLands c e n g) s = .next (faultGran s c e.val (b.blk, g) cause info)) ∧
      ((x.conv b.ws).square = true → ∀ s1, squareGran w b g s = .ok () s1 → exec (.granuleLands c e n g) s = .next s1)) ∧
    (∀ b r, x.blocks = b :: r → b.full = true →
      exec (.streamBlockComplete c e) s = .next (endIfDone (completeBlock s c e.val b) c e.val)) ∧
    (∀ q b r, x.firstFault = some q → x.blocks = b :: r → b.full = false → (∀ p ∈ inFlight s x, stuckGran s x p = true) →
      (∀ a ∈ s.fab.reqs, a.who ≠ .stream c e.val) →
      ∃ t, exec (.streamHalt c e) s = .next t ∧ fld ((t.core c).eng e.val).stat 0 2 = 2 ∧
        ((t.core c).eng e.val).hrec = n64 (b.blk + q.subc <<< 16 + 1 <<< 24) ∧ ((t.core c).eng e.val).haddr = q.addr ∧
        (t.core c).rr.xpend = setBit (s.core c).rr.xpend 3 true ∧ (t.core c).rr.shInfo = n64 (2 * c.val + e.val) ∧
        t.mem = s.mem ∧ s.othersSame t c)

/-- Majors 0x29 and 0x2A (09 R341, R343 to R345, R360): SEMSIG counts a side of a pair up; SEMWAIT counts one down and answers 1, or 0
for a poisoned pair; BARA joins the open generation of a barrier, BARW ends once that generation has been released, BARCFG sets the
count and clears the arrivals, BARGEN reads the generation. -/
def Obligations.SemaphoresAndBarriersComplete : Prop :=
  ∀ (s u : State) (c : CoreId) (f : BitVec 22), s.issued c .plain = some u →
    (isCompute c = true →
      (fld f 0 18 = 0 → exec (.semsig c f) s = .next ((signalPair u c (fld f 19 3) (bit f 18) 1).done c 4)) ∧
      (fld f 0 14 = 0 →
        let lo := if bit f 18 then 16 else 0
        let w := vget (u.core c).str.sem (fld f 19 3) 0
        (bit w 32 = true → exec (.semwait c f) s = .next ((u.modCore c (fun k => k.writeD (fld f 14 4) 0)).done c 4)) ∧
        (bit w 32 = false → fld w lo 16 ≠ 0 → exec (.semwait c f) s = .next (((u.modCore c (fun k => k.modPair (fld f 19 3)
          (fun w => setFld w lo 16 (fld w lo 16 - 1)))).modCore c (fun k => k.writeD (fld f 14 4) 1)).done c 4)))) ∧
    (let b := fld f 18 4
     let x := vget u.barriers b Barrier.reset
     (fld f 0 18 = 0 →
      exec (.bara c f) s = .next (((arriveBarrier u b).modCore c
        (fun k => { k with str := { k.str with bara := vput k.str.bara b (some x.gen) } })).done c 4) ∧
      (vget (u.core c).str.bara b none ≠ some x.gen → exec (.barw c f) s =
        .next ((u.modCore c (fun k => { k with str := { k.str with bara := vput k.str.bara b none } })).done c 4))) ∧
     (fld f 0 14 = 0 →
      (let v := ((u.core c).readD (fld f 14 4)).toNat
       1 ≤ v → v ≤ 4095 → (u.core c).ring ≤ 1 → exec (.barcfg c f) s = .next (State.done { u with
        barriers := vput u.barriers b { x with count := BitVec.ofNat 12 v, arr := 0 } } c 4)) ∧
      exec (.bargen c f) s = .next ((u.modCore c (fun k => k.writeD (fld f 14 4) (n64 x.gen.toNat))).done c 4)))

/-- Gather jobs (10 R375 to R377, R382 to R386): GSUBMIT answers a code for a descriptor that is turned away, 1 for a full queue or a
disabled function, and 0 for a job put in every queue of its group; GCANCEL ends a job the caller may name and otherwise does nothing;
an engine takes the next position of its job; a job whose positions are done completes, or, once its issued accesses are answered, is refused at
the lowest that failed. -/
def Obligations.GatherJobsComplete : Prop :=
  (∀ (s u : State) (c : CoreId) (f : BitVec 22), s.issued c .plain = some u →
    (fld f 0 14 = 0 → let a := (u.core c).readA (fld f 18 4)
      a.toNat % 64 = 0 → ∀ bs u1, tileRead c a 64 u = .ok bs u1 →
      ∃ j : GJob, j.id = u1.gather.seq ∧ j.core = c ∧ j.ring = (u1.core c).bank.ring ∧ j.task = (u1.core c).accTask ∧ j.addr = a ∧ j.fail = none ∧
        j.skipped = 0 ∧ j.desc = (List.range 8).map (fun i => n64 (leNat ((bs.drop (8 * i)).take 8))) ∧
        j.next = List.replicate j.engines.length 0 ∧
        (∀ r, j.code u1 (u1.core c).str = some r →
          exec (.gsubmit c f) s = .next ((u1.modCore c (fun k => k.writeD (fld f 14 4) (n64 r))).done c 4)) ∧
        (j.code u1 (u1.core c).str = none →
          (vget u1.cur.fns 8 .enabled ≠ .enabled ∨ (∃ e ∈ j.engines, 16 ≤ (vget u1.gather.queue e []).length) →
            exec (.gsubmit c f) s = .next ((u1.modCore c (fun k => k.writeD (fld f 14 4) 1)).done c 4)) ∧
          (vget u1.cur.fns 8 .enabled = .enabled → (∀ e ∈ j.engines, (vget u1.gather.queue e []).length < 16) →
            exec (.gsubmit c f) s = .next (((submitJob u1 j).modCore c (fun k => k.writeD (fld f 14 4) 0)).done c 4)))) ∧
    (fld f 0 18 = 0 →
      (∀ j, u.gather.jobs.find? (fun j => j.core == c && j.addr == (u.core c).readA (fld f 18 4) && !(j.fail.isNone && j.done)) = some j →
        (u.core c).ring ≤ j.ring.toNat → exec (.gcancel c f) s = .next ((endJob u j 1 0 j.lowest).done c 4)) ∧
      ((∀ j ∈ u.gather.jobs, j.core = c → j.addr = (u.core c).readA (fld f 18 4) → j.fail = none ∧ j.done = true) →
        exec (.gcancel c f) s = .next (u.done c 4)))) ∧
  (∀ (s : State) (e : Fin 32) (j : GJob), s.jobAt e.val = some j →
    let r := j.rank e.val
    let p := nth 0 j.next r
    (∀ mine s1, gPosition j (j.liveTask s) r p s = .ok mine s1 →
      exec (.gatherPosition e) s = .next (modJob s1 j.id (fun x => x.step r mine))) ∧
    (∀ cause sub info b s1, gPosition j (j.liveTask s) r p s = .error (.trap cause sub info b) s1 →
      exec (.gatherPosition e) s = .next (modJob s j.id (fun x => { x with
        fail := some (min (x.fail.getD p) p), hlog := x.hlog.filter (fun h => h.1 != r) })))) ∧
  (∀ (s : State) (n : Nat) (j : GJob), s.job n = some j → j.done = true →
    (j.fail = none → exec (.gatherJobComplete n) s = .next (endJob s j 0 0 0)) ∧
    (∀ x, j.fail = some x → (∀ q ∈ s.fab.reqs, ∀ r, q.who ≠ .gather n r) → exec (.gatherJobRefused n) s = .next (endJob s j 2 0x0A x)))

/-- Ports and links (11 R389, R394, R404, R420, R424, R427): a trained port comes up with a whole room of credits and sends HELLO; a port that is
down retries every 10 ms; one that goes down, after eight replays of a packet or 16 µs without a good flit, keeps nothing to send or to
acknowledge, breaks the plans that use it, and enters holdover where it was the time parent's; a replay sends every unacknowledged packet
again; an IDLE flit acknowledges and returns up to 255 credits. -/
def Obligations.PortEventsComplete : Prop :=
  ∀ (s : State) (p : PortId),
    ((s.port p).up = false →
      (s.plat.main = true → 6 ≤ s.plat.stage → s.plat.halted = false → s.plat.recovery = false →
        exec (.portTrained p) s = .next (sendHello (s.setPort p (fun x => { PortSt.reset with
          up := true, fell := x.fell, lastGood := s.now, lastLive := s.now, credit := Vector.ofFn (fun v => vcRoom v.val) })) p)) ∧
      ∃ t, exec (.portTrainingRetry p) s = .next t ∧ t.now = max s.now (s.port p).retryAt ∧ (t.port p).retryAt = t.now + 10000000 ∧
        t.mem = s.mem ∧ t.cores = s.cores ∧ ∀ q, q ≠ p → t.port q = s.port q) ∧
    ((s.port p).up = true →
      (∃ t, exec (.portDown p) s = .next t ∧ (t.port p).up = false ∧ (t.port p).fell = true ∧ (t.port p).retry = [] ∧ (t.port p).txq = [] ∧
        t.now = (if ∃ r ∈ (s.port p).retry, 8 ≤ r.replays then s.now else max s.now ((s.port p).lastGood + 16000)) ∧
        (∀ n ∈ plansVia s p, n ∈ t.fab.broken) ∧ (s.parentPort = some p → bit t.hall.stat 1 = true) ∧ t.mem = s.mem) ∧
      ∃ t, exec (.linkAck p) s = .next t ∧ (t.port p).lastAck = some ((s.port p).rxNext - 1) ∧
        (t.port p).owed = vput (s.port p).owed (s.port p).owedVc (vget (s.port p).owed (s.port p).owedVc 0 - 255) ∧
        t.mem = s.mem ∧ t.cores = s.cores ∧ ∀ q, q ≠ p → t.port q = s.port q) ∧
    (∀ r rs, (s.port p).retry = r :: rs → ∃ t, exec (.linkReplay p) s = .next t ∧ t.now = max s.now (r.sent + 1000) ∧
      (t.port p).retry = (s.port p).retry.map (fun x => { x with sent := t.now, replays := x.replays + 1 }) ∧
      t.mem = s.mem ∧ t.cores = s.cores ∧ ∀ q, q ≠ p → t.port q = s.port q)

/-- Hall time over the links (11 R421 to R424, R427) and HELLO (11 R401, R402, R431): a received LIVE is kept and, from the time parent with an
echo, makes an exchange of the offset and delay R423 gives; a LIVE is queued on VC 4 of its port; 16 µs without an exchange enter holdover,
and its end loses synchronisation; a HELLO names the neighbour, and the updates it lacks, the report of the port and the lowest claim follow
in this order. -/
def Obligations.HallTimeEventsComplete : Prop :=
  (∀ (s u : State) (p : PortId) (k : Packet), s.takes p k tyLIVE u →
    let v := u.setPort p (fun x => { x with liveRx := some (k.arg0, Int.ofNat u.hall.now.toNat) })
    let sent := (u.port p).liveTx.find? (fun l => l.txs == k.w2)
    (bit k.tag 0 = false ∨ u.parentPort ≠ some p ∨ sent = none → exec (.live p k) s = .next v) ∧
    (∀ l, bit k.tag 0 = true → u.parentPort = some p → sent = some l →
      (l.echo = none → exec (.live p k) s = .next v) ∧
      (∀ t1 t2, l.echo = some (t1, t2) →
        let a := t2 - Int.ofNat t1.toNat
        let b := Int.ofNat k.arg1.toNat - l.at'
        exec (.live p k) s = .next (exchange v (fdiv (a - b) 2) (fdiv (a + b) 2) (bit k.tag 1))))) ∧
  (∀ (s : State) (p : PortId), (s.port p).up = true →
    exec (.liveSend p) s = .next ((s.sendOn p (s.stamp { pktEmpty with ty := tyLIVE, vc := 4, dcall := 0xFFFFF#20 })).setPort p (fun x =>
      { x with lastLive := s.now }))) ∧
  (∀ s : State, bit s.hall.stat 2 = false → bit s.hall.stat 1 = false →
    exec .htHoldover s = .next (holdover (s.advanceTo (s.hall.lastEx + 16000)))) ∧
  (∀ s : State, bit s.hall.stat 1 = true → ∃ t, exec .htSyncLost s = .next t ∧ t.now = max s.now (s.hall.holdFrom + 1000000 * fld s.hall.ctl 8 8) ∧
    bit t.hall.stat 0 = false ∧ t.hall.good = 0 ∧ t.mem = s.mem ∧ t.cores = s.cores) ∧
  (∀ (s u : State) (p : PortId) (k : Packet) sh call ed gen rk ft, s.takes p k tyHELLO u → k.body = .hello sh call ed gen rk ft →
    let v := u.setPort p (fun x => { x with nbr := some { shelf := sh, call := call, edition := ed, gen := gen, rank := rk, fit := ft } })
    let lacks (g : BitVec 32) : Bool := newer 32 g.toNat gen.toNat
    let w := reportPort (sendUpdates v p ((if lacks v.fab.gen then [v.wholeUpdate] else []) ++ v.fab.pend.filter (fun x => lacks x.gen))) p true
    (w.fab.claim = none → exec (.hello p k) s = .next (drainTx w p)) ∧
    (∀ c, w.fab.claim = some c → exec (.hello p k) s = .next (drainTx (sendLocal w p (.claim c.1 c.2.1)) p)))

/-- The catalogue and its cataloguer (11 R398 to R403, R422, R428; 13 R494, R505): a claim is heard; the module of the lowest claim takes office
with a first update 1 ms after it; the packets of an update are taken in; the cataloguer issues one that R398 to R403 and R422 allow at the
next generation (what the spec leaves open of it: log 86); the earliest one held takes effect at its TACT; a module none of whose known
links is up is probed, and withdrawn 100 µs after without an answer, or by the update that replaces it where it asked for that. -/
def Obligations.CatalogueEventsComplete : Prop :=
  (∀ (s v : State) (p : PortId) (k : Packet), s.takes p k tyMGMT v →
    (∀ r sh, k.body = .claim r sh → exec (.catalogueClaim p k) s = .next (hearClaim v (some p) r sh)) ∧
    (∀ u, k.body = .update u → exec (.catalogueUpdate (some p) k) s = .next (updatePart v p u))) ∧
  (∀ (s : State) (k : Packet) (u : CatUpdate), k.body = .update u → s.fab.isCat = true → s.updateOk u = true →
    exec (.catalogueUpdate none k) s = .next (takeUpdate s none u)) ∧
  (∀ (s : State) (u : CatUpdate) m t, s.mark = some m → s.fab.claim = some (s.fab.rank, m, t) → s.fab.rank ≠ 7 → s.fab.isCat = false →
    s.fab.gen = 0 → firstOk s u = true → exec (.cataloguerElected u) s =
      .next (let s1 := s.advanceTo (t + 1000000)
        takeUpdate (flushReports { s1 with fab := { s1.fab with isCat := true } }) none u)) ∧
  (∀ (s : State) (u : CatUpdate), s.nextUpdate = some u → exec .catalogueUpdateApply s = .next (applyUpdate (s.toHall u.tact) u)) ∧
  (∀ (s : State) (n : BitVec 20) (e : CatEntry), s.catOf n.toNat = some e → s.fab.isCat = true → e.state ≠ .withdrawn →
    (∃ l ∈ s.fab.links, l.2.2.1 = some e.shelf) → (∀ l ∈ s.fab.links, l.2.2.1 = some e.shelf → l.2.2.2 = false) →
    (∀ x ∈ s.fab.suspects, x.call ≠ n) → exec (.moduleSuspect n) s =
      .next (probe { s with fab := { s.fab with suspects := s.fab.suspects ++ [{ call := n, since := s.now, answered := false }] } } e)) ∧
  (∀ (s : State) (n : BitVec 20) (u : CatUpdate), s.fab.isCat = true → withdraws s n u = true →
    (∀ x, s.fab.suspects.find? (fun x => x.call == n && !x.answered) = some x →
      exec (.moduleWithdrawn n u) s = .next (takeUpdate (s.advanceTo (x.since + 100000)) none u)) ∧
    (s.fab.suspects.find? (fun x => x.call == n && !x.answered) = none → s.fab.wants.contains n.toNat = true →
      (∃ e ∈ u.entries, e.call = n ∧ e.state = .active) → exec (.moduleWithdrawn n u) s = .next (takeUpdate s none u)))

/-- The stores of a core to the device registers that are rows of their own, and every other one (08 R285; 11 R414, R415; 12 R446, R453, R455,
R459, R460, R465, R468; 13 R476, R480, R500; 14 R528; 15 R534 to R536): at ring 0, outside any task, each has the effect of its register; a
trigger stored between a replay's flushes is discarded with PLAN_Q.ERR. -/
def Obligations.DeviceStoresComplete : Prop :=
  (∀ (s u : State) (c : CoreId), s.issued c .plain = some u → (u.core c).direct →
    let led (g : LedState → LedState) : State := (u.modLed g).done c 4
    (∀ v, vget u.cur.fns 6 .enabled = .enabled →
      (u.led.quiet = none → u.fab.planQ.length < 256 →
        exec (.planGo c v) s = .next (State.done { u with fab := { u.fab with planQ := u.fab.planQ ++ [v] } } c 4)) ∧
      (u.led.quiet ≠ none → exec (.planGo c v) s = .next (State.done { u with fab := { u.fab with planErr := true } } c 4))) ∧
    (∀ k, u.led.st = 0 → u.led.sealed = false → exec (.lgStart c k) s = .next ((shareCap (lgStart u k)).done c 4)) ∧
    (∀ d, exec (.lgSealGo c d) s = .next ((lgSealGo u d).done c 4)) ∧
    exec (.lgPostUwr c) s = .next ((postUwr u).done c 4) ∧ exec (.lgPostRootdone c) s = .next ((postRootdone u).done c 4) ∧
    exec (.lgPostRecvdone c) s = .next ((postRecvdone u).done c 4) ∧
    (∀ t3 tx : BitVec 16, t3 ≠ 0 ∨ tx ≠ 0 → exec (.lgPostTwin c t3 tx) s = .next ((postTwin u t3.toNat tx.toNat).done c 4)) ∧
    exec (.svCmdBuild c) s = .next (led (fun l => { l with acc := if l.sealed then some l.last else l.acc, svstat := setFld l.svstat 2 2 1 })) ∧
    exec (.svCmdBuilt c) s = .next (led (fun l => { l with svstat := setFld l.svstat 2 2 2 })) ∧
    exec (.svCmdHeld c) s = .next (led (fun l => { l with astep := l.acc.getD l.astep, acc := none, svstat := setBit (setFld l.svstat 2 2 0) 6 false })) ∧
    exec (.svCmdAbandon c) s = .next (led (fun l => { l with acc := none, svstat := setFld l.svstat 2 2 0 })) ∧
    exec (.svCmdDeposited c) s = .next (led (fun l => { l with dstep := l.astep })) ∧
    (∀ k, exec (.svRewind c k) s = .next ((svRewind u k).done c 4)) ∧
    (∀ v, exec (.pwJobtag c v) s = .next ((setJobtag u v).done c 4)) ∧
    (∀ (off : BitVec 24) (wide : Bool) (v : U64) t, let n := if wide then 8 else 4
      off.toNat < 0x700000 → off.toNat % n = 0 → deviceWrite c 0 off.toNat n (v.toNat % 2 ^ (8 * n)) (n64 (0xE000000000 + off.toNat)) u = .ok () t →
      exec (.deviceRegisterWrite c off wide v) s = .next (t.done c 4))) ∧
  (∀ (s u : State) (c : CoreId) (mb : MailId) (v : U64), s.issued c .plain = some u → (u.core c).direct → boxServes mb.val c 0 = true →
    bit v 0 = true → exec (.mbDoor c mb v) s = .next ((postSlip u mb.val).done c 4) ∧ exec (.mbNpop c mb v) s = .next ((popNotice u mb.val).done c 4))

/-- Requests that arrive from the hall (11 R404, R405, R407, R409, R428) and what passes through: a read, a write and an atomic are checked,
performed at the target and answered; a probe is answered; a packet for another module, accepted on its link and not of a superseded
edition, is forwarded. -/
def Obligations.ReceivedRequestsComplete : Prop :=
  ∀ (s u : State) (p : PortId) (k : Packet),
    (s.takes p k tyRDREQ u → exec (.rdreq p k) s = .next (perform u k doRdreq)) ∧
    (s.takes p k tyWRREQ u → exec (.wrreq p k) s = .next (perform u k doWrreq)) ∧
    (s.takes p k tyATOMREQ u → exec (.atomreq p k) s = .next (perform u k doAtomreq)) ∧
    (s.takes p k tyPROBE u → exec (.probe p k) s =
      .next (u.emit { pktEmpty with ty := tyPROBERESP, vc := 4, dcall := k.scall, tag := k.tag })) ∧
    (linkIn s p k = (u, true) → formOk k = true → forHere s k = false → s.overtaken k.scall.toNat k.sed.toNat = false →
      ¬(k.ty = tyLEDGER ∧ (k.plan.toNat = 0 ∨ 6 < k.plan.toNat)) → exec (.packetForward p k) s = .next (forward (u.notePlan p k) p k))

/-- Answers to this module's own requests (11 R406, R408, R410, R411, R428): the request a response names is answered with its data; a request
that no route serves, or whose time is up, ends as a refusal; a watch is released or broken. -/
def Obligations.ReceivedAnswersComplete : Prop :=
  (∀ (s u : State) (p : PortId) (k : Packet) (q : PendReq),
    (s.takes p k tyRDRESP u → u.asked k = some q → q.req.isRead = true →
      let v := answered (if k.status = 0 then keepWatches u q else u) q
        (.ok (((bodyBytes k.body).drop (fld q.req.addr 0 40 % 64)).take q.req.len) k.pmask.toNat)
      (k.status ≠ 8 → exec (.rdresp p k) s = .next v) ∧
      (k.status = 8 → reqTask u q = none → exec (.rdresp p k) s = .next v) ∧
      (∀ c t, k.status = 8 → reqTask u q = some (c, t) → exec (.rdresp p k) s = .next (abortTask v c t 2))) ∧
    (s.takes p k tyWRACK u → u.asked k = some q → q.req.isRead = false → q.req.isAtomic = false →
      exec (.wrack p k) s = .next (answered u q (.ok [] 0))) ∧
    (s.takes p k tyATOMRESP u → u.asked k = some q → q.req.isAtomic = true →
      exec (.atomresp p k) s = .next (answered u q (.ok (leBytes q.req.len k.arg0.toNat) k.pmask.toNat))) ∧
    (s.takes p k tyREFUSE u → exec (.refuse (some p) k) s = .next (refused u k)) ∧
    (s.reqOf k.tag = some q → q.noRoute = true → exec (.refuse none k) s = .next (refuseReq s q 2)) ∧
    (s.takes p k tyPROBERESP u →
      let xs := u.fab.suspects.map (fun x => if x.call = k.scall then { x with answered := true } else x)
      exec (.proberesp p k) s = .next { u with fab := { u.fab with suspects := xs } }) ∧
    (s.takes p k tyWATCHREL u →
      let ws := u.fab.watches.filter (fun w => !(w.line == pktPa k / 128 && w.scall == k.scall && w.sed == k.sed && w.tag == k.tag))
      exec (.watchrel p k) s = .next { u with fab := { u.fab with watches := ws } }) ∧
    (s.takes p k tyWATCHBREAK u → exec (.watchbreak p k) s = .next (abortTasks u 1
      (u.tasksOf (fun t => t.watches.any (fun w => w.1 == k.scall.toNat && w.2.2 == k.tag.toNat)) ++ u.breakEarly k)))) ∧
  (∀ (s : State) (tag : BitVec 32) (q : PendReq), s.reqOf tag = some q →
    exec (.requestTimeout tag) s = .next (answered (s.advanceTo q.deadline).timedOut q (.refused 0)))

/-- Circulation plans (11 R414 to R419): the trigger at the head of the queue injects or multicasts each of its units, or brings this member
to its hall barrier, or is discarded with an error; a child's REDUCE, in the format the child sends (log 67), and its HARRIVE, and the parent's
MCAST and HRELEASE act on the plan they name; hall time reaching a release makes the member arrive. -/
def Obligations.PlanEventsComplete : Prop :=
  (∀ (s : State) (w : U64) (r : List U64), s.fab.planQ = w :: r →
    let p := fld w 0 12
    let len := fld w 44 20
    let off := fld w 13 31
    (s.plan p = none → exec .planTrigger s = .next (badTrigger s)) ∧
    (∀ e, s.plan p = some e →
      (s.fab.broken.contains p = true ∨ s.led.quiet.isSome = true ∨ (planKind e ≠ 3 ∧ (len = 0 ∨ planLimit e < off + len)) →
        exec .planTrigger s = .next (badTrigger s)) ∧
      (s.fab.broken.contains p = false → s.led.quiet = none →
        (len ≠ 0 → off + len ≤ planLimit e →
          (planKind e = 1 → planLocal e = true →
            exec .planTrigger s = .next (overUnits (fun s u m => inject s p e u m) (popTrigger s) off len (bit w 12))) ∧
          (planKind e = 2 → planRoot e = true →
            exec .planTrigger s = .next (overUnits (fun s u m => mcastSend s p e u m) (popTrigger s) off len (bit w 12)))) ∧
        (planKind e = 3 → planLocal e = true → (s.run p).waiting = false →
          exec .planTrigger s = .next (barrierUp ((popTrigger s).modRun p (fun r => { r with ownIn := true, waiting := true })) p e))))) ∧
  (∀ (s u : State) (p : PortId) (k : Packet) (e : List U64),
    let n := k.plan.toNat
    u.plan n = some e → u.fab.broken.contains n = false →
    (∀ j, planKid e k.scall.toNat = some j →
      (s.takes p k tyREDUCE u → planKind e = 1 →
        let w32 := Config.childSendsFp32 n k.scall.toNat
        let half := b01 (bit k.tag 0)
        let xs := planVals w32 (if w32 then 64 else 128) (bodyBytes k.body)
        exec (.reduce p k) s = .next (heldInput (consumed u (k.pmask != 0)) n e (fld k.w2 0 40) (lacksKid w32 j half)
          (childInput w32 j half xs k.mark))) ∧
      (s.takes p k tyHARRIVE u → planKind e = 3 →
        exec (.harrive p k) s = .next (barrierUp (u.modRun n (fun r => { r with kidsIn := setAdd j r.kidsIn })) n e))) ∧
    (planRoot e = false → planParent e = k.scall.toNat →
      (s.takes p k tyMCAST u → planKind e = 2 →
        let v := mcastDown u n e (fld k.w2 0 40) k.mark k.pmask.toNat (bodyBytes k.body)
        exec (.mcast p k) s =
          .next (if planLocal e then mcastLand v n e (fld k.w2 0 40) k.mark k.pmask.toNat (bodyBytes k.body) else v)) ∧
      (s.takes p k tyHRELEASE u → planKind e = 3 → exec (.hrelease p k) s = .next (release u n e k.arg0)))) ∧
  (∀ (s : State) (p : BitVec 12) e t, s.plan p.toNat = some e → (s.run p.toNat).relAt = some t →
    exec (.hallBarrierArrive p) s = .next (hallArrive (s.toHall t) p.toNat e t))

/-- The seal (12 R447, R449 to R453, R459, R460, R462, R464; 13 R488, R489): the vote is cast once the module's request and every voting
child's vote are in; a LEDGER message that is for the step and from the place R462 says acts as its kind does, and one that is not admitted
is dropped and counted; a SEALED and a REPLAY outcome are applied at their T, the second flush at T + QUIET, and a field-test window and a
reserve's test cycle end with their tests made (what a test finds is open, log 1). -/
def Obligations.SealEventsComplete : Prop :=
  (∀ s : State, s.voteOpen = true → s.led.voted = false → s.led.st = 2 → (s.led.post = none ∨ s.led.fresh = true) →
    (∀ c ∈ s.led.voting, ∃ v ∈ s.led.kidVotes, v.1 = c) → exec .voteSend s = .next (castVote s)) ∧
  (∀ (s v : State) (p : PortId) (k : Packet), s.takes p k tyLEDGER v →
    let u := v.owe (some p) k
    let bs := bodyBytes k.body
    let g (i : Nat) : U64 := n64 (nth 0 (items 8 5 bs) i)
    let c := k.scall.toNat
    let first := fld k.w2 0 9
    let digs := (items 16 16 bs).map (BitVec.ofNat 128)
    (ledAdmits v k = false →
      (k.plan = 1 → exec (.vote p k) s = .next u.drop) ∧ (k.plan = 2 → exec (.outcome p k) s = .next u.drop) ∧
      (k.plan = 3 → exec (.digup p k) s = .next u.drop) ∧ (k.plan = 4 → exec (.digdown p k) s = .next u.drop) ∧
      (k.plan = 5 → exec (.uwrup p k) s = .next u.drop) ∧ (k.plan = 6 → exec (.ratiodn p k) s = .next u.drop)) ∧
    (ledAdmits v k = true → ledActs u k = true → vget v.cur.fns 7 .enabled = .enabled →
      (k.plan = 1 → exec (.vote p k) s = .next (ledVote u c { word := g 0, loss := g 1, tokens := g 2, members := g 3 })) ∧
      (k.plan = 2 → exec (.outcome p k) s = .next (ledOutcome u { word := g 0, loss := g 2, tokens := g 3, members := g 4 } (g 1))) ∧
      (k.plan = 3 →
        let l := u.led.digKids.filter (fun d => !(d.1 == c && d.2.1 == first)) ++ [(c, first, digs)]
        exec (.digup p k) s = .next (digestsUp (u.modLed (fun x => { x with digKids := l })) first)) ∧
      (k.plan = 4 → exec (.digdown p k) s = .next (digestsDown u first digs)) ∧
      (k.plan = 5 →
        let ps := (List.range 32).map (fun i => (nth 0 (items 4 64 bs) (2 * i), nth 0 (items 4 64 bs) (2 * i + 1)))
        let l := u.led.uwrKids.filter (fun d => !(d.1 == c && d.2.1 == first)) ++ [(c, first, ps)]
        exec (.uwrup p k) s = .next (sumsUp (u.modLed (fun x => { x with uwrKids := l })) first)) ∧
      (k.plan = 6 → exec (.ratiodn p k) s = .next (ratiosDown u first (items 4 64 bs))))) ∧
  (∀ s : State, s.ledWorks = true →
    (∀ o, s.led.outcome = some o →
      (o.replay = false → exec .sealedOutcomeApply s = .next (applySealed s o)) ∧
      (o.replay = true →
        let t := (applyReplay s o.time).modLed (fun l => { l with stat := setFld l.stat 4 10 (fld o.vote.word 0 10), wdPass := false })
        exec .replayOutcomeApply s = .next (judgeReplay t s.ownWord o s.led.replays s.led.wdPass))) ∧
    (∀ t, s.led.quiet = some t → exec .replayQuietFlush s =
      .next (lateVote (afterFlush (stepArrive (flushPlans ((s.toHall t).modLed (fun l => { l with quiet := none }))))))) ∧
    (∀ t, s.led.window = some t →
      let s1 := (((testAll (s.toHall t) false).1).modPow PowState.relieve).modLed (fun l =>
        { l with window := none, svstat := setBit l.svstat 25 false })
      (s1.led.quiet = none → exec .fieldTestWindowEnd s = .next (completeSeal s1)) ∧
      (s1.led.quiet ≠ none → exec .fieldTestWindowEnd s =
        .next (s1.modLed (fun l => { l with sent := [], recv := [], heldGo := none }))))) ∧
  (∀ s : State,
    let r := testAll (stressCycle s) true
    let t : State := { r.1 with cur := { r.1.cur with qualCycle := r.2, ftest := none } }
    (s.feState = 2 → s.cur.ftest = none → exec .reserveTestCycle s = .next t) ∧
    (∀ mb seq, s.cur.ftest = some (mb, seq) →
      exec .reserveTestCycle s = .next (queueNotice t mb (mkNotice t 1 0 (n64 seq) 0))))

/-- What a router's port delivers to this module (11 R391, R394, R396, R405, R430, R432, R433; 15 R554): a packet is delivered exactly when the port is up,
its CRCs, sequence number and form are right, it is for this module, its editions are current, and neither fencing nor FN6 turns it away. -/
def Obligations.PacketDelivery : Prop :=
  ∀ (s : State) (p : PortId) (k : Packet), (receive s p k).2 = true ↔
    ((s.port p).up = true ∧ k.lcrc = pktL k ∧ k.ty ≠ tyIDLE ∧ k.lseq = (s.port p).rxNext ∧ formOk k = true ∧
      (k.dcall = 0xFFFFF#20 ∨ s.overtaken k.scall.toNat k.sed.toNat = false) ∧ forHere s k = true ∧ k.pcrc = pktP k ∧
      (s.feState = 3 → routerTraffic k = true) ∧
      (k.dcall ≠ 0xFFFFF#20 → newer 16 s.edition k.ded.toNat = false ∧ newer 16 k.ded.toNat s.edition = false) ∧
      (routerTraffic k = false → s.fnState 6 ≠ .disabled ∧ s.fnState 6 ≠ .resetting ∧ (s.fnState 6 = .draining → pktIsReq k = false)))

/-- Source keys (15 R546): bits [2:0] are the mailbox number, bits [22:3] the call number MB2 to MB5 are bound to, every other bit is 0; a slip
carries the key of its mailbox, and MB0's is the lowest. -/
def Obligations.SourceKeys : Prop :=
  ∀ (s : State) (mb : MailId) (req : List (Nat × Byte)),
    let key := s.sourceKey mb.val
    (s.slipOf mb.val req).key = key ∧ fld key 0 3 = mb.val ∧
    (∀ b, 2 ≤ mb.val → mb.val ≤ 5 → (s.box mb.val).bind = some b → fld key 3 20 = b.1.toNat) ∧
    (mb.val < 2 ∨ 5 < mb.val → fld key 3 20 = 0) ∧ fld key 23 41 = 0 ∧
    (s.sourceKey 0).toNat ≤ key.toNat

/-- Frequency changes and phases (14 R509, R510, R512, R516 to R518, R525, R529): the loop moves the target by 25 MHz against the cap, within 600 MHz
and the phase's frequency; a change switches after relock, ramp and 10 µs without droop; an increase held for 1 ms is abandoned. PHASE asks from the
core PW_CTL.PMCORE names and only completes on any other; the event moves to the named time and sets the phase. -/
def Obligations.FrequencyAndPhaseComplete : Prop :=
  (∀ (s : State) (w : BitVec 16),
    let u := (s.tickTo 1 1000000).modPow (fun p => { p with pin := w.toNat })
    let p := s.pow
    let want := if p.cap64 < 64 * w.toNat then p.target - 25
      else if 64 * (w.toNat + 150) < p.cap64 ∧ p.freq < p.phaseFreq then p.target + 25 else p.target
    let f := max 600 (min (min (min 1350 p.phaseFreq) (1350 - p.thDrop)) want)
    (p.fixed = false → s.plat.main = true → s.plat.stage = 8 → f ≠ p.target →
      exec (.frequencyLoopTick w) s = .next (u.modPow (fun p => p.request f))) ∧
    (p.fixed = true ∨ s.plat.main = false ∨ s.plat.stage ≠ 8 ∨ f = p.target → exec (.frequencyLoopTick w) s = .next u)) ∧
  (∀ (s : State) (x : FreqChange), s.pow.change = some x →
    exec .pllRelocked s = .next (s.modPow (fun p => PowState.ready { p with change := some { x with relocked := true } } s.now)) ∧
    (∀ r, x.readyAt = some r →
      let t := max r (s.pow.clearAt + 10000)
      (s.pow.clear = true → (s.pow.freq < x.target → max t s.now ≤ r + 1000000) →
        ∃ u, exec .frequencySwitch s = .next u ∧ u.pow.freq = x.target ∧ u.pow.change = none ∧ u.now = max s.now t ∧
          u.mem = s.mem ∧ u.cores = s.cores) ∧
      (s.pow.freq < x.target → s.pow.droopAllows (max s.now (r + 1000000)) = false →
        ∃ u, exec .frequencyIncreaseAbandoned s = .next u ∧ u.pow.freq = s.pow.freq ∧ u.pow.target = s.pow.freq ∧ u.pow.change = none ∧
          u.now = max s.now (r + 1000000) ∧ u.mem = s.mem ∧ u.cores = s.cores))) ∧
  (∀ s : State, s.pow.ramping = true →
    exec .voltageRampDone s = .next (s.modPow (fun p => (PowState.startRamp { p with ramping := false }).ready s.now))) ∧
  (∀ (s u : State) (c : CoreId) (f : BitVec 22), s.issued c .plain = some u → fld f 0 13 = 0 → (bit f 17 = false → fld f 13 4 = 0) →
    (fld u.pow.ctl 8 8 = c.val → exec (.phase c f) s = .next (State.done { u with pow := { u.pow with
      phaseReq := some (fld f 18 4, if bit f 17 then some ((u.core c).readD (fld f 13 4)) else none) } } c 4)) ∧
    (fld u.pow.ctl 8 8 ≠ c.val → exec (.phase c f) s = .next (u.done c 4))) ∧
  (∀ (s : State) (n : Nat) (w : Option U64), s.pow.phaseReq = some (n, w) →
    ∃ s1 t, s1 = (match w with
        | some x => s.toHall x
        | none => s) ∧ exec .phaseTakesEffect s = .next t ∧ t.mem = s.mem ∧ t.pow.phase = n ∧ t.pow.phaseReq = none)

/-- Measurements, limiters, droop and array gates (14 R511 to R514, R521, R523, R525 to R529): energy accumulates and the full stretch stands
above 2,800 W; the average limiter and the cap stretch move by one step; a droop of more than 4 % stretches its clock by a depth the spec
leaves open (log 1) until it clears; hot junctions throttle; a gate opens at its time, and a ramp takes its next step. -/
def Obligations.PowerEventsComplete : Prop :=
  (∀ (s : State) (w : BitVec 16), ∃ t, exec (.powerMeasurement w) s = .next t ∧
    (let nj := s.pow.energyFrac + w.toNat * (t.now - vget s.pow.ticks 0 0)
     t.pow.energy = s.pow.energy + n64 (nj / 1000000) ∧ t.pow.energyFrac = nj % 1000000) ∧
    t.pow.full = (decide (2800 < w.toNat) || (s.pow.full && w.toNat == 2800)) ∧ t.now = max s.now (vget s.pow.ticks 0 0 + 1000) ∧
    t.mem = s.mem ∧ t.cores = s.cores) ∧
  (∀ (s : State) (w : BitVec 16), ∃ t, exec (.averageLimiterTick w) s = .next t ∧ t.pow.pin10 = w.toNat ∧
    t.pow.lim = (if 2400 < w.toNat then min 8 (s.pow.lim + 1) else if w.toNat ≤ 2375 then s.pow.lim - 1 else s.pow.lim) ∧
    t.mem = s.mem ∧ t.cores = s.cores) ∧
  (∀ (s : State) (w : BitVec 16), s.pow.fixed = true → ∃ t, exec (.capStretchTick w) s = .next t ∧ t.pow.pin = w.toNat ∧
    t.pow.capStr = (if s.pow.cap64 < 64 * w.toNat then min 8 (s.pow.capStr + 1)
      else if 64 * (w.toNat + 25) ≤ s.pow.cap64 then s.pow.capStr - 1 else s.pow.capStr) ∧ t.mem = s.mem ∧ t.cores = s.cores) ∧
  (∀ (s : State) (q : Fin 5) (d : BitVec 8), 40 < d.toNat → d.toNat ≤ 100 → ∃ t, exec (.droopTrip q d) s = .next t ∧
    (t.pow.droop.get q).tripped = true ∧ 1 ≤ (t.pow.droop.get q).depth ∧ (t.pow.droop.get q).depth ≤ 8 ∧
    (∀ r, r ≠ q → t.pow.droop.get r = s.pow.droop.get r) ∧ t.mem = s.mem ∧ t.cores = s.cores) ∧
  (∀ (s : State) (q : Fin 5), (s.pow.droop.get q).tripped = true → ∃ t, exec (.droopClear q) s = .next t ∧
    (t.pow.droop.get q).tripped = false ∧ (t.pow.droop.get q).depth = 0 ∧ t.mem = s.mem ∧ t.cores = s.cores) ∧
  (∀ (s : State) (x : BitVec 8), s.plat.main = true → ∃ t, exec (.thermalRead x) s = .next t ∧ t.pow.tj = x ∧
    (s.pow.throt.toNat < x.toNat → t.pow.thr = true ∧ t.plat.stTemp = s.plat.stTemp ||| 0x40#8) ∧ t.mem = s.mem ∧ t.cores = s.cores) ∧
  (∀ (s : State) (q : QuadId) (x : U64), (s.pow.gates.get q).opens = some x → ∃ t, exec (.arrayGateOpen q) s = .next t ∧
    t.pow.gates.get q = { s.pow.gates.get q with opens := none, step := 1, stepEnd := t.hall.now + 250 } ∧ t.mem = s.mem ∧ t.cores = s.cores) ∧
  (∀ (s : State) (q : QuadId), (s.pow.gates.get q).step ≠ 0 → (s.pow.gates.get q).opens = none → ∃ t, exec (.rampStep q) s = .next t ∧
    (t.pow.gates.get q).step = (if (s.pow.gates.get q).step = 8 then 0 else (s.pow.gates.get q).step + 1) ∧ t.mem = s.mem ∧ t.cores = s.cores) ∧
  (∀ (s : State) (a : Nat) ms, s.pow.broker = some (a, ms) → ∃ t, exec .brokerMeanTimeout s = .next t ∧ t.pow.broker = none ∧
    t.now = max s.now (a + 1000000) ∧ t.mem = s.mem ∧ t.cores = s.cores) ∧
  (∀ (s u : State) (p : PortId) (k : Packet) (ws : List U64), s.takes p k tyMGMT u → k.body = .words 1 ws →
    exec (.meanSlack p k) s = .next (brokerMean u k.scall.toNat (nth 0 ws 0).toNat (nth 0 ws 1).toNat))

/-- The input, its trips and PWR_EN (14 R530; 17 R588, R589, R591, R595, R597): a supplied module below 36.0 V or above 44.0 V, one with main
conversion on and a junction above 110 °C, and one whose PWR_EN falls stop main conversion with their trip and status bits; above 37.0 V
the undervoltage trip clears; the input comes, warns and goes. -/
def Obligations.InputEventsComplete : Prop :=
  (∀ (s : State) (mv : BitVec 16), s.plat.present = true →
    let v := (s.modPlat (fun p => { p with vin := mv.toNat, lowSince := if 20000 ≤ mv.toNat then none else some (p.lowSince.getD s.now) }))
    (mv.toNat < 36000 → exec (.undervoltageLockout mv) s =
      .next (stopConversion (v.modPlat (fun p => { p with uvTrip := true, stIn := p.stIn ||| 0x38#8 })))) ∧
    (44000 < mv.toNat → exec (.overvoltageShutdown mv) s =
      .next (stopConversion (v.modPlat (fun p => { p with ovTrip := true, stIn := p.stIn ||| 0xC0#8 })))) ∧
    (37000 < mv.toNat → s.plat.uvTrip = true → exec (.undervoltageLockoutClear mv) s = .next (v.modPlat (fun p => { p with uvTrip := false }))) ∧
    exec (.vinWarning mv) s = .next (v.modPlat (fun p => { p with
      stIn := p.stIn ||| (if 42000 < mv.toNat then 0x40#8 else if mv.toNat < 38000 then 0x20#8 else 0) }))) ∧
  (∀ (s : State) (mv : BitVec 16), s.plat.present = false → 20000 < mv.toNat →
    exec (.inputPresent mv) s = .next (s.modPlat (fun p => { p with present := true, vin := mv.toNat, lowSince := none }))) ∧
  (∀ (s : State) (x : BitVec 8), s.plat.main = true → 110 < x.toNat → exec (.thermtrip x) s =
    .next (stopConversion (s.modPlat (fun p => { p with thermTrip := true, tjLast := Int.ofNat x.toNat,
                                                        stTemp := p.stTemp ||| (if s.pow.throt.toNat < x.toNat then 0xC0#8 else 0x80#8) })))) ∧
  (∀ s : State, s.plat.pwrEn = true →
    exec .pwrEnDeassert s = .next (stopConversion (s.modPlat (fun p => { p with pwrEn := false, pwrOff := some s.now })))) ∧
  (∀ s : State, s.plat.present = true → ∃ t, exec .inputRemoved s = .next t ∧ t.plat.present = false ∧ t.plat.vin = 0 ∧
    t.plat.uvTrip = false ∧ t.plat.ovTrip = false ∧ t.plat.thermTrip = false ∧ t.plat.stIn = 0 ∧ t.plat.stTemp = 0 ∧ t.plat.pmb = [])

/-- Mailboxes (15 R534 to R541; 17 R593): a management frame of kind 1 posts a slip to MB1, whose controller identifier is kept; a slip is answered with the reply its command
formed, with the status its checks give, or with CONTINUE for a part; MB_BIND binds or unbinds MB2 to MB5, and a binding ends 10 s after
its last post. -/
def Obligations.MailboxEventsComplete : Prop :=
  (∀ (s : State) (bs : List Byte), s.portLive = true → leNat (bs.take 1) = 1 → bs.length ≤ 4232 →
    (bit (s.box 1).stat 0 = true → exec (.managementFrame bs) s = .next (postSlip s 1)) ∧
    (bit (s.box 1).stat 0 = false →
      let u := s.modBox 1 (fun m => { m with req := spSetAll 0 [] 0 ((bs.drop 8).take 4160) })
      exec (.managementFrame bs) s =
        .next (postSlip { u with cur := { u.cur with portId := BitVec.ofNat 16 (leNat ((bs.drop 1).take 2)) } } 1))) ∧
  (∀ (s : State) (mb : MailId) (sl : Slip), (s.box mb.val).slip = some sl →
    (∀ r, (s.box mb.val).reply = some r → exec (.slipAnswered mb) s = .next (respond s mb.val sl r)) ∧
    ((s.box mb.val).reply = none → sl.taken = false →
      (∀ st d, s.judge mb.val sl = .refuse st d → exec (.slipAnswered mb) s = .next (respond (if d then unstage s mb.val else s) mb.val sl
        { status := st, rets := [], payload := [], cls := cmdClass sl.cmd })) ∧
      (s.judge mb.val sl = .part → exec (.slipAnswered mb) s =
        .next (respond (s.modBox mb.val (fun m => { m with stage := m.stage ++ sl.payload, stageOf := some (sl.cmd, sl.seq) })) mb.val sl
          { status := stCONTINUE, rets := [], payload := [], cls := 0 })))) ∧
  (∀ (s : State) (mb : MailId) (sl : Slip), s.slipFor mb.val 0x46 = some (sl, []) →
    let m := (sl.arg 0).toNat
    let c := (sl.arg 1).toNat
    2 ≤ m → m ≤ 5 →
    (c = 0xFFFFF ∨ c = 0xFFFFFFFFFFFFFFFF → exec (.mbBind mb) s = .next (reply (unbind s m) mb.val stOK [] [])) ∧
    (c < 0xFFFFF → (sl.arg 2).toNat < 2 ^ 16 → exec (.mbBind mb) s =
      .next (reply (bindBox s m (BitVec.ofNat 20 c) ((sl.arg 2).setWidth 16) (BitVec.ofNat 16 (s.catEd c))) mb.val stOK [] []))) ∧
  (∀ (s : State) (mb : MailId), (s.box mb.val).bind ≠ none →
    exec (.mailboxBindingExpiry mb) s = .next (unbind (s.advanceTo ((s.box mb.val).posted + 10000000000)) mb.val))

/-- Ownership (15 R544, R546 to R552): a query, a claim, a renewal, a release, a grant, a forced ownership and a key are answered as their rules
say; a contest closes for the claim of the highest standing, then lowest key; an unrenewed lease ends. -/
def Obligations.OwnershipCommandsComplete : Prop :=
  (∀ (s : State) (mb : MailId) (sl : Slip) (pay : List Byte),
    let ok (t : State) : Host.Outcome State Fault Refusal := .next (reply t mb.val stOK [] [])
    let no (st : Nat) : Host.Outcome State Fault Refusal := .next (reply s mb.val st [] [])
    let st : BitVec 3 := (sl.arg 0).setWidth 3
    (s.slipFor mb.val 0x01 = some (sl, []) →
      (s.liveOwner = none → exec (.ownQuery mb) s = .next (reply s mb.val stOK [0xFFFFFFFFFFFFFFFF#64, 0, s.cur.challenge] [])) ∧
      (∀ o, s.liveOwner = some o → exec (.ownQuery mb) s =
        .next (reply s mb.val stOK [o.key, n64 (o.standing.toNat + ((o.lease - s.now) / 1000000) <<< 32), s.cur.challenge] []))) ∧
    (s.slipFor mb.val 0x02 = some (sl, []) → (sl.arg 0).toNat < 8 →
      let u := settleLease s
      (u.isOwner sl.key = true → exec (.ownClaim mb) s = ok (renewLease u st)) ∧
      (∀ o, u.isOwner sl.key = false → (sl.rival = some o ∨ (sl.rival = none ∧ u.cur.owner = some o)) →
        exec (.ownClaim mb) s = .next (reply u mb.val stHELD [o.key, o.standing.setWidth 64] [])) ∧
      (u.isOwner sl.key = false → sl.rival = none → u.cur.owner = none →
        let join (c : Nat) (l : List (Nat × U64 × BitVec 3)) : Host.Outcome State Fault Refusal :=
          .next (takeSlip { u with cur := { u.cur with contest := some (c, l ++ [(mb.val, sl.key, st)]) } } mb.val)
        (u.cur.contest = none → exec (.ownClaim mb) s = join (sl.at' + 1000000) []) ∧
        (∀ c l, u.cur.contest = some (c, l) → sl.at' < c → exec (.ownClaim mb) s = join c l))) ∧
    (s.slipFor mb.val 0x03 = some (sl, []) →
      (∀ o, s.cur.owner = some o → sl.own = true → o.key = sl.key → exec (.ownRenew mb) s = ok (renewLease s o.standing)) ∧
      (s.cur.owner = none → exec (.ownRenew mb) s = no stNOTOWNER)) ∧
    (s.slipFor mb.val 0x04 = some (sl, []) →
      (s.isOwner sl.key = true → exec (.ownRelease mb) s = ok (releaseOwner s)) ∧ (s.isOwner sl.key = false → exec (.ownRelease mb) s = no stNOTOWNER)) ∧
    (s.slipFor mb.val 0x05 = some (sl, []) → (sl.arg 0).toNat < 8 → (sl.arg 1).toNat < 64 →
      let m := (sl.arg 0).toNat
      (2 ≤ m → m ≤ 5 → (s.box m).bind = none → exec (.ownGrant mb) s = no stSTATE) ∧
      ((m < 2 ∨ 5 < m ∨ (s.box m).bind ≠ none) → exec (.ownGrant mb) s =
        ok { s with cur := { s.cur with grants := vput s.cur.grants m (BitVec.ofNat 6 (sl.arg 1).toNat) } })) ∧
    (s.slipFor mb.val 0x06 = some (sl, pay) →
      (s.plat.forceKey = none → exec (.ownForce mb) s = no stBADTOKEN) ∧
      (∀ key, s.plat.forceKey = some key → s.tokenOk key pay = true → exec (.ownForce mb) s =
        ok (answerHeld (takeOwner (newChallenge { s with cur := { s.cur with contest := none } }) sl.key (BitVec.ofNat 3 (tokWord pay 0x10))) s.claimants))) ∧
    (s.slipFor mb.val 0x07 = some (sl, pay) →
      (s.plat.forceKey = none → pay.length = 32 → exec (.ownKeyset mb) s = ok (setForceKey s pay)) ∧
      (∀ key, s.plat.forceKey = some key → pay.length = 32 + tokenLen → s.tokenOk key (pay.drop 32) = true →
        exec (.ownKeyset mb) s = ok (setForceKey (newChallenge s) (pay.take 32))))) ∧
  (∀ (s : State) (x : Nat) l, s.cur.contest = some (x, l) →
    let u := s.advanceTo x
    let v : State := { u with cur := { u.cur with contest := none } }
    (u.claimants = [] → exec .ownershipContestClose s = .next v) ∧
    (∀ c cs, u.claimants = c :: cs →
      let w := cs.foldl (fun w x => if claimBeats x w then x else w) c
      exec .ownershipContestClose s =
        .next (answerHeld (reply (takeOwner v w.2.1 w.2.2) w.1 stOK [] []) (u.claimants.filter (fun x => x.1 != w.1))))) ∧
  (∀ (s : State) o, s.cur.owner = some o → s.renewing o.key = false → exec .leaseExpiry s = .next (releaseOwner (s.advanceTo o.lease)))

/-- The Curator's commands that read (11 R412; 13 R485; 14 R531; 15 R543, R544, R555, R561, R562; 16 R566, R574, R576): each answers OK with the
words and payload its entry of R544 names; a ledger entry that another step holds the place of is answered NOTFOUND. -/
def Obligations.CuratorReadsComplete : Prop :=
  ∀ (s : State) (mb : MailId) (sl : Slip) (pay : List Byte),
    (s.slipFor mb.val 0x10 = some (sl, []) → exec (.info mb) s = .next (reply s mb.val stOK s.infoWords [])) ∧
    (s.slipFor mb.val 0x11 = some (sl, []) →
      exec (.arrayMap mb) s = .next (reply s mb.val stOK [] (s.compute.flatMap (fun k => leBytes 4 (fld k.tile.live 0 19))))) ∧
    (s.slipFor mb.val 0x12 = some (sl, []) → (sl.arg 0).toNat % 4096 = 0 → exec (.bookplate mb) s =
      .next (reply s mb.val stOK [n64 Config.bookplate.length] ((Config.bookplate.drop (sl.arg 0).toNat).take 4096))) ∧
    (s.slipFor mb.val 0x13 = some (sl, pay) →
      (sl.arg 0 = 0 → pay.length = 32 →
        let q := (padTo quoteLen (s.quoteBody pay ++ Config.quoteSign (s.quoteBody pay))).take quoteLen
        exec (.quote mb) s = .next (reply (s.modBox mb.val (fun m => { m with quote := some q })) mb.val stOK [n64 quoteLen] (q.take 4096))) ∧
      (∀ q, sl.arg 0 ≠ 0 → (sl.arg 0).toNat % 4096 = 0 → (sl.arg 0).toNat < quoteLen → pay = [] → (s.box mb.val).quote = some q →
        exec (.quote mb) s = .next (reply s mb.val stOK [n64 quoteLen] ((q.drop (sl.arg 0).toNat).take 4096)))) ∧
    (s.slipFor mb.val 0x34 = some (sl, []) →
      exec (.pwRead mb) s = .next (reply s mb.val stOK [] (wordBytes ((List.range 48).map (fun i => s.powWord (8 * i)))))) ∧
    (s.slipFor mb.val 0x43 = some (sl, []) → ∀ ps, sl.plans = some ps → exec (.planRead mb) s =
      .next (reply s mb.val stOK [] (wordBytes (ps.flatMap s.planEntry)))) ∧
    (s.slipFor mb.val 0x44 = some (sl, []) → (sl.arg 1).toNat ≤ 256 → (sl.arg 0).toNat + (sl.arg 1).toNat ≤ 2 ^ 20 →
      exec (.catRead mb) s = .next (reply s mb.val stOK [] ((rng (sl.arg 0).toNat (sl.arg 1).toNat).flatMap s.catRecord))) ∧
    (s.slipFor mb.val 0x50 = some (sl, []) → exec (.weedRead mb) s = .next (reply s mb.val stOK [] s.plat.weedBytes)) ∧
    (s.slipFor mb.val 0x70 = some (sl, []) → exec (.telemRead mb) s = .next (reply s mb.val stOK [] (wordBytes s.cur.tm.toList))) ∧
    (s.slipFor mb.val 0x72 = some (sl, []) → (sl.arg 2).toNat ≤ 4096 → (sl.arg 1).toNat + (sl.arg 2).toNat ≤ 0x10000 →
      (s.ledWord (sl.arg 0) 0 = sl.arg 0 → fld (s.ledWord (sl.arg 0) 8) 0 2 ≠ 0 → exec (.ledgerRead mb) s =
        .next (reply (l2Touch s (entryPa (sl.arg 0) + (sl.arg 1).toNat) (sl.arg 2).toNat false) mb.val stOK []
          (s.bytes (entryPa (sl.arg 0) + (sl.arg 1).toNat) (sl.arg 2).toNat))) ∧
      (s.ledWord (sl.arg 0) 0 ≠ sl.arg 0 ∨ fld (s.ledWord (sl.arg 0) 8) 0 2 = 0 →
        exec (.ledgerRead mb) s = .next (reply s mb.val stNOTFOUND [] [])))

/-- Functions, device reset and core control (06 R254; 07 R275; 15 R544, R554 to R560; 16 R564): each command on an enabled function, or on a core
in the state it needs, acts and is answered; a drain and a reset end; a device reset follows its command. -/
def Obligations.FunctionCommandsComplete : Prop :=
  (∀ (s : State) (mb : MailId) (sl : Slip),
    let ok (t : State) : Host.Outcome State Fault Refusal := .next (reply t mb.val stOK [] [])
    let fn := (sl.arg 0).toNat
    let d := (sl.arg 1).toNat
    let limit := if d = 0 then 1000 else d
    (s.slipFor mb.val 0x20 = some (sl, []) → exec (.fnQuery mb) s = .next (reply s mb.val stOK [s.fnStatus] [])) ∧
    (1 ≤ fn → fn ≤ 9 →
      (s.slipFor mb.val 0x21 = some (sl, []) → d ≤ 100000 →
        (s.fnState fn = .enabled → exec (.fnDisable mb) s = .next (startDrain (takeSlip s mb.val) fn limit [(mb.val, false)] false false)) ∧
        (s.fnState fn = .disabled → exec (.fnDisable mb) s = .next (reply s mb.val stOK [0] []))) ∧
      (s.slipFor mb.val 0x22 = some (sl, []) →
        (s.fnState fn = .enabled → exec (.fnEnable mb) s = ok s) ∧
        (s.fnState fn = .disabled →
          let u := s.setFn fn .enabled
          exec (.fnEnable mb) s = ok (if fn = 6 ∨ fn = 7 then ledgerPairs u else if fn = 1 ∧ s.plat.hubUp = false then startHub u else u)) ∧
        (s.fnState fn = .draining ∨ s.fnState fn = .resetting → exec (.fnEnable mb) s = .next (reply s mb.val stBUSY [] []))) ∧
      (s.slipFor mb.val 0x23 = some (sl, []) → d ≤ 100000 → fld (sl.arg 2) 1 63 = 0 → s.fnState fn = .enabled →
        exec (.fnReset mb) s = .next (startDrain (takeSlip s mb.val) fn limit [(mb.val, true)] true (bit (sl.arg 2) 0)))) ∧
    (s.slipFor mb.val 0x24 = some (sl, []) → s.plat.fw.bind (fun f => f.ending) = none →
      exec (.devReset mb) s = ok { s with cur := { s.cur with devReset := some (s.cur.devReset.getD (s.now + 1000000)) } }) ∧
    (s.slipFor mb.val 0x28 = some (sl, []) → 1 ≤ fn → fn ≤ 100000 →
      exec (.wdog mb) s = ok { s with cur := { s.cur with wdLimit := 1000 * fn } }) ∧
    (∀ h : fn < 144, let c : CoreId := ⟨fn, h⟩
      let x := (s.core c).ex
      (s.slipFor mb.val 0x25 = some (sl, []) →
        (x.stop.valid = true → exec (.coreStoprec mb) s = .next (reply s mb.val stOK [stopWord x.stop, x.stop.pc, x.stop.time] [])) ∧
        (x.stop.valid = false → exec (.coreStoprec mb) s = .next (reply s mb.val stNOTFOUND [] []))) ∧
      (s.slipFor mb.val 0x26 = some (sl, []) → x.run ≠ .parked → s.fnState (coreFn c) = .enabled → x.stop.valid = true → d % 4 = 0 →
        exec (.coreRestart mb) s = ok (startCore s c (sl.arg 1))) ∧
      (s.slipFor mb.val 0x27 = some (sl, []) → exec (.coreStop mb) s = ok (haltByOrder s c .command)) ∧
      (s.slipFor mb.val 0x29 = some (sl, []) →
        (x.run = .running → ∃ t, exec (.dbgHalt mb) s = ok t ∧ (t.core c).ex.run = .halted ∧ (t.core c).tile.queue = []) ∧
        (x.run = .halted → exec (.dbgHalt mb) s = ok s)) ∧
      (s.slipFor mb.val 0x2A = some (sl, []) → x.run = .halted →
        exec (.dbgResume mb) s = ok (s.modCore c (fun k => Core.syncMask { k with ex := { k.ex with run := .running, bpSkip := true } } s.now))))) ∧
  (∀ (s : State) (fn : Fin 10) (w : FnWork), s.fnWork fn.val = some w →
    (s.fnState fn.val = .draining → exec (.fnDrainEnd fn) s = .next (endDrain (if drainBusy s fn.val then s.advanceTo w.limit else s) fn.val)) ∧
    (s.fnState fn.val = .resetting →
      let u := ((clearFn s fn.val).setFn fn.val (if w.stay then .disabled else .enabled)).setWork fn.val none
      let v := if fn.val = 6 ∨ fn.val = 7 then ledgerPairs u else u
      exec (.fnResetDone fn) s = .next (answerWaits (if fn.val = 1 ∧ w.stay = false then startHub v else v) w.waits w.aborts))) ∧
  (∀ (s : State) t, s.cur.devReset = some t → exec .deviceReset s = .next (deviceReset (s.advanceTo t)))

/-- The Curator's commands that change power, fabric, survival, HBM and telemetry settings (11 R397, R403, R413; 13 R485, R488, R493, R505;
14 R518, R520, R522; 15 R544, R561, R563), with arguments it accepts, and the latch of the telemetry record. -/
def Obligations.CuratorSettingsComplete : Prop :=
  (∀ (s : State) (mb : MailId) (sl : Slip) (pay : List Byte),
    let ok (t : State) : Host.Outcome State Fault Refusal := .next (reply t mb.val stOK [] [])
    let a := (sl.arg 0).toNat
    let b := (sl.arg 1).toNat
    (s.slipFor mb.val 0x30 = some (sl, []) → sl.arg 0 &&& ~~~0xFF07#64 = 0 → (bit (sl.arg 0) 2 = true → bit (sl.arg 0) 0 = true) →
      fld (sl.arg 0) 8 8 ≤ 143 → exec (.pwMode mb) s = ok (setMode s (sl.arg 0))) ∧
    (s.slipFor mb.val 0x31 = some (sl, []) → a < 16 → 600 ≤ b → b ≤ 1350 → b % 25 = 0 → 1 ≤ (sl.arg 2).toNat → (sl.arg 2).toNat ≤ 64 →
      exec (.pwOpp mb) s = ok (s.modPow (fun p => { p with opp := vput p.opp a (n64 (b + (sl.arg 2).toNat <<< 16)) }))) ∧
    (s.slipFor mb.val 0x32 = some (sl, []) → a < 2 ^ 16 → 1600 ≤ (sl.arg 2).toNat → (sl.arg 2).toNat ≤ 2400 → exec (.pwGroup mb) s =
      ok (shareCap (s.modPow (fun p => { p with cap := setFld (setFld p.cap 32 16 a) 16 12 (sl.arg 2).toNat, total := b })))) ∧
    (s.slipFor mb.val 0x33 = some (sl, []) → a < 2 ^ 32 →
      (s.led.st = 0 ∨ (s.led.fresh = true ∧ s.led.voted = false) →
        exec (.pwShareset mb) s = ok (s.modPow (fun p => { p with share := n64 (a + b01 (bit p.ctl 2) <<< 32) }))) ∧
      (s.led.st ≠ 0 → s.led.fresh = false → exec (.pwShareset mb) s = ok (s.modPow (fun p => { p with nextTok := some a })))) ∧
    (s.slipFor mb.val 0x40 = some (sl, []) → a < 2 ^ 24 → sl.arg 1 &&& ~~~0x107#64 = 0 → ∃ t, exec (.fabShelf mb) s = ok t ∧
      t.fab.shelf = n64 (fld s.fab.shelf 0 8 + a <<< 8 + 2 ^ 32) ∧ t.fab.rank = (sl.arg 1).setWidth 3 ∧ t.fab.reserve = bit (sl.arg 1) 8 ∧
      t.mem = s.mem) ∧
    (s.slipFor mb.val 0x41 = some (sl, pay) → pay.length % 8 = 0 →
      let ws := (items 8 (pay.length / 8) pay).map n64
      exec (.fabLayout mb) s = ok (flushLayout { s with fab := { s.fab with layout := mergeLayout s.fab.layout a ws } })) ∧
    (s.slipFor mb.val 0x42 = some (sl, pay) → ∀ ps, sl.plans = some ps → pay.length = 64 * ps.length →
      let es := (List.range ps.length).map (fun i => (((items 8 (8 * ps.length) pay).map n64).drop (8 * i)).take 8)
      (∀ e ∈ es, planEntryOk e = true) → (∀ p ∈ ps, s.planBusy p = false) → exec (.planWrite mb) s = ok (writePlans s (ps.zip es))) ∧
    (s.slipFor mb.val 0x45 = some (sl, []) → exec (.withdraw mb) s = ok (requestWithdrawal s)) ∧
    (s.slipFor mb.val 0x51 = some (sl, pay) → ∀ key, s.plat.forceKey = some key → a < 144 → s.tokenOk key pay = true →
      ∃ t, exec (.weedClear mb) s = ok t ∧ t.plat.weeded = vput s.plat.weeded a 0 ∧ t.plat.parked = setDel a s.plat.parked ∧ t.mem = s.mem) ∧
    (s.slipFor mb.val 0x52 = some (sl, []) → s.cur.ftest = none → exec (.ftest mb) s =
      .next (reply { s with cur := { s.cur with ftest := some (mb.val, sl.seq) } } mb.val stSTARTED [] [])) ∧
    (s.slipFor mb.val 0x53 = some (sl, []) → isMem a = true →
      exec (.standbySet mb) s = ok { s with cur := { s.cur with standby := sl.arg 0 } }) ∧
    (s.slipFor mb.val 0x60 = some (sl, []) → a < 2 →
      exec (.hbmMode mb) s = ok { s with plat := { s.plat with hbmNext := bit (sl.arg 0) 0 } }) ∧
    (s.slipFor mb.val 0x71 = some (sl, []) → s.hall.once = true →
      exec (.telemLatch mb) s = ok { s with cur := { s.cur with tmNext := sl.arg 0, tmPeriod := sl.arg 1 } })) ∧
  (∀ s : State, s.cur.tmNext ≠ 0 →
    let u := s.toHall s.cur.tmNext
    ∃ t, exec .telemetryLatchTaken s = .next t ∧ t.cur.tm = (if u.fnState 9 = .enabled then u.tmRecord else s.cur.tm) ∧
      t.cur.tmNext = (if s.cur.tmPeriod = 0 then 0 else s.cur.tmNext + s.cur.tmPeriod) ∧ t.mem = s.mem ∧ t.cores = s.cores)

/-- The firmware's update (16 R567, R569, R570): BEGIN erases the staging region, DATA writes to it, END verifies and starts the copy; a copy that
ends is installed; the recovery loader installs a valid staged image and resets the device. -/
def Obligations.FirmwareUpdateComplete : Prop :=
  (∀ (s : State) (mb : MailId) (sl : Slip) (pay : List Byte), s.slipFor mb.val 0x80 = some (sl, pay) →
    let ok (t : State) : Host.Outcome State Fault Refusal := .next (reply t mb.val stOK [] [])
    let n := (sl.arg 1).toNat
    (sl.arg 0 = 0 → 1 ≤ n → n ≤ stagingSize → s.plat.fw = none → s.fwMay sl pay = stOK →
      let u := if s.plat.recovery || s.plat.forceKey.isNone then s else newChallenge s
      exec (.fwUpdateBegin mb) s = ok { u with plat := { u.plat with staged := some [], fw := some { len := n, ending := none } } }) ∧
    (∀ len, sl.arg 0 = 1 → s.plat.fw = some { len := len, ending := none } → pay.length ≤ 4096 → n % 4096 = 0 → n + pay.length ≤ len →
      exec (.fwUpdateData mb) s =
        ok { s with plat := { s.plat with staged := some (spSetAll 0xFF#8 (s.plat.staged.getD []) n pay) } }) ∧
    (∀ len, sl.arg 0 = 2 → n < 2 → s.plat.fw = some { len := len, ending := none } →
      let u := reply s mb.val stSTARTED [] []
      (imgValid s.plat.stagedByte s.plat.arc = true → exec (.fwUpdateEnd mb) s =
        .next { u with plat := { u.plat with torn := true, fw := some { len := len, ending := some (mb.val, sl.seq, bit (sl.arg 1) 0) } } }) ∧
      (imgValid s.plat.stagedByte s.plat.arc = false → exec (.fwUpdateEnd mb) s =
        .next (fwDone { u with plat := { u.plat with fw := none } } mb.val sl.seq stBADTOKEN)))) ∧
  (∀ (s : State) (f : FwUpdate) mb seq rst, s.plat.fw = some f → f.ending = some (mb, seq, rst) →
    let u := installSlot s
    let v := fwDone { u with plat := { u.plat with fw := none } } mb seq stOK
    exec .imageSlotVerified s = .next (if rst || s.plat.recovery then deviceReset v else v)) ∧
  (∀ s : State, s.plat.recovery = true → imgValid s.plat.stagedByte s.plat.arc = true →
    exec .recoveryLoader s = .next (deviceReset (installSlot s)))

/-- Power-good, reset and the stages of bring-up (16 R564 to R575; 17 R589, R591): power-good and a long enough MOD_RESET_N reset the device; each
stage ends from the one before it, or halts bring-up or hands over to the recovery loader; READY holds every core with its stop record; the
hub boot image is fetched, written and started, or tried again 10 s later. -/
def Obligations.BringupStagesComplete : Prop :=
  (∀ (s : State) (mv : BitVec 16) (st : BitVec 8), s.plat.present = true → 38000 ≤ mv.toNat → s.plat.uvTrip = false → s.plat.ovTrip = false →
    s.plat.thermTrip = false → (s.plat.main = false ∨ s.plat.modReset = true ∨ s.plat.vin < 38000) →
    ∃ t, exec (.powerGood mv st) s = .next t ∧ t.plat.main = true ∧ t.plat.pwrEn = true ∧ t.plat.modReset = false ∧ t.plat.stage = 0 ∧
      t.fab.shelf = st.setWidth 64) ∧
  (∀ (s : State) (ns : BitVec 32), s.plat.main = true → s.plat.modReset = false → 1000 ≤ ns.toNat →
    exec (.modResetN ns) s = .next (deviceReset ((s.advance 1000).modPlat (fun p => { p with modReset := true })))) ∧
  (∀ s : State,
    (s.atStage 0 = true →
      (s.plat.slotValid = false → exec .firmwareVerify s = .next (recover s 1)) ∧
      (s.plat.slotValid = true →
        let f := s.plat.slotByte
        let u : State := { s with plat := { s.plat with img := runImage f } }
        exec .firmwareVerify s = .next (endStage (extendState u 0 (imgBytes f 0 0x8000 ++ imgBytes f 0x8000 (imgBodyLen f))) 1))) ∧
    (s.atStage 1 = true → exec (.curatorBoot true) s = .next (endStage { s with plat := { s.plat with jlive := true } } 2) ∧
      exec (.curatorBoot false) s = .next (recover s 2)) ∧
    (s.atStage 2 = true → exec (.calibration true) s = .next (endStage s 3) ∧ exec (.calibration false) s = .next (haltBringup s 3 0)) ∧
    (s.atStage 3 = true → (∀ k, exec (.hbmTraining (some k)) s = .next (haltBringup s 4 k.val)) ∧
      let u : State := { zeroRange s 0 0x9000000000 with l2 := State.reset.l2 }
      exec (.hbmTraining none) s = .next (endStage { u with plat := { u.plat with quadLocal := u.plat.hbmNext } } 4)) ∧
    (s.atStage 4 = true → (∀ k, exec (.carrelZeroing (some k)) s = .next (haltBringup s 5 k.val)) ∧
      ∃ t, exec (.carrelZeroing none) s = .next t ∧ t.plat.stage = 5 ∧ ∀ c, (t.core c).mm.l1d = [] ∧ (t.core c).mm.l1i = [] ∧
        ∃ old : TileRegs, (t.core c).tile = { TileRegs.reset with fused := old.fused, weeded := old.weeded }) ∧
    (s.atStage 5 = true → (∀ k l, exec (.selfTest (some k) l) s = .next (haltBringup s 5 k.val)) ∧
      ∀ l, ∃ t, exec (.selfTest none l) s = .next t ∧ t.plat.stage = 6 ∧ t.plat.fit = decide (t.plat.weededCores ≤ 16) ∧
        t.plat.live = (t.compute.map (fun k => k.tile.liveCount)).sum) ∧
    (s.atStage 6 = true → ∀ ps : BitVec 24,
      ((∀ p : PortId, bit ps p.val = true → (s.port p).up = true) → exec (.linkTrainingStage ps) s = .next (endStage s 7)) ∧
      ((∃ p : PortId, bit ps p.val = true ∧ (s.port p).up = false) →
        exec (.linkTrainingStage ps) s = .next (endStage (s.advanceTo (s.plat.stageAt + 14000000000)) 7))) ∧
    (s.atStage 7 = true → ∃ t, exec .ready s = .next t ∧ t.plat.stage = 8 ∧ ∀ c : CoreId, (t.core c).ex.stop.valid = true ∧
      (t.core c).ex.stop.pc = 0) ∧
    (s.atStage 8 = true →
      (∀ img, s.plat.hubEntry = none → s.plat.hubTry = none → exec (.hubBootFetch img) s = .next (bootFetch s img)) ∧
      (∀ img x, s.plat.hubTry = some x → exec (.hubBootRetry img) s = .next (bootFetch (s.advanceTo (x + 10000000000)) img))))

/-- HALL_REF (17 R599, R600): an edge is judged against the one before it and clears the pending message; a time code is judged; 1.5 s without an
edge clear REFLOCK. -/
def Obligations.HallReferenceComplete : Prop :=
  (∀ (s : State) (n : BitVec 32), s.plat.main = true → ∃ t, exec (.hallRefEdge n) s = .next t ∧ t.now = s.now + n.toNat ∧
    t.hall.refEdge = some t.now ∧ t.hall.refNew = false ∧
    (∀ e, s.hall.refEdge = some e → e + 999999000 ≤ t.now → t.now ≤ e + 1000001000 → s.hall.refNew = true → s.hall.refSec ≠ none →
      s.hall.refSeq = true → t.hall.refGood = s.hall.refGood + 1 ∧ t.hall.refCur = s.hall.refSec) ∧
    (s.hall.refNew = false → t.hall.refGood = 0) ∧ (bit s.hall.stat 3 = true → bit t.hall.stat 3 = true) ∧ t.mem = s.mem ∧ t.cores = s.cores) ∧
  (∀ (s : State) (bs : List Byte), s.plat.main = true → ∃ t, exec (.hallRefTimeCode bs) s = .next t ∧ t.hall.refNew = true ∧
    t.hall.refSec = timeCode bs ∧
    (∀ x y, timeCode bs = some x → s.hall.refSec = some y → t.hall.refSeq = (x == y + 1)) ∧
    (timeCode bs = none → t.hall.refBad = s.hall.refBad + 1 ∧ (1 ≤ s.hall.refBad → bit t.hall.stat 3 = false)) ∧
    t.mem = s.mem ∧ t.cores = s.cores) ∧
  (∀ (s : State) (e : Nat), s.hall.refEdge = some e → ∃ t, exec .hallRefLoss s = .next t ∧ t.now = max s.now (e + 1500000000) ∧
    bit t.hall.stat 3 = false ∧ t.hall.refEdge = none ∧ t.mem = s.mem ∧ t.cores = s.cores)

/-- PMBus (17 R594 to R598, R607): in every powered state each command answers with its bytes, the measuring ones with the average read, and
CLEAR_FAULTS clears the latched bits whose condition has ended; which LINEAR11 form and which case of the serial number's digits is
open (log 72). -/
def Obligations.PmbusCommandsComplete : Prop :=
  ∀ s : State, s.plat.present = true →
    let put (g : PlatState → PlatState) (bs : List Byte) : Host.Outcome State Fault Refusal := .next (s.modPlat (fun p => { g p with pmb := bs }))
    let ans (bs : List Byte) : Host.Outcome State Fault Refusal := put (fun p => p) bs
    (∃ t, exec .clearFaults s = .next t ∧
      t.plat.stIn = s.plat.stIn &&& ((if s.plat.ovTrip then 0x80#8 else 0) ||| rangeBits s.plat.vin ||| (if s.plat.uvTrip then 0x18#8 else 0)) ∧
      bit t.plat.stTemp 7 = bit s.plat.stTemp 7 ∧ t.mem = s.mem ∧ t.cores = s.cores) ∧
    exec .capability s = ans [0xB0#8] ∧ exec .otFaultLimit s = ans (linear11 110000) ∧ exec .vinOvFaultLimit s = ans (linear11 44000) ∧
    exec .vinOvWarnLimit s = ans (linear11 42000) ∧ exec .vinUvWarnLimit s = ans (linear11 38000) ∧
    exec .vinUvFaultLimit s = ans (linear11 36000) ∧ exec .statusWord s = ans (leBytes 2 s.statusWord) ∧
    exec .statusInput s = ans [s.plat.stIn] ∧ exec .statusTemperature s = ans [s.plat.stTemp] ∧
    (∀ mv : BitVec 16, exec (.readVin mv) s = put (fun p => { p with vinAvg := mv.toNat }) (linear11 (Int.ofNat mv.toNat))) ∧
    (∀ ma : BitVec 32, exec (.readIin ma) s = put (fun p => { p with iinAvg := ma.toNat }) (linear11 (Int.ofNat ma.toNat))) ∧
    exec .readTemperature1 s = ans (linear11 (1000 * s.plat.tjLast)) ∧
    (∀ x : BitVec 8, exec (.readTemperature2 x) s = put (fun p => { p with c1 := x.toInt }) (linear11 (1000 * x.toInt)) ∧
      exec (.readTemperature3 x) s = put (fun p => { p with c2 := x.toInt }) (linear11 (1000 * x.toInt))) ∧
    (∀ mw : BitVec 32, exec (.readPin mw) s = put (fun p => { p with pinAvg := mw.toNat }) (linear11 (Int.ofNat mw.toNat))) ∧
    exec .pmbusRevision s = ans [0x33#8] ∧ exec .mfrId s = ans (ascii "CHERUKEL") ∧
    exec .mfrModel s = ans (if s.plat.grade then ascii "OHM-MZ1200-480" else ascii "OHM-MZ1200-512") ∧
    exec .mfrSerial s = ans ((List.range 8).map (fun i => hexDigit (fld s.plat.serial (28 - 4 * i) 4)))

/-- JTAG (17 R601, R602): while it is live each instruction is selected; EXTEST drives its cells only while MOD_RESET_N is held low; SAMPLE
captures the pins; MBX reads or writes an aligned 8-byte word of MB7's window and holds its data with DONE. -/
def Obligations.JtagInstructionsComplete : Prop :=
  ∀ s : State, s.jtagLive = true →
    let sel (code : BitVec 8) : State := s.modPlat (fun p => { p with ir := code, extest := false })
    (∀ cells : BitVec 21,
      (s.plat.modReset = false → exec (.extest cells) s = .next (sel 0x00#8)) ∧
      (s.plat.modReset = true → exec (.extest cells) s = .next ((sel 0x00#8).modPlat (fun p => { p with
        extest := true, bsr := (List.range bsrLen).map (fun i => bit cells i) })))) ∧
    (∀ ext : BitVec 21, exec (.samplePreload ext) s = .next ((sel 0x01#8).modPlat (fun p => { p with bsr := s.pins ext }))) ∧
    exec .idcode s = .next (sel 0x02#8) ∧ exec .tapReset s = .next (sel 0x02#8) ∧
    (∀ code : BitVec 8, code ≠ 0x00#8 → code ≠ 0x01#8 → code ≠ 0x02#8 → code ≠ 0x30#8 → exec (.bypass code) s = .next (sel code)) ∧
    (∀ dr : BitVec 82,
      let off := fld dr 64 16
      let u := sel 0x30#8
      let held (v : State) (data done : Nat) : State := v.modPlat (fun p => { p with mbx := BitVec.ofNat 82 (data + fld dr 64 17 <<< 64 + done <<< 81) })
      (off % 8 ≠ 0 ∨ s.portLive = false → exec (.mbx dr) s = .next (held u (fld dr 0 64) 0)) ∧
      (off % 8 = 0 → s.portLive = true →
        (bit dr 80 = true → exec (.mbx dr) s = .next (held (boxWrite u 7 off 8 (fld dr 0 64)) (fld dr 0 64) 1)) ∧
        (bit dr 80 = false → exec (.mbx dr) s = .next (held u ((u.box 7).readN off 8) 1))))

/-- The end of a reset of a function that holds cores (07 R260; 06 R199): every core of it runs in ring 0 in B0 with GM 1, BANKS.BUSY 0x1 and
ELINK.VALID 0, and the A and D registers of every bank, and the stack pointers, are zero. -/
def Obligations.ResetRegisters : Prop :=
  ∀ (s : State) (fn : Fin 10) (w : FnWork) (c : CoreId), s.fnWork fn.val = some w → s.fnState fn.val = .resetting → coreFn c = fn.val →
    ∃ t, exec (.fnResetDone fn) s = .next t ∧
      let k := t.core c
      k.ring = 0 ∧ k.rr.cur = 0 ∧ k.bank.gm = true ∧ k.rr.busy = 1 ∧ bit k.bank.elink 5 = false ∧ (∀ j, vget k.rr.sp j 0 = 0) ∧
      (∀ i, i < 4 → ∀ j, vget (vget k.rr.banks i Bank.reset).d j 0 = 0 ∧ vget (vget k.rr.banks i Bank.reset).a j 0 = 0)

/-- Accumulators (04 R148): an exact result within 80 bits is kept; one outside clamps to the nearer end with FXCTL.SAT, wraps modulo 2^80 without,
and sets FXCTL.FXOV in both cases. -/
def Obligations.AccumulatorRange : Prop :=
  ∀ (k : Core) (i : Nat) (x : Int), i < 8 →
    let k' := k.accPut i 0 x
    let a := (vget k'.ex.acc i 0).toInt
    (-(2 ^ 79) ≤ x → x ≤ 2 ^ 79 - 1 → a = x ∧ k'.num = k.num) ∧
    (x < -(2 ^ 79) ∨ 2 ^ 79 - 1 < x → bit k'.num.fxctl 3 = true ∧
      (bit k.num.fxctl 0 = true → a = if x < 0 then -(2 ^ 79) else 2 ^ 79 - 1) ∧ (bit k.num.fxctl 0 = false → (a - x) % 2 ^ 80 = 0))

end
end

