-- ==== Sys2Proof/Laws/Kept.lean ====
section
/-! SUPPORT. Laws/Kept.lean: what every operation of the model keeps, and how it composes: memory stays in its canonical form, the queue of
waiting commands is not touched, and module time does not run backwards. -/

namespace Sys2Proof.Machine

/-- What one operation keeps of a state. -/
structure Kept (s t : State) : Prop where
  mem : Memory.wf s.mem = true → Memory.wf t.mem = true
  queue : t.pending = s.pending
  time : s.now ≤ t.now

theorem Kept.refl (s : State) : Kept s s := ⟨id, rfl, Nat.le_refl _⟩

theorem Kept.trans {s t u : State} (h : Kept s t) (g : Kept t u) : Kept s u :=
  ⟨fun w => g.mem (h.mem w), g.queue.trans h.queue, Nat.le_trans h.time g.time⟩

/-- An update of other fields. -/
theorem Kept.upd {s t : State} (h : Kept s t) {cores poison l2 barriers gather fab hall led pow cur plat clk free} :
    Kept s ⟨cores, t.mem, poison, l2, barriers, gather, fab, hall, led, pow, cur, plat, t.now, clk, free, t.pending⟩ :=
  ⟨h.mem, h.queue, h.time⟩

/-- The same as an equation, for simp. -/
theorem Kept.upd_eq (s t : State) {cores poison l2 barriers gather fab hall led pow cur plat clk free} :
    Kept s ⟨cores, t.mem, poison, l2, barriers, gather, fab, hall, led, pow, cur, plat, t.now, clk, free, t.pending⟩ = Kept s t :=
  propext ⟨fun h => ⟨h.mem, h.queue, h.time⟩, fun h => ⟨h.mem, h.queue, h.time⟩⟩

theorem Kept.ite {s a b : State} {c : Prop} [Decidable c] (ha : Kept s a) (hb : Kept s b) : Kept s (if c then a else b) := by
  split
  · exact ha
  · exact hb

theorem Kept.dite {s : State} {c : Prop} [Decidable c] {a : c → State} {b : ¬c → State} (ha : ∀ h, Kept s (a h)) (hb : ∀ h, Kept s (b h)) :
    Kept s (if h : c then a h else b h) := by
  split
  · exact ha _
  · exact hb _

theorem Kept.fold {α : Type} {r s : State} {f : State → α → State} {l : List α} (hf : ∀ t x, Kept r t → Kept r (f t x)) (h : Kept r s) :
    Kept r (l.foldl f s) := by
  induction l generalizing s with
  | nil => exact h
  | cons x l ih => exact ih (hf s x h)

theorem Kept.foldFst {α β : Type} {r : State} {p : State × β} {f : State × β → α → State × β} {l : List α}
    (hf : ∀ q x, Kept r q.1 → Kept r (f q x).1) (h : Kept r p.1) : Kept r (l.foldl f p).1 := by
  induction l generalizing p with
  | nil => exact h
  | cons x l ih => exact ih (hf p x h)

theorem Kept.ofFst {β : Type} {s t : State} {x : State × β} {b : β} (h : x = (t, b)) (k : Kept s x.1) : Kept s t := by
  rw [h] at k
  exact k

theorem Kept.ofSnd {α : Type} {s t : State} {x : α × State} {a : α} (h : x = (a, t)) (k : Kept s x.2) : Kept s t := by
  rw [h] at k
  exact k

theorem Kept.ofSnd2 {α β : Type} {s t : State} {x : α × β × State} {a : α} {b : β} (h : x = (a, b, t)) (k : Kept s x.2.2) : Kept s t := by
  rw [h] at k
  exact k

/-- A result that keeps what operations keep, with whatever comes beside it. -/
def resState {α : Type} : EStateM.Result Stop State α → State
  | .ok _ t => t
  | .error _ t => t

theorem Kept.resOk {α : Type} {r t : State} {a : α} (h : Kept r t) : Kept r (resState (EStateM.Result.ok a t : EStateM.Result Stop State α)) := h
theorem Kept.resError {α : Type} {r t : State} {z : Stop} (h : Kept r t) :
    Kept r (resState (EStateM.Result.error z t : EStateM.Result Stop State α)) := h

theorem Kept.ofOk {α : Type} {r t : State} {x : EStateM.Result Stop State α} {a : α} (e : x = .ok a t) (k : Kept r (resState x)) : Kept r t := by
  rw [e] at k
  exact k

theorem Kept.ofError {α : Type} {r t : State} {x : EStateM.Result Stop State α} {z : Stop} (e : x = .error z t) (k : Kept r (resState x)) :
    Kept r t := by
  rw [e] at k
  exact k

/-- An operation on the state that may stop keeps it, on every path. -/
structure KeptOp {α : Type} (m : Op α) : Prop where
  keep : ∀ s, Kept s (resState (m s))

theorem KeptOp.pure {α : Type} (a : α) : KeptOp (Pure.pure a : Op α) := ⟨fun s => Kept.refl s⟩
theorem KeptOp.throw {α : Type} (e : Stop) : KeptOp (throw e : Op α) := ⟨fun s => Kept.refl s⟩
theorem KeptOp.get : KeptOp (get : Op State) := ⟨fun s => Kept.refl s⟩
theorem KeptOp.modify {f : State → State} (h : ∀ s, Kept s (f s)) : KeptOp (modify f : Op Unit) := ⟨fun s => h s⟩
theorem KeptOp.modifyGet {α : Type} {f : State → α × State} (h : ∀ s, Kept s (f s).2) : KeptOp (modifyGet f : Op α) := by
  constructor
  intro s
  show Kept s (resState (match f s with | (a, t) => EStateM.Result.ok a t))
  exact h s

theorem KeptOp.ite {α : Type} {a b : Op α} {c : Prop} [Decidable c] (ha : KeptOp a) (hb : KeptOp b) : KeptOp (if c then a else b) := by
  split
  · exact ha
  · exact hb

theorem KeptOp.bind {α β : Type} {m : Op α} {f : α → Op β} (hm : KeptOp m) (hf : ∀ a, KeptOp (f a)) : KeptOp (m >>= f) := by
  constructor
  intro s
  have h := hm.keep s
  show Kept s (resState (EStateM.bind m f s))
  unfold EStateM.bind
  cases e : m s with
  | ok a t => rw [e] at h; exact h.trans ((hf a).keep t)
  | error x t => rw [e] at h; exact h

theorem KeptOp.map {α β : Type} {m : Op α} {f : α → β} (hm : KeptOp m) : KeptOp (f <$> m) := by
  constructor
  intro s
  have h := hm.keep s
  show Kept s (resState (EStateM.map f m s))
  unfold EStateM.map
  cases e : m s with
  | ok a t => rw [e] at h; exact h
  | error x t => rw [e] at h; exact h

theorem KeptOp.ok {α : Type} {m : Op α} (hm : KeptOp m) {r s t : State} {a : α} (e : m s = .ok a t) (h : Kept r s) : Kept r t := by
  have g := hm.keep s
  rw [e] at g
  exact h.trans g

theorem KeptOp.error {α : Type} {m : Op α} (hm : KeptOp m) {r s t : State} {x : Stop} (e : m s = .error x t) (h : Kept r s) : Kept r t := by
  have g := hm.keep s
  rw [e] at g
  exact h.trans g

/-- The same for one run of an operation that reads the state and writes one made from it. -/
structure KeptRun {α : Type} (r s : State) (m : Op α) : Prop where
  keep : Kept r (resState (m s))

theorem KeptOp.ofRun {α : Type} {m : Op α} (h : ∀ r s, Kept r s → KeptRun r s m) : KeptOp m := ⟨fun s => (h s s (Kept.refl s)).keep⟩
theorem KeptRun.op {α : Type} {m : Op α} {r s : State} (hm : KeptOp m) (h : Kept r s) : KeptRun r s m := ⟨h.trans (hm.keep s)⟩
theorem KeptRun.set {r s t : State} (h : Kept r t) : KeptRun r s (set t : Op Unit) := ⟨h⟩
theorem KeptRun.getBind {α : Type} {f : State → Op α} {r s : State} (h : KeptRun r s (f s)) : KeptRun r s ((get : Op State) >>= f) := ⟨h.keep⟩
theorem KeptRun.modify {f : State → State} {r s : State} (h : Kept r (f s)) : KeptRun r s (modify f : Op Unit) := ⟨h⟩

theorem KeptRun.bind {α β : Type} {m : Op α} {f : α → Op β} {r s : State} (hm : KeptRun r s m) (hf : ∀ a t, Kept r t → KeptRun r t (f a)) :
    KeptRun r s (m >>= f) := by
  have h := hm.keep
  constructor
  show Kept r (resState (EStateM.bind m f s))
  unfold EStateM.bind
  cases e : m s with
  | ok a t => rw [e] at h; exact (hf a t h).keep
  | error x t => rw [e] at h; exact h

theorem KeptRun.ite {α : Type} {a b : Op α} {c : Prop} [Decidable c] {r s : State} (ha : KeptRun r s a) (hb : KeptRun r s b) :
    KeptRun r s (if c then a else b) := by
  split
  · exact ha
  · exact hb

/-- A command keeps it when it goes on. -/
structure KeptOut (r : State) (o : Host.Outcome State Fault Refusal) : Prop where
  keep : ∀ t, o = .next t → Kept r t

theorem KeptOut.next {s t : State} (h : Kept s t) : KeptOut s (.next t) := by
  constructor
  intro u e
  cases e
  exact h

theorem KeptOut.ite {s : State} {a b : Host.Outcome State Fault Refusal} {c : Prop} [Decidable c] (ha : KeptOut s a) (hb : KeptOut s b) :
    KeptOut s (if c then a else b) := by
  split
  · exact ha
  · exact hb

theorem KeptOut.fault {s : State} (f : Fault) : KeptOut s (.fault f) := by
  constructor
  intro u e
  cases e

/-! ### The canonical form of sparse lists -/

theorem spWf_mono {β : Type} [DecidableEq β] {d : β} {m : List (Nat × β)} {a b : Nat} (h : b ≤ a) (w : spWf d a m = true) :
    spWf d b m = true := by
  cases m with
  | nil => rfl
  | cons x m =>
    obtain ⟨k, v⟩ := x
    simp only [spWf, Bool.and_eq_true, decide_eq_true_eq] at w ⊢
    exact ⟨⟨by omega, w.1.2⟩, w.2⟩

theorem spWf_filter {β : Type} [DecidableEq β] {d : β} (p : Nat × β → Bool) {m : List (Nat × β)} {a : Nat} (w : spWf d a m = true) :
    spWf d a (m.filter p) = true := by
  induction m generalizing a with
  | nil => rfl
  | cons x m ih =>
    obtain ⟨k, v⟩ := x
    simp only [spWf, Bool.and_eq_true, decide_eq_true_eq] at w
    simp only [List.filter_cons]
    split
    · simp only [spWf, Bool.and_eq_true, decide_eq_true_eq]
      exact ⟨w.1, ih w.2⟩
    · exact spWf_mono (by omega) (ih w.2)

theorem spWf_append {β : Type} [DecidableEq β] {d : β} {m l : List (Nat × β)} {a b : Nat} (hab : a ≤ b) (wm : spWf d a m = true)
    (hm : ∀ x ∈ m, x.1 < b) (wl : spWf d b l = true) : spWf d a (m ++ l) = true := by
  induction m generalizing a with
  | nil => exact spWf_mono hab wl
  | cons x m ih =>
    obtain ⟨k, v⟩ := x
    simp only [spWf, Bool.and_eq_true, decide_eq_true_eq, List.cons_append] at wm ⊢
    have hk := hm (k, v) (by simp)
    exact ⟨wm.1, ih (by simp only at hk; omega) wm.2 (fun x hx => hm x (by simp [hx]))⟩

theorem spWf_spFrom {β : Type} [DecidableEq β] {d : β} (vs : List β) (a : Nat) : spWf d a (spFrom d a vs) = true := by
  induction vs generalizing a with
  | nil => rfl
  | cons v vs ih =>
    simp only [spFrom]
    split
    · exact spWf_mono (by omega) (ih (a + 1))
    · rename_i h
      simp only [spWf, Bool.and_eq_true, decide_eq_true_eq]
      exact ⟨⟨by omega, h⟩, ih (a + 1)⟩

theorem spFrom_lt {β : Type} [DecidableEq β] {d : β} (vs : List β) (a : Nat) : ∀ x ∈ spFrom d a vs, x.1 < a + vs.length := by
  induction vs generalizing a with
  | nil => intro x hx; cases hx
  | cons v vs ih =>
    intro x hx
    simp only [spFrom] at hx
    simp only [List.length_cons]
    split at hx
    · have := ih (a + 1) x hx
      omega
    · cases hx with
      | head => simp
      | tail _ hx => have := ih (a + 1) x hx; omega

theorem spWf_from {β : Type} [DecidableEq β] {d : β} {m : List (Nat × β)} {a b : Nat} (w : spWf d a m = true) (h : ∀ x ∈ m, b ≤ x.1) :
    spWf d b m = true := by
  cases m with
  | nil => rfl
  | cons x m =>
    obtain ⟨k, v⟩ := x
    have := h (k, v) (by simp)
    simp only [spWf, Bool.and_eq_true, decide_eq_true_eq] at w ⊢
    exact ⟨⟨this, w.1.2⟩, w.2⟩

/-- Setting consecutive keys keeps the canonical form. -/
theorem spSetAll_wf {β : Type} [DecidableEq β] {d : β} {m : List (Nat × β)} (w : spWf d 0 m = true) (a : Nat) (vs : List β) :
    spWf d 0 (spSetAll d m a vs) = true := by
  unfold spSetAll
  refine spWf_append (b := a) (Nat.zero_le _) (spWf_filter _ w) (fun x hx => by simpa using (List.mem_filter.1 hx).2) ?_
  refine spWf_append (b := a + vs.length) (by omega) (spWf_spFrom vs a) (spFrom_lt vs a) ?_
  exact spWf_from (spWf_filter _ w) (fun x hx => by simpa using (List.mem_filter.1 hx).2)

end Sys2Proof.Machine
end

