-- ==== Sys2Proof/Laws/KeptMap.lean ====
section
/-! SUPPORT. Laws/KeptMap.lean: every operation of Machine/Map.lean keeps what Laws/Kept.lean names. -/

namespace Sys2Proof.Machine

set_option linter.unusedTactic false
set_option linter.unreachableTactic false

theorem State.setCore_kept {r0 : State} (s : State) (c : CoreId) (k : Core) (h : Kept r0 s) : Kept r0 (State.setCore s c k) := by
  unfold State.setCore
  repeat' first
    | intro _
    | with_reducible assumption
    | dsimp only
    | with_reducible apply Kept.ite
    | with_reducible apply Kept.dite
    | with_reducible apply Kept.refl
    | simp only [↓Kept.upd_eq]
    | with_reducible apply Kept.fold
    | with_reducible apply Kept.foldFst
    | split

theorem State.modCore_kept {r0 : State} (s : State) (c : CoreId) (f : Core → Core) (h : Kept r0 s) : Kept r0 (State.modCore s c f) := by
  unfold State.modCore
  repeat' first
    | intro _
    | with_reducible assumption
    | dsimp only
    | with_reducible apply Kept.ite
    | with_reducible apply Kept.dite
    | with_reducible apply State.setCore_kept
    | with_reducible apply Kept.refl
    | simp only [↓Kept.upd_eq]
    | with_reducible apply Kept.fold
    | with_reducible apply Kept.foldFst
    | split

end Sys2Proof.Machine
end

