-- ==== Sys2Proof/Laws/KeptCache.lean ====
section
/-! SUPPORT. Laws/KeptCache.lean: every operation of Machine/Cache.lean keeps what Laws/Kept.lean names. -/

namespace Sys2Proof.Machine

set_option linter.unusedTactic false
set_option linter.unreachableTactic false

theorem State.modSlice_kept {r0 : State} (s : State) (l : Nat) (f : L2Slice → L2Slice) (h : Kept r0 s) : Kept r0 (State.modSlice s l f) := by
  unfold State.modSlice
  repeat' first
    | intro _
    | with_reducible assumption
    | dsimp only
    | with_reducible apply Kept.ite
    | with_reducible apply Kept.dite
    | with_reducible apply Kept.refl
    | simp only [↓Kept.upd_eq]
    | with_reducible apply Kept.fold
    | with_reducible apply Kept.foldFst
    | split

theorem l2Line_kept {r0 : State} (s : State) (l : Nat) (valid : BitVec 4) (written : Bool) (h : Kept r0 s) : Kept r0 (l2Line s l valid written) := by
  unfold l2Line
  repeat' first
    | intro _
    | with_reducible assumption
    | dsimp only
    | with_reducible apply Kept.ite
    | with_reducible apply Kept.dite
    | with_reducible apply State.modSlice_kept
    | with_reducible apply Kept.refl
    | simp only [↓Kept.upd_eq]
    | with_reducible apply Kept.fold
    | with_reducible apply Kept.foldFst
    | split

theorem l2Touch_kept {r0 : State} (s : State) (pa : Nat) (n : Nat) (written : Bool) (h : Kept r0 s) : Kept r0 (l2Touch s pa n written) := by
  unfold l2Touch
  repeat' first
    | intro _
    | with_reducible assumption
    | dsimp only
    | with_reducible apply Kept.ite
    | with_reducible apply Kept.dite
    | with_reducible apply l2Line_kept
    | with_reducible apply Kept.refl
    | simp only [↓Kept.upd_eq]
    | with_reducible apply Kept.fold
    | with_reducible apply Kept.foldFst
    | split

theorem dropLine_kept {r0 : State} (s : State) (l : Nat) (cs : List Nat) (h : Kept r0 s) : Kept r0 (dropLine s l cs) := by
  unfold dropLine
  repeat' first
    | intro _
    | with_reducible assumption
    | dsimp only
    | with_reducible apply Kept.ite
    | with_reducible apply Kept.dite
    | with_reducible apply State.modCore_kept
    | with_reducible apply Kept.refl
    | simp only [↓Kept.upd_eq]
    | with_reducible apply Kept.fold
    | with_reducible apply Kept.foldFst
    | split

theorem filtAdd_kept {r0 : State} (s : State) (l : Nat) (c : CoreId) (h : Kept r0 s) : Kept r0 (filtAdd s l c) := by
  unfold filtAdd
  repeat' first
    | intro _
    | with_reducible assumption
    | dsimp only
    | with_reducible apply Kept.ite
    | with_reducible apply Kept.dite
    | with_reducible apply dropLine_kept
    | with_reducible apply State.modSlice_kept
    | with_reducible apply Kept.refl
    | simp only [↓Kept.upd_eq]
    | with_reducible apply Kept.fold
    | with_reducible apply Kept.foldFst
    | split

theorem fillLine_kept {r0 : State} (s : State) (c : CoreId) (l : Nat) (valid : BitVec 4) (h : Kept r0 s) : Kept r0 (fillLine s c l valid) := by
  unfold fillLine
  repeat' first
    | intro _
    | with_reducible assumption
    | dsimp only
    | with_reducible apply Kept.ite
    | with_reducible apply Kept.dite
    | with_reducible apply filtAdd_kept
    | with_reducible apply l2Line_kept
    | with_reducible apply State.modCore_kept
    | with_reducible apply Kept.refl
    | simp only [↓Kept.upd_eq]
    | with_reducible apply Kept.fold
    | with_reducible apply Kept.foldFst
    | split

theorem fillL1D_kept {r0 : State} (s : State) (c : CoreId) (pa : Nat) (n : Nat) (h : Kept r0 s) : Kept r0 (fillL1D s c pa n) := by
  unfold fillL1D
  repeat' first
    | intro _
    | with_reducible assumption
    | dsimp only
    | with_reducible apply Kept.ite
    | with_reducible apply Kept.dite
    | with_reducible apply fillLine_kept
    | with_reducible apply Kept.refl
    | simp only [↓Kept.upd_eq]
    | with_reducible apply Kept.fold
    | with_reducible apply Kept.foldFst
    | split

theorem fillLines_kept {r0 : State} (s : State) (c : CoreId) (ls : List Nat) (h : Kept r0 s) : Kept r0 (fillLines s c ls) := by
  unfold fillLines
  repeat' first
    | intro _
    | with_reducible assumption
    | dsimp only
    | with_reducible apply Kept.ite
    | with_reducible apply Kept.dite
    | with_reducible apply fillLine_kept
    | with_reducible apply Kept.refl
    | simp only [↓Kept.upd_eq]
    | with_reducible apply Kept.fold
    | with_reducible apply Kept.foldFst
    | split

theorem fillL1I_kept {r0 : State} (s : State) (c : CoreId) (l : Nat) (h : Kept r0 s) : Kept r0 (fillL1I s c l) := by
  unfold fillL1I
  repeat' first
    | intro _
    | with_reducible assumption
    | dsimp only
    | with_reducible apply Kept.ite
    | with_reducible apply Kept.dite
    | with_reducible apply l2Line_kept
    | with_reducible apply State.modCore_kept
    | with_reducible apply Kept.refl
    | simp only [↓Kept.upd_eq]
    | with_reducible apply Kept.fold
    | with_reducible apply Kept.foldFst
    | split

theorem fetchLines_kept {r0 : State} (s : State) (c : CoreId) (pa : Nat) (h : Kept r0 s) : Kept r0 (fetchLines s c pa) := by
  unfold fetchLines
  repeat' first
    | intro _
    | with_reducible assumption
    | dsimp only
    | with_reducible apply Kept.ite
    | with_reducible apply Kept.dite
    | with_reducible apply fillL1I_kept
    | with_reducible apply Kept.refl
    | simp only [↓Kept.upd_eq]
    | with_reducible apply Kept.fold
    | with_reducible apply Kept.foldFst
    | split

theorem invalLine_kept {r0 : State} (s : State) (own : Option CoreId) (pa : Nat) (n : Nat) (l : Nat) (h : Kept r0 s) : Kept r0 (invalLine s own pa n l) := by
  unfold invalLine
  repeat' first
    | intro _
    | with_reducible assumption
    | dsimp only
    | with_reducible apply Kept.ite
    | with_reducible apply Kept.dite
    | with_reducible apply dropLine_kept
    | with_reducible apply State.modSlice_kept
    | with_reducible apply State.modCore_kept
    | with_reducible apply Kept.refl
    | simp only [↓Kept.upd_eq]
    | with_reducible apply Kept.fold
    | with_reducible apply Kept.foldFst
    | split

theorem invalL1D_kept {r0 : State} (s : State) (own : Option CoreId) (pa : Nat) (n : Nat) (h : Kept r0 s) : Kept r0 (invalL1D s own pa n) := by
  unfold invalL1D
  repeat' first
    | intro _
    | with_reducible assumption
    | dsimp only
    | with_reducible apply Kept.ite
    | with_reducible apply Kept.dite
    | with_reducible apply invalLine_kept
    | with_reducible apply Kept.refl
    | simp only [↓Kept.upd_eq]
    | with_reducible apply Kept.fold
    | with_reducible apply Kept.foldFst
    | split

end Sys2Proof.Machine
end

