-- ==== Sys2Proof/Laws/KeptPacket.lean ====
section
/-! SUPPORT. Laws/KeptPacket.lean: every operation of Machine/Packet.lean keeps what Laws/Kept.lean names. -/

namespace Sys2Proof.Machine

set_option linter.unusedTactic false
set_option linter.unreachableTactic false

theorem State.freeNext_kept {r0 : State} (s : State) (h : Kept r0 s) : Kept r0 (State.freeNext s).2 := by
  unfold State.freeNext
  repeat' first
    | intro _
    | with_reducible assumption
    | dsimp only
    | with_reducible apply Kept.ite
    | with_reducible apply Kept.dite
    | with_reducible apply Kept.refl
    | simp only [↓Kept.upd_eq]
    | with_reducible apply Kept.fold
    | with_reducible apply Kept.foldFst
    | split

theorem State.setPort_kept {r0 : State} (s : State) (p : PortId) (f : PortSt → PortSt) (h : Kept r0 s) : Kept r0 (State.setPort s p f) := by
  unfold State.setPort
  repeat' first
    | intro _
    | with_reducible assumption
    | dsimp only
    | with_reducible apply Kept.ite
    | with_reducible apply Kept.dite
    | with_reducible apply Kept.refl
    | simp only [↓Kept.upd_eq]
    | with_reducible apply Kept.fold
    | with_reducible apply Kept.foldFst
    | split

theorem State.feCount_kept {r0 : State} (s : State) (lo : Nat) (h : Kept r0 s) : Kept r0 (State.feCount s lo) := by
  unfold State.feCount
  repeat' first
    | intro _
    | with_reducible assumption
    | dsimp only
    | with_reducible apply Kept.ite
    | with_reducible apply Kept.dite
    | with_reducible apply Kept.refl
    | simp only [↓Kept.upd_eq]
    | with_reducible apply Kept.fold
    | with_reducible apply Kept.foldFst
    | split

theorem State.drop_kept {r0 : State} (s : State) (h : Kept r0 s) : Kept r0 (State.drop s) := by
  unfold State.drop
  repeat' first
    | intro _
    | with_reducible assumption
    | dsimp only
    | with_reducible apply Kept.ite
    | with_reducible apply Kept.dite
    | with_reducible apply State.feCount_kept
    | with_reducible apply Kept.refl
    | simp only [↓Kept.upd_eq]
    | with_reducible apply Kept.fold
    | with_reducible apply Kept.foldFst
    | split

theorem State.stale_kept {r0 : State} (s : State) (h : Kept r0 s) : Kept r0 (State.stale s) := by
  unfold State.stale
  repeat' first
    | intro _
    | with_reducible assumption
    | dsimp only
    | with_reducible apply Kept.ite
    | with_reducible apply Kept.dite
    | with_reducible apply State.feCount_kept
    | with_reducible apply Kept.refl
    | simp only [↓Kept.upd_eq]
    | with_reducible apply Kept.fold
    | with_reducible apply Kept.foldFst
    | split

theorem State.late_kept {r0 : State} (s : State) (h : Kept r0 s) : Kept r0 (State.late s) := by
  unfold State.late
  repeat' first
    | intro _
    | with_reducible assumption
    | dsimp only
    | with_reducible apply Kept.ite
    | with_reducible apply Kept.dite
    | with_reducible apply State.feCount_kept
    | with_reducible apply Kept.refl
    | simp only [↓Kept.upd_eq]
    | with_reducible apply Kept.fold
    | with_reducible apply Kept.foldFst
    | split

theorem State.timedOut_kept {r0 : State} (s : State) (h : Kept r0 s) : Kept r0 (State.timedOut s) := by
  unfold State.timedOut
  repeat' first
    | intro _
    | with_reducible assumption
    | dsimp only
    | with_reducible apply Kept.ite
    | with_reducible apply Kept.dite
    | with_reducible apply State.feCount_kept
    | with_reducible apply Kept.refl
    | simp only [↓Kept.upd_eq]
    | with_reducible apply Kept.fold
    | with_reducible apply Kept.foldFst
    | split

theorem State.owe_kept {r0 : State} (s : State) (from' : Option PortId) (k : Packet) (h : Kept r0 s) : Kept r0 (State.owe s from' k) := by
  unfold State.owe
  repeat' first
    | intro _
    | with_reducible assumption
    | dsimp only
    | with_reducible apply Kept.ite
    | with_reducible apply Kept.dite
    | with_reducible apply State.setPort_kept
    | with_reducible apply Kept.refl
    | simp only [↓Kept.upd_eq]
    | with_reducible apply Kept.fold
    | with_reducible apply Kept.foldFst
    | split

theorem State.notePlan_kept {r0 : State} (s : State) (p : PortId) (k : Packet) (h : Kept r0 s) : Kept r0 (State.notePlan s p k) := by
  unfold State.notePlan
  repeat' first
    | intro _
    | with_reducible assumption
    | dsimp only
    | with_reducible apply Kept.ite
    | with_reducible apply Kept.dite
    | with_reducible apply Kept.refl
    | simp only [↓Kept.upd_eq]
    | with_reducible apply Kept.fold
    | with_reducible apply Kept.foldFst
    | split

theorem State.transmit_kept {r0 : State} (s : State) (p : PortId) (x : TxEnt) (h : Kept r0 s) : Kept r0 (State.transmit s p x) := by
  unfold State.transmit
  repeat' first
    | intro _
    | with_reducible assumption
    | dsimp only
    | with_reducible apply Kept.ite
    | with_reducible apply Kept.dite
    | with_reducible apply State.notePlan_kept
    | with_reducible apply State.owe_kept
    | with_reducible apply State.setPort_kept
    | with_reducible apply Kept.refl
    | simp only [↓Kept.upd_eq]
    | with_reducible apply Kept.fold
    | with_reducible apply Kept.foldFst
    | split

theorem drainSome_kept {r0 : State} (p : PortId) (x0 : Nat) (x1 : State) (h : Kept r0 x1) : Kept r0 (drainSome p x0 x1) := by
  induction x0 generalizing p x1 with
  | zero =>
    unfold drainSome
    repeat' first
      | intro _
      | with_reducible assumption
      | dsimp only
      | with_reducible apply Kept.ite
      | with_reducible apply Kept.dite
      | with_reducible apply State.transmit_kept
      | with_reducible apply State.setPort_kept
      | with_reducible apply Kept.refl
      | simp only [↓Kept.upd_eq]
      | with_reducible apply Kept.fold
      | with_reducible apply Kept.foldFst
      | split
  | succ n ih =>
    unfold drainSome
    repeat' first
      | with_reducible apply ih
      | intro _
      | with_reducible assumption
      | dsimp only
      | with_reducible apply Kept.ite
      | with_reducible apply Kept.dite
      | with_reducible apply State.transmit_kept
      | with_reducible apply State.setPort_kept
      | with_reducible apply Kept.refl
      | simp only [↓Kept.upd_eq]
      | with_reducible apply Kept.fold
      | with_reducible apply Kept.foldFst
      | split

theorem drainTx_kept {r0 : State} (s : State) (p : PortId) (h : Kept r0 s) : Kept r0 (drainTx s p) := by
  unfold drainTx
  repeat' first
    | intro _
    | with_reducible assumption
    | dsimp only
    | with_reducible apply Kept.ite
    | with_reducible apply Kept.dite
    | with_reducible apply drainSome_kept
    | with_reducible apply Kept.refl
    | simp only [↓Kept.upd_eq]
    | with_reducible apply Kept.fold
    | with_reducible apply Kept.foldFst
    | split

theorem State.sendFrom_kept {r0 : State} (s : State) (from' : Option PortId) (p : PortId) (k : Packet) (h : Kept r0 s) : Kept r0 (State.sendFrom s from' p k) := by
  unfold State.sendFrom
  repeat' first
    | intro _
    | with_reducible assumption
    | dsimp only
    | with_reducible apply Kept.ite
    | with_reducible apply Kept.dite
    | with_reducible apply drainTx_kept
    | with_reducible apply State.owe_kept
    | with_reducible apply State.setPort_kept
    | with_reducible apply Kept.refl
    | simp only [↓Kept.upd_eq]
    | with_reducible apply Kept.fold
    | with_reducible apply Kept.foldFst
    | split

theorem State.sendOn_kept {r0 : State} (s : State) (p : PortId) (k : Packet) (h : Kept r0 s) : Kept r0 (State.sendOn s p k) := by
  unfold State.sendOn
  repeat' first
    | intro _
    | with_reducible assumption
    | dsimp only
    | with_reducible apply Kept.ite
    | with_reducible apply Kept.dite
    | with_reducible apply State.sendFrom_kept
    | with_reducible apply Kept.refl
    | simp only [↓Kept.upd_eq]
    | with_reducible apply Kept.fold
    | with_reducible apply Kept.foldFst
    | split

theorem State.route_kept {r0 : State} (s : State) (k : Packet) (h : Kept r0 s) : Kept r0 (State.route s k).2 := by
  unfold State.route
  repeat' first
    | intro _
    | with_reducible assumption
    | dsimp only
    | with_reducible apply Kept.ite
    | with_reducible apply Kept.dite
    | with_reducible apply State.freeNext_kept
    | with_reducible apply Kept.refl
    | simp only [↓Kept.upd_eq]
    | with_reducible apply Kept.fold
    | with_reducible apply Kept.foldFst
    | refine Kept.ofSnd (x := State.freeNext _) (by assumption) ?_
    | split

theorem State.emit_kept {r0 : State} (s : State) (k : Packet) (h : Kept r0 s) : Kept r0 (State.emit s k) := by
  unfold State.emit
  repeat' first
    | intro _
    | with_reducible assumption
    | dsimp only
    | with_reducible apply Kept.ite
    | with_reducible apply Kept.dite
    | with_reducible apply State.route_kept
    | with_reducible apply State.sendOn_kept
    | with_reducible apply State.stale_kept
    | with_reducible apply State.drop_kept
    | with_reducible apply Kept.refl
    | simp only [↓Kept.upd_eq]
    | with_reducible apply Kept.fold
    | with_reducible apply Kept.foldFst
    | refine Kept.ofSnd (x := State.route _ _) (by assumption) ?_
    | split

theorem State.send_kept {r0 : State} (s : State) (k : Packet) (h : Kept r0 s) : Kept r0 (State.send s k) := by
  unfold State.send
  repeat' first
    | intro _
    | with_reducible assumption
    | dsimp only
    | with_reducible apply Kept.ite
    | with_reducible apply Kept.dite
    | with_reducible apply State.emit_kept
    | with_reducible apply Kept.refl
    | simp only [↓Kept.upd_eq]
    | with_reducible apply Kept.fold
    | with_reducible apply Kept.foldFst
    | split

end Sys2Proof.Machine
end

