-- ==== Sys2Proof/Laws/KeptVote.lean ====
section
/-! SUPPORT. Laws/KeptVote.lean: every operation of Machine/Vote.lean keeps what Laws/Kept.lean names. -/

namespace Sys2Proof.Machine

set_option linter.unusedTactic false
set_option linter.unreachableTactic false

theorem sendLed_kept {r0 : State} (s : State) (kind : Nat) (call : Nat) (step : U64) (first : Nat) (bs : List Byte) (h : Kept r0 s) : Kept r0 (sendLed s kind call step first bs) := by
  unfold sendLed
  repeat' first
    | intro _
    | with_reducible assumption
    | dsimp only
    | with_reducible apply Kept.ite
    | with_reducible apply Kept.dite
    | with_reducible apply State.send_kept
    | with_reducible apply Kept.refl
    | simp only [↓Kept.upd_eq]
    | with_reducible apply Kept.fold
    | with_reducible apply Kept.foldFst
    | split

theorem sendLeds_kept {r0 : State} (s : State) (kind : Nat) (step : U64) (first : Nat) (bs : List Byte) (calls : List Nat) (h : Kept r0 s) : Kept r0 (sendLeds s kind step first bs calls) := by
  unfold sendLeds
  repeat' first
    | intro _
    | with_reducible assumption
    | dsimp only
    | with_reducible apply Kept.ite
    | with_reducible apply Kept.dite
    | with_reducible apply sendLed_kept
    | with_reducible apply Kept.refl
    | simp only [↓Kept.upd_eq]
    | with_reducible apply Kept.fold
    | with_reducible apply Kept.foldFst
    | split

theorem takeOutcome_kept {r0 : State} (s : State) (v : VoteVal) (t : U64) (h : Kept r0 s) : Kept r0 (takeOutcome s v t) := by
  unfold takeOutcome
  repeat' first
    | intro _
    | with_reducible assumption
    | dsimp only
    | with_reducible apply Kept.ite
    | with_reducible apply Kept.dite
    | with_reducible apply sendLeds_kept
    | with_reducible apply Kept.refl
    | simp only [↓Kept.upd_eq]
    | with_reducible apply Kept.fold
    | with_reducible apply Kept.foldFst
    | split

theorem castVote_kept {r0 : State} (s : State) (h : Kept r0 s) : Kept r0 (castVote s) := by
  unfold castVote
  repeat' first
    | intro _
    | with_reducible assumption
    | dsimp only
    | with_reducible apply Kept.ite
    | with_reducible apply Kept.dite
    | with_reducible apply takeOutcome_kept
    | with_reducible apply sendLed_kept
    | with_reducible apply Kept.refl
    | simp only [↓Kept.upd_eq]
    | with_reducible apply Kept.fold
    | with_reducible apply Kept.foldFst
    | split

theorem earlyVote_kept {r0 : State} (s : State) (h : Kept r0 s) : Kept r0 (earlyVote s) := by
  unfold earlyVote
  repeat' first
    | intro _
    | with_reducible assumption
    | dsimp only
    | with_reducible apply Kept.ite
    | with_reducible apply Kept.dite
    | with_reducible apply castVote_kept
    | with_reducible apply Kept.refl
    | simp only [↓Kept.upd_eq]
    | with_reducible apply Kept.fold
    | with_reducible apply Kept.foldFst
    | split

theorem lateVote_kept {r0 : State} (s : State) (h : Kept r0 s) : Kept r0 (lateVote s) := by
  unfold lateVote
  repeat' first
    | intro _
    | with_reducible assumption
    | dsimp only
    | with_reducible apply Kept.ite
    | with_reducible apply Kept.dite
    | with_reducible apply earlyVote_kept
    | with_reducible apply castVote_kept
    | with_reducible apply Kept.refl
    | simp only [↓Kept.upd_eq]
    | with_reducible apply Kept.fold
    | with_reducible apply Kept.foldFst
    | split

theorem consumed_kept {r0 : State} (s : State) (bad : Bool) (h : Kept r0 s) : Kept r0 (consumed s bad) := by
  unfold consumed
  repeat' first
    | intro _
    | with_reducible assumption
    | dsimp only
    | with_reducible apply Kept.ite
    | with_reducible apply Kept.dite
    | with_reducible apply earlyVote_kept
    | with_reducible apply Kept.refl
    | simp only [↓Kept.upd_eq]
    | with_reducible apply Kept.fold
    | with_reducible apply Kept.foldFst
    | split

end Sys2Proof.Machine
end

