-- ==== Sys2Proof/Laws/KeptMem.lean ====
section
/-! SUPPORT. Laws/KeptMem.lean: every operation of Machine/Mem.lean keeps what Laws/Kept.lean names. -/

namespace Sys2Proof.Machine

set_option linter.unusedTactic false
set_option linter.unreachableTactic false

theorem reapReqs_kept {r0 : State} (s : State) (c : CoreId) (h : Kept r0 s) : Kept r0 (reapReqs s c) := by
  unfold reapReqs
  repeat' first
    | intro _
    | with_reducible assumption
    | dsimp only
    | with_reducible apply Kept.ite
    | with_reducible apply Kept.dite
    | with_reducible apply Kept.refl
    | simp only [↓Kept.upd_eq]
    | with_reducible apply Kept.fold
    | with_reducible apply Kept.foldFst
    | split

theorem relWatches_kept {r0 : State} (s : State) (x0 : List (Nat × Nat × Nat)) (h : Kept r0 s) : Kept r0 (relWatches s x0) := by
  induction x0 generalizing s with
  | nil =>
    unfold relWatches
    repeat' first
      | intro _
      | with_reducible assumption
      | dsimp only
      | with_reducible apply Kept.ite
      | with_reducible apply Kept.dite
      | with_reducible apply State.send_kept
      | with_reducible apply Kept.refl
      | simp only [↓Kept.upd_eq]
      | with_reducible apply Kept.fold
      | with_reducible apply Kept.foldFst
      | split
  | cons x xs ih =>
    unfold relWatches
    repeat' first
      | with_reducible apply ih
      | intro _
      | with_reducible assumption
      | dsimp only
      | with_reducible apply Kept.ite
      | with_reducible apply Kept.dite
      | with_reducible apply State.send_kept
      | with_reducible apply Kept.refl
      | simp only [↓Kept.upd_eq]
      | with_reducible apply Kept.fold
      | with_reducible apply Kept.foldFst
      | split

theorem dropTaskJobs_kept {r0 : State} (s : State) (c : CoreId) (t : Nat) (h : Kept r0 s) : Kept r0 (dropTaskJobs s c t) := by
  unfold dropTaskJobs
  repeat' first
    | intro _
    | with_reducible assumption
    | dsimp only
    | with_reducible apply Kept.ite
    | with_reducible apply Kept.dite
    | with_reducible apply Kept.refl
    | simp only [↓Kept.upd_eq]
    | with_reducible apply Kept.fold
    | with_reducible apply Kept.foldFst
    | split

theorem abortTask_kept {r0 : State} (s : State) (c : CoreId) (t : Nat) (reason : Nat) (h : Kept r0 s) : Kept r0 (abortTask s c t reason) := by
  unfold abortTask
  repeat' first
    | intro _
    | with_reducible assumption
    | dsimp only
    | with_reducible apply Kept.ite
    | with_reducible apply Kept.dite
    | with_reducible apply dropTaskJobs_kept
    | with_reducible apply relWatches_kept
    | with_reducible apply reapReqs_kept
    | with_reducible apply State.modCore_kept
    | with_reducible apply Kept.refl
    | simp only [↓Kept.upd_eq]
    | with_reducible apply Kept.fold
    | with_reducible apply Kept.foldFst
    | split

theorem abortTasks_kept {r0 : State} (s : State) (reason : Nat) (x0 : List (CoreId × Nat)) (h : Kept r0 s) : Kept r0 (abortTasks s reason x0) := by
  induction x0 generalizing s reason with
  | nil =>
    unfold abortTasks
    repeat' first
      | intro _
      | with_reducible assumption
      | dsimp only
      | with_reducible apply Kept.ite
      | with_reducible apply Kept.dite
      | with_reducible apply abortTask_kept
      | with_reducible apply Kept.refl
      | simp only [↓Kept.upd_eq]
      | with_reducible apply Kept.fold
      | with_reducible apply Kept.foldFst
      | split
  | cons x xs ih =>
    unfold abortTasks
    repeat' first
      | with_reducible apply ih
      | intro _
      | with_reducible assumption
      | dsimp only
      | with_reducible apply Kept.ite
      | with_reducible apply Kept.dite
      | with_reducible apply abortTask_kept
      | with_reducible apply Kept.refl
      | simp only [↓Kept.upd_eq]
      | with_reducible apply Kept.fold
      | with_reducible apply Kept.foldFst
      | split

theorem breakWatches_kept {r0 : State} (s : State) (ls : List Nat) (h : Kept r0 s) : Kept r0 (breakWatches s ls) := by
  unfold breakWatches
  repeat' first
    | intro _
    | with_reducible assumption
    | dsimp only
    | with_reducible apply Kept.ite
    | with_reducible apply Kept.dite
    | with_reducible apply State.send_kept
    | with_reducible apply Kept.refl
    | simp only [↓Kept.upd_eq]
    | with_reducible apply Kept.fold
    | with_reducible apply Kept.foldFst
    | split

theorem State.poke_kept {r0 : State} (s : State) (pa : Nat) (bs : List Byte) (h : Kept r0 s) : Kept r0 (State.poke s pa bs) := by
  exact h.trans ⟨fun w => spSetAll_wf w pa bs, rfl, Nat.le_refl _⟩

theorem homeWrite_kept {r0 : State} (s : State) (own : Option CoreId) (except : Option CoreId) (pa : Nat) (bs : List Byte) (h : Kept r0 s) : Kept r0 (homeWrite s own except pa bs) := by
  unfold homeWrite
  repeat' first
    | intro _
    | with_reducible assumption
    | dsimp only
    | with_reducible apply Kept.ite
    | with_reducible apply Kept.dite
    | with_reducible apply State.poke_kept
    | with_reducible apply breakWatches_kept
    | with_reducible apply abortTasks_kept
    | with_reducible apply invalL1D_kept
    | with_reducible apply l2Touch_kept
    | with_reducible apply Kept.refl
    | simp only [↓Kept.upd_eq]
    | with_reducible apply Kept.fold
    | with_reducible apply Kept.foldFst
    | split

theorem homeWrites_kept {r0 : State} (s : State) (own : Option CoreId) (except : Option CoreId) (x0 : List (Nat × List Byte)) (h : Kept r0 s) : Kept r0 (homeWrites s own except x0) := by
  induction x0 generalizing s own except with
  | nil =>
    unfold homeWrites
    repeat' first
      | intro _
      | with_reducible assumption
      | dsimp only
      | with_reducible apply Kept.ite
      | with_reducible apply Kept.dite
      | with_reducible apply homeWrite_kept
      | with_reducible apply Kept.refl
      | simp only [↓Kept.upd_eq]
      | with_reducible apply Kept.fold
      | with_reducible apply Kept.foldFst
      | split
  | cons x xs ih =>
    unfold homeWrites
    repeat' first
      | with_reducible apply ih
      | intro _
      | with_reducible assumption
      | dsimp only
      | with_reducible apply Kept.ite
      | with_reducible apply Kept.dite
      | with_reducible apply homeWrite_kept
      | with_reducible apply Kept.refl
      | simp only [↓Kept.upd_eq]
      | with_reducible apply Kept.fold
      | with_reducible apply Kept.foldFst
      | split

theorem State.addPoison_kept {r0 : State} (s : State) (pa : Nat) (n : Nat) (h : Kept r0 s) : Kept r0 (State.addPoison s pa n) := by
  unfold State.addPoison
  repeat' first
    | intro _
    | with_reducible assumption
    | dsimp only
    | with_reducible apply Kept.ite
    | with_reducible apply Kept.dite
    | with_reducible apply Kept.refl
    | simp only [↓Kept.upd_eq]
    | with_reducible apply Kept.fold
    | with_reducible apply Kept.foldFst
    | split

theorem taskWrite_kept {r0 : State} (s : State) (c : CoreId) (t : Nat) (pa : Nat) (bs : List Byte) (h : Kept r0 s) : Kept r0 (taskWrite s c t pa bs) := by
  unfold taskWrite
  repeat' first
    | intro _
    | with_reducible assumption
    | dsimp only
    | with_reducible apply Kept.ite
    | with_reducible apply Kept.dite
    | with_reducible apply abortTask_kept
    | with_reducible apply State.modCore_kept
    | with_reducible apply Kept.refl
    | simp only [↓Kept.upd_eq]
    | with_reducible apply Kept.fold
    | with_reducible apply Kept.foldFst
    | split

theorem taskRead_kept {r0 : State} (s : State) (c : CoreId) (t : Nat) (pa : Nat) (n : Nat) (h : Kept r0 s) : Kept r0 (taskRead s c t pa n) := by
  unfold taskRead
  repeat' first
    | intro _
    | with_reducible assumption
    | dsimp only
    | with_reducible apply Kept.ite
    | with_reducible apply Kept.dite
    | with_reducible apply abortTask_kept
    | with_reducible apply State.modCore_kept
    | with_reducible apply Kept.refl
    | simp only [↓Kept.upd_eq]
    | with_reducible apply Kept.fold
    | with_reducible apply Kept.foldFst
    | split

theorem agentWrite_kept {r0 : State} (s : State) (c : CoreId) (own : Bool) (task : Option Nat) (pa : Nat) (bs : List Byte) (h : Kept r0 s) : Kept r0 (agentWrite s c own task pa bs) := by
  unfold agentWrite
  repeat' first
    | intro _
    | with_reducible assumption
    | dsimp only
    | with_reducible apply Kept.ite
    | with_reducible apply Kept.dite
    | with_reducible apply taskWrite_kept
    | with_reducible apply homeWrite_kept
    | with_reducible apply Kept.refl
    | simp only [↓Kept.upd_eq]
    | with_reducible apply Kept.fold
    | with_reducible apply Kept.foldFst
    | split

theorem agentTrack_kept {r0 : State} (s : State) (c : CoreId) (task : Option Nat) (pa : Nat) (n : Nat) (h : Kept r0 s) : Kept r0 (agentTrack s c task pa n) := by
  unfold agentTrack
  repeat' first
    | intro _
    | with_reducible assumption
    | dsimp only
    | with_reducible apply Kept.ite
    | with_reducible apply Kept.dite
    | with_reducible apply taskRead_kept
    | with_reducible apply Kept.refl
    | simp only [↓Kept.upd_eq]
    | with_reducible apply Kept.fold
    | with_reducible apply Kept.foldFst
    | split

theorem agentRead_kept {r0 : State} (s : State) (c : CoreId) (task : Option Nat) (pa : Nat) (n : Nat) (h : Kept r0 s) : Kept r0 (agentRead s c task pa n) := by
  unfold agentRead
  repeat' first
    | intro _
    | with_reducible assumption
    | dsimp only
    | with_reducible apply Kept.ite
    | with_reducible apply Kept.dite
    | with_reducible apply agentTrack_kept
    | with_reducible apply l2Touch_kept
    | with_reducible apply Kept.refl
    | simp only [↓Kept.upd_eq]
    | with_reducible apply Kept.fold
    | with_reducible apply Kept.foldFst
    | split

theorem agentPoison_kept {r0 : State} (s : State) (c : CoreId) (task : Option Nat) (pa : Nat) (n : Nat) (h : Kept r0 s) : Kept r0 (agentPoison s c task pa n) := by
  unfold agentPoison
  repeat' first
    | intro _
    | with_reducible assumption
    | dsimp only
    | with_reducible apply Kept.ite
    | with_reducible apply Kept.dite
    | with_reducible apply State.addPoison_kept
    | with_reducible apply State.modCore_kept
    | with_reducible apply Kept.refl
    | simp only [↓Kept.upd_eq]
    | with_reducible apply Kept.fold
    | with_reducible apply Kept.foldFst
    | split

theorem machineCheck_kept {r0 : State} (s : State) (c : CoreId) (source : Nat) (addr : Nat) (h : Kept r0 s) : Kept r0 (machineCheck s c source addr) := by
  unfold machineCheck
  repeat' first
    | intro _
    | with_reducible assumption
    | dsimp only
    | with_reducible apply Kept.ite
    | with_reducible apply Kept.dite
    | with_reducible apply State.modCore_kept
    | with_reducible apply earlyVote_kept
    | with_reducible apply Kept.refl
    | simp only [↓Kept.upd_eq]
    | with_reducible apply Kept.fold
    | with_reducible apply Kept.foldFst
    | split

theorem arriveBarrier_kept {r0 : State} (s : State) (b : Nat) (h : Kept r0 s) : Kept r0 (arriveBarrier s b) := by
  unfold arriveBarrier
  repeat' first
    | intro _
    | with_reducible assumption
    | dsimp only
    | with_reducible apply Kept.ite
    | with_reducible apply Kept.dite
    | with_reducible apply Kept.refl
    | simp only [↓Kept.upd_eq]
    | with_reducible apply Kept.fold
    | with_reducible apply Kept.foldFst
    | split

theorem signalPair_kept {r0 : State} (s : State) (c : CoreId) (p : Nat) (side : Bool) (n : Nat) (h : Kept r0 s) : Kept r0 (signalPair s c p side n) := by
  unfold signalPair
  repeat' first
    | intro _
    | with_reducible assumption
    | dsimp only
    | with_reducible apply Kept.ite
    | with_reducible apply Kept.dite
    | with_reducible apply State.modCore_kept
    | with_reducible apply Kept.refl
    | simp only [↓Kept.upd_eq]
    | with_reducible apply Kept.fold
    | with_reducible apply Kept.foldFst
    | split

theorem addCounts_kept {r0 : State} (s : State) (c : CoreId) (task : Option Nat) (chan : Nat) (fmt : Nat) (x : Counts) (h : Kept r0 s) : Kept r0 (addCounts s c task chan fmt x) := by
  unfold addCounts
  repeat' first
    | intro _
    | with_reducible assumption
    | dsimp only
    | with_reducible apply Kept.ite
    | with_reducible apply Kept.dite
    | with_reducible apply State.modCore_kept
    | with_reducible apply Kept.refl
    | simp only [↓Kept.upd_eq]
    | with_reducible apply Kept.fold
    | with_reducible apply Kept.foldFst
    | split

theorem doSignal_kept {r0 : State} (s : State) (c : CoreId) (g : Signal) (h : Kept r0 s) : Kept r0 (doSignal s c g) := by
  unfold doSignal
  repeat' first
    | intro _
    | with_reducible assumption
    | dsimp only
    | with_reducible apply Kept.ite
    | with_reducible apply Kept.dite
    | with_reducible apply signalPair_kept
    | with_reducible apply arriveBarrier_kept
    | with_reducible apply homeWrite_kept
    | with_reducible apply Kept.refl
    | simp only [↓Kept.upd_eq]
    | with_reducible apply Kept.fold
    | with_reducible apply Kept.foldFst
    | split

theorem signal_kept {r0 : State} (s : State) (c : CoreId) (task : Option Nat) (g : Signal) (h : Kept r0 s) : Kept r0 (signal s c task g) := by
  unfold signal
  repeat' first
    | intro _
    | with_reducible assumption
    | dsimp only
    | with_reducible apply Kept.ite
    | with_reducible apply Kept.dite
    | with_reducible apply doSignal_kept
    | with_reducible apply State.modCore_kept
    | with_reducible apply Kept.refl
    | simp only [↓Kept.upd_eq]
    | with_reducible apply Kept.fold
    | with_reducible apply Kept.foldFst
    | split

theorem landTask_kept {r0 : State} (s : State) (c : CoreId) (x : Task) (h : Kept r0 s) : Kept r0 (landTask s c x) := by
  unfold landTask
  repeat' first
    | intro _
    | with_reducible assumption
    | dsimp only
    | with_reducible apply Kept.ite
    | with_reducible apply Kept.dite
    | with_reducible apply doSignal_kept
    | with_reducible apply addCounts_kept
    | with_reducible apply homeWrites_kept
    | with_reducible apply relWatches_kept
    | with_reducible apply Kept.refl
    | simp only [↓Kept.upd_eq]
    | with_reducible apply Kept.fold
    | with_reducible apply Kept.foldFst
    | split

theorem commitTasks_kept {r0 : State} (s : State) (xs : List (CoreId × Nat)) (h : Kept r0 s) : Kept r0 (commitTasks s xs) := by
  unfold commitTasks
  repeat' first
    | intro _
    | with_reducible assumption
    | dsimp only
    | with_reducible apply Kept.ite
    | with_reducible apply Kept.dite
    | with_reducible apply landTask_kept
    | with_reducible apply State.modCore_kept
    | with_reducible apply Kept.refl
    | simp only [↓Kept.upd_eq]
    | with_reducible apply Kept.fold
    | with_reducible apply Kept.foldFst
    | split

theorem settleDue_kept {r0 : State} (s : State) (c : CoreId) (h : Kept r0 s) : Kept r0 (settleDue s c) := by
  unfold settleDue
  repeat' first
    | intro _
    | with_reducible assumption
    | dsimp only
    | with_reducible apply Kept.ite
    | with_reducible apply Kept.dite
    | with_reducible apply commitTasks_kept
    | with_reducible apply Kept.refl
    | simp only [↓Kept.upd_eq]
    | with_reducible apply Kept.fold
    | with_reducible apply Kept.foldFst
    | split

end Sys2Proof.Machine
end

