-- ==== Sys2Proof/Laws/KeptNotice.lean ====
section
/-! SUPPORT. Laws/KeptNotice.lean: every operation of Machine/Notice.lean keeps what Laws/Kept.lean names. -/

namespace Sys2Proof.Machine

set_option linter.unusedTactic false
set_option linter.unreachableTactic false

theorem raiseCN_kept {r0 : State} (s : State) (n : Nat) (h : Kept r0 s) : Kept r0 (raiseCN s n) := by
  unfold raiseCN
  repeat' first
    | intro _
    | with_reducible assumption
    | dsimp only
    | with_reducible apply Kept.ite
    | with_reducible apply Kept.dite
    | with_reducible apply State.modCore_kept
    | with_reducible apply Kept.refl
    | simp only [↓Kept.upd_eq]
    | with_reducible apply Kept.fold
    | with_reducible apply Kept.foldFst
    | split

theorem State.modBox_kept {r0 : State} (s : State) (mb : Nat) (f : Mailbox → Mailbox) (h : Kept r0 s) : Kept r0 (State.modBox s mb f) := by
  unfold State.modBox
  repeat' first
    | intro _
    | with_reducible assumption
    | dsimp only
    | with_reducible apply Kept.ite
    | with_reducible apply Kept.dite
    | with_reducible apply Kept.refl
    | simp only [↓Kept.upd_eq]
    | with_reducible apply Kept.fold
    | with_reducible apply Kept.foldFst
    | split

theorem queueNotice_kept {r0 : State} (s : State) (mb : Nat) (n : Notice) (h : Kept r0 s) : Kept r0 (queueNotice s mb n) := by
  unfold queueNotice
  repeat' first
    | intro _
    | with_reducible assumption
    | dsimp only
    | with_reducible apply Kept.ite
    | with_reducible apply Kept.dite
    | with_reducible apply State.modBox_kept
    | with_reducible apply raiseCN_kept
    | with_reducible apply Kept.refl
    | simp only [↓Kept.upd_eq]
    | with_reducible apply Kept.fold
    | with_reducible apply Kept.foldFst
    | split

theorem ownerNotice_kept {r0 : State} (s : State) (kind : Nat) (unit : Nat) (a0 : U64) (a1 : U64) (h : Kept r0 s) : Kept r0 (ownerNotice s kind unit a0 a1) := by
  unfold ownerNotice
  repeat' first
    | intro _
    | with_reducible assumption
    | dsimp only
    | with_reducible apply Kept.ite
    | with_reducible apply Kept.dite
    | with_reducible apply queueNotice_kept
    | with_reducible apply Kept.refl
    | simp only [↓Kept.upd_eq]
    | with_reducible apply Kept.fold
    | with_reducible apply Kept.foldFst
    | split

theorem stopCore_kept {r0 : State} (s : State) (c : CoreId) (reason : StopReason) (cause : Nat) (subc : Nat) (pc : U64) (h : Kept r0 s) : Kept r0 (stopCore s c reason cause subc pc) := by
  unfold stopCore
  repeat' first
    | intro _
    | with_reducible assumption
    | dsimp only
    | with_reducible apply Kept.ite
    | with_reducible apply Kept.dite
    | with_reducible apply State.modCore_kept
    | with_reducible apply Kept.refl
    | simp only [↓Kept.upd_eq]
    | with_reducible apply Kept.fold
    | with_reducible apply Kept.foldFst
    | split

theorem stopOnFault_kept {r0 : State} (s : State) (c : CoreId) (reason : StopReason) (cause : Nat) (subc : Nat) (pc : U64) (h : Kept r0 s) : Kept r0 (stopOnFault s c reason cause subc pc) := by
  unfold stopOnFault
  repeat' first
    | intro _
    | with_reducible assumption
    | dsimp only
    | with_reducible apply Kept.ite
    | with_reducible apply Kept.dite
    | with_reducible apply stopCore_kept
    | with_reducible apply ownerNotice_kept
    | with_reducible apply earlyVote_kept
    | with_reducible apply Kept.refl
    | simp only [↓Kept.upd_eq]
    | with_reducible apply Kept.fold
    | with_reducible apply Kept.foldFst
    | split

theorem haltCore_kept {r0 : State} (s : State) (c : CoreId) (h : Kept r0 s) : Kept r0 (haltCore s c) := by
  unfold haltCore
  repeat' first
    | intro _
    | with_reducible assumption
    | dsimp only
    | with_reducible apply Kept.ite
    | with_reducible apply Kept.dite
    | with_reducible apply queueNotice_kept
    | with_reducible apply State.modCore_kept
    | with_reducible apply Kept.refl
    | simp only [↓Kept.upd_eq]
    | with_reducible apply Kept.fold
    | with_reducible apply Kept.foldFst
    | split

end Sys2Proof.Machine
end

