-- ==== Sys2Proof/Laws/KeptTilePipe.lean ====
section
/-! SUPPORT. Laws/KeptTilePipe.lean: every operation of Machine/TilePipe.lean keeps what Laws/Kept.lean names. -/

namespace Sys2Proof.Machine

set_option linter.unusedTactic false
set_option linter.unreachableTactic false

theorem tileSyncAt_kept {r0 : State} (s : State) (c : CoreId) (clk : Nat) (h : Kept r0 s) : Kept r0 (tileSyncAt s c clk) := by
  unfold tileSyncAt
  repeat' first
    | intro _
    | with_reducible assumption
    | dsimp only
    | with_reducible apply Kept.ite
    | with_reducible apply Kept.dite
    | with_reducible apply State.modCore_kept
    | with_reducible apply Kept.refl
    | simp only [↓Kept.upd_eq]
    | with_reducible apply Kept.fold
    | with_reducible apply Kept.foldFst
    | split

theorem tileSync_kept {r0 : State} (s : State) (c : CoreId) (h : Kept r0 s) : Kept r0 (tileSync s c) := by
  unfold tileSync
  repeat' first
    | intro _
    | with_reducible assumption
    | dsimp only
    | with_reducible apply Kept.ite
    | with_reducible apply Kept.dite
    | with_reducible apply tileSyncAt_kept
    | with_reducible apply Kept.refl
    | simp only [↓Kept.upd_eq]
    | with_reducible apply Kept.fold
    | with_reducible apply Kept.foldFst
    | split

theorem discardTiles_kept {r0 : State} (s : State) (c : CoreId) (h : Kept r0 s) : Kept r0 (discardTiles s c) := by
  unfold discardTiles
  repeat' first
    | intro _
    | with_reducible assumption
    | dsimp only
    | with_reducible apply Kept.ite
    | with_reducible apply Kept.dite
    | with_reducible apply State.modCore_kept
    | with_reducible apply Kept.refl
    | simp only [↓Kept.upd_eq]
    | with_reducible apply Kept.fold
    | with_reducible apply Kept.foldFst
    | split

end Sys2Proof.Machine
end

