-- ==== Sys2Proof/Laws/KeptOps.lean ====
section
/-! SUPPORT. Laws/KeptOps.lean: every operation of Machine/Ops.lean keeps what Laws/Kept.lean names. -/

namespace Sys2Proof.Machine

set_option linter.unusedTactic false
set_option linter.unreachableTactic false

theorem trap_kept {α : Type} (cause : Nat) (info : optParam U64 0) (subc : optParam Nat 0) : KeptOp ((trap cause info subc) : Op α) := by
  unfold trap
  repeat' first
    | intro _
    | with_reducible assumption
    | dsimp only
    | with_reducible apply KeptOp.ite
    | with_reducible apply Kept.ite
    | with_reducible apply Kept.dite
    | with_reducible apply KeptOp.pure
    | with_reducible apply KeptOp.throw
    | with_reducible apply KeptOp.get
    | with_reducible apply KeptOp.bind
    | with_reducible apply KeptOp.map
    | with_reducible apply KeptOp.modify
    | with_reducible apply KeptOp.modifyGet
    | with_reducible apply Kept.resOk
    | with_reducible apply Kept.resError
    | with_reducible apply Kept.refl
    | simp only [↓Kept.upd_eq]
    | with_reducible apply Kept.fold
    | with_reducible apply Kept.foldFst
    | refine KeptOp.ok (m := _) ?_ (by assumption) ?_
    | refine KeptOp.error (m := _) ?_ (by assumption) ?_
    | split
    | refine KeptOp.bind ?_ (fun _ => ?_)
    | refine KeptOp.mk (fun s => ?_)

theorem illegal_kept {α : Type} : KeptOp ((illegal) : Op α) := by
  unfold illegal
  repeat' first
    | intro _
    | with_reducible assumption
    | dsimp only
    | with_reducible apply KeptOp.ite
    | with_reducible apply Kept.ite
    | with_reducible apply Kept.dite
    | with_reducible apply KeptOp.pure
    | with_reducible apply KeptOp.throw
    | with_reducible apply KeptOp.get
    | with_reducible apply trap_kept
    | with_reducible apply KeptOp.bind
    | with_reducible apply KeptOp.map
    | with_reducible apply KeptOp.modify
    | with_reducible apply KeptOp.modifyGet
    | with_reducible apply Kept.resOk
    | with_reducible apply Kept.resError
    | with_reducible apply Kept.refl
    | simp only [↓Kept.upd_eq]
    | with_reducible apply Kept.fold
    | with_reducible apply Kept.foldFst
    | refine KeptOp.ok (m := _) ?_ (by assumption) ?_
    | refine KeptOp.error (m := _) ?_ (by assumption) ?_
    | split
    | refine KeptOp.bind ?_ (fun _ => ?_)
    | refine KeptOp.mk (fun s => ?_)

theorem illegalIf_kept (b : Bool) : KeptOp ((illegalIf b) : Op Unit) := by
  unfold illegalIf
  repeat' first
    | intro _
    | with_reducible assumption
    | dsimp only
    | with_reducible apply KeptOp.ite
    | with_reducible apply Kept.ite
    | with_reducible apply Kept.dite
    | with_reducible apply KeptOp.pure
    | with_reducible apply KeptOp.throw
    | with_reducible apply KeptOp.get
    | with_reducible apply illegal_kept
    | with_reducible apply KeptOp.bind
    | with_reducible apply KeptOp.map
    | with_reducible apply KeptOp.modify
    | with_reducible apply KeptOp.modifyGet
    | with_reducible apply Kept.resOk
    | with_reducible apply Kept.resError
    | with_reducible apply Kept.refl
    | simp only [↓Kept.upd_eq]
    | with_reducible apply Kept.fold
    | with_reducible apply Kept.foldFst
    | refine KeptOp.ok (m := _) ?_ (by assumption) ?_
    | refine KeptOp.error (m := _) ?_ (by assumption) ?_
    | split
    | refine KeptOp.bind ?_ (fun _ => ?_)
    | refine KeptOp.mk (fun s => ?_)

theorem trapIf_kept (b : Bool) (cause : Nat) (info : optParam U64 0) (subc : optParam Nat 0) : KeptOp ((trapIf b cause info subc) : Op Unit) := by
  unfold trapIf
  repeat' first
    | intro _
    | with_reducible assumption
    | dsimp only
    | with_reducible apply KeptOp.ite
    | with_reducible apply Kept.ite
    | with_reducible apply Kept.dite
    | with_reducible apply KeptOp.pure
    | with_reducible apply KeptOp.throw
    | with_reducible apply KeptOp.get
    | with_reducible apply trap_kept
    | with_reducible apply KeptOp.bind
    | with_reducible apply KeptOp.map
    | with_reducible apply KeptOp.modify
    | with_reducible apply KeptOp.modifyGet
    | with_reducible apply Kept.resOk
    | with_reducible apply Kept.resError
    | with_reducible apply Kept.refl
    | simp only [↓Kept.upd_eq]
    | with_reducible apply Kept.fold
    | with_reducible apply Kept.foldFst
    | refine KeptOp.ok (m := _) ?_ (by assumption) ?_
    | refine KeptOp.error (m := _) ?_ (by assumption) ?_
    | split
    | refine KeptOp.bind ?_ (fun _ => ?_)
    | refine KeptOp.mk (fun s => ?_)

theorem waitIf_kept (b : Bool) : KeptOp ((waitIf b) : Op Unit) := by
  unfold waitIf
  repeat' first
    | intro _
    | with_reducible assumption
    | dsimp only
    | with_reducible apply KeptOp.ite
    | with_reducible apply Kept.ite
    | with_reducible apply Kept.dite
    | with_reducible apply KeptOp.pure
    | with_reducible apply KeptOp.throw
    | with_reducible apply KeptOp.get
    | with_reducible apply KeptOp.bind
    | with_reducible apply KeptOp.map
    | with_reducible apply KeptOp.modify
    | with_reducible apply KeptOp.modifyGet
    | with_reducible apply Kept.resOk
    | with_reducible apply Kept.resError
    | with_reducible apply Kept.refl
    | simp only [↓Kept.upd_eq]
    | with_reducible apply Kept.fold
    | with_reducible apply Kept.foldFst
    | refine KeptOp.ok (m := _) ?_ (by assumption) ?_
    | refine KeptOp.error (m := _) ?_ (by assumption) ?_
    | split
    | refine KeptOp.bind ?_ (fun _ => ?_)
    | refine KeptOp.mk (fun s => ?_)

theorem coreOf_kept (c : CoreId) : KeptOp ((coreOf c) : Op Core) := by
  unfold coreOf
  repeat' first
    | intro _
    | with_reducible assumption
    | dsimp only
    | with_reducible apply KeptOp.ite
    | with_reducible apply Kept.ite
    | with_reducible apply Kept.dite
    | with_reducible apply KeptOp.pure
    | with_reducible apply KeptOp.throw
    | with_reducible apply KeptOp.get
    | with_reducible apply KeptOp.bind
    | with_reducible apply KeptOp.map
    | with_reducible apply KeptOp.modify
    | with_reducible apply KeptOp.modifyGet
    | with_reducible apply Kept.resOk
    | with_reducible apply Kept.resError
    | with_reducible apply Kept.refl
    | simp only [↓Kept.upd_eq]
    | with_reducible apply Kept.fold
    | with_reducible apply Kept.foldFst
    | refine KeptOp.ok (m := _) ?_ (by assumption) ?_
    | refine KeptOp.error (m := _) ?_ (by assumption) ?_
    | split
    | refine KeptOp.bind ?_ (fun _ => ?_)
    | refine KeptOp.mk (fun s => ?_)

theorem rdA_kept (c : CoreId) (i : Nat) : KeptOp ((rdA c i) : Op U64) := by
  unfold rdA
  repeat' first
    | intro _
    | with_reducible assumption
    | dsimp only
    | with_reducible apply KeptOp.ite
    | with_reducible apply Kept.ite
    | with_reducible apply Kept.dite
    | with_reducible apply KeptOp.pure
    | with_reducible apply KeptOp.throw
    | with_reducible apply KeptOp.get
    | with_reducible apply coreOf_kept
    | with_reducible apply KeptOp.bind
    | with_reducible apply KeptOp.map
    | with_reducible apply KeptOp.modify
    | with_reducible apply KeptOp.modifyGet
    | with_reducible apply Kept.resOk
    | with_reducible apply Kept.resError
    | with_reducible apply Kept.refl
    | simp only [↓Kept.upd_eq]
    | with_reducible apply Kept.fold
    | with_reducible apply Kept.foldFst
    | refine KeptOp.ok (m := _) ?_ (by assumption) ?_
    | refine KeptOp.error (m := _) ?_ (by assumption) ?_
    | split
    | refine KeptOp.bind ?_ (fun _ => ?_)
    | refine KeptOp.mk (fun s => ?_)

theorem rdD_kept (c : CoreId) (i : Nat) : KeptOp ((rdD c i) : Op U64) := by
  unfold rdD
  repeat' first
    | intro _
    | with_reducible assumption
    | dsimp only
    | with_reducible apply KeptOp.ite
    | with_reducible apply Kept.ite
    | with_reducible apply Kept.dite
    | with_reducible apply KeptOp.pure
    | with_reducible apply KeptOp.throw
    | with_reducible apply KeptOp.get
    | with_reducible apply coreOf_kept
    | with_reducible apply KeptOp.bind
    | with_reducible apply KeptOp.map
    | with_reducible apply KeptOp.modify
    | with_reducible apply KeptOp.modifyGet
    | with_reducible apply Kept.resOk
    | with_reducible apply Kept.resError
    | with_reducible apply Kept.refl
    | simp only [↓Kept.upd_eq]
    | with_reducible apply Kept.fold
    | with_reducible apply Kept.foldFst
    | refine KeptOp.ok (m := _) ?_ (by assumption) ?_
    | refine KeptOp.error (m := _) ?_ (by assumption) ?_
    | split
    | refine KeptOp.bind ?_ (fun _ => ?_)
    | refine KeptOp.mk (fun s => ?_)

theorem wrD_kept (c : CoreId) (i : Nat) (v : U64) : KeptOp ((wrD c i v) : Op Unit) := by
  unfold wrD
  repeat' first
    | intro _
    | with_reducible assumption
    | dsimp only
    | with_reducible apply KeptOp.ite
    | with_reducible apply Kept.ite
    | with_reducible apply Kept.dite
    | with_reducible apply KeptOp.pure
    | with_reducible apply KeptOp.throw
    | with_reducible apply KeptOp.get
    | with_reducible apply State.modCore_kept
    | with_reducible apply KeptOp.bind
    | with_reducible apply KeptOp.map
    | with_reducible apply KeptOp.modify
    | with_reducible apply KeptOp.modifyGet
    | with_reducible apply Kept.resOk
    | with_reducible apply Kept.resError
    | with_reducible apply Kept.refl
    | simp only [↓Kept.upd_eq]
    | with_reducible apply Kept.fold
    | with_reducible apply Kept.foldFst
    | refine KeptOp.ok (m := _) ?_ (by assumption) ?_
    | refine KeptOp.error (m := _) ?_ (by assumption) ?_
    | split
    | refine KeptOp.bind ?_ (fun _ => ?_)
    | refine KeptOp.mk (fun s => ?_)

theorem chkA_kept (c : CoreId) (i : Nat) (v : U64) : KeptOp ((chkA c i v) : Op Unit) := by
  unfold chkA
  repeat' first
    | intro _
    | with_reducible assumption
    | dsimp only
    | with_reducible apply KeptOp.ite
    | with_reducible apply Kept.ite
    | with_reducible apply Kept.dite
    | with_reducible apply KeptOp.pure
    | with_reducible apply KeptOp.throw
    | with_reducible apply KeptOp.get
    | with_reducible apply coreOf_kept
    | with_reducible apply trapIf_kept
    | with_reducible apply KeptOp.bind
    | with_reducible apply KeptOp.map
    | with_reducible apply KeptOp.modify
    | with_reducible apply KeptOp.modifyGet
    | with_reducible apply Kept.resOk
    | with_reducible apply Kept.resError
    | with_reducible apply Kept.refl
    | simp only [↓Kept.upd_eq]
    | with_reducible apply Kept.fold
    | with_reducible apply Kept.foldFst
    | refine KeptOp.ok (m := _) ?_ (by assumption) ?_
    | refine KeptOp.error (m := _) ?_ (by assumption) ?_
    | split
    | refine KeptOp.bind ?_ (fun _ => ?_)
    | refine KeptOp.mk (fun s => ?_)

theorem wrA_kept (c : CoreId) (i : Nat) (v : U64) : KeptOp ((wrA c i v) : Op Unit) := by
  unfold wrA
  repeat' first
    | intro _
    | with_reducible assumption
    | dsimp only
    | with_reducible apply KeptOp.ite
    | with_reducible apply Kept.ite
    | with_reducible apply Kept.dite
    | with_reducible apply KeptOp.pure
    | with_reducible apply KeptOp.throw
    | with_reducible apply KeptOp.get
    | with_reducible apply chkA_kept
    | with_reducible apply State.modCore_kept
    | with_reducible apply KeptOp.bind
    | with_reducible apply KeptOp.map
    | with_reducible apply KeptOp.modify
    | with_reducible apply KeptOp.modifyGet
    | with_reducible apply Kept.resOk
    | with_reducible apply Kept.resError
    | with_reducible apply Kept.refl
    | simp only [↓Kept.upd_eq]
    | with_reducible apply Kept.fold
    | with_reducible apply Kept.foldFst
    | refine KeptOp.ok (m := _) ?_ (by assumption) ?_
    | refine KeptOp.error (m := _) ?_ (by assumption) ?_
    | split
    | refine KeptOp.bind ?_ (fun _ => ?_)
    | refine KeptOp.mk (fun s => ?_)

theorem pcOf_kept (c : CoreId) : KeptOp ((pcOf c) : Op U64) := by
  unfold pcOf
  repeat' first
    | intro _
    | with_reducible assumption
    | dsimp only
    | with_reducible apply KeptOp.ite
    | with_reducible apply Kept.ite
    | with_reducible apply Kept.dite
    | with_reducible apply KeptOp.pure
    | with_reducible apply KeptOp.throw
    | with_reducible apply KeptOp.get
    | with_reducible apply coreOf_kept
    | with_reducible apply KeptOp.bind
    | with_reducible apply KeptOp.map
    | with_reducible apply KeptOp.modify
    | with_reducible apply KeptOp.modifyGet
    | with_reducible apply Kept.resOk
    | with_reducible apply Kept.resError
    | with_reducible apply Kept.refl
    | simp only [↓Kept.upd_eq]
    | with_reducible apply Kept.fold
    | with_reducible apply Kept.foldFst
    | refine KeptOp.ok (m := _) ?_ (by assumption) ?_
    | refine KeptOp.error (m := _) ?_ (by assumption) ?_
    | split
    | refine KeptOp.bind ?_ (fun _ => ?_)
    | refine KeptOp.mk (fun s => ?_)

theorem ringOf_kept (c : CoreId) : KeptOp ((ringOf c) : Op Nat) := by
  unfold ringOf
  repeat' first
    | intro _
    | with_reducible assumption
    | dsimp only
    | with_reducible apply KeptOp.ite
    | with_reducible apply Kept.ite
    | with_reducible apply Kept.dite
    | with_reducible apply KeptOp.pure
    | with_reducible apply KeptOp.throw
    | with_reducible apply KeptOp.get
    | with_reducible apply coreOf_kept
    | with_reducible apply KeptOp.bind
    | with_reducible apply KeptOp.map
    | with_reducible apply KeptOp.modify
    | with_reducible apply KeptOp.modifyGet
    | with_reducible apply Kept.resOk
    | with_reducible apply Kept.resError
    | with_reducible apply Kept.refl
    | simp only [↓Kept.upd_eq]
    | with_reducible apply Kept.fold
    | with_reducible apply Kept.foldFst
    | refine KeptOp.ok (m := _) ?_ (by assumption) ?_
    | refine KeptOp.error (m := _) ?_ (by assumption) ?_
    | split
    | refine KeptOp.bind ?_ (fun _ => ?_)
    | refine KeptOp.mk (fun s => ?_)

theorem modC_kept (c : CoreId) (f : Core → Core) : KeptOp ((modC c f) : Op Unit) := by
  unfold modC
  repeat' first
    | intro _
    | with_reducible assumption
    | dsimp only
    | with_reducible apply KeptOp.ite
    | with_reducible apply Kept.ite
    | with_reducible apply Kept.dite
    | with_reducible apply KeptOp.pure
    | with_reducible apply KeptOp.throw
    | with_reducible apply KeptOp.get
    | with_reducible apply State.modCore_kept
    | with_reducible apply KeptOp.bind
    | with_reducible apply KeptOp.map
    | with_reducible apply KeptOp.modify
    | with_reducible apply KeptOp.modifyGet
    | with_reducible apply Kept.resOk
    | with_reducible apply Kept.resError
    | with_reducible apply Kept.refl
    | simp only [↓Kept.upd_eq]
    | with_reducible apply Kept.fold
    | with_reducible apply Kept.foldFst
    | refine KeptOp.ok (m := _) ?_ (by assumption) ?_
    | refine KeptOp.error (m := _) ?_ (by assumption) ?_
    | split
    | refine KeptOp.bind ?_ (fun _ => ?_)
    | refine KeptOp.mk (fun s => ?_)

theorem needRing_kept (c : CoreId) (maxRing : Nat) (info : optParam U64 0) : KeptOp ((needRing c maxRing info) : Op Unit) := by
  unfold needRing
  repeat' first
    | intro _
    | with_reducible assumption
    | dsimp only
    | with_reducible apply KeptOp.ite
    | with_reducible apply Kept.ite
    | with_reducible apply Kept.dite
    | with_reducible apply KeptOp.pure
    | with_reducible apply KeptOp.throw
    | with_reducible apply KeptOp.get
    | with_reducible apply ringOf_kept
    | with_reducible apply trapIf_kept
    | with_reducible apply KeptOp.bind
    | with_reducible apply KeptOp.map
    | with_reducible apply KeptOp.modify
    | with_reducible apply KeptOp.modifyGet
    | with_reducible apply Kept.resOk
    | with_reducible apply Kept.resError
    | with_reducible apply Kept.refl
    | simp only [↓Kept.upd_eq]
    | with_reducible apply Kept.fold
    | with_reducible apply Kept.foldFst
    | refine KeptOp.ok (m := _) ?_ (by assumption) ?_
    | refine KeptOp.error (m := _) ?_ (by assumption) ?_
    | split
    | refine KeptOp.bind ?_ (fun _ => ?_)
    | refine KeptOp.mk (fun s => ?_)

theorem walked_kept {r0 : State} (s : State) (c : CoreId) (reads : List Nat) (h : Kept r0 s) : Kept r0 (walked s c reads) := by
  unfold walked
  repeat' first
    | intro _
    | with_reducible assumption
    | dsimp only
    | with_reducible apply Kept.ite
    | with_reducible apply Kept.dite
    | with_reducible apply machineCheck_kept
    | with_reducible apply l2Touch_kept
    | with_reducible apply Kept.refl
    | simp only [↓Kept.upd_eq]
    | with_reducible apply Kept.fold
    | with_reducible apply Kept.foldFst
    | split

theorem xlateAt_kept (c : CoreId) (ring : Nat) (acc : Acc) (va : U64) : KeptOp ((xlateAt c ring acc va) : Op Nat) := by
  unfold xlateAt
  refine KeptOp.ofRun (fun r0 s h => ?_)
  repeat' first
    | intro _
    | with_reducible assumption
    | dsimp only
    | with_reducible apply KeptRun.ite
    | with_reducible apply KeptRun.getBind
    | with_reducible apply KeptRun.bind
    | with_reducible apply KeptRun.set
    | with_reducible apply KeptRun.modify
    | with_reducible apply KeptOp.ite
    | with_reducible apply Kept.ite
    | with_reducible apply Kept.dite
    | with_reducible apply KeptOp.pure
    | with_reducible apply KeptOp.throw
    | with_reducible apply KeptOp.get
    | with_reducible apply walked_kept
    | with_reducible apply trap_kept
    | with_reducible apply State.modCore_kept
    | with_reducible apply KeptOp.bind
    | with_reducible apply KeptOp.map
    | with_reducible apply KeptOp.modify
    | with_reducible apply KeptOp.modifyGet
    | with_reducible apply Kept.resOk
    | with_reducible apply Kept.resError
    | with_reducible apply Kept.refl
    | simp only [↓Kept.upd_eq]
    | with_reducible apply Kept.fold
    | with_reducible apply Kept.foldFst
    | refine KeptOp.ok (m := _) ?_ (by assumption) ?_
    | refine KeptOp.error (m := _) ?_ (by assumption) ?_
    | split
    | refine KeptOp.bind ?_ (fun _ => ?_)
    | with_reducible apply KeptRun.op

theorem memLoad_kept (c : CoreId) (pa : Nat) (n : Nat) (va : U64) : KeptOp ((memLoad c pa n va) : Op (List Byte)) := by
  unfold memLoad
  refine KeptOp.ofRun (fun r0 s h => ?_)
  repeat' first
    | intro _
    | with_reducible assumption
    | dsimp only
    | with_reducible apply KeptRun.ite
    | with_reducible apply KeptRun.getBind
    | with_reducible apply KeptRun.bind
    | with_reducible apply KeptRun.set
    | with_reducible apply KeptRun.modify
    | with_reducible apply KeptOp.ite
    | with_reducible apply Kept.ite
    | with_reducible apply Kept.dite
    | with_reducible apply KeptOp.pure
    | with_reducible apply KeptOp.throw
    | with_reducible apply KeptOp.get
    | with_reducible apply trapIf_kept
    | with_reducible apply machineCheck_kept
    | with_reducible apply agentTrack_kept
    | with_reducible apply fillL1D_kept
    | with_reducible apply KeptOp.bind
    | with_reducible apply KeptOp.map
    | with_reducible apply KeptOp.modify
    | with_reducible apply KeptOp.modifyGet
    | with_reducible apply Kept.resOk
    | with_reducible apply Kept.resError
    | with_reducible apply Kept.refl
    | simp only [↓Kept.upd_eq]
    | with_reducible apply Kept.fold
    | with_reducible apply Kept.foldFst
    | refine KeptOp.ok (m := _) ?_ (by assumption) ?_
    | refine KeptOp.error (m := _) ?_ (by assumption) ?_
    | split
    | refine KeptOp.bind ?_ (fun _ => ?_)
    | with_reducible apply KeptRun.op

theorem memStore_kept (c : CoreId) (pa : Nat) (bs : List Byte) (va : U64) : KeptOp ((memStore c pa bs va) : Op Unit) := by
  unfold memStore
  refine KeptOp.ofRun (fun r0 s h => ?_)
  repeat' first
    | intro _
    | with_reducible assumption
    | dsimp only
    | with_reducible apply KeptRun.ite
    | with_reducible apply KeptRun.getBind
    | with_reducible apply KeptRun.bind
    | with_reducible apply KeptRun.set
    | with_reducible apply KeptRun.modify
    | with_reducible apply KeptOp.ite
    | with_reducible apply Kept.ite
    | with_reducible apply Kept.dite
    | with_reducible apply KeptOp.pure
    | with_reducible apply KeptOp.throw
    | with_reducible apply KeptOp.get
    | with_reducible apply trapIf_kept
    | with_reducible apply agentWrite_kept
    | with_reducible apply KeptOp.bind
    | with_reducible apply KeptOp.map
    | with_reducible apply KeptOp.modify
    | with_reducible apply KeptOp.modifyGet
    | with_reducible apply Kept.resOk
    | with_reducible apply Kept.resError
    | with_reducible apply Kept.refl
    | simp only [↓Kept.upd_eq]
    | with_reducible apply Kept.fold
    | with_reducible apply Kept.foldFst
    | refine KeptOp.ok (m := _) ?_ (by assumption) ?_
    | refine KeptOp.error (m := _) ?_ (by assumption) ?_
    | split
    | refine KeptOp.bind ?_ (fun _ => ?_)
    | with_reducible apply KeptRun.op

theorem sendHall_kept {r0 : State} (s : State) (who : Requester) (engine : Bool) (r : HallReq) (h : Kept r0 s) : Kept r0 (sendHall s who engine r) := by
  unfold sendHall
  repeat' first
    | intro _
    | with_reducible assumption
    | dsimp only
    | with_reducible apply Kept.ite
    | with_reducible apply Kept.dite
    | with_reducible apply State.send_kept
    | with_reducible apply State.route_kept
    | with_reducible apply Kept.refl
    | simp only [↓Kept.upd_eq]
    | with_reducible apply Kept.fold
    | with_reducible apply Kept.foldFst
    | refine Kept.ofSnd (x := State.route _ _) (by assumption) ?_
    | split

theorem awaitHall_kept (c : CoreId) (r : HallReq) : KeptOp ((awaitHall c r) : Op HallRes) := by
  unfold awaitHall
  repeat' first
    | intro _
    | with_reducible assumption
    | dsimp only
    | with_reducible apply KeptOp.ite
    | with_reducible apply Kept.ite
    | with_reducible apply Kept.dite
    | with_reducible apply KeptOp.pure
    | with_reducible apply KeptOp.throw
    | with_reducible apply KeptOp.get
    | with_reducible apply modC_kept
    | with_reducible apply coreOf_kept
    | with_reducible apply KeptOp.bind
    | with_reducible apply KeptOp.map
    | with_reducible apply KeptOp.modify
    | with_reducible apply KeptOp.modifyGet
    | with_reducible apply Kept.resOk
    | with_reducible apply Kept.resError
    | with_reducible apply Kept.refl
    | simp only [↓Kept.upd_eq]
    | with_reducible apply Kept.fold
    | with_reducible apply Kept.foldFst
    | refine KeptOp.ok (m := _) ?_ (by assumption) ?_
    | refine KeptOp.error (m := _) ?_ (by assumption) ?_
    | split
    | refine KeptOp.bind ?_ (fun _ => ?_)
    | refine KeptOp.mk (fun s => ?_)

theorem hallLoad_kept (c : CoreId) (addr : U64) (n : Nat) : KeptOp ((hallLoad c addr n) : Op (List Byte)) := by
  unfold hallLoad
  refine KeptOp.ofRun (fun r0 s h => ?_)
  repeat' first
    | intro _
    | with_reducible assumption
    | dsimp only
    | with_reducible apply KeptRun.ite
    | with_reducible apply KeptRun.getBind
    | with_reducible apply KeptRun.bind
    | with_reducible apply KeptRun.set
    | with_reducible apply KeptRun.modify
    | with_reducible apply KeptOp.ite
    | with_reducible apply Kept.ite
    | with_reducible apply Kept.dite
    | with_reducible apply KeptOp.pure
    | with_reducible apply KeptOp.throw
    | with_reducible apply KeptOp.get
    | with_reducible apply awaitHall_kept
    | with_reducible apply memLoad_kept
    | with_reducible apply trapIf_kept
    | with_reducible apply trap_kept
    | with_reducible apply machineCheck_kept
    | with_reducible apply KeptOp.bind
    | with_reducible apply KeptOp.map
    | with_reducible apply KeptOp.modify
    | with_reducible apply KeptOp.modifyGet
    | with_reducible apply Kept.resOk
    | with_reducible apply Kept.resError
    | with_reducible apply Kept.refl
    | simp only [↓Kept.upd_eq]
    | with_reducible apply Kept.fold
    | with_reducible apply Kept.foldFst
    | refine KeptOp.ok (m := _) ?_ (by assumption) ?_
    | refine KeptOp.error (m := _) ?_ (by assumption) ?_
    | split
    | refine KeptOp.bind ?_ (fun _ => ?_)
    | with_reducible apply KeptRun.op

theorem hallStore_kept (c : CoreId) (addr : U64) (bs : List Byte) : KeptOp ((hallStore c addr bs) : Op Unit) := by
  unfold hallStore
  repeat' first
    | intro _
    | with_reducible assumption
    | dsimp only
    | with_reducible apply KeptOp.ite
    | with_reducible apply Kept.ite
    | with_reducible apply Kept.dite
    | with_reducible apply KeptOp.pure
    | with_reducible apply KeptOp.throw
    | with_reducible apply KeptOp.get
    | with_reducible apply awaitHall_kept
    | with_reducible apply memStore_kept
    | with_reducible apply trapIf_kept
    | with_reducible apply trap_kept
    | with_reducible apply KeptOp.bind
    | with_reducible apply KeptOp.map
    | with_reducible apply KeptOp.modify
    | with_reducible apply KeptOp.modifyGet
    | with_reducible apply Kept.resOk
    | with_reducible apply Kept.resError
    | with_reducible apply Kept.refl
    | simp only [↓Kept.upd_eq]
    | with_reducible apply Kept.fold
    | with_reducible apply Kept.foldFst
    | refine KeptOp.ok (m := _) ?_ (by assumption) ?_
    | refine KeptOp.error (m := _) ?_ (by assumption) ?_
    | split
    | refine KeptOp.bind ?_ (fun _ => ?_)
    | refine KeptOp.mk (fun s => ?_)

theorem enterRing_kept {r0 : State} (s : State) (c : CoreId) (t : Nat) (cause : Nat) (subc : Nat) (async : Bool) (info : U64) (p : U64) (h : Kept r0 s) : Kept r0 (enterRing s c t cause subc async info p) := by
  unfold enterRing
  repeat' first
    | intro _
    | with_reducible assumption
    | dsimp only
    | with_reducible apply Kept.ite
    | with_reducible apply Kept.dite
    | with_reducible apply stopOnFault_kept
    | with_reducible apply homeWrite_kept
    | with_reducible apply State.modCore_kept
    | with_reducible apply State.setCore_kept
    | with_reducible apply Kept.refl
    | simp only [↓Kept.upd_eq]
    | with_reducible apply Kept.fold
    | with_reducible apply Kept.foldFst
    | split

theorem raiseSync_kept {r0 : State} (s : State) (c : CoreId) (cause : Nat) (subc : Nat) (info : U64) (p : U64) (h : Kept r0 s) : Kept r0 (raiseSync s c cause subc info p) := by
  unfold raiseSync
  repeat' first
    | intro _
    | with_reducible assumption
    | dsimp only
    | with_reducible apply Kept.ite
    | with_reducible apply Kept.dite
    | with_reducible apply enterRing_kept
    | with_reducible apply stopOnFault_kept
    | with_reducible apply Kept.refl
    | simp only [↓Kept.upd_eq]
    | with_reducible apply Kept.fold
    | with_reducible apply Kept.foldFst
    | split

theorem takeEvent_kept {r0 : State} (s : State) (c : CoreId) (cause : Nat) (h : Kept r0 s) : Kept r0 (takeEvent s c cause) := by
  unfold takeEvent
  repeat' first
    | intro _
    | with_reducible assumption
    | dsimp only
    | with_reducible apply Kept.ite
    | with_reducible apply Kept.dite
    | with_reducible apply enterRing_kept
    | with_reducible apply discardTiles_kept
    | with_reducible apply Kept.refl
    | simp only [↓Kept.upd_eq]
    | with_reducible apply Kept.fold
    | with_reducible apply Kept.foldFst
    | split

theorem fetchAt_kept {r0 : State} (s : State) (c : CoreId) (h : Kept r0 s) : Kept r0 (resState (fetchAt s c)) := by
  unfold fetchAt
  dsimp only
  refine h.trans (KeptOp.keep ?_ s)
  refine KeptOp.bind (coreOf_kept _) (fun k => ?_)
  refine KeptOp.bind (trapIf_kept _ _ _ _) (fun _ => ?_)
  refine KeptOp.bind (xlateAt_kept _ _ _ _) (fun _ => ?_)
  refine KeptOp.bind (trapIf_kept _ _ _ _) (fun _ => ?_)
  refine KeptOp.ofRun (fun r s h => KeptRun.getBind (KeptRun.bind (KeptRun.set ?_) (fun _ _ h => KeptRun.op (KeptOp.pure _) h)))
  exact Kept.ite (machineCheck_kept _ _ _ _ (fetchLines_kept _ _ _ h)) (fetchLines_kept _ _ _ h)

theorem stepDone_kept {r0 : State} (s : State) (c : CoreId) (h : Kept r0 s) : Kept r0 (stepDone s c) := by
  unfold stepDone
  repeat' first
    | intro _
    | with_reducible assumption
    | dsimp only
    | with_reducible apply Kept.ite
    | with_reducible apply Kept.dite
    | with_reducible apply haltCore_kept
    | with_reducible apply Kept.refl
    | simp only [↓Kept.upd_eq]
    | with_reducible apply Kept.fold
    | with_reducible apply Kept.foldFst
    | split

theorem retire_kept {r0 : State} (s : State) (c : CoreId) (npc : U64) (isRte : Bool) (h : Kept r0 s) : Kept r0 (retire s c npc isRte) := by
  unfold retire
  repeat' first
    | intro _
    | with_reducible assumption
    | dsimp only
    | with_reducible apply Kept.ite
    | with_reducible apply Kept.dite
    | with_reducible apply stepDone_kept
    | with_reducible apply State.modCore_kept
    | with_reducible apply Kept.refl
    | simp only [↓Kept.upd_eq]
    | with_reducible apply Kept.fold
    | with_reducible apply Kept.foldFst
    | split

theorem redirectTo_kept {r0 : State} (s : State) (c : CoreId) (a : U64) (h : Kept r0 s) : Kept r0 (redirectTo s c a) := by
  unfold redirectTo
  repeat' first
    | intro _
    | with_reducible assumption
    | dsimp only
    | with_reducible apply Kept.ite
    | with_reducible apply Kept.dite
    | with_reducible apply discardTiles_kept
    | with_reducible apply State.modCore_kept
    | with_reducible apply Kept.refl
    | simp only [↓Kept.upd_eq]
    | with_reducible apply Kept.fold
    | with_reducible apply Kept.foldFst
    | split

theorem finish_kept {r0 : State} (s0 : State) (c : CoreId) (word : U64) (kind : IKind) (r : EStateM.Result Stop State U64) (hr : Kept r0 (resState r))
    (h : Kept r0 s0) : Kept r0 (finish s0 c word kind r) := by
  unfold finish
  dsimp only
  split
  · exact retire_kept _ _ _ _ hr
  · rename_i cause subc info keep t
    have hb : Kept r0 (if keep = true then t else s0) := Kept.ite hr h
    refine Kept.ite h (Kept.ite (Kept.ite ?_ ?_) ?_)
    · exact stopOnFault_kept _ _ _ _ _ _ hb
    · exact enterRing_kept _ _ _ _ _ _ _ _ hb
    · exact raiseSync_kept _ _ _ _ _ _ hb
  · exact h
  · exact State.modCore_kept _ _ _ h
  · exact sendHall_kept _ _ _ _ (State.modCore_kept _ _ _ (State.modCore_kept _ _ _ h))
  · split
    · exact abortTask_kept _ _ _ _ h
    · exact h
  · exact stopOnFault_kept _ _ _ _ _ _ h
  · refine Kept.ite hr ?_
    split
    · exact takeEvent_kept _ _ _ hr
    · exact hr

theorem ready_kept {r0 : State} (s : State) (c : CoreId) (h : Kept r0 s) : Kept r0 (ready s c) := by
  unfold ready
  repeat' first
    | intro _
    | with_reducible assumption
    | dsimp only
    | with_reducible apply Kept.ite
    | with_reducible apply Kept.dite
    | with_reducible apply tileSync_kept
    | with_reducible apply settleDue_kept
    | with_reducible apply Kept.refl
    | simp only [↓Kept.upd_eq]
    | with_reducible apply Kept.fold
    | with_reducible apply Kept.foldFst
    | split

theorem stopAtBoundary_kept {r0 : State} (s : State) (c : CoreId) (h : Kept r0 s) : Kept r0 (stopAtBoundary s c) := by
  unfold stopAtBoundary
  repeat' first
    | intro _
    | with_reducible assumption
    | dsimp only
    | with_reducible apply Kept.ite
    | with_reducible apply Kept.dite
    | with_reducible apply stopCore_kept
    | with_reducible apply Kept.refl
    | simp only [↓Kept.upd_eq]
    | with_reducible apply Kept.fold
    | with_reducible apply Kept.foldFst
    | split

theorem issue_kept {r0 : State} (c : CoreId) (word : U64) (kind : IKind) (body : Op U64) (s0 : State) (kbody : KeptOp body) (h0 : Kept r0 s0) :
    Kept r0 (issue c word kind body s0) := by
  unfold issue
  have h := ready_kept s0 c h0
  generalize ready s0 c = s at h ⊢
  dsimp only
  refine Kept.ite h (Kept.ite (stopAtBoundary_kept _ _ h) ?_)
  split
  · exact redirectTo_kept _ _ _ h
  · split
    · exact takeEvent_kept _ _ _ h
    · refine Kept.ite h (Kept.ite (haltCore_kept _ _ h) ?_)
      have hf := fetchAt_kept s c h
      split
      · rename_i e
        exact Kept.ite (raiseSync_kept _ _ _ _ _ _ (Kept.ofError e hf)) h
      · rename_i e
        exact Kept.ofError e hf
      · rename_i e
        have h1 := Kept.ofOk e hf
        exact finish_kept _ _ _ _ _ ((State.modCore_kept _ c _ h1).trans (kbody.keep _)) (State.modCore_kept _ c _ h1)

theorem nextPC_kept (c : CoreId) (n : Nat) : KeptOp ((nextPC c n) : Op U64) := by
  unfold nextPC
  repeat' first
    | intro _
    | with_reducible assumption
    | dsimp only
    | with_reducible apply KeptOp.ite
    | with_reducible apply Kept.ite
    | with_reducible apply Kept.dite
    | with_reducible apply KeptOp.pure
    | with_reducible apply KeptOp.throw
    | with_reducible apply KeptOp.get
    | with_reducible apply pcOf_kept
    | with_reducible apply KeptOp.bind
    | with_reducible apply KeptOp.map
    | with_reducible apply KeptOp.modify
    | with_reducible apply KeptOp.modifyGet
    | with_reducible apply Kept.resOk
    | with_reducible apply Kept.resError
    | with_reducible apply Kept.refl
    | simp only [↓Kept.upd_eq]
    | with_reducible apply Kept.fold
    | with_reducible apply Kept.foldFst
    | refine KeptOp.ok (m := _) ?_ (by assumption) ?_
    | refine KeptOp.error (m := _) ?_ (by assumption) ?_
    | split
    | refine KeptOp.bind ?_ (fun _ => ?_)
    | refine KeptOp.mk (fun s => ?_)

end Sys2Proof.Machine
end

