-- ==== Sys2Proof/Laws/KeptConvert.lean ====
section
/-! SUPPORT. Laws/KeptConvert.lean: every operation of Machine/Convert.lean keeps what Laws/Kept.lean names. -/

namespace Sys2Proof.Machine

set_option linter.unusedTactic false
set_option linter.unreachableTactic false

theorem useFree_kept (n : Nat) : KeptOp ((useFree n) : Op Unit) := by
  unfold useFree
  repeat' first
    | intro _
    | with_reducible assumption
    | dsimp only
    | with_reducible apply KeptOp.ite
    | with_reducible apply Kept.ite
    | with_reducible apply Kept.dite
    | with_reducible apply KeptOp.pure
    | with_reducible apply KeptOp.throw
    | with_reducible apply KeptOp.get
    | with_reducible apply KeptOp.bind
    | with_reducible apply KeptOp.map
    | with_reducible apply KeptOp.modify
    | with_reducible apply KeptOp.modifyGet
    | with_reducible apply Kept.resOk
    | with_reducible apply Kept.resError
    | with_reducible apply Kept.refl
    | simp only [↓Kept.upd_eq]
    | with_reducible apply Kept.fold
    | with_reducible apply Kept.foldFst
    | refine KeptOp.ok (m := _) ?_ (by assumption) ?_
    | refine KeptOp.error (m := _) ?_ (by assumption) ?_
    | split
    | refine KeptOp.bind ?_ (fun _ => ?_)
    | refine KeptOp.mk (fun s => ?_)

theorem countConversion_kept (c : CoreId) (x : Counts) (fmt : Nat) (cls : Nat) (chan : Nat) : KeptOp ((countConversion c x fmt cls chan) : Op Unit) := by
  unfold countConversion
  repeat' first
    | intro _
    | with_reducible assumption
    | dsimp only
    | with_reducible apply KeptOp.ite
    | with_reducible apply Kept.ite
    | with_reducible apply Kept.dite
    | with_reducible apply KeptOp.pure
    | with_reducible apply KeptOp.throw
    | with_reducible apply KeptOp.get
    | with_reducible apply modC_kept
    | with_reducible apply coreOf_kept
    | with_reducible apply addCounts_kept
    | with_reducible apply KeptOp.bind
    | with_reducible apply KeptOp.map
    | with_reducible apply KeptOp.modify
    | with_reducible apply KeptOp.modifyGet
    | with_reducible apply Kept.resOk
    | with_reducible apply Kept.resError
    | with_reducible apply Kept.refl
    | simp only [↓Kept.upd_eq]
    | with_reducible apply Kept.fold
    | with_reducible apply Kept.foldFst
    | refine KeptOp.ok (m := _) ?_ (by assumption) ?_
    | refine KeptOp.error (m := _) ?_ (by assumption) ?_
    | split
    | refine KeptOp.bind ?_ (fun _ => ?_)
    | refine KeptOp.mk (fun s => ?_)

end Sys2Proof.Machine
end

