-- ==== Sys2Proof/Laws/KeptLedger.lean ====
section
/-! SUPPORT. Laws/KeptLedger.lean: every operation of Machine/Ledger.lean keeps what Laws/Kept.lean names. -/

namespace Sys2Proof.Machine

set_option linter.unusedTactic false
set_option linter.unreachableTactic false

theorem State.modLed_kept {r0 : State} (s : State) (f : LedState → LedState) (h : Kept r0 s) : Kept r0 (State.modLed s f) := by
  unfold State.modLed
  repeat' first
    | intro _
    | with_reducible assumption
    | dsimp only
    | with_reducible apply Kept.ite
    | with_reducible apply Kept.dite
    | with_reducible apply Kept.refl
    | simp only [↓Kept.upd_eq]
    | with_reducible apply Kept.fold
    | with_reducible apply Kept.foldFst
    | split

theorem ledWrite_kept {r0 : State} (s : State) (step : U64) (off : Nat) (bs : List Byte) (h : Kept r0 s) : Kept r0 (ledWrite s step off bs) := by
  unfold ledWrite
  repeat' first
    | intro _
    | with_reducible assumption
    | dsimp only
    | with_reducible apply Kept.ite
    | with_reducible apply Kept.dite
    | with_reducible apply homeWrite_kept
    | with_reducible apply Kept.refl
    | simp only [↓Kept.upd_eq]
    | with_reducible apply Kept.fold
    | with_reducible apply Kept.foldFst
    | split

theorem ledPatch_kept {r0 : State} (s : State) (step : U64) (off : Nat) (f : U64 → U64) (h : Kept r0 s) : Kept r0 (ledPatch s step off f) := by
  unfold ledPatch
  repeat' first
    | intro _
    | with_reducible assumption
    | dsimp only
    | with_reducible apply Kept.ite
    | with_reducible apply Kept.dite
    | with_reducible apply ledWrite_kept
    | with_reducible apply Kept.refl
    | simp only [↓Kept.upd_eq]
    | with_reducible apply Kept.fold
    | with_reducible apply Kept.foldFst
    | split

theorem finishPost_kept {r0 : State} (s : State) (h : Kept r0 s) : Kept r0 (finishPost s) := by
  unfold finishPost
  repeat' first
    | intro _
    | with_reducible assumption
    | dsimp only
    | with_reducible apply Kept.ite
    | with_reducible apply Kept.dite
    | with_reducible apply ledPatch_kept
    | with_reducible apply State.modLed_kept
    | with_reducible apply Kept.refl
    | simp only [↓Kept.upd_eq]
    | with_reducible apply Kept.fold
    | with_reducible apply Kept.foldFst
    | split

theorem verdict_kept {r0 : State} (s : State) (h : Kept r0 s) : Kept r0 (verdict s) := by
  unfold verdict
  repeat' first
    | intro _
    | with_reducible assumption
    | dsimp only
    | with_reducible apply Kept.ite
    | with_reducible apply Kept.dite
    | with_reducible apply finishPost_kept
    | with_reducible apply ledPatch_kept
    | with_reducible apply ledWrite_kept
    | with_reducible apply State.modLed_kept
    | with_reducible apply Kept.refl
    | simp only [↓Kept.upd_eq]
    | with_reducible apply Kept.fold
    | with_reducible apply Kept.foldFst
    | split

theorem digestsDown_kept {r0 : State} (s : State) (first : Nat) (ds : List (BitVec 128)) (h : Kept r0 s) : Kept r0 (digestsDown s first ds) := by
  unfold digestsDown
  repeat' first
    | intro _
    | with_reducible assumption
    | dsimp only
    | with_reducible apply Kept.ite
    | with_reducible apply Kept.dite
    | with_reducible apply verdict_kept
    | with_reducible apply State.modLed_kept
    | with_reducible apply sendLeds_kept
    | with_reducible apply Kept.refl
    | simp only [↓Kept.upd_eq]
    | with_reducible apply Kept.fold
    | with_reducible apply Kept.foldFst
    | split

theorem digestsUp_kept {r0 : State} (s : State) (first : Nat) (h : Kept r0 s) : Kept r0 (digestsUp s first) := by
  unfold digestsUp
  repeat' first
    | intro _
    | with_reducible assumption
    | dsimp only
    | with_reducible apply Kept.ite
    | with_reducible apply Kept.dite
    | with_reducible apply digestsDown_kept
    | with_reducible apply State.modLed_kept
    | with_reducible apply sendLed_kept
    | with_reducible apply Kept.refl
    | simp only [↓Kept.upd_eq]
    | with_reducible apply Kept.fold
    | with_reducible apply Kept.foldFst
    | split

theorem noticeAll_kept {r0 : State} (s : State) (h : Kept r0 s) : Kept r0 (noticeAll s) := by
  unfold noticeAll
  repeat' first
    | intro _
    | with_reducible assumption
    | dsimp only
    | with_reducible apply Kept.ite
    | with_reducible apply Kept.dite
    | with_reducible apply Kept.refl
    | simp only [↓Kept.upd_eq]
    | with_reducible apply Kept.fold
    | with_reducible apply Kept.foldFst
    | split

theorem raiseAlarm_kept {r0 : State} (s : State) (step : U64) (tag : Nat) (h : Kept r0 s) : Kept r0 (raiseAlarm s step tag) := by
  unfold raiseAlarm
  repeat' first
    | intro _
    | with_reducible assumption
    | dsimp only
    | with_reducible apply Kept.ite
    | with_reducible apply Kept.dite
    | with_reducible apply noticeAll_kept
    | with_reducible apply State.modLed_kept
    | with_reducible apply Kept.refl
    | simp only [↓Kept.upd_eq]
    | with_reducible apply Kept.fold
    | with_reducible apply Kept.foldFst
    | split

theorem checkRatio_kept {r0 : State} (s : State) (step : U64) (t : Nat) (r : Nat) (h : Kept r0 s) : Kept r0 (checkRatio s step t r) := by
  unfold checkRatio
  repeat' first
    | intro _
    | with_reducible assumption
    | dsimp only
    | with_reducible apply Kept.ite
    | with_reducible apply Kept.dite
    | with_reducible apply raiseAlarm_kept
    | with_reducible apply State.modLed_kept
    | with_reducible apply Kept.refl
    | simp only [↓Kept.upd_eq]
    | with_reducible apply Kept.fold
    | with_reducible apply Kept.foldFst
    | split

theorem ratiosDown_kept {r0 : State} (s : State) (first : Nat) (rs : List Nat) (h : Kept r0 s) : Kept r0 (ratiosDown s first rs) := by
  unfold ratiosDown
  repeat' first
    | intro _
    | with_reducible assumption
    | dsimp only
    | with_reducible apply Kept.ite
    | with_reducible apply Kept.dite
    | with_reducible apply checkRatio_kept
    | with_reducible apply finishPost_kept
    | with_reducible apply ledWrite_kept
    | with_reducible apply State.modLed_kept
    | with_reducible apply sendLeds_kept
    | with_reducible apply Kept.refl
    | simp only [↓Kept.upd_eq]
    | with_reducible apply Kept.fold
    | with_reducible apply Kept.foldFst
    | split

theorem sumsUp_kept {r0 : State} (s : State) (first : Nat) (h : Kept r0 s) : Kept r0 (sumsUp s first) := by
  unfold sumsUp
  repeat' first
    | intro _
    | with_reducible assumption
    | dsimp only
    | with_reducible apply Kept.ite
    | with_reducible apply Kept.dite
    | with_reducible apply ratiosDown_kept
    | with_reducible apply State.modLed_kept
    | with_reducible apply sendLed_kept
    | with_reducible apply Kept.refl
    | simp only [↓Kept.upd_eq]
    | with_reducible apply Kept.fold
    | with_reducible apply Kept.foldFst
    | split

theorem postUwr_kept {r0 : State} (s : State) (h : Kept r0 s) : Kept r0 (postUwr s) := by
  unfold postUwr
  repeat' first
    | intro _
    | with_reducible assumption
    | dsimp only
    | with_reducible apply Kept.ite
    | with_reducible apply Kept.dite
    | with_reducible apply sumsUp_kept
    | with_reducible apply ledWrite_kept
    | with_reducible apply State.modLed_kept
    | with_reducible apply l2Touch_kept
    | with_reducible apply consumed_kept
    | with_reducible apply Kept.refl
    | simp only [↓Kept.upd_eq]
    | with_reducible apply Kept.fold
    | with_reducible apply Kept.foldFst
    | split

theorem postRootdone_kept {r0 : State} (s : State) (h : Kept r0 s) : Kept r0 (postRootdone s) := by
  unfold postRootdone
  repeat' first
    | intro _
    | with_reducible assumption
    | dsimp only
    | with_reducible apply Kept.ite
    | with_reducible apply Kept.dite
    | with_reducible apply digestsUp_kept
    | with_reducible apply State.modLed_kept
    | with_reducible apply Kept.refl
    | simp only [↓Kept.upd_eq]
    | with_reducible apply Kept.fold
    | with_reducible apply Kept.foldFst
    | split

theorem postRecvdone_kept {r0 : State} (s : State) (h : Kept r0 s) : Kept r0 (postRecvdone s) := by
  unfold postRecvdone
  repeat' first
    | intro _
    | with_reducible assumption
    | dsimp only
    | with_reducible apply Kept.ite
    | with_reducible apply Kept.dite
    | with_reducible apply verdict_kept
    | with_reducible apply State.modLed_kept
    | with_reducible apply Kept.refl
    | simp only [↓Kept.upd_eq]
    | with_reducible apply Kept.fold
    | with_reducible apply Kept.foldFst
    | split

theorem postTwin_kept {r0 : State} (s : State) (t3 : Nat) (tx : Nat) (h : Kept r0 s) : Kept r0 (postTwin s t3 tx) := by
  unfold postTwin
  repeat' first
    | intro _
    | with_reducible assumption
    | dsimp only
    | with_reducible apply Kept.ite
    | with_reducible apply Kept.dite
    | with_reducible apply ledPatch_kept
    | with_reducible apply Kept.refl
    | simp only [↓Kept.upd_eq]
    | with_reducible apply Kept.fold
    | with_reducible apply Kept.foldFst
    | split

theorem lgPost_kept {r0 : State} (s : State) (v : U64) (h : Kept r0 s) : Kept r0 (lgPost s v) := by
  unfold lgPost
  repeat' first
    | intro _
    | with_reducible assumption
    | dsimp only
    | with_reducible apply Kept.ite
    | with_reducible apply Kept.dite
    | with_reducible apply postTwin_kept
    | with_reducible apply postRecvdone_kept
    | with_reducible apply postRootdone_kept
    | with_reducible apply postUwr_kept
    | with_reducible apply Kept.refl
    | simp only [↓Kept.upd_eq]
    | with_reducible apply Kept.fold
    | with_reducible apply Kept.foldFst
    | split

theorem lgStart_kept {r0 : State} (s : State) (k : U64) (h : Kept r0 s) : Kept r0 (lgStart s k) := by
  unfold lgStart
  repeat' first
    | intro _
    | with_reducible assumption
    | dsimp only
    | with_reducible apply Kept.ite
    | with_reducible apply Kept.dite
    | with_reducible apply Kept.refl
    | simp only [↓Kept.upd_eq]
    | with_reducible apply Kept.fold
    | with_reducible apply Kept.foldFst
    | split

theorem lgSealGo_kept {r0 : State} (s : State) (dirty : Bool) (h : Kept r0 s) : Kept r0 (lgSealGo s dirty) := by
  unfold lgSealGo
  repeat' first
    | intro _
    | with_reducible assumption
    | dsimp only
    | with_reducible apply Kept.ite
    | with_reducible apply Kept.dite
    | with_reducible apply State.modLed_kept
    | with_reducible apply Kept.refl
    | simp only [↓Kept.upd_eq]
    | with_reducible apply Kept.fold
    | with_reducible apply Kept.foldFst
    | split

theorem ledVote_kept {r0 : State} (s : State) (from' : Nat) (v : VoteVal) (h : Kept r0 s) : Kept r0 (ledVote s from' v) := by
  unfold ledVote
  repeat' first
    | intro _
    | with_reducible assumption
    | dsimp only
    | with_reducible apply Kept.ite
    | with_reducible apply Kept.dite
    | with_reducible apply State.modLed_kept
    | with_reducible apply castVote_kept
    | with_reducible apply Kept.refl
    | simp only [↓Kept.upd_eq]
    | with_reducible apply Kept.fold
    | with_reducible apply Kept.foldFst
    | split

theorem ledOutcome_kept {r0 : State} (s : State) (v : VoteVal) (t : U64) (h : Kept r0 s) : Kept r0 (ledOutcome s v t) := by
  unfold ledOutcome
  repeat' first
    | intro _
    | with_reducible assumption
    | dsimp only
    | with_reducible apply Kept.ite
    | with_reducible apply Kept.dite
    | with_reducible apply State.modLed_kept
    | with_reducible apply takeOutcome_kept
    | with_reducible apply Kept.refl
    | simp only [↓Kept.upd_eq]
    | with_reducible apply Kept.fold
    | with_reducible apply Kept.foldFst
    | split

theorem ledMessage_kept {r0 : State} (s : State) (k : Packet) (h : Kept r0 s) : Kept r0 (ledMessage s k) := by
  unfold ledMessage
  repeat' first
    | intro _
    | with_reducible assumption
    | dsimp only
    | with_reducible apply Kept.ite
    | with_reducible apply Kept.dite
    | with_reducible apply ledOutcome_kept
    | with_reducible apply ledVote_kept
    | with_reducible apply sumsUp_kept
    | with_reducible apply ratiosDown_kept
    | with_reducible apply digestsUp_kept
    | with_reducible apply digestsDown_kept
    | with_reducible apply State.modLed_kept
    | with_reducible apply Kept.refl
    | simp only [↓Kept.upd_eq]
    | with_reducible apply Kept.fold
    | with_reducible apply Kept.foldFst
    | split

theorem ledReceive_kept {r0 : State} (s : State) (p : PortId) (k : Packet) (h : Kept r0 s) : Kept r0 (ledReceive s p k) := by
  unfold ledReceive
  repeat' first
    | intro _
    | with_reducible assumption
    | dsimp only
    | with_reducible apply Kept.ite
    | with_reducible apply Kept.dite
    | with_reducible apply ledMessage_kept
    | with_reducible apply State.modLed_kept
    | with_reducible apply State.owe_kept
    | with_reducible apply State.drop_kept
    | with_reducible apply Kept.refl
    | simp only [↓Kept.upd_eq]
    | with_reducible apply Kept.fold
    | with_reducible apply Kept.foldFst
    | split

theorem ledEmpty_kept {r0 : State} (s : State) (h : Kept r0 s) : Kept r0 (ledEmpty s) := by
  unfold ledEmpty
  repeat' first
    | intro _
    | with_reducible assumption
    | dsimp only
    | with_reducible apply Kept.ite
    | with_reducible apply Kept.dite
    | with_reducible apply State.modLed_kept
    | with_reducible apply State.owe_kept
    | with_reducible apply Kept.refl
    | simp only [↓Kept.upd_eq]
    | with_reducible apply Kept.fold
    | with_reducible apply Kept.foldFst
    | split

theorem ledDrain_kept {r0 : State} (s : State) (h : Kept r0 s) : Kept r0 (ledDrain s) := by
  unfold ledDrain
  repeat' first
    | intro _
    | with_reducible assumption
    | dsimp only
    | with_reducible apply Kept.ite
    | with_reducible apply Kept.dite
    | with_reducible apply ledEmpty_kept
    | with_reducible apply ledMessage_kept
    | with_reducible apply State.drop_kept
    | with_reducible apply Kept.refl
    | simp only [↓Kept.upd_eq]
    | with_reducible apply Kept.fold
    | with_reducible apply Kept.foldFst
    | split

theorem setProfile_kept {r0 : State} (s : State) (p : StepProf) (h : Kept r0 s) : Kept r0 (setProfile s p) := by
  unfold setProfile
  repeat' first
    | intro _
    | with_reducible assumption
    | dsimp only
    | with_reducible apply Kept.ite
    | with_reducible apply Kept.dite
    | with_reducible apply Kept.refl
    | simp only [↓Kept.upd_eq]
    | with_reducible apply Kept.fold
    | with_reducible apply Kept.foldFst
    | split

theorem setStep_kept {r0 : State} (s : State) (n : U64) (h : Kept r0 s) : Kept r0 (setStep s n) := by
  unfold setStep
  repeat' first
    | intro _
    | with_reducible assumption
    | dsimp only
    | with_reducible apply Kept.ite
    | with_reducible apply Kept.dite
    | with_reducible apply Kept.refl
    | simp only [↓Kept.upd_eq]
    | with_reducible apply Kept.fold
    | with_reducible apply Kept.foldFst
    | split

theorem svRewind_kept {r0 : State} (s : State) (k : U64) (h : Kept r0 s) : Kept r0 (svRewind s k) := by
  unfold svRewind
  repeat' first
    | intro _
    | with_reducible assumption
    | dsimp only
    | with_reducible apply Kept.ite
    | with_reducible apply Kept.dite
    | with_reducible apply setStep_kept
    | with_reducible apply setProfile_kept
    | with_reducible apply abortTasks_kept
    | with_reducible apply Kept.refl
    | simp only [↓Kept.upd_eq]
    | with_reducible apply Kept.fold
    | with_reducible apply Kept.foldFst
    | split

end Sys2Proof.Machine
end

