-- ==== Sys2Proof/Laws/KeptTime.lean ====
section
/-! SUPPORT. Laws/KeptTime.lean: every operation of Machine/Time.lean keeps what Laws/Kept.lean names. -/

namespace Sys2Proof.Machine

set_option linter.unusedTactic false
set_option linter.unreachableTactic false

theorem State.advance_kept {r0 : State} (s : State) (n : Nat) (h : Kept r0 s) : Kept r0 (State.advance s n) := by
  exact h.trans ⟨fun w => w, rfl, Nat.le_add_right _ _⟩

theorem State.toClk_kept {r0 : State} (s : State) (c : CoreId) (x : Nat) (h : Kept r0 s) : Kept r0 (State.toClk s c x) := by
  unfold State.toClk
  repeat' first
    | intro _
    | with_reducible assumption
    | dsimp only
    | with_reducible apply Kept.ite
    | with_reducible apply Kept.dite
    | with_reducible apply State.advance_kept
    | with_reducible apply Kept.refl
    | simp only [↓Kept.upd_eq]
    | with_reducible apply Kept.fold
    | with_reducible apply Kept.foldFst
    | split

theorem State.advanceTo_kept {r0 : State} (s : State) (t : Nat) (h : Kept r0 s) : Kept r0 (State.advanceTo s t) := by
  unfold State.advanceTo
  repeat' first
    | intro _
    | with_reducible assumption
    | dsimp only
    | with_reducible apply Kept.ite
    | with_reducible apply Kept.dite
    | with_reducible apply State.advance_kept
    | with_reducible apply Kept.refl
    | simp only [↓Kept.upd_eq]
    | with_reducible apply Kept.fold
    | with_reducible apply Kept.foldFst
    | split

theorem State.toHall_kept {r0 : State} (s : State) (t : U64) (h : Kept r0 s) : Kept r0 (State.toHall s t) := by
  unfold State.toHall
  repeat' first
    | intro _
    | with_reducible assumption
    | dsimp only
    | with_reducible apply Kept.ite
    | with_reducible apply Kept.dite
    | with_reducible apply State.advance_kept
    | with_reducible apply Kept.refl
    | simp only [↓Kept.upd_eq]
    | with_reducible apply Kept.fold
    | with_reducible apply Kept.foldFst
    | split

end Sys2Proof.Machine
end

