-- ==== Sys2Proof/Laws/KeptMailbox.lean ====
section
/-! SUPPORT. Laws/KeptMailbox.lean: every operation of Machine/Mailbox.lean keeps what Laws/Kept.lean names. -/

namespace Sys2Proof.Machine

set_option linter.unusedTactic false
set_option linter.unreachableTactic false

theorem postSlip_kept {r0 : State} (s : State) (mb : Nat) (h : Kept r0 s) : Kept r0 (postSlip s mb) := by
  unfold postSlip
  repeat' first
    | intro _
    | with_reducible assumption
    | dsimp only
    | with_reducible apply Kept.ite
    | with_reducible apply Kept.dite
    | with_reducible apply State.modBox_kept
    | with_reducible apply Kept.refl
    | simp only [↓Kept.upd_eq]
    | with_reducible apply Kept.fold
    | with_reducible apply Kept.foldFst
    | split

theorem popNotice_kept {r0 : State} (s : State) (mb : Nat) (h : Kept r0 s) : Kept r0 (popNotice s mb) := by
  unfold popNotice
  repeat' first
    | intro _
    | with_reducible assumption
    | dsimp only
    | with_reducible apply Kept.ite
    | with_reducible apply Kept.dite
    | with_reducible apply State.modBox_kept
    | with_reducible apply Kept.refl
    | simp only [↓Kept.upd_eq]
    | with_reducible apply Kept.fold
    | with_reducible apply Kept.foldFst
    | split

theorem boxWrite_kept {r0 : State} (s : State) (mb : Nat) (off : Nat) (n : Nat) (v : Nat) (h : Kept r0 s) : Kept r0 (boxWrite s mb off n v) := by
  unfold boxWrite
  repeat' first
    | intro _
    | with_reducible assumption
    | dsimp only
    | with_reducible apply Kept.ite
    | with_reducible apply Kept.dite
    | with_reducible apply popNotice_kept
    | with_reducible apply postSlip_kept
    | with_reducible apply State.modBox_kept
    | with_reducible apply Kept.refl
    | simp only [↓Kept.upd_eq]
    | with_reducible apply Kept.fold
    | with_reducible apply Kept.foldFst
    | split

theorem respond_kept {r0 : State} (s : State) (mb : Nat) (sl : Slip) (r : Reply) (h : Kept r0 s) : Kept r0 (respond s mb sl r) := by
  unfold respond
  repeat' first
    | intro _
    | with_reducible assumption
    | dsimp only
    | with_reducible apply Kept.ite
    | with_reducible apply Kept.dite
    | with_reducible apply State.modBox_kept
    | with_reducible apply raiseCN_kept
    | with_reducible apply Kept.refl
    | simp only [↓Kept.upd_eq]
    | with_reducible apply Kept.fold
    | with_reducible apply Kept.foldFst
    | split

theorem unstage_kept {r0 : State} (s : State) (mb : Nat) (h : Kept r0 s) : Kept r0 (unstage s mb) := by
  unfold unstage
  repeat' first
    | intro _
    | with_reducible assumption
    | dsimp only
    | with_reducible apply Kept.ite
    | with_reducible apply Kept.dite
    | with_reducible apply State.modBox_kept
    | with_reducible apply Kept.refl
    | simp only [↓Kept.upd_eq]
    | with_reducible apply Kept.fold
    | with_reducible apply Kept.foldFst
    | split

theorem execSlipAnswered_kept {r0 : State} (mb : MailId) (s : State) (h : Kept r0 s) : KeptOut r0 (execSlipAnswered mb s) := by
  unfold execSlipAnswered
  repeat' first
    | intro _
    | with_reducible assumption
    | dsimp only
    | with_reducible apply KeptOut.ite
    | with_reducible apply KeptOut.next
    | with_reducible apply KeptOut.fault
    | with_reducible apply Kept.ite
    | with_reducible apply Kept.dite
    | with_reducible apply unstage_kept
    | with_reducible apply respond_kept
    | with_reducible apply State.modBox_kept
    | with_reducible apply Kept.refl
    | simp only [↓Kept.upd_eq]
    | with_reducible apply Kept.fold
    | with_reducible apply Kept.foldFst
    | split

theorem reply_kept {r0 : State} (s : State) (mb : Nat) (status : Nat) (rets : List U64) (payload : List Byte) (h : Kept r0 s) : Kept r0 (reply s mb status rets payload) := by
  unfold reply
  repeat' first
    | intro _
    | with_reducible assumption
    | dsimp only
    | with_reducible apply Kept.ite
    | with_reducible apply Kept.dite
    | with_reducible apply unstage_kept
    | with_reducible apply State.modBox_kept
    | with_reducible apply Kept.refl
    | simp only [↓Kept.upd_eq]
    | with_reducible apply Kept.fold
    | with_reducible apply Kept.foldFst
    | split

theorem takeSlip_kept {r0 : State} (s : State) (mb : Nat) (h : Kept r0 s) : Kept r0 (takeSlip s mb) := by
  unfold takeSlip
  repeat' first
    | intro _
    | with_reducible assumption
    | dsimp only
    | with_reducible apply Kept.ite
    | with_reducible apply Kept.dite
    | with_reducible apply unstage_kept
    | with_reducible apply State.modBox_kept
    | with_reducible apply Kept.refl
    | simp only [↓Kept.upd_eq]
    | with_reducible apply Kept.fold
    | with_reducible apply Kept.foldFst
    | split

theorem onSlip_kept {r0 : State} (s : State) (mb : MailId) (cmd : Nat) (f : Slip → List Byte → State → State) (kf : ∀ a0 a1 a2, Kept r0 a2 → Kept r0 (f a0 a1 a2)) (h : Kept r0 s) : KeptOut r0 (onSlip s mb cmd f) := by
  unfold onSlip
  repeat' first
    | intro _
    | with_reducible assumption
    | dsimp only
    | with_reducible apply KeptOut.ite
    | with_reducible apply KeptOut.next
    | with_reducible apply KeptOut.fault
    | with_reducible apply Kept.ite
    | with_reducible apply Kept.dite
    | with_reducible apply kf
    | with_reducible apply reply_kept
    | with_reducible apply Kept.refl
    | simp only [↓Kept.upd_eq]
    | with_reducible apply Kept.fold
    | with_reducible apply Kept.foldFst
    | split

theorem unbind_kept {r0 : State} (s : State) (mb : Nat) (h : Kept r0 s) : Kept r0 (unbind s mb) := by
  unfold unbind
  repeat' first
    | intro _
    | with_reducible assumption
    | dsimp only
    | with_reducible apply Kept.ite
    | with_reducible apply Kept.dite
    | with_reducible apply State.modBox_kept
    | with_reducible apply Kept.refl
    | simp only [↓Kept.upd_eq]
    | with_reducible apply Kept.fold
    | with_reducible apply Kept.foldFst
    | split

theorem bindBox_kept {r0 : State} (s : State) (mb : Nat) (call : BitVec 20) (key : BitVec 16) (ed : BitVec 16) (h : Kept r0 s) : Kept r0 (bindBox s mb call key ed) := by
  unfold bindBox
  repeat' first
    | intro _
    | with_reducible assumption
    | dsimp only
    | with_reducible apply Kept.ite
    | with_reducible apply Kept.dite
    | with_reducible apply unbind_kept
    | with_reducible apply State.modBox_kept
    | with_reducible apply Kept.refl
    | simp only [↓Kept.upd_eq]
    | with_reducible apply Kept.fold
    | with_reducible apply Kept.foldFst
    | split

theorem takeFrame_kept {r0 : State} (s : State) (bs : List Byte) (h : Kept r0 s) : Kept r0 (takeFrame s bs) := by
  unfold takeFrame
  repeat' first
    | intro _
    | with_reducible assumption
    | dsimp only
    | with_reducible apply Kept.ite
    | with_reducible apply Kept.dite
    | with_reducible apply State.modBox_kept
    | with_reducible apply Kept.refl
    | simp only [↓Kept.upd_eq]
    | with_reducible apply Kept.fold
    | with_reducible apply Kept.foldFst
    | split

theorem execManagementFrame_kept {r0 : State} (bs : List Byte) (s : State) (h : Kept r0 s) : KeptOut r0 (execManagementFrame bs s) := by
  unfold execManagementFrame
  repeat' first
    | intro _
    | with_reducible assumption
    | dsimp only
    | with_reducible apply KeptOut.ite
    | with_reducible apply KeptOut.next
    | with_reducible apply KeptOut.fault
    | with_reducible apply Kept.ite
    | with_reducible apply Kept.dite
    | with_reducible apply takeFrame_kept
    | with_reducible apply postSlip_kept
    | with_reducible apply Kept.refl
    | simp only [↓Kept.upd_eq]
    | with_reducible apply Kept.fold
    | with_reducible apply Kept.foldFst
    | split

theorem execMailboxBindingExpiry_kept {r0 : State} (mb : MailId) (s : State) (h : Kept r0 s) : KeptOut r0 (execMailboxBindingExpiry mb s) := by
  unfold execMailboxBindingExpiry
  repeat' first
    | intro _
    | with_reducible assumption
    | dsimp only
    | with_reducible apply KeptOut.ite
    | with_reducible apply KeptOut.next
    | with_reducible apply KeptOut.fault
    | with_reducible apply Kept.ite
    | with_reducible apply Kept.dite
    | with_reducible apply unbind_kept
    | with_reducible apply State.advanceTo_kept
    | with_reducible apply Kept.refl
    | simp only [↓Kept.upd_eq]
    | with_reducible apply Kept.fold
    | with_reducible apply Kept.foldFst
    | split

end Sys2Proof.Machine
end

