-- ==== Sys2Proof/Laws/KeptPower.lean ====
section
/-! SUPPORT. Laws/KeptPower.lean: every operation of Machine/Power.lean keeps what Laws/Kept.lean names. -/

namespace Sys2Proof.Machine

set_option linter.unusedTactic false
set_option linter.unreachableTactic false

theorem State.modPow_kept {r0 : State} (s : State) (f : PowState → PowState) (h : Kept r0 s) : Kept r0 (State.modPow s f) := by
  unfold State.modPow
  repeat' first
    | intro _
    | with_reducible assumption
    | dsimp only
    | with_reducible apply Kept.ite
    | with_reducible apply Kept.dite
    | with_reducible apply Kept.refl
    | simp only [↓Kept.upd_eq]
    | with_reducible apply Kept.fold
    | with_reducible apply Kept.foldFst
    | split

theorem stretchEpisode_kept {r0 : State} (s : State) (h : Kept r0 s) : Kept r0 (stretchEpisode s) := by
  unfold stretchEpisode
  repeat' first
    | intro _
    | with_reducible assumption
    | dsimp only
    | with_reducible apply Kept.ite
    | with_reducible apply Kept.dite
    | with_reducible apply State.modPow_kept
    | with_reducible apply Kept.refl
    | simp only [↓Kept.upd_eq]
    | with_reducible apply Kept.fold
    | with_reducible apply Kept.foldFst
    | split

theorem execPllRelocked_kept {r0 : State} (s : State) (h : Kept r0 s) : KeptOut r0 (execPllRelocked s) := by
  unfold execPllRelocked
  repeat' first
    | intro _
    | with_reducible assumption
    | dsimp only
    | with_reducible apply KeptOut.ite
    | with_reducible apply KeptOut.next
    | with_reducible apply KeptOut.fault
    | with_reducible apply Kept.ite
    | with_reducible apply Kept.dite
    | with_reducible apply State.modPow_kept
    | with_reducible apply Kept.refl
    | simp only [↓Kept.upd_eq]
    | with_reducible apply Kept.fold
    | with_reducible apply Kept.foldFst
    | split

theorem execVoltageRampDone_kept {r0 : State} (s : State) (h : Kept r0 s) : KeptOut r0 (execVoltageRampDone s) := by
  unfold execVoltageRampDone
  repeat' first
    | intro _
    | with_reducible assumption
    | dsimp only
    | with_reducible apply KeptOut.ite
    | with_reducible apply KeptOut.next
    | with_reducible apply KeptOut.fault
    | with_reducible apply Kept.ite
    | with_reducible apply Kept.dite
    | with_reducible apply State.modPow_kept
    | with_reducible apply Kept.refl
    | simp only [↓Kept.upd_eq]
    | with_reducible apply Kept.fold
    | with_reducible apply Kept.foldFst
    | split

theorem execFrequencySwitch_kept {r0 : State} (s : State) (h : Kept r0 s) : KeptOut r0 (execFrequencySwitch s) := by
  unfold execFrequencySwitch
  repeat' first
    | intro _
    | with_reducible assumption
    | dsimp only
    | with_reducible apply KeptOut.ite
    | with_reducible apply KeptOut.next
    | with_reducible apply KeptOut.fault
    | with_reducible apply Kept.ite
    | with_reducible apply Kept.dite
    | with_reducible apply State.modPow_kept
    | with_reducible apply State.advanceTo_kept
    | with_reducible apply Kept.refl
    | simp only [↓Kept.upd_eq]
    | with_reducible apply Kept.fold
    | with_reducible apply Kept.foldFst
    | split

theorem execFrequencyIncreaseAbandoned_kept {r0 : State} (s : State) (h : Kept r0 s) : KeptOut r0 (execFrequencyIncreaseAbandoned s) := by
  unfold execFrequencyIncreaseAbandoned
  repeat' first
    | intro _
    | with_reducible assumption
    | dsimp only
    | with_reducible apply KeptOut.ite
    | with_reducible apply KeptOut.next
    | with_reducible apply KeptOut.fault
    | with_reducible apply Kept.ite
    | with_reducible apply Kept.dite
    | with_reducible apply State.modPow_kept
    | with_reducible apply State.advanceTo_kept
    | with_reducible apply Kept.refl
    | simp only [↓Kept.upd_eq]
    | with_reducible apply Kept.fold
    | with_reducible apply Kept.foldFst
    | split

theorem State.tickTo_kept {r0 : State} (s : State) (i : Nat) (period : Nat) (h : Kept r0 s) : Kept r0 (State.tickTo s i period) := by
  unfold State.tickTo
  repeat' first
    | intro _
    | with_reducible assumption
    | dsimp only
    | with_reducible apply Kept.ite
    | with_reducible apply Kept.dite
    | with_reducible apply State.modPow_kept
    | with_reducible apply State.advanceTo_kept
    | with_reducible apply Kept.refl
    | simp only [↓Kept.upd_eq]
    | with_reducible apply Kept.fold
    | with_reducible apply Kept.foldFst
    | split

theorem execFrequencyLoopTick_kept {r0 : State} (w : BitVec 16) (s : State) (h : Kept r0 s) : KeptOut r0 (execFrequencyLoopTick w s) := by
  unfold execFrequencyLoopTick
  repeat' first
    | intro _
    | with_reducible assumption
    | dsimp only
    | with_reducible apply KeptOut.ite
    | with_reducible apply KeptOut.next
    | with_reducible apply KeptOut.fault
    | with_reducible apply Kept.ite
    | with_reducible apply Kept.dite
    | with_reducible apply State.tickTo_kept
    | with_reducible apply State.modPow_kept
    | with_reducible apply Kept.refl
    | simp only [↓Kept.upd_eq]
    | with_reducible apply Kept.fold
    | with_reducible apply Kept.foldFst
    | split

theorem execCapStretchTick_kept {r0 : State} (w : BitVec 16) (s : State) (h : Kept r0 s) : KeptOut r0 (execCapStretchTick w s) := by
  unfold execCapStretchTick
  repeat' first
    | intro _
    | with_reducible assumption
    | dsimp only
    | with_reducible apply KeptOut.ite
    | with_reducible apply KeptOut.next
    | with_reducible apply KeptOut.fault
    | with_reducible apply Kept.ite
    | with_reducible apply Kept.dite
    | with_reducible apply State.tickTo_kept
    | with_reducible apply stretchEpisode_kept
    | with_reducible apply State.modPow_kept
    | with_reducible apply Kept.refl
    | simp only [↓Kept.upd_eq]
    | with_reducible apply Kept.fold
    | with_reducible apply Kept.foldFst
    | split

theorem execPowerMeasurement_kept {r0 : State} (w : BitVec 16) (s : State) (h : Kept r0 s) : KeptOut r0 (execPowerMeasurement w s) := by
  unfold execPowerMeasurement
  repeat' first
    | intro _
    | with_reducible assumption
    | dsimp only
    | with_reducible apply KeptOut.ite
    | with_reducible apply KeptOut.next
    | with_reducible apply KeptOut.fault
    | with_reducible apply Kept.ite
    | with_reducible apply Kept.dite
    | with_reducible apply State.tickTo_kept
    | with_reducible apply stretchEpisode_kept
    | with_reducible apply State.modPow_kept
    | with_reducible apply Kept.refl
    | simp only [↓Kept.upd_eq]
    | with_reducible apply Kept.fold
    | with_reducible apply Kept.foldFst
    | split

theorem execAverageLimiterTick_kept {r0 : State} (w : BitVec 16) (s : State) (h : Kept r0 s) : KeptOut r0 (execAverageLimiterTick w s) := by
  unfold execAverageLimiterTick
  repeat' first
    | intro _
    | with_reducible assumption
    | dsimp only
    | with_reducible apply KeptOut.ite
    | with_reducible apply KeptOut.next
    | with_reducible apply KeptOut.fault
    | with_reducible apply Kept.ite
    | with_reducible apply Kept.dite
    | with_reducible apply State.tickTo_kept
    | with_reducible apply stretchEpisode_kept
    | with_reducible apply State.modPow_kept
    | with_reducible apply Kept.refl
    | simp only [↓Kept.upd_eq]
    | with_reducible apply Kept.fold
    | with_reducible apply Kept.foldFst
    | split

theorem execThermalRead_kept {r0 : State} (t : BitVec 8) (s : State) (h : Kept r0 s) : KeptOut r0 (execThermalRead t s) := by
  unfold execThermalRead
  repeat' first
    | intro _
    | with_reducible assumption
    | dsimp only
    | with_reducible apply KeptOut.ite
    | with_reducible apply KeptOut.next
    | with_reducible apply KeptOut.fault
    | with_reducible apply Kept.ite
    | with_reducible apply Kept.dite
    | with_reducible apply State.tickTo_kept
    | with_reducible apply stretchEpisode_kept
    | with_reducible apply State.modPow_kept
    | with_reducible apply Kept.refl
    | simp only [↓Kept.upd_eq]
    | with_reducible apply Kept.fold
    | with_reducible apply Kept.foldFst
    | split

theorem syncStart_kept {r0 : State} (s : State) (t : U64) (h : Kept r0 s) : Kept r0 (syncStart s t) := by
  unfold syncStart
  repeat' first
    | intro _
    | with_reducible assumption
    | dsimp only
    | with_reducible apply Kept.ite
    | with_reducible apply Kept.dite
    | with_reducible apply State.modPow_kept
    | with_reducible apply Kept.refl
    | simp only [↓Kept.upd_eq]
    | with_reducible apply Kept.fold
    | with_reducible apply Kept.foldFst
    | split

theorem execArrayGateOpen_kept {r0 : State} (q : QuadId) (s : State) (h : Kept r0 s) : KeptOut r0 (execArrayGateOpen q s) := by
  unfold execArrayGateOpen
  repeat' first
    | intro _
    | with_reducible assumption
    | dsimp only
    | with_reducible apply KeptOut.ite
    | with_reducible apply KeptOut.next
    | with_reducible apply KeptOut.fault
    | with_reducible apply Kept.ite
    | with_reducible apply Kept.dite
    | with_reducible apply State.modPow_kept
    | with_reducible apply State.toHall_kept
    | with_reducible apply Kept.refl
    | simp only [↓Kept.upd_eq]
    | with_reducible apply Kept.fold
    | with_reducible apply Kept.foldFst
    | split

theorem execRampStep_kept {r0 : State} (q : QuadId) (s : State) (h : Kept r0 s) : KeptOut r0 (execRampStep q s) := by
  unfold execRampStep
  repeat' first
    | intro _
    | with_reducible assumption
    | dsimp only
    | with_reducible apply KeptOut.ite
    | with_reducible apply KeptOut.next
    | with_reducible apply KeptOut.fault
    | with_reducible apply Kept.ite
    | with_reducible apply Kept.dite
    | with_reducible apply State.modPow_kept
    | with_reducible apply State.toHall_kept
    | with_reducible apply Kept.refl
    | simp only [↓Kept.upd_eq]
    | with_reducible apply Kept.fold
    | with_reducible apply Kept.foldFst
    | split

theorem execPhaseTakesEffect_kept {r0 : State} (s : State) (h : Kept r0 s) : KeptOut r0 (execPhaseTakesEffect s) := by
  unfold execPhaseTakesEffect
  repeat' first
    | intro _
    | with_reducible assumption
    | dsimp only
    | with_reducible apply KeptOut.ite
    | with_reducible apply KeptOut.next
    | with_reducible apply KeptOut.fault
    | with_reducible apply Kept.ite
    | with_reducible apply Kept.dite
    | with_reducible apply syncStart_kept
    | with_reducible apply State.modPow_kept
    | with_reducible apply State.toHall_kept
    | with_reducible apply Kept.refl
    | simp only [↓Kept.upd_eq]
    | with_reducible apply Kept.fold
    | with_reducible apply Kept.foldFst
    | split

theorem execDroopTrip_kept {r0 : State} (q : Fin 5) (d : BitVec 8) (s : State) (h : Kept r0 s) : KeptOut r0 (execDroopTrip q d s) := by
  unfold execDroopTrip
  repeat' first
    | intro _
    | with_reducible assumption
    | dsimp only
    | with_reducible apply KeptOut.ite
    | with_reducible apply KeptOut.next
    | with_reducible apply KeptOut.fault
    | with_reducible apply Kept.ite
    | with_reducible apply Kept.dite
    | with_reducible apply State.modPow_kept
    | with_reducible apply State.freeNext_kept
    | with_reducible apply Kept.refl
    | simp only [↓Kept.upd_eq]
    | with_reducible apply Kept.fold
    | with_reducible apply Kept.foldFst
    | refine Kept.ofSnd (x := State.freeNext _) (by assumption) ?_
    | split

theorem execDroopClear_kept {r0 : State} (q : Fin 5) (s : State) (h : Kept r0 s) : KeptOut r0 (execDroopClear q s) := by
  unfold execDroopClear
  repeat' first
    | intro _
    | with_reducible assumption
    | dsimp only
    | with_reducible apply KeptOut.ite
    | with_reducible apply KeptOut.next
    | with_reducible apply KeptOut.fault
    | with_reducible apply Kept.ite
    | with_reducible apply Kept.dite
    | with_reducible apply State.modPow_kept
    | with_reducible apply Kept.refl
    | simp only [↓Kept.upd_eq]
    | with_reducible apply Kept.fold
    | with_reducible apply Kept.foldFst
    | split

theorem shareCap_kept {r0 : State} (s : State) (h : Kept r0 s) : Kept r0 (shareCap s) := by
  unfold shareCap
  repeat' first
    | intro _
    | with_reducible assumption
    | dsimp only
    | with_reducible apply Kept.ite
    | with_reducible apply Kept.dite
    | with_reducible apply State.modPow_kept
    | with_reducible apply Kept.refl
    | simp only [↓Kept.upd_eq]
    | with_reducible apply Kept.fold
    | with_reducible apply Kept.foldFst
    | split

theorem setJobtag_kept {r0 : State} (s : State) (v : U64) (h : Kept r0 s) : Kept r0 (setJobtag s v) := by
  unfold setJobtag
  repeat' first
    | intro _
    | with_reducible assumption
    | dsimp only
    | with_reducible apply Kept.ite
    | with_reducible apply Kept.dite
    | with_reducible apply State.modPow_kept
    | with_reducible apply Kept.refl
    | simp only [↓Kept.upd_eq]
    | with_reducible apply Kept.fold
    | with_reducible apply Kept.foldFst
    | split

end Sys2Proof.Machine
end

