-- ==== Sys2Proof/Laws/KeptDevice.lean ====
section
/-! SUPPORT. Laws/KeptDevice.lean: every operation of Machine/Device.lean keeps what Laws/Kept.lean names. -/

namespace Sys2Proof.Machine

set_option linter.unusedTactic false
set_option linter.unreachableTactic false

theorem htWrite_kept {r0 : State} (s : State) (off : Nat) (m : U64) (x : U64) (h : Kept r0 s) : Kept r0 (htWrite s off m x) := by
  unfold htWrite
  repeat' first
    | intro _
    | with_reducible assumption
    | dsimp only
    | with_reducible apply Kept.ite
    | with_reducible apply Kept.dite
    | with_reducible apply Kept.refl
    | simp only [↓Kept.upd_eq]
    | with_reducible apply Kept.fold
    | with_reducible apply Kept.foldFst
    | split

theorem feWrite_kept {r0 : State} (s : State) (off : Nat) (m : U64) (x : U64) (h : Kept r0 s) : Kept r0 (feWrite s off m x) := by
  unfold feWrite
  repeat' first
    | intro _
    | with_reducible assumption
    | dsimp only
    | with_reducible apply Kept.ite
    | with_reducible apply Kept.dite
    | with_reducible apply Kept.refl
    | simp only [↓Kept.upd_eq]
    | with_reducible apply Kept.fold
    | with_reducible apply Kept.foldFst
    | split

theorem lgWrite_kept {r0 : State} (s : State) (off : Nat) (m : U64) (x : U64) (h : Kept r0 s) : Kept r0 (lgWrite s off m x) := by
  unfold lgWrite
  repeat' first
    | intro _
    | with_reducible assumption
    | dsimp only
    | with_reducible apply Kept.ite
    | with_reducible apply Kept.dite
    | with_reducible apply shareCap_kept
    | with_reducible apply svRewind_kept
    | with_reducible apply lgSealGo_kept
    | with_reducible apply lgStart_kept
    | with_reducible apply lgPost_kept
    | with_reducible apply State.modLed_kept
    | with_reducible apply Kept.refl
    | simp only [↓Kept.upd_eq]
    | with_reducible apply Kept.fold
    | with_reducible apply Kept.foldFst
    | split

theorem deviceRead_kept (c : CoreId) (ring : Nat) (off : Nat) (size : Nat) (va : U64) : KeptOp ((deviceRead c ring off size va) : Op Nat) := by
  unfold deviceRead
  repeat' first
    | intro _
    | with_reducible assumption
    | dsimp only
    | with_reducible apply KeptOp.ite
    | with_reducible apply Kept.ite
    | with_reducible apply Kept.dite
    | with_reducible apply KeptOp.pure
    | with_reducible apply KeptOp.throw
    | with_reducible apply KeptOp.get
    | with_reducible apply trapIf_kept
    | with_reducible apply KeptOp.bind
    | with_reducible apply KeptOp.map
    | with_reducible apply KeptOp.modify
    | with_reducible apply KeptOp.modifyGet
    | with_reducible apply Kept.resOk
    | with_reducible apply Kept.resError
    | with_reducible apply Kept.refl
    | simp only [↓Kept.upd_eq]
    | with_reducible apply Kept.fold
    | with_reducible apply Kept.foldFst
    | refine KeptOp.ok (m := _) ?_ (by assumption) ?_
    | refine KeptOp.error (m := _) ?_ (by assumption) ?_
    | split
    | refine KeptOp.bind ?_ (fun _ => ?_)
    | refine KeptOp.mk (fun s => ?_)

theorem deviceWrite_kept (c : CoreId) (ring : Nat) (off : Nat) (size : Nat) (v : Nat) (va : U64) : KeptOp ((deviceWrite c ring off size v va) : Op Unit) := by
  unfold deviceWrite
  refine KeptOp.ofRun (fun r0 s h => ?_)
  repeat' first
    | intro _
    | with_reducible assumption
    | dsimp only
    | with_reducible apply KeptRun.ite
    | with_reducible apply KeptRun.getBind
    | with_reducible apply KeptRun.bind
    | with_reducible apply KeptRun.set
    | with_reducible apply KeptRun.modify
    | with_reducible apply KeptOp.ite
    | with_reducible apply Kept.ite
    | with_reducible apply Kept.dite
    | with_reducible apply KeptOp.pure
    | with_reducible apply KeptOp.throw
    | with_reducible apply KeptOp.get
    | with_reducible apply lgWrite_kept
    | with_reducible apply feWrite_kept
    | with_reducible apply htWrite_kept
    | with_reducible apply setJobtag_kept
    | with_reducible apply boxWrite_kept
    | with_reducible apply waitIf_kept
    | with_reducible apply trapIf_kept
    | with_reducible apply KeptOp.bind
    | with_reducible apply KeptOp.map
    | with_reducible apply KeptOp.modify
    | with_reducible apply KeptOp.modifyGet
    | with_reducible apply Kept.resOk
    | with_reducible apply Kept.resError
    | with_reducible apply Kept.refl
    | simp only [↓Kept.upd_eq]
    | with_reducible apply Kept.fold
    | with_reducible apply Kept.foldFst
    | refine KeptOp.ok (m := _) ?_ (by assumption) ?_
    | refine KeptOp.error (m := _) ?_ (by assumption) ?_
    | split
    | refine KeptOp.bind ?_ (fun _ => ?_)
    | with_reducible apply KeptRun.op

end Sys2Proof.Machine
end

