-- ==== Sys2Proof/Laws/KeptOperands.lean ====
section
/-! SUPPORT. Laws/KeptOperands.lean: every operation of Machine/Operands.lean keeps what Laws/Kept.lean names. -/

namespace Sys2Proof.Machine

set_option linter.unusedTactic false
set_option linter.unreachableTactic false

theorem detect_kept (c : CoreId) (va : U64) (pa : Option Nat) : KeptOp ((detect c va pa) : Op Unit) := by
  unfold detect
  repeat' first
    | intro _
    | with_reducible assumption
    | dsimp only
    | with_reducible apply KeptOp.ite
    | with_reducible apply Kept.ite
    | with_reducible apply Kept.dite
    | with_reducible apply KeptOp.pure
    | with_reducible apply KeptOp.throw
    | with_reducible apply KeptOp.get
    | with_reducible apply modC_kept
    | with_reducible apply coreOf_kept
    | with_reducible apply fillLines_kept
    | with_reducible apply KeptOp.bind
    | with_reducible apply KeptOp.map
    | with_reducible apply KeptOp.modify
    | with_reducible apply KeptOp.modifyGet
    | with_reducible apply Kept.resOk
    | with_reducible apply Kept.resError
    | with_reducible apply Kept.refl
    | simp only [↓Kept.upd_eq]
    | with_reducible apply Kept.fold
    | with_reducible apply Kept.foldFst
    | refine KeptOp.ok (m := _) ?_ (by assumption) ?_
    | refine KeptOp.error (m := _) ?_ (by assumption) ?_
    | split
    | refine KeptOp.bind ?_ (fun _ => ?_)
    | refine KeptOp.mk (fun s => ?_)

theorem scalarLoad_kept (c : CoreId) (va : U64) (n : Nat) : KeptOp ((scalarLoad c va n) : Op (List Byte)) := by
  unfold scalarLoad
  repeat' first
    | intro _
    | with_reducible assumption
    | dsimp only
    | with_reducible apply KeptOp.ite
    | with_reducible apply Kept.ite
    | with_reducible apply Kept.dite
    | with_reducible apply KeptOp.pure
    | with_reducible apply KeptOp.throw
    | with_reducible apply KeptOp.get
    | with_reducible apply detect_kept
    | with_reducible apply deviceRead_kept
    | with_reducible apply hallLoad_kept
    | with_reducible apply memLoad_kept
    | with_reducible apply xlateAt_kept
    | with_reducible apply ringOf_kept
    | with_reducible apply coreOf_kept
    | with_reducible apply trapIf_kept
    | with_reducible apply KeptOp.bind
    | with_reducible apply KeptOp.map
    | with_reducible apply KeptOp.modify
    | with_reducible apply KeptOp.modifyGet
    | with_reducible apply Kept.resOk
    | with_reducible apply Kept.resError
    | with_reducible apply Kept.refl
    | simp only [↓Kept.upd_eq]
    | with_reducible apply Kept.fold
    | with_reducible apply Kept.foldFst
    | refine KeptOp.ok (m := _) ?_ (by assumption) ?_
    | refine KeptOp.error (m := _) ?_ (by assumption) ?_
    | split
    | refine KeptOp.bind ?_ (fun _ => ?_)
    | refine KeptOp.mk (fun s => ?_)

theorem scalarStore_kept (c : CoreId) (va : U64) (bs : List Byte) : KeptOp ((scalarStore c va bs) : Op Unit) := by
  unfold scalarStore
  repeat' first
    | intro _
    | with_reducible assumption
    | dsimp only
    | with_reducible apply KeptOp.ite
    | with_reducible apply Kept.ite
    | with_reducible apply Kept.dite
    | with_reducible apply KeptOp.pure
    | with_reducible apply KeptOp.throw
    | with_reducible apply KeptOp.get
    | with_reducible apply deviceWrite_kept
    | with_reducible apply hallStore_kept
    | with_reducible apply memStore_kept
    | with_reducible apply xlateAt_kept
    | with_reducible apply ringOf_kept
    | with_reducible apply coreOf_kept
    | with_reducible apply trapIf_kept
    | with_reducible apply KeptOp.bind
    | with_reducible apply KeptOp.map
    | with_reducible apply KeptOp.modify
    | with_reducible apply KeptOp.modifyGet
    | with_reducible apply Kept.resOk
    | with_reducible apply Kept.resError
    | with_reducible apply Kept.refl
    | simp only [↓Kept.upd_eq]
    | with_reducible apply Kept.fold
    | with_reducible apply Kept.foldFst
    | refine KeptOp.ok (m := _) ?_ (by assumption) ?_
    | refine KeptOp.error (m := _) ?_ (by assumption) ?_
    | split
    | refine KeptOp.bind ?_ (fun _ => ?_)
    | refine KeptOp.mk (fun s => ?_)

theorem checkEA_kept (c : CoreId) (ab : Nat) (ea : EA) (n : Nat) : KeptOp ((checkEA c ab ea n) : Op Unit) := by
  unfold checkEA
  repeat' first
    | intro _
    | with_reducible assumption
    | dsimp only
    | with_reducible apply KeptOp.ite
    | with_reducible apply Kept.ite
    | with_reducible apply Kept.dite
    | with_reducible apply KeptOp.pure
    | with_reducible apply KeptOp.throw
    | with_reducible apply KeptOp.get
    | with_reducible apply chkA_kept
    | with_reducible apply trapIf_kept
    | with_reducible apply KeptOp.bind
    | with_reducible apply KeptOp.map
    | with_reducible apply KeptOp.modify
    | with_reducible apply KeptOp.modifyGet
    | with_reducible apply Kept.resOk
    | with_reducible apply Kept.resError
    | with_reducible apply Kept.refl
    | simp only [↓Kept.upd_eq]
    | with_reducible apply Kept.fold
    | with_reducible apply Kept.foldFst
    | refine KeptOp.ok (m := _) ?_ (by assumption) ?_
    | refine KeptOp.error (m := _) ?_ (by assumption) ?_
    | split
    | refine KeptOp.bind ?_ (fun _ => ?_)
    | refine KeptOp.mk (fun s => ?_)

theorem writeBack_kept (c : CoreId) (ab : Nat) (ea : EA) : KeptOp ((writeBack c ab ea) : Op Unit) := by
  unfold writeBack
  repeat' first
    | intro _
    | with_reducible assumption
    | dsimp only
    | with_reducible apply KeptOp.ite
    | with_reducible apply Kept.ite
    | with_reducible apply Kept.dite
    | with_reducible apply KeptOp.pure
    | with_reducible apply KeptOp.throw
    | with_reducible apply KeptOp.get
    | with_reducible apply modC_kept
    | with_reducible apply KeptOp.bind
    | with_reducible apply KeptOp.map
    | with_reducible apply KeptOp.modify
    | with_reducible apply KeptOp.modifyGet
    | with_reducible apply Kept.resOk
    | with_reducible apply Kept.resError
    | with_reducible apply Kept.refl
    | simp only [↓Kept.upd_eq]
    | with_reducible apply Kept.fold
    | with_reducible apply Kept.foldFst
    | refine KeptOp.ok (m := _) ?_ (by assumption) ?_
    | refine KeptOp.error (m := _) ?_ (by assumption) ?_
    | split
    | refine KeptOp.bind ?_ (fun _ => ?_)
    | refine KeptOp.mk (fun s => ?_)

end Sys2Proof.Machine
end

