-- ==== Sys2Proof/Laws/KeptScalar.lean ====
section
/-! SUPPORT. Laws/KeptScalar.lean: every operation of Machine/Scalar.lean keeps what Laws/Kept.lean names. -/

namespace Sys2Proof.Machine

set_option linter.unusedTactic false
set_option linter.unreachableTactic false

theorem intReg_kept (x : Ctx) (f : BitVec 26) : KeptOp ((intReg x f) : Op Unit) := by
  unfold intReg
  repeat' first
    | intro _
    | with_reducible assumption
    | dsimp only
    | with_reducible apply KeptOp.ite
    | with_reducible apply Kept.ite
    | with_reducible apply Kept.dite
    | with_reducible apply KeptOp.pure
    | with_reducible apply KeptOp.throw
    | with_reducible apply KeptOp.get
    | with_reducible apply wrD_kept
    | with_reducible apply rdD_kept
    | with_reducible apply illegalIf_kept
    | with_reducible apply illegal_kept
    | with_reducible apply KeptOp.bind
    | with_reducible apply KeptOp.map
    | with_reducible apply KeptOp.modify
    | with_reducible apply KeptOp.modifyGet
    | with_reducible apply Kept.resOk
    | with_reducible apply Kept.resError
    | with_reducible apply Kept.refl
    | simp only [↓Kept.upd_eq]
    | with_reducible apply Kept.fold
    | with_reducible apply Kept.foldFst
    | refine KeptOp.ok (m := _) ?_ (by assumption) ?_
    | refine KeptOp.error (m := _) ?_ (by assumption) ?_
    | split
    | refine KeptOp.bind ?_ (fun _ => ?_)
    | refine KeptOp.mk (fun s => ?_)

theorem intImm_kept (x : Ctx) (f : BitVec 26) : KeptOp ((intImm x f) : Op Unit) := by
  unfold intImm
  repeat' first
    | intro _
    | with_reducible assumption
    | dsimp only
    | with_reducible apply KeptOp.ite
    | with_reducible apply Kept.ite
    | with_reducible apply Kept.dite
    | with_reducible apply KeptOp.pure
    | with_reducible apply KeptOp.throw
    | with_reducible apply KeptOp.get
    | with_reducible apply wrD_kept
    | with_reducible apply rdD_kept
    | with_reducible apply illegalIf_kept
    | with_reducible apply illegal_kept
    | with_reducible apply KeptOp.bind
    | with_reducible apply KeptOp.map
    | with_reducible apply KeptOp.modify
    | with_reducible apply KeptOp.modifyGet
    | with_reducible apply Kept.resOk
    | with_reducible apply Kept.resError
    | with_reducible apply Kept.refl
    | simp only [↓Kept.upd_eq]
    | with_reducible apply Kept.fold
    | with_reducible apply Kept.foldFst
    | refine KeptOp.ok (m := _) ?_ (by assumption) ?_
    | refine KeptOp.error (m := _) ?_ (by assumption) ?_
    | split
    | refine KeptOp.bind ?_ (fun _ => ?_)
    | refine KeptOp.mk (fun s => ?_)

theorem addrReg_kept (x : Ctx) (f : BitVec 26) : KeptOp ((addrReg x f) : Op Unit) := by
  unfold addrReg
  repeat' first
    | intro _
    | with_reducible assumption
    | dsimp only
    | with_reducible apply KeptOp.ite
    | with_reducible apply Kept.ite
    | with_reducible apply Kept.dite
    | with_reducible apply KeptOp.pure
    | with_reducible apply KeptOp.throw
    | with_reducible apply KeptOp.get
    | with_reducible apply wrA_kept
    | with_reducible apply wrD_kept
    | with_reducible apply rdD_kept
    | with_reducible apply rdA_kept
    | with_reducible apply illegalIf_kept
    | with_reducible apply illegal_kept
    | with_reducible apply KeptOp.bind
    | with_reducible apply KeptOp.map
    | with_reducible apply KeptOp.modify
    | with_reducible apply KeptOp.modifyGet
    | with_reducible apply Kept.resOk
    | with_reducible apply Kept.resError
    | with_reducible apply Kept.refl
    | simp only [↓Kept.upd_eq]
    | with_reducible apply Kept.fold
    | with_reducible apply Kept.foldFst
    | refine KeptOp.ok (m := _) ?_ (by assumption) ?_
    | refine KeptOp.error (m := _) ?_ (by assumption) ?_
    | split
    | refine KeptOp.bind ?_ (fun _ => ?_)
    | refine KeptOp.mk (fun s => ?_)

theorem addrImm_kept (x : Ctx) (f : BitVec 26) : KeptOp ((addrImm x f) : Op Unit) := by
  unfold addrImm
  repeat' first
    | intro _
    | with_reducible assumption
    | dsimp only
    | with_reducible apply KeptOp.ite
    | with_reducible apply Kept.ite
    | with_reducible apply Kept.dite
    | with_reducible apply KeptOp.pure
    | with_reducible apply KeptOp.throw
    | with_reducible apply KeptOp.get
    | with_reducible apply pcOf_kept
    | with_reducible apply wrA_kept
    | with_reducible apply rdA_kept
    | with_reducible apply illegalIf_kept
    | with_reducible apply illegal_kept
    | with_reducible apply KeptOp.bind
    | with_reducible apply KeptOp.map
    | with_reducible apply KeptOp.modify
    | with_reducible apply KeptOp.modifyGet
    | with_reducible apply Kept.resOk
    | with_reducible apply Kept.resError
    | with_reducible apply Kept.refl
    | simp only [↓Kept.upd_eq]
    | with_reducible apply Kept.fold
    | with_reducible apply Kept.foldFst
    | refine KeptOp.ok (m := _) ?_ (by assumption) ?_
    | refine KeptOp.error (m := _) ?_ (by assumption) ?_
    | split
    | refine KeptOp.bind ?_ (fun _ => ?_)
    | refine KeptOp.mk (fun s => ?_)

theorem addrMove_kept (x : Ctx) (f : BitVec 26) : KeptOp ((addrMove x f) : Op Unit) := by
  unfold addrMove
  repeat' first
    | intro _
    | with_reducible assumption
    | dsimp only
    | with_reducible apply KeptOp.ite
    | with_reducible apply Kept.ite
    | with_reducible apply Kept.dite
    | with_reducible apply KeptOp.pure
    | with_reducible apply KeptOp.throw
    | with_reducible apply KeptOp.get
    | with_reducible apply wrA_kept
    | with_reducible apply wrD_kept
    | with_reducible apply rdD_kept
    | with_reducible apply rdA_kept
    | with_reducible apply illegalIf_kept
    | with_reducible apply illegal_kept
    | with_reducible apply KeptOp.bind
    | with_reducible apply KeptOp.map
    | with_reducible apply KeptOp.modify
    | with_reducible apply KeptOp.modifyGet
    | with_reducible apply Kept.resOk
    | with_reducible apply Kept.resError
    | with_reducible apply Kept.refl
    | simp only [↓Kept.upd_eq]
    | with_reducible apply Kept.fold
    | with_reducible apply Kept.foldFst
    | refine KeptOp.ok (m := _) ?_ (by assumption) ?_
    | refine KeptOp.error (m := _) ?_ (by assumption) ?_
    | split
    | refine KeptOp.bind ?_ (fun _ => ?_)
    | refine KeptOp.mk (fun s => ?_)

theorem noGlobal_kept (x : Ctx) (ea : U64) : KeptOp ((noGlobal x ea) : Op Unit) := by
  unfold noGlobal
  repeat' first
    | intro _
    | with_reducible assumption
    | dsimp only
    | with_reducible apply KeptOp.ite
    | with_reducible apply Kept.ite
    | with_reducible apply Kept.dite
    | with_reducible apply KeptOp.pure
    | with_reducible apply KeptOp.throw
    | with_reducible apply KeptOp.get
    | with_reducible apply trapIf_kept
    | with_reducible apply KeptOp.bind
    | with_reducible apply KeptOp.map
    | with_reducible apply KeptOp.modify
    | with_reducible apply KeptOp.modifyGet
    | with_reducible apply Kept.resOk
    | with_reducible apply Kept.resError
    | with_reducible apply Kept.refl
    | simp only [↓Kept.upd_eq]
    | with_reducible apply Kept.fold
    | with_reducible apply Kept.foldFst
    | refine KeptOp.ok (m := _) ?_ (by assumption) ?_
    | refine KeptOp.error (m := _) ?_ (by assumption) ?_
    | split
    | refine KeptOp.bind ?_ (fun _ => ?_)
    | refine KeptOp.mk (fun s => ?_)

theorem eaM_kept (x : Ctx) (f : BitVec 26) : KeptOp ((eaM x f) : Op EA) := by
  unfold eaM
  repeat' first
    | intro _
    | with_reducible assumption
    | dsimp only
    | with_reducible apply KeptOp.ite
    | with_reducible apply Kept.ite
    | with_reducible apply Kept.dite
    | with_reducible apply KeptOp.pure
    | with_reducible apply KeptOp.throw
    | with_reducible apply KeptOp.get
    | with_reducible apply rdD_kept
    | with_reducible apply rdA_kept
    | with_reducible apply illegalIf_kept
    | with_reducible apply KeptOp.bind
    | with_reducible apply KeptOp.map
    | with_reducible apply KeptOp.modify
    | with_reducible apply KeptOp.modifyGet
    | with_reducible apply Kept.resOk
    | with_reducible apply Kept.resError
    | with_reducible apply Kept.refl
    | simp only [↓Kept.upd_eq]
    | with_reducible apply Kept.fold
    | with_reducible apply Kept.foldFst
    | refine KeptOp.ok (m := _) ?_ (by assumption) ?_
    | refine KeptOp.error (m := _) ?_ (by assumption) ?_
    | split
    | refine KeptOp.bind ?_ (fun _ => ?_)
    | refine KeptOp.mk (fun s => ?_)

theorem loadD_kept (x : Ctx) (f : BitVec 26) : KeptOp ((loadD x f) : Op Unit) := by
  unfold loadD
  repeat' first
    | intro _
    | with_reducible assumption
    | dsimp only
    | with_reducible apply KeptOp.ite
    | with_reducible apply Kept.ite
    | with_reducible apply Kept.dite
    | with_reducible apply KeptOp.pure
    | with_reducible apply KeptOp.throw
    | with_reducible apply KeptOp.get
    | with_reducible apply eaM_kept
    | with_reducible apply noGlobal_kept
    | with_reducible apply writeBack_kept
    | with_reducible apply checkEA_kept
    | with_reducible apply scalarLoad_kept
    | with_reducible apply wrD_kept
    | with_reducible apply illegalIf_kept
    | with_reducible apply KeptOp.bind
    | with_reducible apply KeptOp.map
    | with_reducible apply KeptOp.modify
    | with_reducible apply KeptOp.modifyGet
    | with_reducible apply Kept.resOk
    | with_reducible apply Kept.resError
    | with_reducible apply Kept.refl
    | simp only [↓Kept.upd_eq]
    | with_reducible apply Kept.fold
    | with_reducible apply Kept.foldFst
    | refine KeptOp.ok (m := _) ?_ (by assumption) ?_
    | refine KeptOp.error (m := _) ?_ (by assumption) ?_
    | split
    | refine KeptOp.bind ?_ (fun _ => ?_)
    | refine KeptOp.mk (fun s => ?_)

theorem storeD_kept (x : Ctx) (f : BitVec 26) : KeptOp ((storeD x f) : Op Unit) := by
  unfold storeD
  repeat' first
    | intro _
    | with_reducible assumption
    | dsimp only
    | with_reducible apply KeptOp.ite
    | with_reducible apply Kept.ite
    | with_reducible apply Kept.dite
    | with_reducible apply KeptOp.pure
    | with_reducible apply KeptOp.throw
    | with_reducible apply KeptOp.get
    | with_reducible apply eaM_kept
    | with_reducible apply noGlobal_kept
    | with_reducible apply writeBack_kept
    | with_reducible apply checkEA_kept
    | with_reducible apply scalarStore_kept
    | with_reducible apply rdD_kept
    | with_reducible apply illegalIf_kept
    | with_reducible apply KeptOp.bind
    | with_reducible apply KeptOp.map
    | with_reducible apply KeptOp.modify
    | with_reducible apply KeptOp.modifyGet
    | with_reducible apply Kept.resOk
    | with_reducible apply Kept.resError
    | with_reducible apply Kept.refl
    | simp only [↓Kept.upd_eq]
    | with_reducible apply Kept.fold
    | with_reducible apply Kept.foldFst
    | refine KeptOp.ok (m := _) ?_ (by assumption) ?_
    | refine KeptOp.error (m := _) ?_ (by assumption) ?_
    | split
    | refine KeptOp.bind ?_ (fun _ => ?_)
    | refine KeptOp.mk (fun s => ?_)

theorem loadStoreA_kept (x : Ctx) (f : BitVec 26) : KeptOp ((loadStoreA x f) : Op Unit) := by
  unfold loadStoreA
  repeat' first
    | intro _
    | with_reducible assumption
    | dsimp only
    | with_reducible apply KeptOp.ite
    | with_reducible apply Kept.ite
    | with_reducible apply Kept.dite
    | with_reducible apply KeptOp.pure
    | with_reducible apply KeptOp.throw
    | with_reducible apply KeptOp.get
    | with_reducible apply eaM_kept
    | with_reducible apply noGlobal_kept
    | with_reducible apply writeBack_kept
    | with_reducible apply checkEA_kept
    | with_reducible apply scalarStore_kept
    | with_reducible apply scalarLoad_kept
    | with_reducible apply modC_kept
    | with_reducible apply chkA_kept
    | with_reducible apply rdA_kept
    | with_reducible apply illegalIf_kept
    | with_reducible apply KeptOp.bind
    | with_reducible apply KeptOp.map
    | with_reducible apply KeptOp.modify
    | with_reducible apply KeptOp.modifyGet
    | with_reducible apply Kept.resOk
    | with_reducible apply Kept.resError
    | with_reducible apply Kept.refl
    | simp only [↓Kept.upd_eq]
    | with_reducible apply Kept.fold
    | with_reducible apply Kept.foldFst
    | refine KeptOp.ok (m := _) ?_ (by assumption) ?_
    | refine KeptOp.error (m := _) ?_ (by assumption) ?_
    | split
    | refine KeptOp.bind ?_ (fun _ => ?_)
    | refine KeptOp.mk (fun s => ?_)

theorem selectD_kept (x : Ctx) (f : BitVec 26) : KeptOp ((selectD x f) : Op Unit) := by
  unfold selectD
  repeat' first
    | intro _
    | with_reducible assumption
    | dsimp only
    | with_reducible apply KeptOp.ite
    | with_reducible apply Kept.ite
    | with_reducible apply Kept.dite
    | with_reducible apply KeptOp.pure
    | with_reducible apply KeptOp.throw
    | with_reducible apply KeptOp.get
    | with_reducible apply wrD_kept
    | with_reducible apply rdD_kept
    | with_reducible apply illegalIf_kept
    | with_reducible apply KeptOp.bind
    | with_reducible apply KeptOp.map
    | with_reducible apply KeptOp.modify
    | with_reducible apply KeptOp.modifyGet
    | with_reducible apply Kept.resOk
    | with_reducible apply Kept.resError
    | with_reducible apply Kept.refl
    | simp only [↓Kept.upd_eq]
    | with_reducible apply Kept.fold
    | with_reducible apply Kept.foldFst
    | refine KeptOp.ok (m := _) ?_ (by assumption) ?_
    | refine KeptOp.error (m := _) ?_ (by assumption) ?_
    | split
    | refine KeptOp.bind ?_ (fun _ => ?_)
    | refine KeptOp.mk (fun s => ?_)

end Sys2Proof.Machine
end

