-- ==== Sys2Proof/Laws/KeptScalarFp.lean ====
section
/-! SUPPORT. Laws/KeptScalarFp.lean: every operation of Machine/ScalarFp.lean keeps what Laws/Kept.lean names. -/

namespace Sys2Proof.Machine

set_option linter.unusedTactic false
set_option linter.unreachableTactic false

theorem fpOp_kept (x : Ctx) (f : BitVec 26) : KeptOp ((fpOp x f) : Op Unit) := by
  unfold fpOp
  repeat' first
    | intro _
    | with_reducible assumption
    | dsimp only
    | with_reducible apply KeptOp.ite
    | with_reducible apply Kept.ite
    | with_reducible apply Kept.dite
    | with_reducible apply KeptOp.pure
    | with_reducible apply KeptOp.throw
    | with_reducible apply KeptOp.get
    | with_reducible apply addFlags_kept
    | with_reducible apply modC_kept
    | with_reducible apply wrD_kept
    | with_reducible apply coreOf_kept
    | with_reducible apply illegalIf_kept
    | with_reducible apply KeptOp.bind
    | with_reducible apply KeptOp.map
    | with_reducible apply KeptOp.modify
    | with_reducible apply KeptOp.modifyGet
    | with_reducible apply Kept.resOk
    | with_reducible apply Kept.resError
    | with_reducible apply Kept.refl
    | simp only [↓Kept.upd_eq]
    | with_reducible apply Kept.fold
    | with_reducible apply Kept.foldFst
    | refine KeptOp.ok (m := _) ?_ (by assumption) ?_
    | refine KeptOp.error (m := _) ?_ (by assumption) ?_
    | split
    | refine KeptOp.bind ?_ (fun _ => ?_)
    | refine KeptOp.mk (fun s => ?_)

theorem fpLoadStore_kept (x : Ctx) (f : BitVec 26) : KeptOp ((fpLoadStore x f) : Op Unit) := by
  unfold fpLoadStore
  repeat' first
    | intro _
    | with_reducible assumption
    | dsimp only
    | with_reducible apply KeptOp.ite
    | with_reducible apply Kept.ite
    | with_reducible apply Kept.dite
    | with_reducible apply KeptOp.pure
    | with_reducible apply KeptOp.throw
    | with_reducible apply KeptOp.get
    | with_reducible apply noGlobal_kept
    | with_reducible apply writeBack_kept
    | with_reducible apply checkEA_kept
    | with_reducible apply scalarStore_kept
    | with_reducible apply scalarLoad_kept
    | with_reducible apply modC_kept
    | with_reducible apply rdD_kept
    | with_reducible apply rdA_kept
    | with_reducible apply coreOf_kept
    | with_reducible apply illegalIf_kept
    | with_reducible apply KeptOp.bind
    | with_reducible apply KeptOp.map
    | with_reducible apply KeptOp.modify
    | with_reducible apply KeptOp.modifyGet
    | with_reducible apply Kept.resOk
    | with_reducible apply Kept.resError
    | with_reducible apply Kept.refl
    | simp only [↓Kept.upd_eq]
    | with_reducible apply Kept.fold
    | with_reducible apply Kept.foldFst
    | refine KeptOp.ok (m := _) ?_ (by assumption) ?_
    | refine KeptOp.error (m := _) ?_ (by assumption) ?_
    | split
    | refine KeptOp.bind ?_ (fun _ => ?_)
    | refine KeptOp.mk (fun s => ?_)

theorem fpMove_kept (x : Ctx) (f : BitVec 26) : KeptOp ((fpMove x f) : Op Unit) := by
  unfold fpMove
  repeat' first
    | intro _
    | with_reducible assumption
    | dsimp only
    | with_reducible apply KeptOp.ite
    | with_reducible apply Kept.ite
    | with_reducible apply Kept.dite
    | with_reducible apply KeptOp.pure
    | with_reducible apply KeptOp.throw
    | with_reducible apply KeptOp.get
    | with_reducible apply addFlags_kept
    | with_reducible apply modC_kept
    | with_reducible apply wrD_kept
    | with_reducible apply rdD_kept
    | with_reducible apply coreOf_kept
    | with_reducible apply illegalIf_kept
    | with_reducible apply KeptOp.bind
    | with_reducible apply KeptOp.map
    | with_reducible apply KeptOp.modify
    | with_reducible apply KeptOp.modifyGet
    | with_reducible apply Kept.resOk
    | with_reducible apply Kept.resError
    | with_reducible apply Kept.refl
    | simp only [↓Kept.upd_eq]
    | with_reducible apply Kept.fold
    | with_reducible apply Kept.foldFst
    | refine KeptOp.ok (m := _) ?_ (by assumption) ?_
    | refine KeptOp.error (m := _) ?_ (by assumption) ?_
    | split
    | refine KeptOp.bind ?_ (fun _ => ?_)
    | refine KeptOp.mk (fun s => ?_)

theorem scalarWord_kept (x : Ctx) (w : BitVec 32) : KeptOp ((scalarWord x w) : Op Unit) := by
  unfold scalarWord
  repeat' first
    | intro _
    | with_reducible assumption
    | dsimp only
    | with_reducible apply KeptOp.ite
    | with_reducible apply Kept.ite
    | with_reducible apply Kept.dite
    | with_reducible apply KeptOp.pure
    | with_reducible apply KeptOp.throw
    | with_reducible apply KeptOp.get
    | with_reducible apply fpMove_kept
    | with_reducible apply fpLoadStore_kept
    | with_reducible apply fpOp_kept
    | with_reducible apply accMove_kept
    | with_reducible apply accArith_kept
    | with_reducible apply fixedMac_kept
    | with_reducible apply selectD_kept
    | with_reducible apply loadStoreA_kept
    | with_reducible apply storeD_kept
    | with_reducible apply loadD_kept
    | with_reducible apply addrMove_kept
    | with_reducible apply addrImm_kept
    | with_reducible apply addrReg_kept
    | with_reducible apply intImm_kept
    | with_reducible apply intReg_kept
    | with_reducible apply illegal_kept
    | with_reducible apply KeptOp.bind
    | with_reducible apply KeptOp.map
    | with_reducible apply KeptOp.modify
    | with_reducible apply KeptOp.modifyGet
    | with_reducible apply Kept.resOk
    | with_reducible apply Kept.resError
    | with_reducible apply Kept.refl
    | simp only [↓Kept.upd_eq]
    | with_reducible apply Kept.fold
    | with_reducible apply Kept.foldFst
    | refine KeptOp.ok (m := _) ?_ (by assumption) ?_
    | refine KeptOp.error (m := _) ?_ (by assumption) ?_
    | split
    | refine KeptOp.bind ?_ (fun _ => ?_)
    | refine KeptOp.mk (fun s => ?_)

theorem issueScalar_kept {r0 : State} (c : CoreId) (major : Nat) (x : Option (BitVec 26)) (f : BitVec 26) (s : State) (h : Kept r0 s) : Kept r0 (issueScalar c major x f s) := by
  unfold issueScalar
  repeat' first
    | intro _
    | with_reducible assumption
    | dsimp only
    | with_reducible apply Kept.ite
    | with_reducible apply Kept.dite
    | with_reducible apply KeptOp.pure
    | with_reducible apply KeptOp.throw
    | with_reducible apply KeptOp.get
    | with_reducible apply scalarWord_kept
    | with_reducible apply nextPC_kept
    | with_reducible apply issue_kept
    | with_reducible apply illegalIf_kept
    | with_reducible apply KeptOp.bind
    | with_reducible apply KeptOp.map
    | with_reducible apply KeptOp.modify
    | with_reducible apply KeptOp.modifyGet
    | with_reducible apply Kept.resOk
    | with_reducible apply Kept.resError
    | with_reducible apply Kept.refl
    | simp only [↓Kept.upd_eq]
    | with_reducible apply Kept.fold
    | with_reducible apply Kept.foldFst
    | refine KeptOp.ok (m := _) ?_ (by assumption) ?_
    | refine KeptOp.error (m := _) ?_ (by assumption) ?_
    | split
    | refine KeptOp.mk (fun s => ?_)

end Sys2Proof.Machine
end

