-- ==== Sys2Proof/Laws/KeptControl.lean ====
section
/-! SUPPORT. Laws/KeptControl.lean: every operation of Machine/Control.lean keeps what Laws/Kept.lean names. -/

namespace Sys2Proof.Machine

set_option linter.unusedTactic false
set_option linter.unreachableTactic false

theorem execIntegerRegisterOp_kept {r0 : State} (c : CoreId) (f : BitVec 26) (s : State) (h : Kept r0 s) : KeptOut r0 (execIntegerRegisterOp c f s) := by
  unfold execIntegerRegisterOp
  repeat' first
    | intro _
    | with_reducible assumption
    | dsimp only
    | with_reducible apply KeptOut.ite
    | with_reducible apply KeptOut.next
    | with_reducible apply KeptOut.fault
    | with_reducible apply Kept.ite
    | with_reducible apply Kept.dite
    | with_reducible apply issueScalar_kept
    | with_reducible apply Kept.refl
    | simp only [↓Kept.upd_eq]
    | with_reducible apply Kept.fold
    | with_reducible apply Kept.foldFst
    | split

theorem execIntegerImmediateOp_kept {r0 : State} (c : CoreId) (x : Option (BitVec 26)) (f : BitVec 26) (s : State) (h : Kept r0 s) : KeptOut r0 (execIntegerImmediateOp c x f s) := by
  unfold execIntegerImmediateOp
  repeat' first
    | intro _
    | with_reducible assumption
    | dsimp only
    | with_reducible apply KeptOut.ite
    | with_reducible apply KeptOut.next
    | with_reducible apply KeptOut.fault
    | with_reducible apply Kept.ite
    | with_reducible apply Kept.dite
    | with_reducible apply issueScalar_kept
    | with_reducible apply Kept.refl
    | simp only [↓Kept.upd_eq]
    | with_reducible apply Kept.fold
    | with_reducible apply Kept.foldFst
    | split

theorem execAddressOp_kept {r0 : State} (c : CoreId) (m : AddrMajor) (x : Option (BitVec 26)) (f : BitVec 26) (s : State) (h : Kept r0 s) : KeptOut r0 (execAddressOp c m x f s) := by
  unfold execAddressOp
  repeat' first
    | intro _
    | with_reducible assumption
    | dsimp only
    | with_reducible apply KeptOut.ite
    | with_reducible apply KeptOut.next
    | with_reducible apply KeptOut.fault
    | with_reducible apply Kept.ite
    | with_reducible apply Kept.dite
    | with_reducible apply issueScalar_kept
    | with_reducible apply Kept.refl
    | simp only [↓Kept.upd_eq]
    | with_reducible apply Kept.fold
    | with_reducible apply Kept.foldFst
    | split

theorem memError_kept {r0 : State} (c : CoreId) (s : State) (e : MemErr) (h : Kept r0 s) : Kept r0 (memError c s e) := by
  unfold memError
  repeat' first
    | intro _
    | with_reducible assumption
    | dsimp only
    | with_reducible apply Kept.ite
    | with_reducible apply Kept.dite
    | with_reducible apply State.addPoison_kept
    | with_reducible apply State.modCore_kept
    | with_reducible apply Kept.refl
    | simp only [↓Kept.upd_eq]
    | with_reducible apply Kept.fold
    | with_reducible apply Kept.foldFst
    | split

theorem execLd_kept {r0 : State} (c : MemReader) (x : Option (BitVec 26)) (f : BitVec 26) (s : State) (h : Kept r0 s) : KeptOut r0 (execLd c x f s) := by
  unfold execLd
  repeat' first
    | intro _
    | with_reducible assumption
    | dsimp only
    | with_reducible apply KeptOut.ite
    | with_reducible apply KeptOut.next
    | with_reducible apply KeptOut.fault
    | with_reducible apply Kept.ite
    | with_reducible apply Kept.dite
    | with_reducible apply memError_kept
    | with_reducible apply issueScalar_kept
    | with_reducible apply Kept.refl
    | simp only [↓Kept.upd_eq]
    | with_reducible apply Kept.fold
    | with_reducible apply Kept.foldFst
    | split

theorem execSt_kept {r0 : State} (c : CoreId) (x : Option (BitVec 26)) (f : BitVec 26) (s : State) (h : Kept r0 s) : KeptOut r0 (execSt c x f s) := by
  unfold execSt
  repeat' first
    | intro _
    | with_reducible assumption
    | dsimp only
    | with_reducible apply KeptOut.ite
    | with_reducible apply KeptOut.next
    | with_reducible apply KeptOut.fault
    | with_reducible apply Kept.ite
    | with_reducible apply Kept.dite
    | with_reducible apply issueScalar_kept
    | with_reducible apply Kept.refl
    | simp only [↓Kept.upd_eq]
    | with_reducible apply Kept.fold
    | with_reducible apply Kept.foldFst
    | split

theorem execLdaSta_kept {r0 : State} (c : CoreId) (x : Option (BitVec 26)) (f : BitVec 26) (s : State) (h : Kept r0 s) : KeptOut r0 (execLdaSta c x f s) := by
  unfold execLdaSta
  repeat' first
    | intro _
    | with_reducible assumption
    | dsimp only
    | with_reducible apply KeptOut.ite
    | with_reducible apply KeptOut.next
    | with_reducible apply KeptOut.fault
    | with_reducible apply Kept.ite
    | with_reducible apply Kept.dite
    | with_reducible apply issueScalar_kept
    | with_reducible apply Kept.refl
    | simp only [↓Kept.upd_eq]
    | with_reducible apply Kept.fold
    | with_reducible apply Kept.foldFst
    | split

theorem execCsel_kept {r0 : State} (c : CoreId) (f : BitVec 26) (s : State) (h : Kept r0 s) : KeptOut r0 (execCsel c f s) := by
  unfold execCsel
  repeat' first
    | intro _
    | with_reducible assumption
    | dsimp only
    | with_reducible apply KeptOut.ite
    | with_reducible apply KeptOut.next
    | with_reducible apply KeptOut.fault
    | with_reducible apply Kept.ite
    | with_reducible apply Kept.dite
    | with_reducible apply issueScalar_kept
    | with_reducible apply Kept.refl
    | simp only [↓Kept.upd_eq]
    | with_reducible apply Kept.fold
    | with_reducible apply Kept.foldFst
    | split

theorem execFixedPointMac_kept {r0 : State} (c : CoreId) (f : BitVec 26) (s : State) (h : Kept r0 s) : KeptOut r0 (execFixedPointMac c f s) := by
  unfold execFixedPointMac
  repeat' first
    | intro _
    | with_reducible assumption
    | dsimp only
    | with_reducible apply KeptOut.ite
    | with_reducible apply KeptOut.next
    | with_reducible apply KeptOut.fault
    | with_reducible apply Kept.ite
    | with_reducible apply Kept.dite
    | with_reducible apply issueScalar_kept
    | with_reducible apply Kept.refl
    | simp only [↓Kept.upd_eq]
    | with_reducible apply Kept.fold
    | with_reducible apply Kept.foldFst
    | split

theorem execAccumulatorArithmetic_kept {r0 : State} (c : CoreId) (f : BitVec 26) (s : State) (h : Kept r0 s) : KeptOut r0 (execAccumulatorArithmetic c f s) := by
  unfold execAccumulatorArithmetic
  repeat' first
    | intro _
    | with_reducible assumption
    | dsimp only
    | with_reducible apply KeptOut.ite
    | with_reducible apply KeptOut.next
    | with_reducible apply KeptOut.fault
    | with_reducible apply Kept.ite
    | with_reducible apply Kept.dite
    | with_reducible apply issueScalar_kept
    | with_reducible apply Kept.refl
    | simp only [↓Kept.upd_eq]
    | with_reducible apply Kept.fold
    | with_reducible apply Kept.foldFst
    | split

theorem execAccumulatorMove_kept {r0 : State} (c : CoreId) (f : BitVec 26) (s : State) (h : Kept r0 s) : KeptOut r0 (execAccumulatorMove c f s) := by
  unfold execAccumulatorMove
  repeat' first
    | intro _
    | with_reducible assumption
    | dsimp only
    | with_reducible apply KeptOut.ite
    | with_reducible apply KeptOut.next
    | with_reducible apply KeptOut.fault
    | with_reducible apply Kept.ite
    | with_reducible apply Kept.dite
    | with_reducible apply issueScalar_kept
    | with_reducible apply Kept.refl
    | simp only [↓Kept.upd_eq]
    | with_reducible apply Kept.fold
    | with_reducible apply Kept.foldFst
    | split

theorem execScalarFpOp_kept {r0 : State} (c : CoreId) (f : BitVec 26) (s : State) (h : Kept r0 s) : KeptOut r0 (execScalarFpOp c f s) := by
  unfold execScalarFpOp
  repeat' first
    | intro _
    | with_reducible assumption
    | dsimp only
    | with_reducible apply KeptOut.ite
    | with_reducible apply KeptOut.next
    | with_reducible apply KeptOut.fault
    | with_reducible apply Kept.ite
    | with_reducible apply Kept.dite
    | with_reducible apply issueScalar_kept
    | with_reducible apply Kept.refl
    | simp only [↓Kept.upd_eq]
    | with_reducible apply Kept.fold
    | with_reducible apply Kept.foldFst
    | split

theorem execFldFst_kept {r0 : State} (c : CoreId) (f : BitVec 26) (s : State) (h : Kept r0 s) : KeptOut r0 (execFldFst c f s) := by
  unfold execFldFst
  repeat' first
    | intro _
    | with_reducible assumption
    | dsimp only
    | with_reducible apply KeptOut.ite
    | with_reducible apply KeptOut.next
    | with_reducible apply KeptOut.fault
    | with_reducible apply Kept.ite
    | with_reducible apply Kept.dite
    | with_reducible apply issueScalar_kept
    | with_reducible apply Kept.refl
    | simp only [↓Kept.upd_eq]
    | with_reducible apply Kept.fold
    | with_reducible apply Kept.foldFst
    | split

theorem execFpMoveConvert_kept {r0 : State} (c : CoreId) (f : BitVec 26) (s : State) (h : Kept r0 s) : KeptOut r0 (execFpMoveConvert c f s) := by
  unfold execFpMoveConvert
  repeat' first
    | intro _
    | with_reducible assumption
    | dsimp only
    | with_reducible apply KeptOut.ite
    | with_reducible apply KeptOut.next
    | with_reducible apply KeptOut.fault
    | with_reducible apply Kept.ite
    | with_reducible apply Kept.dite
    | with_reducible apply issueScalar_kept
    | with_reducible apply Kept.refl
    | simp only [↓Kept.upd_eq]
    | with_reducible apply Kept.fold
    | with_reducible apply Kept.foldFst
    | split

theorem branchB_kept (c : CoreId) (f : BitVec 26) : KeptOp ((branchB c f) : Op U64) := by
  unfold branchB
  repeat' first
    | intro _
    | with_reducible assumption
    | dsimp only
    | with_reducible apply KeptOp.ite
    | with_reducible apply Kept.ite
    | with_reducible apply Kept.dite
    | with_reducible apply KeptOp.pure
    | with_reducible apply KeptOp.throw
    | with_reducible apply KeptOp.get
    | with_reducible apply nextPC_kept
    | with_reducible apply pcOf_kept
    | with_reducible apply rdD_kept
    | with_reducible apply illegal_kept
    | with_reducible apply KeptOp.bind
    | with_reducible apply KeptOp.map
    | with_reducible apply KeptOp.modify
    | with_reducible apply KeptOp.modifyGet
    | with_reducible apply Kept.resOk
    | with_reducible apply Kept.resError
    | with_reducible apply Kept.refl
    | simp only [↓Kept.upd_eq]
    | with_reducible apply Kept.fold
    | with_reducible apply Kept.foldFst
    | refine KeptOp.ok (m := _) ?_ (by assumption) ?_
    | refine KeptOp.error (m := _) ?_ (by assumption) ?_
    | split
    | refine KeptOp.bind ?_ (fun _ => ?_)
    | refine KeptOp.mk (fun s => ?_)

theorem execBranch_kept {r0 : State} (c : CoreId) (f : BitVec 26) (s : State) (h : Kept r0 s) : KeptOut r0 (execBranch c f s) := by
  unfold execBranch
  repeat' first
    | intro _
    | with_reducible assumption
    | dsimp only
    | with_reducible apply KeptOut.ite
    | with_reducible apply KeptOut.next
    | with_reducible apply KeptOut.fault
    | with_reducible apply Kept.ite
    | with_reducible apply Kept.dite
    | with_reducible apply KeptOp.pure
    | with_reducible apply KeptOp.throw
    | with_reducible apply KeptOp.get
    | with_reducible apply branchB_kept
    | with_reducible apply issue_kept
    | with_reducible apply KeptOp.bind
    | with_reducible apply KeptOp.map
    | with_reducible apply KeptOp.modify
    | with_reducible apply KeptOp.modifyGet
    | with_reducible apply Kept.resOk
    | with_reducible apply Kept.resError
    | with_reducible apply Kept.refl
    | simp only [↓Kept.upd_eq]
    | with_reducible apply Kept.fold
    | with_reducible apply Kept.foldFst
    | refine KeptOp.ok (m := _) ?_ (by assumption) ?_
    | refine KeptOp.error (m := _) ?_ (by assumption) ?_
    | split
    | refine KeptOp.mk (fun s => ?_)

theorem branchZ_kept (c : CoreId) (f : BitVec 26) : KeptOp ((branchZ c f) : Op U64) := by
  unfold branchZ
  repeat' first
    | intro _
    | with_reducible assumption
    | dsimp only
    | with_reducible apply KeptOp.ite
    | with_reducible apply Kept.ite
    | with_reducible apply Kept.dite
    | with_reducible apply KeptOp.pure
    | with_reducible apply KeptOp.throw
    | with_reducible apply KeptOp.get
    | with_reducible apply nextPC_kept
    | with_reducible apply pcOf_kept
    | with_reducible apply rdD_kept
    | with_reducible apply KeptOp.bind
    | with_reducible apply KeptOp.map
    | with_reducible apply KeptOp.modify
    | with_reducible apply KeptOp.modifyGet
    | with_reducible apply Kept.resOk
    | with_reducible apply Kept.resError
    | with_reducible apply Kept.refl
    | simp only [↓Kept.upd_eq]
    | with_reducible apply Kept.fold
    | with_reducible apply Kept.foldFst
    | refine KeptOp.ok (m := _) ?_ (by assumption) ?_
    | refine KeptOp.error (m := _) ?_ (by assumption) ?_
    | split
    | refine KeptOp.bind ?_ (fun _ => ?_)
    | refine KeptOp.mk (fun s => ?_)

theorem execBranchOnZero_kept {r0 : State} (c : CoreId) (f : BitVec 26) (s : State) (h : Kept r0 s) : KeptOut r0 (execBranchOnZero c f s) := by
  unfold execBranchOnZero
  repeat' first
    | intro _
    | with_reducible assumption
    | dsimp only
    | with_reducible apply KeptOut.ite
    | with_reducible apply KeptOut.next
    | with_reducible apply KeptOut.fault
    | with_reducible apply Kept.ite
    | with_reducible apply Kept.dite
    | with_reducible apply KeptOp.pure
    | with_reducible apply KeptOp.throw
    | with_reducible apply KeptOp.get
    | with_reducible apply branchZ_kept
    | with_reducible apply issue_kept
    | with_reducible apply KeptOp.bind
    | with_reducible apply KeptOp.map
    | with_reducible apply KeptOp.modify
    | with_reducible apply KeptOp.modifyGet
    | with_reducible apply Kept.resOk
    | with_reducible apply Kept.resError
    | with_reducible apply Kept.refl
    | simp only [↓Kept.upd_eq]
    | with_reducible apply Kept.fold
    | with_reducible apply Kept.foldFst
    | refine KeptOp.ok (m := _) ?_ (by assumption) ?_
    | refine KeptOp.error (m := _) ?_ (by assumption) ?_
    | split
    | refine KeptOp.mk (fun s => ?_)

theorem execJmp_kept {r0 : State} (c : CoreId) (f : BitVec 26) (s : State) (h : Kept r0 s) : KeptOut r0 (execJmp c f s) := by
  unfold execJmp
  repeat' first
    | intro _
    | with_reducible assumption
    | dsimp only
    | with_reducible apply KeptOut.ite
    | with_reducible apply KeptOut.next
    | with_reducible apply KeptOut.fault
    | with_reducible apply Kept.ite
    | with_reducible apply Kept.dite
    | with_reducible apply KeptOp.pure
    | with_reducible apply KeptOp.throw
    | with_reducible apply KeptOp.get
    | with_reducible apply issue_kept
    | with_reducible apply pcOf_kept
    | with_reducible apply KeptOp.bind
    | with_reducible apply KeptOp.map
    | with_reducible apply KeptOp.modify
    | with_reducible apply KeptOp.modifyGet
    | with_reducible apply Kept.resOk
    | with_reducible apply Kept.resError
    | with_reducible apply Kept.refl
    | simp only [↓Kept.upd_eq]
    | with_reducible apply Kept.fold
    | with_reducible apply Kept.foldFst
    | refine KeptOp.ok (m := _) ?_ (by assumption) ?_
    | refine KeptOp.error (m := _) ?_ (by assumption) ?_
    | split
    | refine KeptOp.mk (fun s => ?_)

theorem checkTarget_kept (t : U64) : KeptOp ((checkTarget t) : Op Unit) := by
  unfold checkTarget
  repeat' first
    | intro _
    | with_reducible assumption
    | dsimp only
    | with_reducible apply KeptOp.ite
    | with_reducible apply Kept.ite
    | with_reducible apply Kept.dite
    | with_reducible apply KeptOp.pure
    | with_reducible apply KeptOp.throw
    | with_reducible apply KeptOp.get
    | with_reducible apply trapIf_kept
    | with_reducible apply KeptOp.bind
    | with_reducible apply KeptOp.map
    | with_reducible apply KeptOp.modify
    | with_reducible apply KeptOp.modifyGet
    | with_reducible apply Kept.resOk
    | with_reducible apply Kept.resError
    | with_reducible apply Kept.refl
    | simp only [↓Kept.upd_eq]
    | with_reducible apply Kept.fold
    | with_reducible apply Kept.foldFst
    | refine KeptOp.ok (m := _) ?_ (by assumption) ?_
    | refine KeptOp.error (m := _) ?_ (by assumption) ?_
    | split
    | refine KeptOp.bind ?_ (fun _ => ?_)
    | refine KeptOp.mk (fun s => ?_)

theorem callTo_kept (c : CoreId) (target : U64) : KeptOp ((callTo c target) : Op U64) := by
  unfold callTo
  repeat' first
    | intro _
    | with_reducible assumption
    | dsimp only
    | with_reducible apply KeptOp.ite
    | with_reducible apply Kept.ite
    | with_reducible apply Kept.dite
    | with_reducible apply KeptOp.pure
    | with_reducible apply KeptOp.throw
    | with_reducible apply KeptOp.get
    | with_reducible apply checkTarget_kept
    | with_reducible apply scalarStore_kept
    | with_reducible apply modC_kept
    | with_reducible apply pcOf_kept
    | with_reducible apply chkA_kept
    | with_reducible apply rdA_kept
    | with_reducible apply trapIf_kept
    | with_reducible apply KeptOp.bind
    | with_reducible apply KeptOp.map
    | with_reducible apply KeptOp.modify
    | with_reducible apply KeptOp.modifyGet
    | with_reducible apply Kept.resOk
    | with_reducible apply Kept.resError
    | with_reducible apply Kept.refl
    | simp only [↓Kept.upd_eq]
    | with_reducible apply Kept.fold
    | with_reducible apply Kept.foldFst
    | refine KeptOp.ok (m := _) ?_ (by assumption) ?_
    | refine KeptOp.error (m := _) ?_ (by assumption) ?_
    | split
    | refine KeptOp.bind ?_ (fun _ => ?_)
    | refine KeptOp.mk (fun s => ?_)

theorem execCall_kept {r0 : State} (c : CoreId) (f : BitVec 26) (s : State) (h : Kept r0 s) : KeptOut r0 (execCall c f s) := by
  unfold execCall
  repeat' first
    | intro _
    | with_reducible assumption
    | dsimp only
    | with_reducible apply KeptOut.ite
    | with_reducible apply KeptOut.next
    | with_reducible apply KeptOut.fault
    | with_reducible apply Kept.ite
    | with_reducible apply Kept.dite
    | with_reducible apply KeptOp.pure
    | with_reducible apply KeptOp.throw
    | with_reducible apply KeptOp.get
    | with_reducible apply callTo_kept
    | with_reducible apply issue_kept
    | with_reducible apply pcOf_kept
    | with_reducible apply KeptOp.bind
    | with_reducible apply KeptOp.map
    | with_reducible apply KeptOp.modify
    | with_reducible apply KeptOp.modifyGet
    | with_reducible apply Kept.resOk
    | with_reducible apply Kept.resError
    | with_reducible apply Kept.refl
    | simp only [↓Kept.upd_eq]
    | with_reducible apply Kept.fold
    | with_reducible apply Kept.foldFst
    | refine KeptOp.ok (m := _) ?_ (by assumption) ?_
    | refine KeptOp.error (m := _) ?_ (by assumption) ?_
    | split
    | refine KeptOp.mk (fun s => ?_)

theorem execJmpr_kept {r0 : State} (c : CoreId) (f : BitVec 23) (s : State) (h : Kept r0 s) : KeptOut r0 (execJmpr c f s) := by
  unfold execJmpr
  repeat' first
    | intro _
    | with_reducible assumption
    | dsimp only
    | with_reducible apply KeptOut.ite
    | with_reducible apply KeptOut.next
    | with_reducible apply KeptOut.fault
    | with_reducible apply Kept.ite
    | with_reducible apply Kept.dite
    | with_reducible apply KeptOp.pure
    | with_reducible apply KeptOp.throw
    | with_reducible apply KeptOp.get
    | with_reducible apply checkTarget_kept
    | with_reducible apply issue_kept
    | with_reducible apply rdA_kept
    | with_reducible apply illegalIf_kept
    | with_reducible apply KeptOp.bind
    | with_reducible apply KeptOp.map
    | with_reducible apply KeptOp.modify
    | with_reducible apply KeptOp.modifyGet
    | with_reducible apply Kept.resOk
    | with_reducible apply Kept.resError
    | with_reducible apply Kept.refl
    | simp only [↓Kept.upd_eq]
    | with_reducible apply Kept.fold
    | with_reducible apply Kept.foldFst
    | refine KeptOp.ok (m := _) ?_ (by assumption) ?_
    | refine KeptOp.error (m := _) ?_ (by assumption) ?_
    | split
    | refine KeptOp.mk (fun s => ?_)

theorem execCallr_kept {r0 : State} (c : CoreId) (f : BitVec 23) (s : State) (h : Kept r0 s) : KeptOut r0 (execCallr c f s) := by
  unfold execCallr
  repeat' first
    | intro _
    | with_reducible assumption
    | dsimp only
    | with_reducible apply KeptOut.ite
    | with_reducible apply KeptOut.next
    | with_reducible apply KeptOut.fault
    | with_reducible apply Kept.ite
    | with_reducible apply Kept.dite
    | with_reducible apply KeptOp.pure
    | with_reducible apply KeptOp.throw
    | with_reducible apply KeptOp.get
    | with_reducible apply callTo_kept
    | with_reducible apply issue_kept
    | with_reducible apply rdA_kept
    | with_reducible apply illegalIf_kept
    | with_reducible apply KeptOp.bind
    | with_reducible apply KeptOp.map
    | with_reducible apply KeptOp.modify
    | with_reducible apply KeptOp.modifyGet
    | with_reducible apply Kept.resOk
    | with_reducible apply Kept.resError
    | with_reducible apply Kept.refl
    | simp only [↓Kept.upd_eq]
    | with_reducible apply Kept.fold
    | with_reducible apply Kept.foldFst
    | refine KeptOp.ok (m := _) ?_ (by assumption) ?_
    | refine KeptOp.error (m := _) ?_ (by assumption) ?_
    | split
    | refine KeptOp.mk (fun s => ?_)

theorem retBody_kept (c : CoreId) (f : BitVec 23) : KeptOp ((retBody c f) : Op U64) := by
  unfold retBody
  repeat' first
    | intro _
    | with_reducible assumption
    | dsimp only
    | with_reducible apply KeptOp.ite
    | with_reducible apply Kept.ite
    | with_reducible apply Kept.dite
    | with_reducible apply KeptOp.pure
    | with_reducible apply KeptOp.throw
    | with_reducible apply KeptOp.get
    | with_reducible apply checkTarget_kept
    | with_reducible apply scalarLoad_kept
    | with_reducible apply modC_kept
    | with_reducible apply rdA_kept
    | with_reducible apply illegalIf_kept
    | with_reducible apply KeptOp.bind
    | with_reducible apply KeptOp.map
    | with_reducible apply KeptOp.modify
    | with_reducible apply KeptOp.modifyGet
    | with_reducible apply Kept.resOk
    | with_reducible apply Kept.resError
    | with_reducible apply Kept.refl
    | simp only [↓Kept.upd_eq]
    | with_reducible apply Kept.fold
    | with_reducible apply Kept.foldFst
    | refine KeptOp.ok (m := _) ?_ (by assumption) ?_
    | refine KeptOp.error (m := _) ?_ (by assumption) ?_
    | split
    | refine KeptOp.bind ?_ (fun _ => ?_)
    | refine KeptOp.mk (fun s => ?_)

theorem execRet_kept {r0 : State} (c : CoreId) (f : BitVec 23) (s : State) (h : Kept r0 s) : KeptOut r0 (execRet c f s) := by
  unfold execRet
  repeat' first
    | intro _
    | with_reducible assumption
    | dsimp only
    | with_reducible apply KeptOut.ite
    | with_reducible apply KeptOut.next
    | with_reducible apply KeptOut.fault
    | with_reducible apply Kept.ite
    | with_reducible apply Kept.dite
    | with_reducible apply KeptOp.pure
    | with_reducible apply KeptOp.throw
    | with_reducible apply KeptOp.get
    | with_reducible apply retBody_kept
    | with_reducible apply issue_kept
    | with_reducible apply KeptOp.bind
    | with_reducible apply KeptOp.map
    | with_reducible apply KeptOp.modify
    | with_reducible apply KeptOp.modifyGet
    | with_reducible apply Kept.resOk
    | with_reducible apply Kept.resError
    | with_reducible apply Kept.refl
    | simp only [↓Kept.upd_eq]
    | with_reducible apply Kept.fold
    | with_reducible apply Kept.foldFst
    | refine KeptOp.ok (m := _) ?_ (by assumption) ?_
    | refine KeptOp.error (m := _) ?_ (by assumption) ?_
    | split
    | refine KeptOp.mk (fun s => ?_)

theorem atomicHome_kept {r0 : State} (s : State) (own : Option CoreId) (op : Nat) (n : Nat) (pa : Nat) (a : U64) (b : U64) (h : Kept r0 s) : Kept r0 (atomicHome s own op n pa a b).2.2 := by
  unfold atomicHome
  repeat' first
    | intro _
    | with_reducible assumption
    | dsimp only
    | with_reducible apply Kept.ite
    | with_reducible apply Kept.dite
    | with_reducible apply homeWrite_kept
    | with_reducible apply l2Touch_kept
    | with_reducible apply Kept.refl
    | simp only [↓Kept.upd_eq]
    | with_reducible apply Kept.fold
    | with_reducible apply Kept.foldFst
    | split

theorem localAtomic_kept (c : CoreId) (op : Nat) (n : Nat) (pa : Nat) (a : U64) (b : U64) (va : U64) : KeptOp ((localAtomic c op n pa a b va) : Op (List Byte)) := by
  unfold localAtomic
  refine KeptOp.ofRun (fun r0 s h => ?_)
  repeat' first
    | intro _
    | with_reducible assumption
    | dsimp only
    | with_reducible apply KeptRun.ite
    | with_reducible apply KeptRun.getBind
    | with_reducible apply KeptRun.bind
    | with_reducible apply KeptRun.set
    | with_reducible apply KeptRun.modify
    | with_reducible apply KeptOp.ite
    | with_reducible apply Kept.ite
    | with_reducible apply Kept.dite
    | with_reducible apply KeptOp.pure
    | with_reducible apply KeptOp.throw
    | with_reducible apply KeptOp.get
    | with_reducible apply atomicHome_kept
    | with_reducible apply trapIf_kept
    | with_reducible apply machineCheck_kept
    | with_reducible apply KeptOp.bind
    | with_reducible apply KeptOp.map
    | with_reducible apply KeptOp.modify
    | with_reducible apply KeptOp.modifyGet
    | with_reducible apply Kept.resOk
    | with_reducible apply Kept.resError
    | with_reducible apply Kept.refl
    | simp only [↓Kept.upd_eq]
    | with_reducible apply Kept.fold
    | with_reducible apply Kept.foldFst
    | refine Kept.ofSnd2 (x := atomicHome _ _ _ _ _ _ _) (by assumption) ?_
    | refine KeptOp.ok (m := _) ?_ (by assumption) ?_
    | refine KeptOp.error (m := _) ?_ (by assumption) ?_
    | split
    | refine KeptOp.bind ?_ (fun _ => ?_)
    | with_reducible apply KeptRun.op

theorem hallAtomic_kept (c : CoreId) (op : Nat) (z : Nat) (a : U64) (b : U64) (addr : U64) : KeptOp ((hallAtomic c op z a b addr) : Op (List Byte)) := by
  unfold hallAtomic
  refine KeptOp.ofRun (fun r0 s h => ?_)
  repeat' first
    | intro _
    | with_reducible assumption
    | dsimp only
    | with_reducible apply KeptRun.ite
    | with_reducible apply KeptRun.getBind
    | with_reducible apply KeptRun.bind
    | with_reducible apply KeptRun.set
    | with_reducible apply KeptRun.modify
    | with_reducible apply KeptOp.ite
    | with_reducible apply Kept.ite
    | with_reducible apply Kept.dite
    | with_reducible apply KeptOp.pure
    | with_reducible apply KeptOp.throw
    | with_reducible apply KeptOp.get
    | with_reducible apply localAtomic_kept
    | with_reducible apply awaitHall_kept
    | with_reducible apply trap_kept
    | with_reducible apply machineCheck_kept
    | with_reducible apply KeptOp.bind
    | with_reducible apply KeptOp.map
    | with_reducible apply KeptOp.modify
    | with_reducible apply KeptOp.modifyGet
    | with_reducible apply Kept.resOk
    | with_reducible apply Kept.resError
    | with_reducible apply Kept.refl
    | simp only [↓Kept.upd_eq]
    | with_reducible apply Kept.fold
    | with_reducible apply Kept.foldFst
    | refine KeptOp.ok (m := _) ?_ (by assumption) ?_
    | refine KeptOp.error (m := _) ?_ (by assumption) ?_
    | split
    | refine KeptOp.bind ?_ (fun _ => ?_)
    | with_reducible apply KeptRun.op

theorem atomicBody_kept (c : CoreId) (f : BitVec 26) : KeptOp ((atomicBody c f) : Op U64) := by
  unfold atomicBody
  repeat' first
    | intro _
    | with_reducible assumption
    | dsimp only
    | with_reducible apply KeptOp.ite
    | with_reducible apply Kept.ite
    | with_reducible apply Kept.dite
    | with_reducible apply KeptOp.pure
    | with_reducible apply KeptOp.throw
    | with_reducible apply KeptOp.get
    | with_reducible apply hallAtomic_kept
    | with_reducible apply localAtomic_kept
    | with_reducible apply nextPC_kept
    | with_reducible apply xlateAt_kept
    | with_reducible apply modC_kept
    | with_reducible apply ringOf_kept
    | with_reducible apply wrD_kept
    | with_reducible apply rdD_kept
    | with_reducible apply rdA_kept
    | with_reducible apply trapIf_kept
    | with_reducible apply illegalIf_kept
    | with_reducible apply KeptOp.bind
    | with_reducible apply KeptOp.map
    | with_reducible apply KeptOp.modify
    | with_reducible apply KeptOp.modifyGet
    | with_reducible apply Kept.resOk
    | with_reducible apply Kept.resError
    | with_reducible apply Kept.refl
    | simp only [↓Kept.upd_eq]
    | with_reducible apply Kept.fold
    | with_reducible apply Kept.foldFst
    | refine KeptOp.ok (m := _) ?_ (by assumption) ?_
    | refine KeptOp.error (m := _) ?_ (by assumption) ?_
    | split
    | refine KeptOp.bind ?_ (fun _ => ?_)
    | refine KeptOp.mk (fun s => ?_)

theorem execScalarAtomic_kept {r0 : State} (c : CoreId) (f : BitVec 26) (s : State) (h : Kept r0 s) : KeptOut r0 (execScalarAtomic c f s) := by
  unfold execScalarAtomic
  repeat' first
    | intro _
    | with_reducible assumption
    | dsimp only
    | with_reducible apply KeptOut.ite
    | with_reducible apply KeptOut.next
    | with_reducible apply KeptOut.fault
    | with_reducible apply Kept.ite
    | with_reducible apply Kept.dite
    | with_reducible apply KeptOp.pure
    | with_reducible apply KeptOp.throw
    | with_reducible apply KeptOp.get
    | with_reducible apply atomicBody_kept
    | with_reducible apply issue_kept
    | with_reducible apply KeptOp.bind
    | with_reducible apply KeptOp.map
    | with_reducible apply KeptOp.modify
    | with_reducible apply KeptOp.modifyGet
    | with_reducible apply Kept.resOk
    | with_reducible apply Kept.resError
    | with_reducible apply Kept.refl
    | simp only [↓Kept.upd_eq]
    | with_reducible apply Kept.fold
    | with_reducible apply Kept.foldFst
    | refine KeptOp.ok (m := _) ?_ (by assumption) ?_
    | refine KeptOp.error (m := _) ?_ (by assumption) ?_
    | split
    | refine KeptOp.mk (fun s => ?_)

theorem execAfadd_kept {r0 : State} (c : CoreId) (hi : BitVec 16) (lo : BitVec 6) (s : State) (h : Kept r0 s) : KeptOut r0 (execAfadd c hi lo s) := by
  unfold execAfadd
  repeat' first
    | intro _
    | with_reducible assumption
    | dsimp only
    | with_reducible apply KeptOut.ite
    | with_reducible apply KeptOut.next
    | with_reducible apply KeptOut.fault
    | with_reducible apply Kept.ite
    | with_reducible apply Kept.dite
    | with_reducible apply KeptOp.pure
    | with_reducible apply KeptOp.throw
    | with_reducible apply KeptOp.get
    | with_reducible apply atomicBody_kept
    | with_reducible apply issue_kept
    | with_reducible apply KeptOp.bind
    | with_reducible apply KeptOp.map
    | with_reducible apply KeptOp.modify
    | with_reducible apply KeptOp.modifyGet
    | with_reducible apply Kept.resOk
    | with_reducible apply Kept.resError
    | with_reducible apply Kept.refl
    | simp only [↓Kept.upd_eq]
    | with_reducible apply Kept.fold
    | with_reducible apply Kept.foldFst
    | refine KeptOp.ok (m := _) ?_ (by assumption) ?_
    | refine KeptOp.error (m := _) ?_ (by assumption) ?_
    | split
    | refine KeptOp.mk (fun s => ?_)

theorem execNop_kept {r0 : State} (c : CoreId) (s : State) (h : Kept r0 s) : KeptOut r0 (execNop c s) := by
  unfold execNop
  repeat' first
    | intro _
    | with_reducible assumption
    | dsimp only
    | with_reducible apply KeptOut.ite
    | with_reducible apply KeptOut.next
    | with_reducible apply KeptOut.fault
    | with_reducible apply Kept.ite
    | with_reducible apply Kept.dite
    | with_reducible apply KeptOp.pure
    | with_reducible apply KeptOp.throw
    | with_reducible apply KeptOp.get
    | with_reducible apply nextPC_kept
    | with_reducible apply issue_kept
    | with_reducible apply KeptOp.bind
    | with_reducible apply KeptOp.map
    | with_reducible apply KeptOp.modify
    | with_reducible apply KeptOp.modifyGet
    | with_reducible apply Kept.resOk
    | with_reducible apply Kept.resError
    | with_reducible apply Kept.refl
    | simp only [↓Kept.upd_eq]
    | with_reducible apply Kept.fold
    | with_reducible apply Kept.foldFst
    | refine KeptOp.ok (m := _) ?_ (by assumption) ?_
    | refine KeptOp.error (m := _) ?_ (by assumption) ?_
    | split
    | refine KeptOp.mk (fun s => ?_)

theorem glCommit_kept {r0 : State} (s : State) (c : CoreId) (h : Kept r0 s) : Kept r0 (glCommit s c) := by
  unfold glCommit
  repeat' first
    | intro _
    | with_reducible assumption
    | dsimp only
    | with_reducible apply Kept.ite
    | with_reducible apply Kept.dite
    | with_reducible apply State.modCore_kept
    | with_reducible apply Kept.refl
    | simp only [↓Kept.upd_eq]
    | with_reducible apply Kept.fold
    | with_reducible apply Kept.foldFst
    | split

theorem writeExecCsr_kept {r0 : State} (s : State) (c : CoreId) (n : Nat) (v : U64) (h : Kept r0 s) : Kept r0 (writeExecCsr s c n v) := by
  unfold writeExecCsr
  repeat' first
    | intro _
    | with_reducible assumption
    | dsimp only
    | with_reducible apply Kept.ite
    | with_reducible apply Kept.dite
    | with_reducible apply glCommit_kept
    | with_reducible apply State.modCore_kept
    | with_reducible apply Kept.refl
    | simp only [↓Kept.upd_eq]
    | with_reducible apply Kept.fold
    | with_reducible apply Kept.foldFst
    | split

theorem csrWrite_kept {r0 : State} (s : State) (c : CoreId) (n : Nat) (v : U64) (h : Kept r0 s) : Kept r0 (csrWrite s c n v) := by
  unfold csrWrite
  repeat' first
    | intro _
    | with_reducible assumption
    | dsimp only
    | with_reducible apply Kept.ite
    | with_reducible apply Kept.dite
    | with_reducible apply writeExecCsr_kept
    | with_reducible apply State.modCore_kept
    | with_reducible apply Kept.refl
    | simp only [↓Kept.upd_eq]
    | with_reducible apply Kept.fold
    | with_reducible apply Kept.foldFst
    | split

theorem mtcBody_kept (c : CoreId) (rd : Nat) (n : Nat) : KeptOp ((mtcBody c rd n) : Op U64) := by
  unfold mtcBody
  refine KeptOp.ofRun (fun r0 s h => ?_)
  repeat' first
    | intro _
    | with_reducible assumption
    | dsimp only
    | with_reducible apply KeptRun.ite
    | with_reducible apply KeptRun.getBind
    | with_reducible apply KeptRun.bind
    | with_reducible apply KeptRun.set
    | with_reducible apply KeptRun.modify
    | with_reducible apply KeptOp.ite
    | with_reducible apply Kept.ite
    | with_reducible apply Kept.dite
    | with_reducible apply KeptOp.pure
    | with_reducible apply KeptOp.throw
    | with_reducible apply KeptOp.get
    | with_reducible apply csrWrite_kept
    | with_reducible apply nextPC_kept
    | with_reducible apply ringOf_kept
    | with_reducible apply rdD_kept
    | with_reducible apply trapIf_kept
    | with_reducible apply illegalIf_kept
    | with_reducible apply KeptOp.bind
    | with_reducible apply KeptOp.map
    | with_reducible apply KeptOp.modify
    | with_reducible apply KeptOp.modifyGet
    | with_reducible apply Kept.resOk
    | with_reducible apply Kept.resError
    | with_reducible apply Kept.refl
    | simp only [↓Kept.upd_eq]
    | with_reducible apply Kept.fold
    | with_reducible apply Kept.foldFst
    | refine KeptOp.ok (m := _) ?_ (by assumption) ?_
    | refine KeptOp.error (m := _) ?_ (by assumption) ?_
    | split
    | refine KeptOp.bind ?_ (fun _ => ?_)
    | with_reducible apply KeptRun.op

theorem mfcBody_kept (c : CoreId) (rd : Nat) (n : Nat) : KeptOp ((mfcBody c rd n) : Op U64) := by
  unfold mfcBody
  repeat' first
    | intro _
    | with_reducible assumption
    | dsimp only
    | with_reducible apply KeptOp.ite
    | with_reducible apply Kept.ite
    | with_reducible apply Kept.dite
    | with_reducible apply KeptOp.pure
    | with_reducible apply KeptOp.throw
    | with_reducible apply KeptOp.get
    | with_reducible apply nextPC_kept
    | with_reducible apply wrD_kept
    | with_reducible apply illegal_kept
    | with_reducible apply KeptOp.bind
    | with_reducible apply KeptOp.map
    | with_reducible apply KeptOp.modify
    | with_reducible apply KeptOp.modifyGet
    | with_reducible apply Kept.resOk
    | with_reducible apply Kept.resError
    | with_reducible apply Kept.refl
    | simp only [↓Kept.upd_eq]
    | with_reducible apply Kept.fold
    | with_reducible apply Kept.foldFst
    | refine KeptOp.ok (m := _) ?_ (by assumption) ?_
    | refine KeptOp.error (m := _) ?_ (by assumption) ?_
    | split
    | refine KeptOp.bind ?_ (fun _ => ?_)
    | refine KeptOp.mk (fun s => ?_)

theorem execMtc_kept {r0 : State} (c : CoreId) (f : BitVec 26) (s : State) (h : Kept r0 s) : KeptOut r0 (execMtc c f s) := by
  unfold execMtc
  repeat' first
    | intro _
    | with_reducible assumption
    | dsimp only
    | with_reducible apply KeptOut.ite
    | with_reducible apply KeptOut.next
    | with_reducible apply KeptOut.fault
    | with_reducible apply Kept.ite
    | with_reducible apply Kept.dite
    | with_reducible apply KeptOp.pure
    | with_reducible apply KeptOp.throw
    | with_reducible apply KeptOp.get
    | with_reducible apply mfcBody_kept
    | with_reducible apply mtcBody_kept
    | with_reducible apply nextPC_kept
    | with_reducible apply issue_kept
    | with_reducible apply illegalIf_kept
    | with_reducible apply illegal_kept
    | with_reducible apply KeptOp.bind
    | with_reducible apply KeptOp.map
    | with_reducible apply KeptOp.modify
    | with_reducible apply KeptOp.modifyGet
    | with_reducible apply Kept.resOk
    | with_reducible apply Kept.resError
    | with_reducible apply Kept.refl
    | simp only [↓Kept.upd_eq]
    | with_reducible apply Kept.fold
    | with_reducible apply Kept.foldFst
    | refine KeptOp.ok (m := _) ?_ (by assumption) ?_
    | refine KeptOp.error (m := _) ?_ (by assumption) ?_
    | split
    | refine KeptOp.mk (fun s => ?_)

theorem issueMtc_kept {r0 : State} (c : CoreId) (rd : BitVec 4) (n : Nat) (s : State) (h : Kept r0 s) : Kept r0 (issueMtc c rd n s) := by
  unfold issueMtc
  repeat' first
    | intro _
    | with_reducible assumption
    | dsimp only
    | with_reducible apply Kept.ite
    | with_reducible apply Kept.dite
    | with_reducible apply KeptOp.pure
    | with_reducible apply KeptOp.throw
    | with_reducible apply KeptOp.get
    | with_reducible apply mtcBody_kept
    | with_reducible apply issue_kept
    | with_reducible apply KeptOp.bind
    | with_reducible apply KeptOp.map
    | with_reducible apply KeptOp.modify
    | with_reducible apply KeptOp.modifyGet
    | with_reducible apply Kept.resOk
    | with_reducible apply Kept.resError
    | with_reducible apply Kept.refl
    | simp only [↓Kept.upd_eq]
    | with_reducible apply Kept.fold
    | with_reducible apply Kept.foldFst
    | refine KeptOp.ok (m := _) ?_ (by assumption) ?_
    | refine KeptOp.error (m := _) ?_ (by assumption) ?_
    | split
    | refine KeptOp.mk (fun s => ?_)

theorem execNchAmaxclr_kept {r0 : State} (c : CoreId) (rd : BitVec 4) (s : State) (h : Kept r0 s) : KeptOut r0 (execNchAmaxclr c rd s) := by
  unfold execNchAmaxclr
  repeat' first
    | intro _
    | with_reducible assumption
    | dsimp only
    | with_reducible apply KeptOut.ite
    | with_reducible apply KeptOut.next
    | with_reducible apply KeptOut.fault
    | with_reducible apply Kept.ite
    | with_reducible apply Kept.dite
    | with_reducible apply issueMtc_kept
    | with_reducible apply Kept.refl
    | simp only [↓Kept.upd_eq]
    | with_reducible apply Kept.fold
    | with_reducible apply Kept.foldFst
    | split

theorem execGlWord_kept {r0 : State} (c : CoreId) (rd : BitVec 4) (s : State) (h : Kept r0 s) : KeptOut r0 (execGlWord c rd s) := by
  unfold execGlWord
  repeat' first
    | intro _
    | with_reducible assumption
    | dsimp only
    | with_reducible apply KeptOut.ite
    | with_reducible apply KeptOut.next
    | with_reducible apply KeptOut.fault
    | with_reducible apply Kept.ite
    | with_reducible apply Kept.dite
    | with_reducible apply issueMtc_kept
    | with_reducible apply Kept.refl
    | simp only [↓Kept.upd_eq]
    | with_reducible apply Kept.fold
    | with_reducible apply Kept.foldFst
    | split

theorem execGlCtlCommit_kept {r0 : State} (c : CoreId) (rd : BitVec 4) (s : State) (h : Kept r0 s) : KeptOut r0 (execGlCtlCommit c rd s) := by
  unfold execGlCtlCommit
  repeat' first
    | intro _
    | with_reducible assumption
    | dsimp only
    | with_reducible apply KeptOut.ite
    | with_reducible apply KeptOut.next
    | with_reducible apply KeptOut.fault
    | with_reducible apply Kept.ite
    | with_reducible apply Kept.dite
    | with_reducible apply issueMtc_kept
    | with_reducible apply Kept.refl
    | simp only [↓Kept.upd_eq]
    | with_reducible apply Kept.fold
    | with_reducible apply Kept.foldFst
    | split

theorem execGlLock_kept {r0 : State} (c : CoreId) (rd : BitVec 4) (s : State) (h : Kept r0 s) : KeptOut r0 (execGlLock c rd s) := by
  unfold execGlLock
  repeat' first
    | intro _
    | with_reducible assumption
    | dsimp only
    | with_reducible apply KeptOut.ite
    | with_reducible apply KeptOut.next
    | with_reducible apply KeptOut.fault
    | with_reducible apply Kept.ite
    | with_reducible apply Kept.dite
    | with_reducible apply issueMtc_kept
    | with_reducible apply Kept.refl
    | simp only [↓Kept.upd_eq]
    | with_reducible apply Kept.fold
    | with_reducible apply Kept.foldFst
    | split

theorem execElinkWrite_kept {r0 : State} (c : CoreId) (rd : BitVec 4) (s : State) (h : Kept r0 s) : KeptOut r0 (execElinkWrite c rd s) := by
  unfold execElinkWrite
  repeat' first
    | intro _
    | with_reducible assumption
    | dsimp only
    | with_reducible apply KeptOut.ite
    | with_reducible apply KeptOut.next
    | with_reducible apply KeptOut.fault
    | with_reducible apply Kept.ite
    | with_reducible apply Kept.dite
    | with_reducible apply issueMtc_kept
    | with_reducible apply Kept.refl
    | simp only [↓Kept.upd_eq]
    | with_reducible apply Kept.fold
    | with_reducible apply Kept.foldFst
    | split

theorem execStWrite_kept {r0 : State} (c : CoreId) (rd : BitVec 4) (s : State) (h : Kept r0 s) : KeptOut r0 (execStWrite c rd s) := by
  unfold execStWrite
  repeat' first
    | intro _
    | with_reducible assumption
    | dsimp only
    | with_reducible apply KeptOut.ite
    | with_reducible apply KeptOut.next
    | with_reducible apply KeptOut.fault
    | with_reducible apply Kept.ite
    | with_reducible apply Kept.dite
    | with_reducible apply issueMtc_kept
    | with_reducible apply Kept.refl
    | simp only [↓Kept.upd_eq]
    | with_reducible apply Kept.fold
    | with_reducible apply Kept.foldFst
    | split

theorem execXsend_kept {r0 : State} (c : CoreId) (rd : BitVec 4) (s : State) (h : Kept r0 s) : KeptOut r0 (execXsend c rd s) := by
  unfold execXsend
  repeat' first
    | intro _
    | with_reducible assumption
    | dsimp only
    | with_reducible apply KeptOut.ite
    | with_reducible apply KeptOut.next
    | with_reducible apply KeptOut.fault
    | with_reducible apply Kept.ite
    | with_reducible apply Kept.dite
    | with_reducible apply issueMtc_kept
    | with_reducible apply Kept.refl
    | simp only [↓Kept.upd_eq]
    | with_reducible apply Kept.fold
    | with_reducible apply Kept.foldFst
    | split

theorem execXtimerWrite_kept {r0 : State} (c : CoreId) (rd : BitVec 4) (s : State) (h : Kept r0 s) : KeptOut r0 (execXtimerWrite c rd s) := by
  unfold execXtimerWrite
  repeat' first
    | intro _
    | with_reducible assumption
    | dsimp only
    | with_reducible apply KeptOut.ite
    | with_reducible apply KeptOut.next
    | with_reducible apply KeptOut.fault
    | with_reducible apply Kept.ite
    | with_reducible apply Kept.dite
    | with_reducible apply issueMtc_kept
    | with_reducible apply Kept.refl
    | simp only [↓Kept.upd_eq]
    | with_reducible apply Kept.fold
    | with_reducible apply Kept.foldFst
    | split

theorem execSemPairWrite_kept {r0 : State} (c : CoreId) (n : BitVec 3) (rd : BitVec 4) (s : State) (h : Kept r0 s) : KeptOut r0 (execSemPairWrite c n rd s) := by
  unfold execSemPairWrite
  repeat' first
    | intro _
    | with_reducible assumption
    | dsimp only
    | with_reducible apply KeptOut.ite
    | with_reducible apply KeptOut.next
    | with_reducible apply KeptOut.fault
    | with_reducible apply Kept.ite
    | with_reducible apply Kept.dite
    | with_reducible apply issueMtc_kept
    | with_reducible apply Kept.refl
    | simp only [↓Kept.upd_eq]
    | with_reducible apply Kept.fold
    | with_reducible apply Kept.foldFst
    | split

end Sys2Proof.Machine
end

