-- ==== Sys2Proof/Laws/KeptSystem.lean ====
section
/-! SUPPORT. Laws/KeptSystem.lean: every operation of Machine/System.lean keeps what Laws/Kept.lean names. -/

namespace Sys2Proof.Machine

set_option linter.unusedTactic false
set_option linter.unreachableTactic false

theorem issueSub_kept {r0 : State} (c : CoreId) (major : Nat) (sub : Nat) (f : BitVec 22) (kind : IKind) (body : Op U64) (s : State) (kbody : KeptOp body) (h : Kept r0 s) : KeptOut r0 (issueSub c major sub f kind body s) := by
  unfold issueSub
  repeat' first
    | intro _
    | with_reducible assumption
    | dsimp only
    | with_reducible apply KeptOut.ite
    | with_reducible apply KeptOut.next
    | with_reducible apply KeptOut.fault
    | with_reducible apply Kept.ite
    | with_reducible apply Kept.dite
    | with_reducible apply KeptOp.pure
    | with_reducible apply KeptOp.throw
    | with_reducible apply KeptOp.get
    | with_reducible apply kbody
    | with_reducible apply issue_kept
    | with_reducible apply KeptOp.bind
    | with_reducible apply KeptOp.map
    | with_reducible apply KeptOp.modify
    | with_reducible apply KeptOp.modifyGet
    | with_reducible apply Kept.resOk
    | with_reducible apply Kept.resError
    | with_reducible apply Kept.refl
    | simp only [↓Kept.upd_eq]
    | with_reducible apply Kept.fold
    | with_reducible apply Kept.foldFst
    | refine KeptOp.ok (m := _) ?_ (by assumption) ?_
    | refine KeptOp.error (m := _) ?_ (by assumption) ?_
    | split
    | refine KeptOp.mk (fun s => ?_)

theorem readGate_kept (c : CoreId) (pa : Nat) : KeptOp ((readGate c pa) : Op (U64 × U64)) := by
  unfold readGate
  refine KeptOp.ofRun (fun r0 s h => ?_)
  repeat' first
    | intro _
    | with_reducible assumption
    | dsimp only
    | with_reducible apply KeptRun.ite
    | with_reducible apply KeptRun.getBind
    | with_reducible apply KeptRun.bind
    | with_reducible apply KeptRun.set
    | with_reducible apply KeptRun.modify
    | with_reducible apply KeptOp.ite
    | with_reducible apply Kept.ite
    | with_reducible apply Kept.dite
    | with_reducible apply KeptOp.pure
    | with_reducible apply KeptOp.throw
    | with_reducible apply KeptOp.get
    | with_reducible apply trapIf_kept
    | with_reducible apply machineCheck_kept
    | with_reducible apply l2Touch_kept
    | with_reducible apply KeptOp.bind
    | with_reducible apply KeptOp.map
    | with_reducible apply KeptOp.modify
    | with_reducible apply KeptOp.modifyGet
    | with_reducible apply Kept.resOk
    | with_reducible apply Kept.resError
    | with_reducible apply Kept.refl
    | simp only [↓Kept.upd_eq]
    | with_reducible apply Kept.fold
    | with_reducible apply Kept.foldFst
    | refine KeptOp.ok (m := _) ?_ (by assumption) ?_
    | refine KeptOp.error (m := _) ?_ (by assumption) ?_
    | split
    | refine KeptOp.bind ?_ (fun _ => ?_)
    | with_reducible apply KeptRun.op

theorem setRing_kept (c : CoreId) (r : Nat) : KeptOp ((setRing c r) : Op Unit) := by
  unfold setRing
  repeat' first
    | intro _
    | with_reducible assumption
    | dsimp only
    | with_reducible apply KeptOp.ite
    | with_reducible apply Kept.ite
    | with_reducible apply Kept.dite
    | with_reducible apply KeptOp.pure
    | with_reducible apply KeptOp.throw
    | with_reducible apply KeptOp.get
    | with_reducible apply modC_kept
    | with_reducible apply KeptOp.bind
    | with_reducible apply KeptOp.map
    | with_reducible apply KeptOp.modify
    | with_reducible apply KeptOp.modifyGet
    | with_reducible apply Kept.resOk
    | with_reducible apply Kept.resError
    | with_reducible apply Kept.refl
    | simp only [↓Kept.upd_eq]
    | with_reducible apply Kept.fold
    | with_reducible apply Kept.foldFst
    | refine KeptOp.ok (m := _) ?_ (by assumption) ?_
    | refine KeptOp.error (m := _) ?_ (by assumption) ?_
    | split
    | refine KeptOp.bind ?_ (fun _ => ?_)
    | refine KeptOp.mk (fun s => ?_)

theorem callGate_kept (c : CoreId) (g : Nat) : KeptOp ((callGate c g) : Op U64) := by
  unfold callGate
  repeat' first
    | intro _
    | with_reducible assumption
    | dsimp only
    | with_reducible apply KeptOp.ite
    | with_reducible apply Kept.ite
    | with_reducible apply Kept.dite
    | with_reducible apply KeptOp.pure
    | with_reducible apply KeptOp.throw
    | with_reducible apply KeptOp.get
    | with_reducible apply setRing_kept
    | with_reducible apply readGate_kept
    | with_reducible apply scalarStore_kept
    | with_reducible apply modC_kept
    | with_reducible apply coreOf_kept
    | with_reducible apply trapIf_kept
    | with_reducible apply KeptOp.bind
    | with_reducible apply KeptOp.map
    | with_reducible apply KeptOp.modify
    | with_reducible apply KeptOp.modifyGet
    | with_reducible apply Kept.resOk
    | with_reducible apply Kept.resError
    | with_reducible apply Kept.refl
    | simp only [↓Kept.upd_eq]
    | with_reducible apply Kept.fold
    | with_reducible apply Kept.foldFst
    | refine KeptOp.ok (m := _) ?_ (by assumption) ?_
    | refine KeptOp.error (m := _) ?_ (by assumption) ?_
    | split
    | refine KeptOp.bind ?_ (fun _ => ?_)
    | refine KeptOp.mk (fun s => ?_)

theorem execCallg_kept {r0 : State} (c : CoreId) (f : BitVec 22) (s : State) (h : Kept r0 s) : KeptOut r0 (execCallg c f s) := by
  unfold execCallg
  repeat' first
    | intro _
    | with_reducible assumption
    | dsimp only
    | with_reducible apply KeptOut.ite
    | with_reducible apply KeptOut.next
    | with_reducible apply KeptOut.fault
    | with_reducible apply Kept.ite
    | with_reducible apply Kept.dite
    | with_reducible apply KeptOp.pure
    | with_reducible apply KeptOp.throw
    | with_reducible apply KeptOp.get
    | with_reducible apply callGate_kept
    | with_reducible apply issueSub_kept
    | with_reducible apply rdD_kept
    | with_reducible apply illegalIf_kept
    | with_reducible apply KeptOp.bind
    | with_reducible apply KeptOp.map
    | with_reducible apply KeptOp.modify
    | with_reducible apply KeptOp.modifyGet
    | with_reducible apply Kept.resOk
    | with_reducible apply Kept.resError
    | with_reducible apply Kept.refl
    | simp only [↓Kept.upd_eq]
    | with_reducible apply Kept.fold
    | with_reducible apply Kept.foldFst
    | refine KeptOp.ok (m := _) ?_ (by assumption) ?_
    | refine KeptOp.error (m := _) ?_ (by assumption) ?_
    | split
    | refine KeptOp.mk (fun s => ?_)

theorem tryLoad_kept (c : CoreId) (va : U64) (n : Nat) : KeptOp ((tryLoad c va n) : Op (Except Stop Nat)) := by
  unfold tryLoad
  repeat' first
    | intro _
    | with_reducible assumption
    | dsimp only
    | with_reducible apply KeptOp.ite
    | with_reducible apply Kept.ite
    | with_reducible apply Kept.dite
    | with_reducible apply KeptOp.pure
    | with_reducible apply KeptOp.throw
    | with_reducible apply KeptOp.get
    | with_reducible apply scalarLoad_kept
    | with_reducible apply KeptOp.bind
    | with_reducible apply KeptOp.map
    | with_reducible apply KeptOp.modify
    | with_reducible apply KeptOp.modifyGet
    | with_reducible apply Kept.resOk
    | with_reducible apply Kept.resError
    | with_reducible apply Kept.refl
    | simp only [↓Kept.upd_eq]
    | with_reducible apply Kept.fold
    | with_reducible apply Kept.foldFst
    | refine KeptOp.ok (m := _) ?_ (by assumption) ?_
    | refine KeptOp.error (m := _) ?_ (by assumption) ?_
    | split
    | refine KeptOp.bind ?_ (fun _ => ?_)
    | refine KeptOp.mk (fun s => ?_)

theorem loaded_kept (r : Except Stop Nat) : KeptOp ((loaded r) : Op Nat) := by
  unfold loaded
  repeat' first
    | intro _
    | with_reducible assumption
    | dsimp only
    | with_reducible apply KeptOp.ite
    | with_reducible apply Kept.ite
    | with_reducible apply Kept.dite
    | with_reducible apply KeptOp.pure
    | with_reducible apply KeptOp.throw
    | with_reducible apply KeptOp.get
    | with_reducible apply KeptOp.bind
    | with_reducible apply KeptOp.map
    | with_reducible apply KeptOp.modify
    | with_reducible apply KeptOp.modifyGet
    | with_reducible apply Kept.resOk
    | with_reducible apply Kept.resError
    | with_reducible apply Kept.refl
    | simp only [↓Kept.upd_eq]
    | with_reducible apply Kept.fold
    | with_reducible apply Kept.foldFst
    | refine KeptOp.ok (m := _) ?_ (by assumption) ?_
    | refine KeptOp.error (m := _) ?_ (by assumption) ?_
    | split
    | refine KeptOp.bind ?_ (fun _ => ?_)
    | refine KeptOp.mk (fun s => ?_)

theorem retGate_kept (c : CoreId) : KeptOp ((retGate c) : Op U64) := by
  unfold retGate
  repeat' first
    | intro _
    | with_reducible assumption
    | dsimp only
    | with_reducible apply KeptOp.ite
    | with_reducible apply Kept.ite
    | with_reducible apply Kept.dite
    | with_reducible apply KeptOp.pure
    | with_reducible apply KeptOp.throw
    | with_reducible apply KeptOp.get
    | with_reducible apply loaded_kept
    | with_reducible apply tryLoad_kept
    | with_reducible apply setRing_kept
    | with_reducible apply checkTarget_kept
    | with_reducible apply modC_kept
    | with_reducible apply coreOf_kept
    | with_reducible apply trapIf_kept
    | with_reducible apply KeptOp.bind
    | with_reducible apply KeptOp.map
    | with_reducible apply KeptOp.modify
    | with_reducible apply KeptOp.modifyGet
    | with_reducible apply Kept.resOk
    | with_reducible apply Kept.resError
    | with_reducible apply Kept.refl
    | simp only [↓Kept.upd_eq]
    | with_reducible apply Kept.fold
    | with_reducible apply Kept.foldFst
    | refine KeptOp.ok (m := _) ?_ (by assumption) ?_
    | refine KeptOp.error (m := _) ?_ (by assumption) ?_
    | split
    | refine KeptOp.bind ?_ (fun _ => ?_)
    | refine KeptOp.mk (fun s => ?_)

theorem execRetg_kept {r0 : State} (c : CoreId) (f : BitVec 22) (s : State) (h : Kept r0 s) : KeptOut r0 (execRetg c f s) := by
  unfold execRetg
  repeat' first
    | intro _
    | with_reducible assumption
    | dsimp only
    | with_reducible apply KeptOut.ite
    | with_reducible apply KeptOut.next
    | with_reducible apply KeptOut.fault
    | with_reducible apply Kept.ite
    | with_reducible apply Kept.dite
    | with_reducible apply KeptOp.pure
    | with_reducible apply KeptOp.throw
    | with_reducible apply KeptOp.get
    | with_reducible apply retGate_kept
    | with_reducible apply issueSub_kept
    | with_reducible apply illegalIf_kept
    | with_reducible apply KeptOp.bind
    | with_reducible apply KeptOp.map
    | with_reducible apply KeptOp.modify
    | with_reducible apply KeptOp.modifyGet
    | with_reducible apply Kept.resOk
    | with_reducible apply Kept.resError
    | with_reducible apply Kept.refl
    | simp only [↓Kept.upd_eq]
    | with_reducible apply Kept.fold
    | with_reducible apply Kept.foldFst
    | refine KeptOp.ok (m := _) ?_ (by assumption) ?_
    | refine KeptOp.error (m := _) ?_ (by assumption) ?_
    | split
    | refine KeptOp.mk (fun s => ?_)

theorem bankFields_kept (c : CoreId) (f : BitVec 22) : KeptOp ((bankFields c f) : Op (Option CtxRef)) := by
  unfold bankFields
  repeat' first
    | intro _
    | with_reducible assumption
    | dsimp only
    | with_reducible apply KeptOp.ite
    | with_reducible apply Kept.ite
    | with_reducible apply Kept.dite
    | with_reducible apply KeptOp.pure
    | with_reducible apply KeptOp.throw
    | with_reducible apply KeptOp.get
    | with_reducible apply needRing_kept
    | with_reducible apply coreOf_kept
    | with_reducible apply illegalIf_kept
    | with_reducible apply KeptOp.bind
    | with_reducible apply KeptOp.map
    | with_reducible apply KeptOp.modify
    | with_reducible apply KeptOp.modifyGet
    | with_reducible apply Kept.resOk
    | with_reducible apply Kept.resError
    | with_reducible apply Kept.refl
    | simp only [↓Kept.upd_eq]
    | with_reducible apply Kept.fold
    | with_reducible apply Kept.foldFst
    | refine KeptOp.ok (m := _) ?_ (by assumption) ?_
    | refine KeptOp.error (m := _) ?_ (by assumption) ?_
    | split
    | refine KeptOp.bind ?_ (fun _ => ?_)
    | refine KeptOp.mk (fun s => ?_)

theorem mfbBody_kept (c : CoreId) (f : BitVec 22) : KeptOp ((mfbBody c f) : Op U64) := by
  unfold mfbBody
  repeat' first
    | intro _
    | with_reducible assumption
    | dsimp only
    | with_reducible apply KeptOp.ite
    | with_reducible apply Kept.ite
    | with_reducible apply Kept.dite
    | with_reducible apply KeptOp.pure
    | with_reducible apply KeptOp.throw
    | with_reducible apply KeptOp.get
    | with_reducible apply bankFields_kept
    | with_reducible apply nextPC_kept
    | with_reducible apply memLoad_kept
    | with_reducible apply wrD_kept
    | with_reducible apply coreOf_kept
    | with_reducible apply KeptOp.bind
    | with_reducible apply KeptOp.map
    | with_reducible apply KeptOp.modify
    | with_reducible apply KeptOp.modifyGet
    | with_reducible apply Kept.resOk
    | with_reducible apply Kept.resError
    | with_reducible apply Kept.refl
    | simp only [↓Kept.upd_eq]
    | with_reducible apply Kept.fold
    | with_reducible apply Kept.foldFst
    | refine KeptOp.ok (m := _) ?_ (by assumption) ?_
    | refine KeptOp.error (m := _) ?_ (by assumption) ?_
    | split
    | refine KeptOp.bind ?_ (fun _ => ?_)
    | refine KeptOp.mk (fun s => ?_)

theorem execMfb_kept {r0 : State} (c : CoreId) (f : BitVec 22) (s : State) (h : Kept r0 s) : KeptOut r0 (execMfb c f s) := by
  unfold execMfb
  repeat' first
    | intro _
    | with_reducible assumption
    | dsimp only
    | with_reducible apply KeptOut.ite
    | with_reducible apply KeptOut.next
    | with_reducible apply KeptOut.fault
    | with_reducible apply Kept.ite
    | with_reducible apply Kept.dite
    | with_reducible apply KeptOp.pure
    | with_reducible apply KeptOp.throw
    | with_reducible apply KeptOp.get
    | with_reducible apply mfbBody_kept
    | with_reducible apply issueSub_kept
    | with_reducible apply KeptOp.bind
    | with_reducible apply KeptOp.map
    | with_reducible apply KeptOp.modify
    | with_reducible apply KeptOp.modifyGet
    | with_reducible apply Kept.resOk
    | with_reducible apply Kept.resError
    | with_reducible apply Kept.refl
    | simp only [↓Kept.upd_eq]
    | with_reducible apply Kept.fold
    | with_reducible apply Kept.foldFst
    | refine KeptOp.ok (m := _) ?_ (by assumption) ?_
    | refine KeptOp.error (m := _) ?_ (by assumption) ?_
    | split
    | refine KeptOp.mk (fun s => ?_)

theorem mtbBody_kept (c : CoreId) (f : BitVec 22) : KeptOp ((mtbBody c f) : Op U64) := by
  unfold mtbBody
  refine KeptOp.ofRun (fun r0 s h => ?_)
  repeat' first
    | intro _
    | with_reducible assumption
    | dsimp only
    | with_reducible apply KeptRun.ite
    | with_reducible apply KeptRun.getBind
    | with_reducible apply KeptRun.bind
    | with_reducible apply KeptRun.set
    | with_reducible apply KeptRun.modify
    | with_reducible apply KeptOp.ite
    | with_reducible apply Kept.ite
    | with_reducible apply Kept.dite
    | with_reducible apply KeptOp.pure
    | with_reducible apply KeptOp.throw
    | with_reducible apply KeptOp.get
    | with_reducible apply bankFields_kept
    | with_reducible apply nextPC_kept
    | with_reducible apply memStore_kept
    | with_reducible apply modC_kept
    | with_reducible apply rdD_kept
    | with_reducible apply coreOf_kept
    | with_reducible apply trapIf_kept
    | with_reducible apply l2Touch_kept
    | with_reducible apply KeptOp.bind
    | with_reducible apply KeptOp.map
    | with_reducible apply KeptOp.modify
    | with_reducible apply KeptOp.modifyGet
    | with_reducible apply Kept.resOk
    | with_reducible apply Kept.resError
    | with_reducible apply Kept.refl
    | simp only [↓Kept.upd_eq]
    | with_reducible apply Kept.fold
    | with_reducible apply Kept.foldFst
    | refine KeptOp.ok (m := _) ?_ (by assumption) ?_
    | refine KeptOp.error (m := _) ?_ (by assumption) ?_
    | split
    | refine KeptOp.bind ?_ (fun _ => ?_)
    | with_reducible apply KeptRun.op

theorem execMtb_kept {r0 : State} (c : CoreId) (f : BitVec 22) (s : State) (h : Kept r0 s) : KeptOut r0 (execMtb c f s) := by
  unfold execMtb
  repeat' first
    | intro _
    | with_reducible assumption
    | dsimp only
    | with_reducible apply KeptOut.ite
    | with_reducible apply KeptOut.next
    | with_reducible apply KeptOut.fault
    | with_reducible apply Kept.ite
    | with_reducible apply Kept.dite
    | with_reducible apply KeptOp.pure
    | with_reducible apply KeptOp.throw
    | with_reducible apply KeptOp.get
    | with_reducible apply mtbBody_kept
    | with_reducible apply issueSub_kept
    | with_reducible apply KeptOp.bind
    | with_reducible apply KeptOp.map
    | with_reducible apply KeptOp.modify
    | with_reducible apply KeptOp.modifyGet
    | with_reducible apply Kept.resOk
    | with_reducible apply Kept.resError
    | with_reducible apply Kept.refl
    | simp only [↓Kept.upd_eq]
    | with_reducible apply Kept.fold
    | with_reducible apply Kept.foldFst
    | refine KeptOp.ok (m := _) ?_ (by assumption) ?_
    | refine KeptOp.error (m := _) ?_ (by assumption) ?_
    | split
    | refine KeptOp.mk (fun s => ?_)

theorem rteBody_kept (c : CoreId) (f : BitVec 22) : KeptOp ((rteBody c f) : Op U64) := by
  unfold rteBody
  refine KeptOp.ofRun (fun r0 s h => ?_)
  repeat' first
    | intro _
    | with_reducible assumption
    | dsimp only
    | with_reducible apply KeptRun.ite
    | with_reducible apply KeptRun.getBind
    | with_reducible apply KeptRun.bind
    | with_reducible apply KeptRun.set
    | with_reducible apply KeptRun.modify
    | with_reducible apply KeptOp.ite
    | with_reducible apply Kept.ite
    | with_reducible apply Kept.dite
    | with_reducible apply KeptOp.pure
    | with_reducible apply KeptOp.throw
    | with_reducible apply KeptOp.get
    | with_reducible apply needRing_kept
    | with_reducible apply modC_kept
    | with_reducible apply trapIf_kept
    | with_reducible apply illegalIf_kept
    | with_reducible apply machineCheck_kept
    | with_reducible apply l2Touch_kept
    | with_reducible apply KeptOp.bind
    | with_reducible apply KeptOp.map
    | with_reducible apply KeptOp.modify
    | with_reducible apply KeptOp.modifyGet
    | with_reducible apply Kept.resOk
    | with_reducible apply Kept.resError
    | with_reducible apply Kept.refl
    | simp only [↓Kept.upd_eq]
    | with_reducible apply Kept.fold
    | with_reducible apply Kept.foldFst
    | refine KeptOp.ok (m := _) ?_ (by assumption) ?_
    | refine KeptOp.error (m := _) ?_ (by assumption) ?_
    | split
    | refine KeptOp.bind ?_ (fun _ => ?_)
    | with_reducible apply KeptRun.op

theorem execRte_kept {r0 : State} (c : CoreId) (f : BitVec 22) (s : State) (h : Kept r0 s) : KeptOut r0 (execRte c f s) := by
  unfold execRte
  repeat' first
    | intro _
    | with_reducible assumption
    | dsimp only
    | with_reducible apply KeptOut.ite
    | with_reducible apply KeptOut.next
    | with_reducible apply KeptOut.fault
    | with_reducible apply Kept.ite
    | with_reducible apply Kept.dite
    | with_reducible apply KeptOp.pure
    | with_reducible apply KeptOp.throw
    | with_reducible apply KeptOp.get
    | with_reducible apply rteBody_kept
    | with_reducible apply issueSub_kept
    | with_reducible apply KeptOp.bind
    | with_reducible apply KeptOp.map
    | with_reducible apply KeptOp.modify
    | with_reducible apply KeptOp.modifyGet
    | with_reducible apply Kept.resOk
    | with_reducible apply Kept.resError
    | with_reducible apply Kept.refl
    | simp only [↓Kept.upd_eq]
    | with_reducible apply Kept.fold
    | with_reducible apply Kept.foldFst
    | refine KeptOp.ok (m := _) ?_ (by assumption) ?_
    | refine KeptOp.error (m := _) ?_ (by assumption) ?_
    | split
    | refine KeptOp.mk (fun s => ?_)

theorem gmBody_kept (c : CoreId) (f : BitVec 22) (v : Bool) : KeptOp ((gmBody c f v) : Op U64) := by
  unfold gmBody
  repeat' first
    | intro _
    | with_reducible assumption
    | dsimp only
    | with_reducible apply KeptOp.ite
    | with_reducible apply Kept.ite
    | with_reducible apply Kept.dite
    | with_reducible apply KeptOp.pure
    | with_reducible apply KeptOp.throw
    | with_reducible apply KeptOp.get
    | with_reducible apply nextPC_kept
    | with_reducible apply needRing_kept
    | with_reducible apply modC_kept
    | with_reducible apply illegalIf_kept
    | with_reducible apply KeptOp.bind
    | with_reducible apply KeptOp.map
    | with_reducible apply KeptOp.modify
    | with_reducible apply KeptOp.modifyGet
    | with_reducible apply Kept.resOk
    | with_reducible apply Kept.resError
    | with_reducible apply Kept.refl
    | simp only [↓Kept.upd_eq]
    | with_reducible apply Kept.fold
    | with_reducible apply Kept.foldFst
    | refine KeptOp.ok (m := _) ?_ (by assumption) ?_
    | refine KeptOp.error (m := _) ?_ (by assumption) ?_
    | split
    | refine KeptOp.bind ?_ (fun _ => ?_)
    | refine KeptOp.mk (fun s => ?_)

theorem execGms_kept {r0 : State} (c : CoreId) (f : BitVec 22) (s : State) (h : Kept r0 s) : KeptOut r0 (execGms c f s) := by
  unfold execGms
  repeat' first
    | intro _
    | with_reducible assumption
    | dsimp only
    | with_reducible apply KeptOut.ite
    | with_reducible apply KeptOut.next
    | with_reducible apply KeptOut.fault
    | with_reducible apply Kept.ite
    | with_reducible apply Kept.dite
    | with_reducible apply KeptOp.pure
    | with_reducible apply KeptOp.throw
    | with_reducible apply KeptOp.get
    | with_reducible apply gmBody_kept
    | with_reducible apply issueSub_kept
    | with_reducible apply KeptOp.bind
    | with_reducible apply KeptOp.map
    | with_reducible apply KeptOp.modify
    | with_reducible apply KeptOp.modifyGet
    | with_reducible apply Kept.resOk
    | with_reducible apply Kept.resError
    | with_reducible apply Kept.refl
    | simp only [↓Kept.upd_eq]
    | with_reducible apply Kept.fold
    | with_reducible apply Kept.foldFst
    | refine KeptOp.ok (m := _) ?_ (by assumption) ?_
    | refine KeptOp.error (m := _) ?_ (by assumption) ?_
    | split
    | refine KeptOp.mk (fun s => ?_)

theorem execGmc_kept {r0 : State} (c : CoreId) (f : BitVec 22) (s : State) (h : Kept r0 s) : KeptOut r0 (execGmc c f s) := by
  unfold execGmc
  repeat' first
    | intro _
    | with_reducible assumption
    | dsimp only
    | with_reducible apply KeptOut.ite
    | with_reducible apply KeptOut.next
    | with_reducible apply KeptOut.fault
    | with_reducible apply Kept.ite
    | with_reducible apply Kept.dite
    | with_reducible apply KeptOp.pure
    | with_reducible apply KeptOp.throw
    | with_reducible apply KeptOp.get
    | with_reducible apply gmBody_kept
    | with_reducible apply issueSub_kept
    | with_reducible apply KeptOp.bind
    | with_reducible apply KeptOp.map
    | with_reducible apply KeptOp.modify
    | with_reducible apply KeptOp.modifyGet
    | with_reducible apply Kept.resOk
    | with_reducible apply Kept.resError
    | with_reducible apply Kept.refl
    | simp only [↓Kept.upd_eq]
    | with_reducible apply Kept.fold
    | with_reducible apply Kept.foldFst
    | refine KeptOp.ok (m := _) ?_ (by assumption) ?_
    | refine KeptOp.error (m := _) ?_ (by assumption) ?_
    | split
    | refine KeptOp.mk (fun s => ?_)

theorem execWait_kept {r0 : State} (c : CoreId) (f : BitVec 22) (s : State) (h : Kept r0 s) : KeptOut r0 (execWait c f s) := by
  unfold execWait
  repeat' first
    | intro _
    | with_reducible assumption
    | dsimp only
    | with_reducible apply KeptOut.ite
    | with_reducible apply KeptOut.next
    | with_reducible apply KeptOut.fault
    | with_reducible apply Kept.ite
    | with_reducible apply Kept.dite
    | with_reducible apply KeptOp.pure
    | with_reducible apply KeptOp.throw
    | with_reducible apply KeptOp.get
    | with_reducible apply issueSub_kept
    | with_reducible apply nextPC_kept
    | with_reducible apply coreOf_kept
    | with_reducible apply waitIf_kept
    | with_reducible apply illegalIf_kept
    | with_reducible apply KeptOp.bind
    | with_reducible apply KeptOp.map
    | with_reducible apply KeptOp.modify
    | with_reducible apply KeptOp.modifyGet
    | with_reducible apply Kept.resOk
    | with_reducible apply Kept.resError
    | with_reducible apply Kept.refl
    | simp only [↓Kept.upd_eq]
    | with_reducible apply Kept.fold
    | with_reducible apply Kept.foldFst
    | refine KeptOp.ok (m := _) ?_ (by assumption) ?_
    | refine KeptOp.error (m := _) ?_ (by assumption) ?_
    | split
    | refine KeptOp.mk (fun s => ?_)

theorem execBreakpointHalt_kept {r0 : State} (c : CoreId) (s0 : State) (h : Kept r0 s0) : KeptOut r0 (execBreakpointHalt c s0) := by
  unfold execBreakpointHalt
  repeat' first
    | intro _
    | with_reducible assumption
    | dsimp only
    | with_reducible apply KeptOut.ite
    | with_reducible apply KeptOut.next
    | with_reducible apply KeptOut.fault
    | with_reducible apply Kept.ite
    | with_reducible apply Kept.dite
    | with_reducible apply ready_kept
    | with_reducible apply haltCore_kept
    | with_reducible apply Kept.refl
    | simp only [↓Kept.upd_eq]
    | with_reducible apply Kept.fold
    | with_reducible apply Kept.foldFst
    | split

theorem execTimerEvent_kept {r0 : State} (c : CoreId) (s : State) (h : Kept r0 s) : KeptOut r0 (execTimerEvent c s) := by
  unfold execTimerEvent
  repeat' first
    | intro _
    | with_reducible assumption
    | dsimp only
    | with_reducible apply KeptOut.ite
    | with_reducible apply KeptOut.next
    | with_reducible apply KeptOut.fault
    | with_reducible apply Kept.ite
    | with_reducible apply Kept.dite
    | with_reducible apply State.toHall_kept
    | with_reducible apply State.modCore_kept
    | with_reducible apply Kept.refl
    | simp only [↓Kept.upd_eq]
    | with_reducible apply Kept.fold
    | with_reducible apply Kept.foldFst
    | split

theorem execTakeAsyncEvent_kept {r0 : State} (c : CoreId) (s0 : State) (h : Kept r0 s0) : KeptOut r0 (execTakeAsyncEvent c s0) := by
  unfold execTakeAsyncEvent
  repeat' first
    | intro _
    | with_reducible assumption
    | dsimp only
    | with_reducible apply KeptOut.ite
    | with_reducible apply KeptOut.next
    | with_reducible apply KeptOut.fault
    | with_reducible apply Kept.ite
    | with_reducible apply Kept.dite
    | with_reducible apply ready_kept
    | with_reducible apply takeEvent_kept
    | with_reducible apply Kept.refl
    | simp only [↓Kept.upd_eq]
    | with_reducible apply Kept.fold
    | with_reducible apply Kept.foldFst
    | split

theorem execWatchdog_kept {r0 : State} (c : CoreId) (s : State) (h : Kept r0 s) : KeptOut r0 (execWatchdog c s) := by
  unfold execWatchdog
  repeat' first
    | intro _
    | with_reducible assumption
    | dsimp only
    | with_reducible apply KeptOut.ite
    | with_reducible apply KeptOut.next
    | with_reducible apply KeptOut.fault
    | with_reducible apply Kept.ite
    | with_reducible apply Kept.dite
    | with_reducible apply State.advanceTo_kept
    | with_reducible apply ownerNotice_kept
    | with_reducible apply State.modCore_kept
    | with_reducible apply Kept.refl
    | simp only [↓Kept.upd_eq]
    | with_reducible apply Kept.fold
    | with_reducible apply Kept.foldFst
    | split

theorem execTaskAbortRedirect_kept {r0 : State} (c : CoreId) (s0 : State) (h : Kept r0 s0) : KeptOut r0 (execTaskAbortRedirect c s0) := by
  unfold execTaskAbortRedirect
  repeat' first
    | intro _
    | with_reducible assumption
    | dsimp only
    | with_reducible apply KeptOut.ite
    | with_reducible apply KeptOut.next
    | with_reducible apply KeptOut.fault
    | with_reducible apply Kept.ite
    | with_reducible apply Kept.dite
    | with_reducible apply ready_kept
    | with_reducible apply redirectTo_kept
    | with_reducible apply Kept.refl
    | simp only [↓Kept.upd_eq]
    | with_reducible apply Kept.fold
    | with_reducible apply Kept.foldFst
    | split

theorem execFence_kept {r0 : State} (c : CoreId) (f : BitVec 22) (s : State) (h : Kept r0 s) : KeptOut r0 (execFence c f s) := by
  unfold execFence
  repeat' first
    | intro _
    | with_reducible assumption
    | dsimp only
    | with_reducible apply KeptOut.ite
    | with_reducible apply KeptOut.next
    | with_reducible apply KeptOut.fault
    | with_reducible apply Kept.ite
    | with_reducible apply Kept.dite
    | with_reducible apply KeptOp.pure
    | with_reducible apply KeptOp.throw
    | with_reducible apply KeptOp.get
    | with_reducible apply issueSub_kept
    | with_reducible apply nextPC_kept
    | with_reducible apply illegalIf_kept
    | with_reducible apply KeptOp.bind
    | with_reducible apply KeptOp.map
    | with_reducible apply KeptOp.modify
    | with_reducible apply KeptOp.modifyGet
    | with_reducible apply Kept.resOk
    | with_reducible apply Kept.resError
    | with_reducible apply Kept.refl
    | simp only [↓Kept.upd_eq]
    | with_reducible apply Kept.fold
    | with_reducible apply Kept.foldFst
    | refine KeptOp.ok (m := _) ?_ (by assumption) ?_
    | refine KeptOp.error (m := _) ?_ (by assumption) ?_
    | split
    | refine KeptOp.mk (fun s => ?_)

theorem dczlBody_kept (c : CoreId) (f : BitVec 22) : KeptOp ((dczlBody c f) : Op U64) := by
  unfold dczlBody
  refine KeptOp.ofRun (fun r0 s h => ?_)
  repeat' first
    | intro _
    | with_reducible assumption
    | dsimp only
    | with_reducible apply KeptRun.ite
    | with_reducible apply KeptRun.getBind
    | with_reducible apply KeptRun.bind
    | with_reducible apply KeptRun.set
    | with_reducible apply KeptRun.modify
    | with_reducible apply KeptOp.ite
    | with_reducible apply Kept.ite
    | with_reducible apply Kept.dite
    | with_reducible apply KeptOp.pure
    | with_reducible apply KeptOp.throw
    | with_reducible apply KeptOp.get
    | with_reducible apply nextPC_kept
    | with_reducible apply memStore_kept
    | with_reducible apply xlateAt_kept
    | with_reducible apply ringOf_kept
    | with_reducible apply rdA_kept
    | with_reducible apply trapIf_kept
    | with_reducible apply illegalIf_kept
    | with_reducible apply fillLines_kept
    | with_reducible apply KeptOp.bind
    | with_reducible apply KeptOp.map
    | with_reducible apply KeptOp.modify
    | with_reducible apply KeptOp.modifyGet
    | with_reducible apply Kept.resOk
    | with_reducible apply Kept.resError
    | with_reducible apply Kept.refl
    | simp only [↓Kept.upd_eq]
    | with_reducible apply Kept.fold
    | with_reducible apply Kept.foldFst
    | refine KeptOp.ok (m := _) ?_ (by assumption) ?_
    | refine KeptOp.error (m := _) ?_ (by assumption) ?_
    | split
    | refine KeptOp.bind ?_ (fun _ => ?_)
    | with_reducible apply KeptRun.op

theorem execDczl_kept {r0 : State} (c : CoreId) (f : BitVec 22) (s : State) (h : Kept r0 s) : KeptOut r0 (execDczl c f s) := by
  unfold execDczl
  repeat' first
    | intro _
    | with_reducible assumption
    | dsimp only
    | with_reducible apply KeptOut.ite
    | with_reducible apply KeptOut.next
    | with_reducible apply KeptOut.fault
    | with_reducible apply Kept.ite
    | with_reducible apply Kept.dite
    | with_reducible apply KeptOp.pure
    | with_reducible apply KeptOp.throw
    | with_reducible apply KeptOp.get
    | with_reducible apply dczlBody_kept
    | with_reducible apply issueSub_kept
    | with_reducible apply KeptOp.bind
    | with_reducible apply KeptOp.map
    | with_reducible apply KeptOp.modify
    | with_reducible apply KeptOp.modifyGet
    | with_reducible apply Kept.resOk
    | with_reducible apply Kept.resError
    | with_reducible apply Kept.refl
    | simp only [↓Kept.upd_eq]
    | with_reducible apply Kept.fold
    | with_reducible apply Kept.foldFst
    | refine KeptOp.ok (m := _) ?_ (by assumption) ?_
    | refine KeptOp.error (m := _) ?_ (by assumption) ?_
    | split
    | refine KeptOp.mk (fun s => ?_)

theorem prefLine_kept (c : CoreId) (va : U64) : KeptOp ((prefLine c va) : Op (Option Nat)) := by
  unfold prefLine
  repeat' first
    | intro _
    | with_reducible assumption
    | dsimp only
    | with_reducible apply KeptOp.ite
    | with_reducible apply Kept.ite
    | with_reducible apply Kept.dite
    | with_reducible apply KeptOp.pure
    | with_reducible apply KeptOp.throw
    | with_reducible apply KeptOp.get
    | with_reducible apply xlateAt_kept
    | with_reducible apply KeptOp.bind
    | with_reducible apply KeptOp.map
    | with_reducible apply KeptOp.modify
    | with_reducible apply KeptOp.modifyGet
    | with_reducible apply Kept.resOk
    | with_reducible apply Kept.resError
    | with_reducible apply Kept.refl
    | simp only [↓Kept.upd_eq]
    | with_reducible apply Kept.fold
    | with_reducible apply Kept.foldFst
    | refine KeptOp.ok (m := _) ?_ (by assumption) ?_
    | refine KeptOp.error (m := _) ?_ (by assumption) ?_
    | split
    | refine KeptOp.bind ?_ (fun _ => ?_)
    | refine KeptOp.mk (fun s => ?_)

theorem execPref_kept {r0 : State} (c : CoreId) (f : BitVec 22) (s : State) (h : Kept r0 s) : KeptOut r0 (execPref c f s) := by
  unfold execPref
  repeat' first
    | intro _
    | with_reducible assumption
    | dsimp only
    | with_reducible apply KeptOut.ite
    | with_reducible apply KeptOut.next
    | with_reducible apply KeptOut.fault
    | with_reducible apply Kept.ite
    | with_reducible apply Kept.dite
    | with_reducible apply KeptOp.pure
    | with_reducible apply KeptOp.throw
    | with_reducible apply KeptOp.get
    | with_reducible apply prefLine_kept
    | with_reducible apply issueSub_kept
    | with_reducible apply nextPC_kept
    | with_reducible apply rdA_kept
    | with_reducible apply illegalIf_kept
    | with_reducible apply fillLine_kept
    | with_reducible apply l2Line_kept
    | with_reducible apply KeptOp.bind
    | with_reducible apply KeptOp.map
    | with_reducible apply KeptOp.modify
    | with_reducible apply KeptOp.modifyGet
    | with_reducible apply Kept.resOk
    | with_reducible apply Kept.resError
    | with_reducible apply Kept.refl
    | simp only [↓Kept.upd_eq]
    | with_reducible apply Kept.fold
    | with_reducible apply Kept.foldFst
    | refine KeptOp.ok (m := _) ?_ (by assumption) ?_
    | refine KeptOp.error (m := _) ?_ (by assumption) ?_
    | split
    | refine KeptOp.mk (fun s => ?_)

theorem execIcsync_kept {r0 : State} (c : CoreId) (f : BitVec 22) (s : State) (h : Kept r0 s) : KeptOut r0 (execIcsync c f s) := by
  unfold execIcsync
  repeat' first
    | intro _
    | with_reducible assumption
    | dsimp only
    | with_reducible apply KeptOut.ite
    | with_reducible apply KeptOut.next
    | with_reducible apply KeptOut.fault
    | with_reducible apply Kept.ite
    | with_reducible apply Kept.dite
    | with_reducible apply KeptOp.pure
    | with_reducible apply KeptOp.throw
    | with_reducible apply KeptOp.get
    | with_reducible apply issueSub_kept
    | with_reducible apply nextPC_kept
    | with_reducible apply modC_kept
    | with_reducible apply illegalIf_kept
    | with_reducible apply KeptOp.bind
    | with_reducible apply KeptOp.map
    | with_reducible apply KeptOp.modify
    | with_reducible apply KeptOp.modifyGet
    | with_reducible apply Kept.resOk
    | with_reducible apply Kept.resError
    | with_reducible apply Kept.refl
    | simp only [↓Kept.upd_eq]
    | with_reducible apply Kept.fold
    | with_reducible apply Kept.foldFst
    | refine KeptOp.ok (m := _) ?_ (by assumption) ?_
    | refine KeptOp.error (m := _) ?_ (by assumption) ?_
    | split
    | refine KeptOp.mk (fun s => ?_)

theorem execTlbi_kept {r0 : State} (c : CoreId) (f : BitVec 22) (s : State) (h : Kept r0 s) : KeptOut r0 (execTlbi c f s) := by
  unfold execTlbi
  repeat' first
    | intro _
    | with_reducible assumption
    | dsimp only
    | with_reducible apply KeptOut.ite
    | with_reducible apply KeptOut.next
    | with_reducible apply KeptOut.fault
    | with_reducible apply Kept.ite
    | with_reducible apply Kept.dite
    | with_reducible apply KeptOp.pure
    | with_reducible apply KeptOp.throw
    | with_reducible apply KeptOp.get
    | with_reducible apply issueSub_kept
    | with_reducible apply nextPC_kept
    | with_reducible apply needRing_kept
    | with_reducible apply modC_kept
    | with_reducible apply rdA_kept
    | with_reducible apply illegalIf_kept
    | with_reducible apply KeptOp.bind
    | with_reducible apply KeptOp.map
    | with_reducible apply KeptOp.modify
    | with_reducible apply KeptOp.modifyGet
    | with_reducible apply Kept.resOk
    | with_reducible apply Kept.resError
    | with_reducible apply Kept.refl
    | simp only [↓Kept.upd_eq]
    | with_reducible apply Kept.fold
    | with_reducible apply Kept.foldFst
    | refine KeptOp.ok (m := _) ?_ (by assumption) ?_
    | refine KeptOp.error (m := _) ?_ (by assumption) ?_
    | split
    | refine KeptOp.mk (fun s => ?_)

theorem tspecBegin_kept (c : CoreId) (f : BitVec 22) : KeptOp ((tspecBegin c f) : Op U64) := by
  unfold tspecBegin
  repeat' first
    | intro _
    | with_reducible assumption
    | dsimp only
    | with_reducible apply KeptOp.ite
    | with_reducible apply Kept.ite
    | with_reducible apply Kept.dite
    | with_reducible apply KeptOp.pure
    | with_reducible apply KeptOp.throw
    | with_reducible apply KeptOp.get
    | with_reducible apply checkTarget_kept
    | with_reducible apply nextPC_kept
    | with_reducible apply modC_kept
    | with_reducible apply wrD_kept
    | with_reducible apply rdD_kept
    | with_reducible apply rdA_kept
    | with_reducible apply coreOf_kept
    | with_reducible apply illegalIf_kept
    | with_reducible apply KeptOp.bind
    | with_reducible apply KeptOp.map
    | with_reducible apply KeptOp.modify
    | with_reducible apply KeptOp.modifyGet
    | with_reducible apply Kept.resOk
    | with_reducible apply Kept.resError
    | with_reducible apply Kept.refl
    | simp only [↓Kept.upd_eq]
    | with_reducible apply Kept.fold
    | with_reducible apply Kept.foldFst
    | refine KeptOp.ok (m := _) ?_ (by assumption) ?_
    | refine KeptOp.error (m := _) ?_ (by assumption) ?_
    | split
    | refine KeptOp.bind ?_ (fun _ => ?_)
    | refine KeptOp.mk (fun s => ?_)

theorem execTspecBegin_kept {r0 : State} (c : CoreId) (f : BitVec 22) (s : State) (h : Kept r0 s) : KeptOut r0 (execTspecBegin c f s) := by
  unfold execTspecBegin
  repeat' first
    | intro _
    | with_reducible assumption
    | dsimp only
    | with_reducible apply KeptOut.ite
    | with_reducible apply KeptOut.next
    | with_reducible apply KeptOut.fault
    | with_reducible apply Kept.ite
    | with_reducible apply Kept.dite
    | with_reducible apply KeptOp.pure
    | with_reducible apply KeptOp.throw
    | with_reducible apply KeptOp.get
    | with_reducible apply tspecBegin_kept
    | with_reducible apply issueSub_kept
    | with_reducible apply KeptOp.bind
    | with_reducible apply KeptOp.map
    | with_reducible apply KeptOp.modify
    | with_reducible apply KeptOp.modifyGet
    | with_reducible apply Kept.resOk
    | with_reducible apply Kept.resError
    | with_reducible apply Kept.refl
    | simp only [↓Kept.upd_eq]
    | with_reducible apply Kept.fold
    | with_reducible apply Kept.foldFst
    | refine KeptOp.ok (m := _) ?_ (by assumption) ?_
    | refine KeptOp.error (m := _) ?_ (by assumption) ?_
    | split
    | refine KeptOp.mk (fun s => ?_)

theorem endTask_kept {r0 : State} (s : State) (c : CoreId) (h : Kept r0 s) : Kept r0 (endTask s c) := by
  unfold endTask
  repeat' first
    | intro _
    | with_reducible assumption
    | dsimp only
    | with_reducible apply Kept.ite
    | with_reducible apply Kept.dite
    | with_reducible apply settleDue_kept
    | with_reducible apply State.modCore_kept
    | with_reducible apply Kept.refl
    | simp only [↓Kept.upd_eq]
    | with_reducible apply Kept.fold
    | with_reducible apply Kept.foldFst
    | split

theorem execTspecCommit_kept {r0 : State} (c : CoreId) (f : BitVec 22) (s : State) (h : Kept r0 s) : KeptOut r0 (execTspecCommit c f s) := by
  unfold execTspecCommit
  repeat' first
    | intro _
    | with_reducible assumption
    | dsimp only
    | with_reducible apply KeptOut.ite
    | with_reducible apply KeptOut.next
    | with_reducible apply KeptOut.fault
    | with_reducible apply Kept.ite
    | with_reducible apply Kept.dite
    | with_reducible apply KeptOp.pure
    | with_reducible apply KeptOp.throw
    | with_reducible apply KeptOp.get
    | with_reducible apply endTask_kept
    | with_reducible apply issueSub_kept
    | with_reducible apply nextPC_kept
    | with_reducible apply illegalIf_kept
    | with_reducible apply KeptOp.bind
    | with_reducible apply KeptOp.map
    | with_reducible apply KeptOp.modify
    | with_reducible apply KeptOp.modifyGet
    | with_reducible apply Kept.resOk
    | with_reducible apply Kept.resError
    | with_reducible apply Kept.refl
    | simp only [↓Kept.upd_eq]
    | with_reducible apply Kept.fold
    | with_reducible apply Kept.foldFst
    | refine KeptOp.ok (m := _) ?_ (by assumption) ?_
    | refine KeptOp.error (m := _) ?_ (by assumption) ?_
    | split
    | refine KeptOp.mk (fun s => ?_)

theorem execTspecAbort_kept {r0 : State} (c : CoreId) (f : BitVec 22) (s : State) (h : Kept r0 s) : KeptOut r0 (execTspecAbort c f s) := by
  unfold execTspecAbort
  repeat' first
    | intro _
    | with_reducible assumption
    | dsimp only
    | with_reducible apply KeptOut.ite
    | with_reducible apply KeptOut.next
    | with_reducible apply KeptOut.fault
    | with_reducible apply Kept.ite
    | with_reducible apply Kept.dite
    | with_reducible apply KeptOp.pure
    | with_reducible apply KeptOp.throw
    | with_reducible apply KeptOp.get
    | with_reducible apply issueSub_kept
    | with_reducible apply nextPC_kept
    | with_reducible apply modC_kept
    | with_reducible apply coreOf_kept
    | with_reducible apply illegalIf_kept
    | with_reducible apply abortTask_kept
    | with_reducible apply KeptOp.bind
    | with_reducible apply KeptOp.map
    | with_reducible apply KeptOp.modify
    | with_reducible apply KeptOp.modifyGet
    | with_reducible apply Kept.resOk
    | with_reducible apply Kept.resError
    | with_reducible apply Kept.refl
    | simp only [↓Kept.upd_eq]
    | with_reducible apply Kept.fold
    | with_reducible apply Kept.foldFst
    | refine KeptOp.ok (m := _) ?_ (by assumption) ?_
    | refine KeptOp.error (m := _) ?_ (by assumption) ?_
    | split
    | refine KeptOp.mk (fun s => ?_)

theorem execTspecWait_kept {r0 : State} (c : CoreId) (f : BitVec 22) (s : State) (h : Kept r0 s) : KeptOut r0 (execTspecWait c f s) := by
  unfold execTspecWait
  repeat' first
    | intro _
    | with_reducible assumption
    | dsimp only
    | with_reducible apply KeptOut.ite
    | with_reducible apply KeptOut.next
    | with_reducible apply KeptOut.fault
    | with_reducible apply Kept.ite
    | with_reducible apply Kept.dite
    | with_reducible apply KeptOp.pure
    | with_reducible apply KeptOp.throw
    | with_reducible apply KeptOp.get
    | with_reducible apply issueSub_kept
    | with_reducible apply nextPC_kept
    | with_reducible apply wrD_kept
    | with_reducible apply rdD_kept
    | with_reducible apply coreOf_kept
    | with_reducible apply waitIf_kept
    | with_reducible apply illegalIf_kept
    | with_reducible apply KeptOp.bind
    | with_reducible apply KeptOp.map
    | with_reducible apply KeptOp.modify
    | with_reducible apply KeptOp.modifyGet
    | with_reducible apply Kept.resOk
    | with_reducible apply Kept.resError
    | with_reducible apply Kept.refl
    | simp only [↓Kept.upd_eq]
    | with_reducible apply Kept.fold
    | with_reducible apply Kept.foldFst
    | refine KeptOp.ok (m := _) ?_ (by assumption) ?_
    | refine KeptOp.error (m := _) ?_ (by assumption) ?_
    | split
    | refine KeptOp.mk (fun s => ?_)

theorem execPhase_kept {r0 : State} (c : CoreId) (f : BitVec 22) (s : State) (h : Kept r0 s) : KeptOut r0 (execPhase c f s) := by
  unfold execPhase
  repeat' first
    | intro _
    | with_reducible assumption
    | dsimp only
    | with_reducible apply KeptOut.ite
    | with_reducible apply KeptOut.next
    | with_reducible apply KeptOut.fault
    | with_reducible apply Kept.ite
    | with_reducible apply Kept.dite
    | with_reducible apply KeptOp.pure
    | with_reducible apply KeptOp.throw
    | with_reducible apply KeptOp.get
    | with_reducible apply issueSub_kept
    | with_reducible apply nextPC_kept
    | with_reducible apply rdD_kept
    | with_reducible apply illegalIf_kept
    | with_reducible apply KeptOp.bind
    | with_reducible apply KeptOp.map
    | with_reducible apply KeptOp.modify
    | with_reducible apply KeptOp.modifyGet
    | with_reducible apply Kept.resOk
    | with_reducible apply Kept.resError
    | with_reducible apply Kept.refl
    | simp only [↓Kept.upd_eq]
    | with_reducible apply Kept.fold
    | with_reducible apply Kept.foldFst
    | refine KeptOp.ok (m := _) ?_ (by assumption) ?_
    | refine KeptOp.error (m := _) ?_ (by assumption) ?_
    | split
    | refine KeptOp.mk (fun s => ?_)

end Sys2Proof.Machine
end

