-- ==== Sys2Proof/Laws/KeptStreams.lean ====
section
/-! SUPPORT. Laws/KeptStreams.lean: every operation of Machine/Streams.lean keeps what Laws/Kept.lean names. -/

namespace Sys2Proof.Machine

set_option linter.unusedTactic false
set_option linter.unreachableTactic false

theorem modE_kept (c : CoreId) (e : Nat) (f : StreamEng → StreamEng) : KeptOp ((modE c e f) : Op Unit) := by
  unfold modE
  repeat' first
    | intro _
    | with_reducible assumption
    | dsimp only
    | with_reducible apply KeptOp.ite
    | with_reducible apply Kept.ite
    | with_reducible apply Kept.dite
    | with_reducible apply KeptOp.pure
    | with_reducible apply KeptOp.throw
    | with_reducible apply KeptOp.get
    | with_reducible apply modC_kept
    | with_reducible apply KeptOp.bind
    | with_reducible apply KeptOp.map
    | with_reducible apply KeptOp.modify
    | with_reducible apply KeptOp.modifyGet
    | with_reducible apply Kept.resOk
    | with_reducible apply Kept.resError
    | with_reducible apply Kept.refl
    | simp only [↓Kept.upd_eq]
    | with_reducible apply Kept.fold
    | with_reducible apply Kept.foldFst
    | refine KeptOp.ok (m := _) ?_ (by assumption) ?_
    | refine KeptOp.error (m := _) ?_ (by assumption) ?_
    | split
    | refine KeptOp.bind ?_ (fun _ => ?_)
    | refine KeptOp.mk (fun s => ?_)

theorem engOf_kept (c : CoreId) (e : Nat) : KeptOp ((engOf c e) : Op StreamEng) := by
  unfold engOf
  repeat' first
    | intro _
    | with_reducible assumption
    | dsimp only
    | with_reducible apply KeptOp.ite
    | with_reducible apply Kept.ite
    | with_reducible apply Kept.dite
    | with_reducible apply KeptOp.pure
    | with_reducible apply KeptOp.throw
    | with_reducible apply KeptOp.get
    | with_reducible apply coreOf_kept
    | with_reducible apply KeptOp.bind
    | with_reducible apply KeptOp.map
    | with_reducible apply KeptOp.modify
    | with_reducible apply KeptOp.modifyGet
    | with_reducible apply Kept.resOk
    | with_reducible apply Kept.resError
    | with_reducible apply Kept.refl
    | simp only [↓Kept.upd_eq]
    | with_reducible apply Kept.fold
    | with_reducible apply Kept.foldFst
    | refine KeptOp.ok (m := _) ?_ (by assumption) ?_
    | refine KeptOp.error (m := _) ?_ (by assumption) ?_
    | split
    | refine KeptOp.bind ?_ (fun _ => ?_)
    | refine KeptOp.mk (fun s => ?_)

theorem engXlate_kept (w : Worker) (acc : Acc) (va : U64) (n : Nat) : KeptOp ((engXlate w acc va n) : Op Nat) := by
  unfold engXlate
  refine KeptOp.ofRun (fun r0 s h => ?_)
  repeat' first
    | intro _
    | with_reducible assumption
    | dsimp only
    | with_reducible apply KeptRun.ite
    | with_reducible apply KeptRun.getBind
    | with_reducible apply KeptRun.bind
    | with_reducible apply KeptRun.set
    | with_reducible apply KeptRun.modify
    | with_reducible apply KeptOp.ite
    | with_reducible apply Kept.ite
    | with_reducible apply Kept.dite
    | with_reducible apply KeptOp.pure
    | with_reducible apply KeptOp.throw
    | with_reducible apply KeptOp.get
    | with_reducible apply walked_kept
    | with_reducible apply trapIf_kept
    | with_reducible apply trap_kept
    | with_reducible apply State.modCore_kept
    | with_reducible apply KeptOp.bind
    | with_reducible apply KeptOp.map
    | with_reducible apply KeptOp.modify
    | with_reducible apply KeptOp.modifyGet
    | with_reducible apply Kept.resOk
    | with_reducible apply Kept.resError
    | with_reducible apply Kept.refl
    | simp only [↓Kept.upd_eq]
    | with_reducible apply Kept.fold
    | with_reducible apply Kept.foldFst
    | refine KeptOp.ok (m := _) ?_ (by assumption) ?_
    | refine KeptOp.error (m := _) ?_ (by assumption) ?_
    | split
    | refine KeptOp.bind ?_ (fun _ => ?_)
    | with_reducible apply KeptRun.op

theorem engAwait_kept (w : Worker) (r : HallReq) : KeptOp ((engAwait w r) : Op HallRes) := by
  unfold engAwait
  repeat' first
    | intro _
    | with_reducible assumption
    | dsimp only
    | with_reducible apply KeptOp.ite
    | with_reducible apply Kept.ite
    | with_reducible apply Kept.dite
    | with_reducible apply KeptOp.pure
    | with_reducible apply KeptOp.throw
    | with_reducible apply KeptOp.get
    | with_reducible apply engOf_kept
    | with_reducible apply modE_kept
    | with_reducible apply KeptOp.bind
    | with_reducible apply KeptOp.map
    | with_reducible apply KeptOp.modify
    | with_reducible apply KeptOp.modifyGet
    | with_reducible apply Kept.resOk
    | with_reducible apply Kept.resError
    | with_reducible apply Kept.refl
    | simp only [↓Kept.upd_eq]
    | with_reducible apply Kept.fold
    | with_reducible apply Kept.foldFst
    | refine KeptOp.ok (m := _) ?_ (by assumption) ?_
    | refine KeptOp.error (m := _) ?_ (by assumption) ?_
    | split
    | refine KeptOp.bind ?_ (fun _ => ?_)
    | refine KeptOp.mk (fun s => ?_)

theorem engLocalRead_kept (w : Worker) (pa : Nat) (n : Nat) : KeptOp ((engLocalRead w pa n) : Op (List (Byte × Bool))) := by
  unfold engLocalRead
  refine KeptOp.ofRun (fun r0 s h => ?_)
  repeat' first
    | intro _
    | with_reducible assumption
    | dsimp only
    | with_reducible apply KeptRun.ite
    | with_reducible apply KeptRun.getBind
    | with_reducible apply KeptRun.bind
    | with_reducible apply KeptRun.set
    | with_reducible apply KeptRun.modify
    | with_reducible apply KeptOp.ite
    | with_reducible apply Kept.ite
    | with_reducible apply Kept.dite
    | with_reducible apply KeptOp.pure
    | with_reducible apply KeptOp.throw
    | with_reducible apply KeptOp.get
    | with_reducible apply agentRead_kept
    | with_reducible apply KeptOp.bind
    | with_reducible apply KeptOp.map
    | with_reducible apply KeptOp.modify
    | with_reducible apply KeptOp.modifyGet
    | with_reducible apply Kept.resOk
    | with_reducible apply Kept.resError
    | with_reducible apply Kept.refl
    | simp only [↓Kept.upd_eq]
    | with_reducible apply Kept.fold
    | with_reducible apply Kept.foldFst
    | refine KeptOp.ok (m := _) ?_ (by assumption) ?_
    | refine KeptOp.error (m := _) ?_ (by assumption) ?_
    | split
    | refine KeptOp.bind ?_ (fun _ => ?_)
    | with_reducible apply KeptRun.op

theorem poisonBytes_kept {r0 : State} (s : State) (c : CoreId) (t : Option Nat) (pa : Nat) (bs : List (Byte × Bool)) (h : Kept r0 s) : Kept r0 (poisonBytes s c t pa bs) := by
  unfold poisonBytes
  repeat' first
    | intro _
    | with_reducible assumption
    | dsimp only
    | with_reducible apply Kept.ite
    | with_reducible apply Kept.dite
    | with_reducible apply agentPoison_kept
    | with_reducible apply Kept.refl
    | simp only [↓Kept.upd_eq]
    | with_reducible apply Kept.fold
    | with_reducible apply Kept.foldFst
    | split

theorem engLocalWrite_kept (w : Worker) (pa : Nat) (bs : List (Byte × Bool)) : KeptOp ((engLocalWrite w pa bs) : Op Unit) := by
  unfold engLocalWrite
  repeat' first
    | intro _
    | with_reducible assumption
    | dsimp only
    | with_reducible apply KeptOp.ite
    | with_reducible apply Kept.ite
    | with_reducible apply Kept.dite
    | with_reducible apply KeptOp.pure
    | with_reducible apply KeptOp.throw
    | with_reducible apply KeptOp.get
    | with_reducible apply poisonBytes_kept
    | with_reducible apply agentWrite_kept
    | with_reducible apply KeptOp.bind
    | with_reducible apply KeptOp.map
    | with_reducible apply KeptOp.modify
    | with_reducible apply KeptOp.modifyGet
    | with_reducible apply Kept.resOk
    | with_reducible apply Kept.resError
    | with_reducible apply Kept.refl
    | simp only [↓Kept.upd_eq]
    | with_reducible apply Kept.fold
    | with_reducible apply Kept.foldFst
    | refine KeptOp.ok (m := _) ?_ (by assumption) ?_
    | refine KeptOp.error (m := _) ?_ (by assumption) ?_
    | split
    | refine KeptOp.bind ?_ (fun _ => ?_)
    | refine KeptOp.mk (fun s => ?_)

theorem engReadPiece_kept (w : Worker) (va : U64) (n : Nat) : KeptOp ((engReadPiece w va n) : Op (List (Byte × Bool))) := by
  unfold engReadPiece
  repeat' first
    | intro _
    | with_reducible assumption
    | dsimp only
    | with_reducible apply KeptOp.ite
    | with_reducible apply Kept.ite
    | with_reducible apply Kept.dite
    | with_reducible apply KeptOp.pure
    | with_reducible apply KeptOp.throw
    | with_reducible apply KeptOp.get
    | with_reducible apply engLocalRead_kept
    | with_reducible apply engAwait_kept
    | with_reducible apply engXlate_kept
    | with_reducible apply trapIf_kept
    | with_reducible apply trap_kept
    | with_reducible apply KeptOp.bind
    | with_reducible apply KeptOp.map
    | with_reducible apply KeptOp.modify
    | with_reducible apply KeptOp.modifyGet
    | with_reducible apply Kept.resOk
    | with_reducible apply Kept.resError
    | with_reducible apply Kept.refl
    | simp only [↓Kept.upd_eq]
    | with_reducible apply Kept.fold
    | with_reducible apply Kept.foldFst
    | refine KeptOp.ok (m := _) ?_ (by assumption) ?_
    | refine KeptOp.error (m := _) ?_ (by assumption) ?_
    | split
    | refine KeptOp.bind ?_ (fun _ => ?_)
    | refine KeptOp.mk (fun s => ?_)

theorem engWritePiece_kept (w : Worker) (va : U64) (bs : List (Byte × Bool)) : KeptOp ((engWritePiece w va bs) : Op Unit) := by
  unfold engWritePiece
  repeat' first
    | intro _
    | with_reducible assumption
    | dsimp only
    | with_reducible apply KeptOp.ite
    | with_reducible apply Kept.ite
    | with_reducible apply Kept.dite
    | with_reducible apply KeptOp.pure
    | with_reducible apply KeptOp.throw
    | with_reducible apply KeptOp.get
    | with_reducible apply engLocalWrite_kept
    | with_reducible apply engAwait_kept
    | with_reducible apply engXlate_kept
    | with_reducible apply trapIf_kept
    | with_reducible apply trap_kept
    | with_reducible apply KeptOp.bind
    | with_reducible apply KeptOp.map
    | with_reducible apply KeptOp.modify
    | with_reducible apply KeptOp.modifyGet
    | with_reducible apply Kept.resOk
    | with_reducible apply Kept.resError
    | with_reducible apply Kept.refl
    | simp only [↓Kept.upd_eq]
    | with_reducible apply Kept.fold
    | with_reducible apply Kept.foldFst
    | refine KeptOp.ok (m := _) ?_ (by assumption) ?_
    | refine KeptOp.error (m := _) ?_ (by assumption) ?_
    | split
    | refine KeptOp.bind ?_ (fun _ => ?_)
    | refine KeptOp.mk (fun s => ?_)

theorem engReadAll_kept (w : Worker) (x0 : List (U64 × Nat)) : KeptOp ((engReadAll w x0) : Op (List (Byte × Bool))) := by
  induction x0 generalizing w with
  | nil =>
    unfold engReadAll
    repeat' first
      | intro _
      | with_reducible assumption
      | dsimp only
      | with_reducible apply KeptOp.ite
      | with_reducible apply Kept.ite
      | with_reducible apply Kept.dite
      | with_reducible apply KeptOp.pure
      | with_reducible apply KeptOp.throw
      | with_reducible apply KeptOp.get
      | with_reducible apply engReadPiece_kept
      | with_reducible apply KeptOp.bind
      | with_reducible apply KeptOp.map
      | with_reducible apply KeptOp.modify
      | with_reducible apply KeptOp.modifyGet
      | with_reducible apply Kept.resOk
      | with_reducible apply Kept.resError
      | with_reducible apply Kept.refl
      | simp only [↓Kept.upd_eq]
      | with_reducible apply Kept.fold
      | with_reducible apply Kept.foldFst
      | refine KeptOp.ok (m := _) ?_ (by assumption) ?_
      | refine KeptOp.error (m := _) ?_ (by assumption) ?_
      | split
      | refine KeptOp.bind ?_ (fun _ => ?_)
      | refine KeptOp.mk (fun s => ?_)
  | cons x xs ih =>
    unfold engReadAll
    repeat' first
      | with_reducible apply ih
      | intro _
      | with_reducible assumption
      | dsimp only
      | with_reducible apply KeptOp.ite
      | with_reducible apply Kept.ite
      | with_reducible apply Kept.dite
      | with_reducible apply KeptOp.pure
      | with_reducible apply KeptOp.throw
      | with_reducible apply KeptOp.get
      | with_reducible apply engReadPiece_kept
      | with_reducible apply KeptOp.bind
      | with_reducible apply KeptOp.map
      | with_reducible apply KeptOp.modify
      | with_reducible apply KeptOp.modifyGet
      | with_reducible apply Kept.resOk
      | with_reducible apply Kept.resError
      | with_reducible apply Kept.refl
      | simp only [↓Kept.upd_eq]
      | with_reducible apply Kept.fold
      | with_reducible apply Kept.foldFst
      | refine KeptOp.ok (m := _) ?_ (by assumption) ?_
      | refine KeptOp.error (m := _) ?_ (by assumption) ?_
      | split
      | refine KeptOp.bind ?_ (fun _ => ?_)
      | refine KeptOp.mk (fun s => ?_)

theorem engRead_kept (w : Worker) (va : U64) (n : Nat) : KeptOp ((engRead w va n) : Op (List (Byte × Bool))) := by
  unfold engRead
  repeat' first
    | intro _
    | with_reducible assumption
    | dsimp only
    | with_reducible apply KeptOp.ite
    | with_reducible apply Kept.ite
    | with_reducible apply Kept.dite
    | with_reducible apply KeptOp.pure
    | with_reducible apply KeptOp.throw
    | with_reducible apply KeptOp.get
    | with_reducible apply engReadAll_kept
    | with_reducible apply KeptOp.bind
    | with_reducible apply KeptOp.map
    | with_reducible apply KeptOp.modify
    | with_reducible apply KeptOp.modifyGet
    | with_reducible apply Kept.resOk
    | with_reducible apply Kept.resError
    | with_reducible apply Kept.refl
    | simp only [↓Kept.upd_eq]
    | with_reducible apply Kept.fold
    | with_reducible apply Kept.foldFst
    | refine KeptOp.ok (m := _) ?_ (by assumption) ?_
    | refine KeptOp.error (m := _) ?_ (by assumption) ?_
    | split
    | refine KeptOp.bind ?_ (fun _ => ?_)
    | refine KeptOp.mk (fun s => ?_)

theorem engWriteAll_kept (w : Worker) (x0 : List (U64 × Nat)) (x1 : List (Byte × Bool)) : KeptOp ((engWriteAll w x0 x1) : Op Unit) := by
  induction x0 generalizing w x1 with
  | nil =>
    unfold engWriteAll
    repeat' first
      | intro _
      | with_reducible assumption
      | dsimp only
      | with_reducible apply KeptOp.ite
      | with_reducible apply Kept.ite
      | with_reducible apply Kept.dite
      | with_reducible apply KeptOp.pure
      | with_reducible apply KeptOp.throw
      | with_reducible apply KeptOp.get
      | with_reducible apply engWritePiece_kept
      | with_reducible apply KeptOp.bind
      | with_reducible apply KeptOp.map
      | with_reducible apply KeptOp.modify
      | with_reducible apply KeptOp.modifyGet
      | with_reducible apply Kept.resOk
      | with_reducible apply Kept.resError
      | with_reducible apply Kept.refl
      | simp only [↓Kept.upd_eq]
      | with_reducible apply Kept.fold
      | with_reducible apply Kept.foldFst
      | refine KeptOp.ok (m := _) ?_ (by assumption) ?_
      | refine KeptOp.error (m := _) ?_ (by assumption) ?_
      | split
      | refine KeptOp.bind ?_ (fun _ => ?_)
      | refine KeptOp.mk (fun s => ?_)
  | cons x xs ih =>
    unfold engWriteAll
    repeat' first
      | with_reducible apply ih
      | intro _
      | with_reducible assumption
      | dsimp only
      | with_reducible apply KeptOp.ite
      | with_reducible apply Kept.ite
      | with_reducible apply Kept.dite
      | with_reducible apply KeptOp.pure
      | with_reducible apply KeptOp.throw
      | with_reducible apply KeptOp.get
      | with_reducible apply engWritePiece_kept
      | with_reducible apply KeptOp.bind
      | with_reducible apply KeptOp.map
      | with_reducible apply KeptOp.modify
      | with_reducible apply KeptOp.modifyGet
      | with_reducible apply Kept.resOk
      | with_reducible apply Kept.resError
      | with_reducible apply Kept.refl
      | simp only [↓Kept.upd_eq]
      | with_reducible apply Kept.fold
      | with_reducible apply Kept.foldFst
      | refine KeptOp.ok (m := _) ?_ (by assumption) ?_
      | refine KeptOp.error (m := _) ?_ (by assumption) ?_
      | split
      | refine KeptOp.bind ?_ (fun _ => ?_)
      | refine KeptOp.mk (fun s => ?_)

theorem engWrite_kept (w : Worker) (va : U64) (bs : List (Byte × Bool)) : KeptOp ((engWrite w va bs) : Op Unit) := by
  unfold engWrite
  repeat' first
    | intro _
    | with_reducible assumption
    | dsimp only
    | with_reducible apply KeptOp.ite
    | with_reducible apply Kept.ite
    | with_reducible apply Kept.dite
    | with_reducible apply KeptOp.pure
    | with_reducible apply KeptOp.throw
    | with_reducible apply KeptOp.get
    | with_reducible apply engWriteAll_kept
    | with_reducible apply KeptOp.bind
    | with_reducible apply KeptOp.map
    | with_reducible apply KeptOp.modify
    | with_reducible apply KeptOp.modifyGet
    | with_reducible apply Kept.resOk
    | with_reducible apply Kept.resError
    | with_reducible apply Kept.refl
    | simp only [↓Kept.upd_eq]
    | with_reducible apply Kept.fold
    | with_reducible apply Kept.foldFst
    | refine KeptOp.ok (m := _) ?_ (by assumption) ?_
    | refine KeptOp.error (m := _) ?_ (by assumption) ?_
    | split
    | refine KeptOp.bind ?_ (fun _ => ?_)
    | refine KeptOp.mk (fun s => ?_)

theorem cleanBytes_kept (bs : List (Byte × Bool)) (va : U64) : KeptOp ((cleanBytes bs va) : Op Unit) := by
  unfold cleanBytes
  repeat' first
    | intro _
    | with_reducible assumption
    | dsimp only
    | with_reducible apply KeptOp.ite
    | with_reducible apply Kept.ite
    | with_reducible apply Kept.dite
    | with_reducible apply KeptOp.pure
    | with_reducible apply KeptOp.throw
    | with_reducible apply KeptOp.get
    | with_reducible apply trapIf_kept
    | with_reducible apply KeptOp.bind
    | with_reducible apply KeptOp.map
    | with_reducible apply KeptOp.modify
    | with_reducible apply KeptOp.modifyGet
    | with_reducible apply Kept.resOk
    | with_reducible apply Kept.resError
    | with_reducible apply Kept.refl
    | simp only [↓Kept.upd_eq]
    | with_reducible apply Kept.fold
    | with_reducible apply Kept.foldFst
    | refine KeptOp.ok (m := _) ?_ (by assumption) ?_
    | refine KeptOp.error (m := _) ?_ (by assumption) ?_
    | split
    | refine KeptOp.bind ?_ (fun _ => ?_)
    | refine KeptOp.mk (fun s => ?_)

theorem listRead_kept (w : Worker) (va : U64) (n : Nat) : KeptOp ((listRead w va n) : Op (List Byte)) := by
  unfold listRead
  repeat' first
    | intro _
    | with_reducible assumption
    | dsimp only
    | with_reducible apply KeptOp.ite
    | with_reducible apply Kept.ite
    | with_reducible apply Kept.dite
    | with_reducible apply KeptOp.pure
    | with_reducible apply KeptOp.throw
    | with_reducible apply KeptOp.get
    | with_reducible apply engRead_kept
    | with_reducible apply machineCheck_kept
    | with_reducible apply KeptOp.bind
    | with_reducible apply KeptOp.map
    | with_reducible apply KeptOp.modify
    | with_reducible apply KeptOp.modifyGet
    | with_reducible apply Kept.resOk
    | with_reducible apply Kept.resError
    | with_reducible apply Kept.refl
    | simp only [↓Kept.upd_eq]
    | with_reducible apply Kept.fold
    | with_reducible apply Kept.foldFst
    | refine KeptOp.ok (m := _) ?_ (by assumption) ?_
    | refine KeptOp.error (m := _) ?_ (by assumption) ?_
    | split
    | refine KeptOp.bind ?_ (fun _ => ?_)
    | refine KeptOp.mk (fun s => ?_)

theorem fillPatches_kept (w : Worker) (x0 : List Patch) : KeptOp ((fillPatches w x0) : Op (List (Byte × Bool))) := by
  induction x0 generalizing w with
  | nil =>
    unfold fillPatches
    repeat' first
      | intro _
      | with_reducible assumption
      | dsimp only
      | with_reducible apply KeptOp.ite
      | with_reducible apply Kept.ite
      | with_reducible apply Kept.dite
      | with_reducible apply KeptOp.pure
      | with_reducible apply KeptOp.throw
      | with_reducible apply KeptOp.get
      | with_reducible apply engRead_kept
      | with_reducible apply KeptOp.bind
      | with_reducible apply KeptOp.map
      | with_reducible apply KeptOp.modify
      | with_reducible apply KeptOp.modifyGet
      | with_reducible apply Kept.resOk
      | with_reducible apply Kept.resError
      | with_reducible apply Kept.refl
      | simp only [↓Kept.upd_eq]
      | with_reducible apply Kept.fold
      | with_reducible apply Kept.foldFst
      | refine KeptOp.ok (m := _) ?_ (by assumption) ?_
      | refine KeptOp.error (m := _) ?_ (by assumption) ?_
      | split
      | refine KeptOp.bind ?_ (fun _ => ?_)
      | refine KeptOp.mk (fun s => ?_)
  | cons x xs ih =>
    unfold fillPatches
    repeat' first
      | with_reducible apply ih
      | intro _
      | with_reducible assumption
      | dsimp only
      | with_reducible apply KeptOp.ite
      | with_reducible apply Kept.ite
      | with_reducible apply Kept.dite
      | with_reducible apply KeptOp.pure
      | with_reducible apply KeptOp.throw
      | with_reducible apply KeptOp.get
      | with_reducible apply engRead_kept
      | with_reducible apply KeptOp.bind
      | with_reducible apply KeptOp.map
      | with_reducible apply KeptOp.modify
      | with_reducible apply KeptOp.modifyGet
      | with_reducible apply Kept.resOk
      | with_reducible apply Kept.resError
      | with_reducible apply Kept.refl
      | simp only [↓Kept.upd_eq]
      | with_reducible apply Kept.fold
      | with_reducible apply Kept.foldFst
      | refine KeptOp.ok (m := _) ?_ (by assumption) ?_
      | refine KeptOp.error (m := _) ?_ (by assumption) ?_
      | split
      | refine KeptOp.bind ?_ (fun _ => ?_)
      | refine KeptOp.mk (fun s => ?_)

theorem writeRuns_kept (w : Worker) (x0 : List (U64 × List Patch)) : KeptOp ((writeRuns w x0) : Op Unit) := by
  induction x0 generalizing w with
  | nil =>
    unfold writeRuns
    repeat' first
      | intro _
      | with_reducible assumption
      | dsimp only
      | with_reducible apply KeptOp.ite
      | with_reducible apply Kept.ite
      | with_reducible apply Kept.dite
      | with_reducible apply KeptOp.pure
      | with_reducible apply KeptOp.throw
      | with_reducible apply KeptOp.get
      | with_reducible apply fillPatches_kept
      | with_reducible apply engWrite_kept
      | with_reducible apply KeptOp.bind
      | with_reducible apply KeptOp.map
      | with_reducible apply KeptOp.modify
      | with_reducible apply KeptOp.modifyGet
      | with_reducible apply Kept.resOk
      | with_reducible apply Kept.resError
      | with_reducible apply Kept.refl
      | simp only [↓Kept.upd_eq]
      | with_reducible apply Kept.fold
      | with_reducible apply Kept.foldFst
      | refine KeptOp.ok (m := _) ?_ (by assumption) ?_
      | refine KeptOp.error (m := _) ?_ (by assumption) ?_
      | split
      | refine KeptOp.bind ?_ (fun _ => ?_)
      | refine KeptOp.mk (fun s => ?_)
  | cons x xs ih =>
    unfold writeRuns
    repeat' first
      | with_reducible apply ih
      | intro _
      | with_reducible assumption
      | dsimp only
      | with_reducible apply KeptOp.ite
      | with_reducible apply Kept.ite
      | with_reducible apply Kept.dite
      | with_reducible apply KeptOp.pure
      | with_reducible apply KeptOp.throw
      | with_reducible apply KeptOp.get
      | with_reducible apply fillPatches_kept
      | with_reducible apply engWrite_kept
      | with_reducible apply KeptOp.bind
      | with_reducible apply KeptOp.map
      | with_reducible apply KeptOp.modify
      | with_reducible apply KeptOp.modifyGet
      | with_reducible apply Kept.resOk
      | with_reducible apply Kept.resError
      | with_reducible apply Kept.refl
      | simp only [↓Kept.upd_eq]
      | with_reducible apply Kept.fold
      | with_reducible apply Kept.foldFst
      | refine KeptOp.ok (m := _) ?_ (by assumption) ?_
      | refine KeptOp.error (m := _) ?_ (by assumption) ?_
      | split
      | refine KeptOp.bind ?_ (fun _ => ?_)
      | refine KeptOp.mk (fun s => ?_)

theorem writePatches_kept (w : Worker) (ps : List Patch) (later : Later) : KeptOp ((writePatches w ps later) : Op Unit) := by
  unfold writePatches
  repeat' first
    | intro _
    | with_reducible assumption
    | dsimp only
    | with_reducible apply KeptOp.ite
    | with_reducible apply Kept.ite
    | with_reducible apply Kept.dite
    | with_reducible apply KeptOp.pure
    | with_reducible apply KeptOp.throw
    | with_reducible apply KeptOp.get
    | with_reducible apply writeRuns_kept
    | with_reducible apply KeptOp.bind
    | with_reducible apply KeptOp.map
    | with_reducible apply KeptOp.modify
    | with_reducible apply KeptOp.modifyGet
    | with_reducible apply Kept.resOk
    | with_reducible apply Kept.resError
    | with_reducible apply Kept.refl
    | simp only [↓Kept.upd_eq]
    | with_reducible apply Kept.fold
    | with_reducible apply Kept.foldFst
    | refine KeptOp.ok (m := _) ?_ (by assumption) ?_
    | refine KeptOp.error (m := _) ?_ (by assumption) ?_
    | split
    | refine KeptOp.bind ?_ (fun _ => ?_)
    | refine KeptOp.mk (fun s => ?_)

theorem readGran_kept (w : Worker) (v : Conv) (g : Nat × Nat × Nat) : KeptOp ((readGran w v g) : Op GranSrc) := by
  unfold readGran
  repeat' first
    | intro _
    | with_reducible assumption
    | dsimp only
    | with_reducible apply KeptOp.ite
    | with_reducible apply Kept.ite
    | with_reducible apply Kept.dite
    | with_reducible apply KeptOp.pure
    | with_reducible apply KeptOp.throw
    | with_reducible apply KeptOp.get
    | with_reducible apply cleanBytes_kept
    | with_reducible apply engRead_kept
    | with_reducible apply KeptOp.bind
    | with_reducible apply KeptOp.map
    | with_reducible apply KeptOp.modify
    | with_reducible apply KeptOp.modifyGet
    | with_reducible apply Kept.resOk
    | with_reducible apply Kept.resError
    | with_reducible apply Kept.refl
    | simp only [↓Kept.upd_eq]
    | with_reducible apply Kept.fold
    | with_reducible apply Kept.foldFst
    | refine KeptOp.ok (m := _) ?_ (by assumption) ?_
    | refine KeptOp.error (m := _) ?_ (by assumption) ?_
    | split
    | refine KeptOp.bind ?_ (fun _ => ?_)
    | refine KeptOp.mk (fun s => ?_)

theorem readOnce_kept (w : Worker) (b : BlockProg) (g : Nat) : KeptOp ((readOnce w b g) : Op GranSrc) := by
  unfold readOnce
  repeat' first
    | intro _
    | with_reducible assumption
    | dsimp only
    | with_reducible apply KeptOp.ite
    | with_reducible apply Kept.ite
    | with_reducible apply Kept.dite
    | with_reducible apply KeptOp.pure
    | with_reducible apply KeptOp.throw
    | with_reducible apply KeptOp.get
    | with_reducible apply readGran_kept
    | with_reducible apply engOf_kept
    | with_reducible apply modE_kept
    | with_reducible apply KeptOp.bind
    | with_reducible apply KeptOp.map
    | with_reducible apply KeptOp.modify
    | with_reducible apply KeptOp.modifyGet
    | with_reducible apply Kept.resOk
    | with_reducible apply Kept.resError
    | with_reducible apply Kept.refl
    | simp only [↓Kept.upd_eq]
    | with_reducible apply Kept.fold
    | with_reducible apply Kept.foldFst
    | refine KeptOp.ok (m := _) ?_ (by assumption) ?_
    | refine KeptOp.error (m := _) ?_ (by assumption) ?_
    | split
    | refine KeptOp.bind ?_ (fun _ => ?_)
    | refine KeptOp.mk (fun s => ?_)

theorem landPlain_kept (w : Worker) (v : Conv) (b : BlockProg) (g : Nat) (x : GranSrc) : KeptOp ((landPlain w v b g x) : Op BlockProg) := by
  unfold landPlain
  repeat' first
    | intro _
    | with_reducible assumption
    | dsimp only
    | with_reducible apply KeptOp.ite
    | with_reducible apply Kept.ite
    | with_reducible apply Kept.dite
    | with_reducible apply KeptOp.pure
    | with_reducible apply KeptOp.throw
    | with_reducible apply KeptOp.get
    | with_reducible apply writePatches_kept
    | with_reducible apply KeptOp.bind
    | with_reducible apply KeptOp.map
    | with_reducible apply KeptOp.modify
    | with_reducible apply KeptOp.modifyGet
    | with_reducible apply Kept.resOk
    | with_reducible apply Kept.resError
    | with_reducible apply Kept.refl
    | simp only [↓Kept.upd_eq]
    | with_reducible apply Kept.fold
    | with_reducible apply Kept.foldFst
    | refine KeptOp.ok (m := _) ?_ (by assumption) ?_
    | refine KeptOp.error (m := _) ?_ (by assumption) ?_
    | split
    | refine KeptOp.bind ?_ (fun _ => ?_)
    | refine KeptOp.mk (fun s => ?_)

theorem mxBlocks_kept (w : Worker) (v : Conv) (gr : Nat × Nat × Nat) (x0 : List Nat) (x1 : GranSrc) (x2 : BlockProg) : KeptOp ((mxBlocks w v gr x0 x1 x2) : Op BlockProg) := by
  induction x0 generalizing w v gr x1 x2 with
  | nil =>
    unfold mxBlocks
    repeat' first
      | intro _
      | with_reducible assumption
      | dsimp only
      | with_reducible apply KeptOp.ite
      | with_reducible apply Kept.ite
      | with_reducible apply Kept.dite
      | with_reducible apply KeptOp.pure
      | with_reducible apply KeptOp.throw
      | with_reducible apply KeptOp.get
      | with_reducible apply writePatches_kept
      | with_reducible apply KeptOp.bind
      | with_reducible apply KeptOp.map
      | with_reducible apply KeptOp.modify
      | with_reducible apply KeptOp.modifyGet
      | with_reducible apply Kept.resOk
      | with_reducible apply Kept.resError
      | with_reducible apply Kept.refl
      | simp only [↓Kept.upd_eq]
      | with_reducible apply Kept.fold
      | with_reducible apply Kept.foldFst
      | refine KeptOp.ok (m := _) ?_ (by assumption) ?_
      | refine KeptOp.error (m := _) ?_ (by assumption) ?_
      | split
      | refine KeptOp.bind ?_ (fun _ => ?_)
      | refine KeptOp.mk (fun s => ?_)
  | cons x xs ih =>
    unfold mxBlocks
    repeat' first
      | with_reducible apply ih
      | intro _
      | with_reducible assumption
      | dsimp only
      | with_reducible apply KeptOp.ite
      | with_reducible apply Kept.ite
      | with_reducible apply Kept.dite
      | with_reducible apply KeptOp.pure
      | with_reducible apply KeptOp.throw
      | with_reducible apply KeptOp.get
      | with_reducible apply writePatches_kept
      | with_reducible apply KeptOp.bind
      | with_reducible apply KeptOp.map
      | with_reducible apply KeptOp.modify
      | with_reducible apply KeptOp.modifyGet
      | with_reducible apply Kept.resOk
      | with_reducible apply Kept.resError
      | with_reducible apply Kept.refl
      | simp only [↓Kept.upd_eq]
      | with_reducible apply Kept.fold
      | with_reducible apply Kept.foldFst
      | refine KeptOp.ok (m := _) ?_ (by assumption) ?_
      | refine KeptOp.error (m := _) ?_ (by assumption) ?_
      | split
      | refine KeptOp.bind ?_ (fun _ => ?_)
      | refine KeptOp.mk (fun s => ?_)

theorem landMx_kept (w : Worker) (v : Conv) (b : BlockProg) (g : Nat) (x : GranSrc) : KeptOp ((landMx w v b g x) : Op BlockProg) := by
  unfold landMx
  repeat' first
    | intro _
    | with_reducible assumption
    | dsimp only
    | with_reducible apply KeptOp.ite
    | with_reducible apply Kept.ite
    | with_reducible apply Kept.dite
    | with_reducible apply KeptOp.pure
    | with_reducible apply KeptOp.throw
    | with_reducible apply KeptOp.get
    | with_reducible apply mxBlocks_kept
    | with_reducible apply KeptOp.bind
    | with_reducible apply KeptOp.map
    | with_reducible apply KeptOp.modify
    | with_reducible apply KeptOp.modifyGet
    | with_reducible apply Kept.resOk
    | with_reducible apply Kept.resError
    | with_reducible apply Kept.refl
    | simp only [↓Kept.upd_eq]
    | with_reducible apply Kept.fold
    | with_reducible apply Kept.foldFst
    | refine KeptOp.ok (m := _) ?_ (by assumption) ?_
    | refine KeptOp.error (m := _) ?_ (by assumption) ?_
    | split
    | refine KeptOp.bind ?_ (fun _ => ?_)
    | refine KeptOp.mk (fun s => ?_)

theorem readTile_kept (w : Worker) (n : Nat) (x0 : List U64) : KeptOp ((readTile w n x0) : Op (List Nat)) := by
  induction x0 generalizing w n with
  | nil =>
    unfold readTile
    repeat' first
      | intro _
      | with_reducible assumption
      | dsimp only
      | with_reducible apply KeptOp.ite
      | with_reducible apply Kept.ite
      | with_reducible apply Kept.dite
      | with_reducible apply KeptOp.pure
      | with_reducible apply KeptOp.throw
      | with_reducible apply KeptOp.get
      | with_reducible apply cleanBytes_kept
      | with_reducible apply engRead_kept
      | with_reducible apply KeptOp.bind
      | with_reducible apply KeptOp.map
      | with_reducible apply KeptOp.modify
      | with_reducible apply KeptOp.modifyGet
      | with_reducible apply Kept.resOk
      | with_reducible apply Kept.resError
      | with_reducible apply Kept.refl
      | simp only [↓Kept.upd_eq]
      | with_reducible apply Kept.fold
      | with_reducible apply Kept.foldFst
      | refine KeptOp.ok (m := _) ?_ (by assumption) ?_
      | refine KeptOp.error (m := _) ?_ (by assumption) ?_
      | split
      | refine KeptOp.bind ?_ (fun _ => ?_)
      | refine KeptOp.mk (fun s => ?_)
  | cons x xs ih =>
    unfold readTile
    repeat' first
      | with_reducible apply ih
      | intro _
      | with_reducible assumption
      | dsimp only
      | with_reducible apply KeptOp.ite
      | with_reducible apply Kept.ite
      | with_reducible apply Kept.dite
      | with_reducible apply KeptOp.pure
      | with_reducible apply KeptOp.throw
      | with_reducible apply KeptOp.get
      | with_reducible apply cleanBytes_kept
      | with_reducible apply engRead_kept
      | with_reducible apply KeptOp.bind
      | with_reducible apply KeptOp.map
      | with_reducible apply KeptOp.modify
      | with_reducible apply KeptOp.modifyGet
      | with_reducible apply Kept.resOk
      | with_reducible apply Kept.resError
      | with_reducible apply Kept.refl
      | simp only [↓Kept.upd_eq]
      | with_reducible apply Kept.fold
      | with_reducible apply Kept.foldFst
      | refine KeptOp.ok (m := _) ?_ (by assumption) ?_
      | refine KeptOp.error (m := _) ?_ (by assumption) ?_
      | split
      | refine KeptOp.bind ?_ (fun _ => ?_)
      | refine KeptOp.mk (fun s => ?_)

theorem swapPair_kept (w : Worker) (b : BlockProg) (p : Nat) : KeptOp ((swapPair w b p) : Op Unit) := by
  unfold swapPair
  repeat' first
    | intro _
    | with_reducible assumption
    | dsimp only
    | with_reducible apply KeptOp.ite
    | with_reducible apply Kept.ite
    | with_reducible apply Kept.dite
    | with_reducible apply KeptOp.pure
    | with_reducible apply KeptOp.throw
    | with_reducible apply KeptOp.get
    | with_reducible apply readTile_kept
    | with_reducible apply writePatches_kept
    | with_reducible apply KeptOp.bind
    | with_reducible apply KeptOp.map
    | with_reducible apply KeptOp.modify
    | with_reducible apply KeptOp.modifyGet
    | with_reducible apply Kept.resOk
    | with_reducible apply Kept.resError
    | with_reducible apply Kept.refl
    | simp only [↓Kept.upd_eq]
    | with_reducible apply Kept.fold
    | with_reducible apply Kept.foldFst
    | refine KeptOp.ok (m := _) ?_ (by assumption) ?_
    | refine KeptOp.error (m := _) ?_ (by assumption) ?_
    | split
    | refine KeptOp.bind ?_ (fun _ => ?_)
    | refine KeptOp.mk (fun s => ?_)

theorem swapPairs_kept (w : Worker) (b : BlockProg) (x0 : List Nat) : KeptOp ((swapPairs w b x0) : Op Unit) := by
  induction x0 generalizing w b with
  | nil =>
    unfold swapPairs
    repeat' first
      | intro _
      | with_reducible assumption
      | dsimp only
      | with_reducible apply KeptOp.ite
      | with_reducible apply Kept.ite
      | with_reducible apply Kept.dite
      | with_reducible apply KeptOp.pure
      | with_reducible apply KeptOp.throw
      | with_reducible apply KeptOp.get
      | with_reducible apply swapPair_kept
      | with_reducible apply KeptOp.bind
      | with_reducible apply KeptOp.map
      | with_reducible apply KeptOp.modify
      | with_reducible apply KeptOp.modifyGet
      | with_reducible apply Kept.resOk
      | with_reducible apply Kept.resError
      | with_reducible apply Kept.refl
      | simp only [↓Kept.upd_eq]
      | with_reducible apply Kept.fold
      | with_reducible apply Kept.foldFst
      | refine KeptOp.ok (m := _) ?_ (by assumption) ?_
      | refine KeptOp.error (m := _) ?_ (by assumption) ?_
      | split
      | refine KeptOp.bind ?_ (fun _ => ?_)
      | refine KeptOp.mk (fun s => ?_)
  | cons x xs ih =>
    unfold swapPairs
    repeat' first
      | with_reducible apply ih
      | intro _
      | with_reducible assumption
      | dsimp only
      | with_reducible apply KeptOp.ite
      | with_reducible apply Kept.ite
      | with_reducible apply Kept.dite
      | with_reducible apply KeptOp.pure
      | with_reducible apply KeptOp.throw
      | with_reducible apply KeptOp.get
      | with_reducible apply swapPair_kept
      | with_reducible apply KeptOp.bind
      | with_reducible apply KeptOp.map
      | with_reducible apply KeptOp.modify
      | with_reducible apply KeptOp.modifyGet
      | with_reducible apply Kept.resOk
      | with_reducible apply Kept.resError
      | with_reducible apply Kept.refl
      | simp only [↓Kept.upd_eq]
      | with_reducible apply Kept.fold
      | with_reducible apply Kept.foldFst
      | refine KeptOp.ok (m := _) ?_ (by assumption) ?_
      | refine KeptOp.error (m := _) ?_ (by assumption) ?_
      | split
      | refine KeptOp.bind ?_ (fun _ => ?_)
      | refine KeptOp.mk (fun s => ?_)

theorem landSquare_kept (w : Worker) (b : BlockProg) (g : Nat) : KeptOp ((landSquare w b g) : Op BlockProg) := by
  unfold landSquare
  repeat' first
    | intro _
    | with_reducible assumption
    | dsimp only
    | with_reducible apply KeptOp.ite
    | with_reducible apply Kept.ite
    | with_reducible apply Kept.dite
    | with_reducible apply KeptOp.pure
    | with_reducible apply KeptOp.throw
    | with_reducible apply KeptOp.get
    | with_reducible apply swapPairs_kept
    | with_reducible apply KeptOp.bind
    | with_reducible apply KeptOp.map
    | with_reducible apply KeptOp.modify
    | with_reducible apply KeptOp.modifyGet
    | with_reducible apply Kept.resOk
    | with_reducible apply Kept.resError
    | with_reducible apply Kept.refl
    | simp only [↓Kept.upd_eq]
    | with_reducible apply Kept.fold
    | with_reducible apply Kept.foldFst
    | refine KeptOp.ok (m := _) ?_ (by assumption) ?_
    | refine KeptOp.error (m := _) ?_ (by assumption) ?_
    | split
    | refine KeptOp.bind ?_ (fun _ => ?_)
    | refine KeptOp.mk (fun s => ?_)

theorem finishGran_kept (w : Worker) (b : BlockProg) (g : Nat) (x : GranSrc) : KeptOp ((finishGran w b g x) : Op Unit) := by
  unfold finishGran
  repeat' first
    | intro _
    | with_reducible assumption
    | dsimp only
    | with_reducible apply KeptOp.ite
    | with_reducible apply Kept.ite
    | with_reducible apply Kept.dite
    | with_reducible apply KeptOp.pure
    | with_reducible apply KeptOp.throw
    | with_reducible apply KeptOp.get
    | with_reducible apply landMx_kept
    | with_reducible apply landPlain_kept
    | with_reducible apply engOf_kept
    | with_reducible apply modE_kept
    | with_reducible apply KeptOp.bind
    | with_reducible apply KeptOp.map
    | with_reducible apply KeptOp.modify
    | with_reducible apply KeptOp.modifyGet
    | with_reducible apply Kept.resOk
    | with_reducible apply Kept.resError
    | with_reducible apply Kept.refl
    | simp only [↓Kept.upd_eq]
    | with_reducible apply Kept.fold
    | with_reducible apply Kept.foldFst
    | refine KeptOp.ok (m := _) ?_ (by assumption) ?_
    | refine KeptOp.error (m := _) ?_ (by assumption) ?_
    | split
    | refine KeptOp.bind ?_ (fun _ => ?_)
    | refine KeptOp.mk (fun s => ?_)

theorem squareGran_kept (w : Worker) (b : BlockProg) (g : Nat) : KeptOp ((squareGran w b g) : Op Unit) := by
  unfold squareGran
  repeat' first
    | intro _
    | with_reducible assumption
    | dsimp only
    | with_reducible apply KeptOp.ite
    | with_reducible apply Kept.ite
    | with_reducible apply Kept.dite
    | with_reducible apply KeptOp.pure
    | with_reducible apply KeptOp.throw
    | with_reducible apply KeptOp.get
    | with_reducible apply landSquare_kept
    | with_reducible apply modE_kept
    | with_reducible apply KeptOp.bind
    | with_reducible apply KeptOp.map
    | with_reducible apply KeptOp.modify
    | with_reducible apply KeptOp.modifyGet
    | with_reducible apply Kept.resOk
    | with_reducible apply Kept.resError
    | with_reducible apply Kept.refl
    | simp only [↓Kept.upd_eq]
    | with_reducible apply Kept.fold
    | with_reducible apply Kept.foldFst
    | refine KeptOp.ok (m := _) ?_ (by assumption) ?_
    | refine KeptOp.error (m := _) ?_ (by assumption) ?_
    | split
    | refine KeptOp.bind ?_ (fun _ => ?_)
    | refine KeptOp.mk (fun s => ?_)

theorem haltEng_kept {r0 : State} (s : State) (c : CoreId) (e : Nat) (blk : Nat) (subc : Nat) (pos : U64) (off : U64) (addr : U64) (h : Kept r0 s) : Kept r0 (haltEng s c e blk subc pos off addr) := by
  unfold haltEng
  repeat' first
    | intro _
    | with_reducible assumption
    | dsimp only
    | with_reducible apply Kept.ite
    | with_reducible apply Kept.dite
    | with_reducible apply State.modCore_kept
    | with_reducible apply Kept.refl
    | simp only [↓Kept.upd_eq]
    | with_reducible apply Kept.fold
    | with_reducible apply Kept.foldFst
    | split

theorem haltRecord_kept {r0 : State} (s : State) (c : CoreId) (e : Nat) (subc : Nat) (h : Kept r0 s) : Kept r0 (haltRecord s c e subc) := by
  unfold haltRecord
  repeat' first
    | intro _
    | with_reducible assumption
    | dsimp only
    | with_reducible apply Kept.ite
    | with_reducible apply Kept.dite
    | with_reducible apply haltEng_kept
    | with_reducible apply State.modCore_kept
    | with_reducible apply Kept.refl
    | simp only [↓Kept.upd_eq]
    | with_reducible apply Kept.fold
    | with_reducible apply Kept.foldFst
    | split

theorem writeRecord_kept (c : CoreId) (e : Nat) (a : U64) (bs : List Byte) : KeptOp ((writeRecord c e a bs) : Op Unit) := by
  unfold writeRecord
  refine KeptOp.ofRun (fun r0 s h => ?_)
  repeat' first
    | intro _
    | with_reducible assumption
    | dsimp only
    | with_reducible apply KeptRun.ite
    | with_reducible apply KeptRun.getBind
    | with_reducible apply KeptRun.bind
    | with_reducible apply KeptRun.set
    | with_reducible apply KeptRun.modify
    | with_reducible apply KeptOp.ite
    | with_reducible apply Kept.ite
    | with_reducible apply Kept.dite
    | with_reducible apply KeptOp.pure
    | with_reducible apply KeptOp.throw
    | with_reducible apply KeptOp.get
    | with_reducible apply engWrite_kept
    | with_reducible apply engXlate_kept
    | with_reducible apply signal_kept
    | with_reducible apply KeptOp.bind
    | with_reducible apply KeptOp.map
    | with_reducible apply KeptOp.modify
    | with_reducible apply KeptOp.modifyGet
    | with_reducible apply Kept.resOk
    | with_reducible apply Kept.resError
    | with_reducible apply Kept.refl
    | simp only [↓Kept.upd_eq]
    | with_reducible apply Kept.fold
    | with_reducible apply Kept.foldFst
    | refine KeptOp.ok (m := _) ?_ (by assumption) ?_
    | refine KeptOp.error (m := _) ?_ (by assumption) ?_
    | split
    | refine KeptOp.bind ?_ (fun _ => ?_)
    | with_reducible apply KeptRun.op

theorem engAsk_kept {r0 : State} (s : State) (c : CoreId) (e : Nat) (r : HallReq) (h : Kept r0 s) : Kept r0 (engAsk s c e r) := by
  unfold engAsk
  repeat' first
    | intro _
    | with_reducible assumption
    | dsimp only
    | with_reducible apply Kept.ite
    | with_reducible apply Kept.dite
    | with_reducible apply sendHall_kept
    | with_reducible apply Kept.refl
    | simp only [↓Kept.upd_eq]
    | with_reducible apply Kept.fold
    | with_reducible apply Kept.foldFst
    | split

theorem finishEnd_kept {r0 : State} (s : State) (c : CoreId) (e : Nat) (h : Kept r0 s) : Kept r0 (finishEnd s c e) := by
  unfold finishEnd
  repeat' first
    | intro _
    | with_reducible assumption
    | dsimp only
    | with_reducible apply Kept.ite
    | with_reducible apply Kept.dite
    | with_reducible apply KeptOp.pure
    | with_reducible apply KeptOp.throw
    | with_reducible apply KeptOp.get
    | with_reducible apply engAsk_kept
    | with_reducible apply writeRecord_kept
    | with_reducible apply haltRecord_kept
    | with_reducible apply abortTask_kept
    | with_reducible apply reapReqs_kept
    | with_reducible apply State.modCore_kept
    | with_reducible apply KeptOp.bind
    | with_reducible apply KeptOp.map
    | with_reducible apply KeptOp.modify
    | with_reducible apply KeptOp.modifyGet
    | with_reducible apply Kept.resOk
    | with_reducible apply Kept.resError
    | with_reducible apply Kept.refl
    | simp only [↓Kept.upd_eq]
    | with_reducible apply Kept.fold
    | with_reducible apply Kept.foldFst
    | refine KeptOp.ok (m := _) ?_ (by assumption) ?_
    | refine KeptOp.error (m := _) ?_ (by assumption) ?_
    | split
    | refine KeptOp.mk (fun s => ?_)

theorem endStream_kept {r0 : State} (s : State) (c : CoreId) (e : Nat) (fin : Nat) (reason : Nat) (h : Kept r0 s) : Kept r0 (endStream s c e fin reason) := by
  unfold endStream
  repeat' first
    | intro _
    | with_reducible assumption
    | dsimp only
    | with_reducible apply Kept.ite
    | with_reducible apply Kept.dite
    | with_reducible apply finishEnd_kept
    | with_reducible apply State.modCore_kept
    | with_reducible apply Kept.refl
    | simp only [↓Kept.upd_eq]
    | with_reducible apply Kept.fold
    | with_reducible apply Kept.foldFst
    | split

theorem completeBlock_kept {r0 : State} (s : State) (c : CoreId) (e : Nat) (b : BlockProg) (h : Kept r0 s) : Kept r0 (completeBlock s c e b) := by
  unfold completeBlock
  repeat' first
    | intro _
    | with_reducible assumption
    | dsimp only
    | with_reducible apply Kept.ite
    | with_reducible apply Kept.dite
    | with_reducible apply signal_kept
    | with_reducible apply addCounts_kept
    | with_reducible apply State.modCore_kept
    | with_reducible apply Kept.refl
    | simp only [↓Kept.upd_eq]
    | with_reducible apply Kept.fold
    | with_reducible apply Kept.foldFst
    | split

theorem completeAll_kept {r0 : State} (c : CoreId) (e : Nat) (x0 : Nat) (x1 : State) (h : Kept r0 x1) : Kept r0 (completeAll c e x0 x1) := by
  induction x0 generalizing c e x1 with
  | zero =>
    unfold completeAll
    repeat' first
      | intro _
      | with_reducible assumption
      | dsimp only
      | with_reducible apply Kept.ite
      | with_reducible apply Kept.dite
      | with_reducible apply completeBlock_kept
      | with_reducible apply Kept.refl
      | simp only [↓Kept.upd_eq]
      | with_reducible apply Kept.fold
      | with_reducible apply Kept.foldFst
      | split
  | succ n ih =>
    unfold completeAll
    repeat' first
      | with_reducible apply ih
      | intro _
      | with_reducible assumption
      | dsimp only
      | with_reducible apply Kept.ite
      | with_reducible apply Kept.dite
      | with_reducible apply completeBlock_kept
      | with_reducible apply Kept.refl
      | simp only [↓Kept.upd_eq]
      | with_reducible apply Kept.fold
      | with_reducible apply Kept.foldFst
      | split

theorem endIfDone_kept {r0 : State} (s : State) (c : CoreId) (e : Nat) (h : Kept r0 s) : Kept r0 (endIfDone s c e) := by
  unfold endIfDone
  repeat' first
    | intro _
    | with_reducible assumption
    | dsimp only
    | with_reducible apply Kept.ite
    | with_reducible apply Kept.dite
    | with_reducible apply endStream_kept
    | with_reducible apply Kept.refl
    | simp only [↓Kept.upd_eq]
    | with_reducible apply Kept.fold
    | with_reducible apply Kept.foldFst
    | split

theorem cancelStream_kept {r0 : State} (s : State) (c : CoreId) (e : Nat) (h : Kept r0 s) : Kept r0 (cancelStream s c e) := by
  unfold cancelStream
  repeat' first
    | intro _
    | with_reducible assumption
    | dsimp only
    | with_reducible apply Kept.ite
    | with_reducible apply Kept.dite
    | with_reducible apply endIfDone_kept
    | with_reducible apply completeAll_kept
    | with_reducible apply endStream_kept
    | with_reducible apply State.modCore_kept
    | with_reducible apply Kept.refl
    | simp only [↓Kept.upd_eq]
    | with_reducible apply Kept.fold
    | with_reducible apply Kept.foldFst
    | split

theorem streamAnswered_kept {r0 : State} (s : State) (c : CoreId) (e : Nat) (r : HallReq) (res : HallRes) (h : Kept r0 s) : Kept r0 (streamAnswered s c e r res) := by
  unfold streamAnswered
  repeat' first
    | intro _
    | with_reducible assumption
    | dsimp only
    | with_reducible apply Kept.ite
    | with_reducible apply Kept.dite
    | with_reducible apply endStream_kept
    | with_reducible apply finishEnd_kept
    | with_reducible apply State.modCore_kept
    | with_reducible apply Kept.refl
    | simp only [↓Kept.upd_eq]
    | with_reducible apply Kept.fold
    | with_reducible apply Kept.foldFst
    | split

theorem headerOf_kept (c : CoreId) (e : Nat) (list : U64) (ring : Nat) : KeptOp ((headerOf c e list ring) : Op (Except Nat (Nat × Option U64))) := by
  unfold headerOf
  repeat' first
    | intro _
    | with_reducible assumption
    | dsimp only
    | with_reducible apply KeptOp.ite
    | with_reducible apply Kept.ite
    | with_reducible apply Kept.dite
    | with_reducible apply KeptOp.pure
    | with_reducible apply KeptOp.throw
    | with_reducible apply KeptOp.get
    | with_reducible apply listRead_kept
    | with_reducible apply engOf_kept
    | with_reducible apply coreOf_kept
    | with_reducible apply KeptOp.bind
    | with_reducible apply KeptOp.map
    | with_reducible apply KeptOp.modify
    | with_reducible apply KeptOp.modifyGet
    | with_reducible apply Kept.resOk
    | with_reducible apply Kept.resError
    | with_reducible apply Kept.refl
    | simp only [↓Kept.upd_eq]
    | with_reducible apply Kept.fold
    | with_reducible apply Kept.foldFst
    | refine KeptOp.ok (m := _) ?_ (by assumption) ?_
    | refine KeptOp.error (m := _) ?_ (by assumption) ?_
    | split
    | refine KeptOp.bind ?_ (fun _ => ?_)
    | refine KeptOp.mk (fun s => ?_)

theorem readDesc_kept (c : CoreId) (e : Nat) (list : U64) (b : Nat) : KeptOp ((readDesc c e list b) : Op Desc) := by
  unfold readDesc
  repeat' first
    | intro _
    | with_reducible assumption
    | dsimp only
    | with_reducible apply KeptOp.ite
    | with_reducible apply Kept.ite
    | with_reducible apply Kept.dite
    | with_reducible apply KeptOp.pure
    | with_reducible apply KeptOp.throw
    | with_reducible apply KeptOp.get
    | with_reducible apply listRead_kept
    | with_reducible apply KeptOp.bind
    | with_reducible apply KeptOp.map
    | with_reducible apply KeptOp.modify
    | with_reducible apply KeptOp.modifyGet
    | with_reducible apply Kept.resOk
    | with_reducible apply Kept.resError
    | with_reducible apply Kept.refl
    | simp only [↓Kept.upd_eq]
    | with_reducible apply Kept.fold
    | with_reducible apply Kept.foldFst
    | refine KeptOp.ok (m := _) ?_ (by assumption) ?_
    | refine KeptOp.error (m := _) ?_ (by assumption) ?_
    | split
    | refine KeptOp.bind ?_ (fun _ => ?_)
    | refine KeptOp.mk (fun s => ?_)

theorem validate_kept (c : CoreId) (e : Nat) (list : U64) (ring : Nat) (total : Nat) (x0 : Nat) : KeptOp ((validate c e list ring total x0) : Op (Option (Nat × Nat))) := by
  induction x0 generalizing c e list ring total with
  | zero =>
    unfold validate
    repeat' first
      | intro _
      | with_reducible assumption
      | dsimp only
      | with_reducible apply KeptOp.ite
      | with_reducible apply Kept.ite
      | with_reducible apply Kept.dite
      | with_reducible apply KeptOp.pure
      | with_reducible apply KeptOp.throw
      | with_reducible apply KeptOp.get
      | with_reducible apply readDesc_kept
      | with_reducible apply engOf_kept
      | with_reducible apply coreOf_kept
      | with_reducible apply KeptOp.bind
      | with_reducible apply KeptOp.map
      | with_reducible apply KeptOp.modify
      | with_reducible apply KeptOp.modifyGet
      | with_reducible apply Kept.resOk
      | with_reducible apply Kept.resError
      | with_reducible apply Kept.refl
      | simp only [↓Kept.upd_eq]
      | with_reducible apply Kept.fold
      | with_reducible apply Kept.foldFst
      | refine KeptOp.ok (m := _) ?_ (by assumption) ?_
      | refine KeptOp.error (m := _) ?_ (by assumption) ?_
      | split
      | refine KeptOp.bind ?_ (fun _ => ?_)
      | refine KeptOp.mk (fun s => ?_)
  | succ n ih =>
    unfold validate
    repeat' first
      | with_reducible apply ih
      | intro _
      | with_reducible assumption
      | dsimp only
      | with_reducible apply KeptOp.ite
      | with_reducible apply Kept.ite
      | with_reducible apply Kept.dite
      | with_reducible apply KeptOp.pure
      | with_reducible apply KeptOp.throw
      | with_reducible apply KeptOp.get
      | with_reducible apply readDesc_kept
      | with_reducible apply engOf_kept
      | with_reducible apply coreOf_kept
      | with_reducible apply KeptOp.bind
      | with_reducible apply KeptOp.map
      | with_reducible apply KeptOp.modify
      | with_reducible apply KeptOp.modifyGet
      | with_reducible apply Kept.resOk
      | with_reducible apply Kept.resError
      | with_reducible apply Kept.refl
      | simp only [↓Kept.upd_eq]
      | with_reducible apply Kept.fold
      | with_reducible apply Kept.foldFst
      | refine KeptOp.ok (m := _) ?_ (by assumption) ?_
      | refine KeptOp.error (m := _) ?_ (by assumption) ?_
      | split
      | refine KeptOp.bind ?_ (fun _ => ?_)
      | refine KeptOp.mk (fun s => ?_)

theorem startChecks_kept (c : CoreId) (e : Nat) (list : U64) : KeptOp ((startChecks c e list) : Op (Except Reject (Nat × Option U64))) := by
  unfold startChecks
  repeat' first
    | intro _
    | with_reducible assumption
    | dsimp only
    | with_reducible apply KeptOp.ite
    | with_reducible apply Kept.ite
    | with_reducible apply Kept.dite
    | with_reducible apply KeptOp.pure
    | with_reducible apply KeptOp.throw
    | with_reducible apply KeptOp.get
    | with_reducible apply validate_kept
    | with_reducible apply headerOf_kept
    | with_reducible apply engOf_kept
    | with_reducible apply modE_kept
    | with_reducible apply coreOf_kept
    | with_reducible apply KeptOp.bind
    | with_reducible apply KeptOp.map
    | with_reducible apply KeptOp.modify
    | with_reducible apply KeptOp.modifyGet
    | with_reducible apply Kept.resOk
    | with_reducible apply Kept.resError
    | with_reducible apply Kept.refl
    | simp only [↓Kept.upd_eq]
    | with_reducible apply Kept.fold
    | with_reducible apply Kept.foldFst
    | refine KeptOp.ok (m := _) ?_ (by assumption) ?_
    | refine KeptOp.error (m := _) ?_ (by assumption) ?_
    | split
    | refine KeptOp.bind ?_ (fun _ => ?_)
    | refine KeptOp.mk (fun s => ?_)

theorem engRing_kept (c : CoreId) (e : Nat) : KeptOp ((engRing c e) : Op Unit) := by
  unfold engRing
  repeat' first
    | intro _
    | with_reducible assumption
    | dsimp only
    | with_reducible apply KeptOp.ite
    | with_reducible apply Kept.ite
    | with_reducible apply Kept.dite
    | with_reducible apply KeptOp.pure
    | with_reducible apply KeptOp.throw
    | with_reducible apply KeptOp.get
    | with_reducible apply coreOf_kept
    | with_reducible apply trapIf_kept
    | with_reducible apply KeptOp.bind
    | with_reducible apply KeptOp.map
    | with_reducible apply KeptOp.modify
    | with_reducible apply KeptOp.modifyGet
    | with_reducible apply Kept.resOk
    | with_reducible apply Kept.resError
    | with_reducible apply Kept.refl
    | simp only [↓Kept.upd_eq]
    | with_reducible apply Kept.fold
    | with_reducible apply Kept.foldFst
    | refine KeptOp.ok (m := _) ?_ (by assumption) ?_
    | refine KeptOp.error (m := _) ?_ (by assumption) ?_
    | split
    | refine KeptOp.bind ?_ (fun _ => ?_)
    | refine KeptOp.mk (fun s => ?_)

theorem sstartBody_kept (c : CoreId) (f : BitVec 22) : KeptOp ((sstartBody c f) : Op U64) := by
  unfold sstartBody
  repeat' first
    | intro _
    | with_reducible assumption
    | dsimp only
    | with_reducible apply KeptOp.ite
    | with_reducible apply Kept.ite
    | with_reducible apply Kept.dite
    | with_reducible apply KeptOp.pure
    | with_reducible apply KeptOp.throw
    | with_reducible apply KeptOp.get
    | with_reducible apply engRing_kept
    | with_reducible apply startChecks_kept
    | with_reducible apply endStream_kept
    | with_reducible apply engOf_kept
    | with_reducible apply modE_kept
    | with_reducible apply nextPC_kept
    | with_reducible apply modC_kept
    | with_reducible apply wrD_kept
    | with_reducible apply rdA_kept
    | with_reducible apply illegalIf_kept
    | with_reducible apply KeptOp.bind
    | with_reducible apply KeptOp.map
    | with_reducible apply KeptOp.modify
    | with_reducible apply KeptOp.modifyGet
    | with_reducible apply Kept.resOk
    | with_reducible apply Kept.resError
    | with_reducible apply Kept.refl
    | simp only [↓Kept.upd_eq]
    | with_reducible apply Kept.fold
    | with_reducible apply Kept.foldFst
    | refine KeptOp.ok (m := _) ?_ (by assumption) ?_
    | refine KeptOp.error (m := _) ?_ (by assumption) ?_
    | split
    | refine KeptOp.bind ?_ (fun _ => ?_)
    | refine KeptOp.mk (fun s => ?_)

theorem execSstart_kept {r0 : State} (c : CoreId) (f : BitVec 22) (s : State) (h : Kept r0 s) : KeptOut r0 (execSstart c f s) := by
  unfold execSstart
  repeat' first
    | intro _
    | with_reducible assumption
    | dsimp only
    | with_reducible apply KeptOut.ite
    | with_reducible apply KeptOut.next
    | with_reducible apply KeptOut.fault
    | with_reducible apply Kept.ite
    | with_reducible apply Kept.dite
    | with_reducible apply KeptOp.pure
    | with_reducible apply KeptOp.throw
    | with_reducible apply KeptOp.get
    | with_reducible apply sstartBody_kept
    | with_reducible apply issueSub_kept
    | with_reducible apply KeptOp.bind
    | with_reducible apply KeptOp.map
    | with_reducible apply KeptOp.modify
    | with_reducible apply KeptOp.modifyGet
    | with_reducible apply Kept.resOk
    | with_reducible apply Kept.resError
    | with_reducible apply Kept.refl
    | simp only [↓Kept.upd_eq]
    | with_reducible apply Kept.fold
    | with_reducible apply Kept.foldFst
    | refine KeptOp.ok (m := _) ?_ (by assumption) ?_
    | refine KeptOp.error (m := _) ?_ (by assumption) ?_
    | split
    | refine KeptOp.mk (fun s => ?_)

theorem sresumeBody_kept (c : CoreId) (f : BitVec 22) : KeptOp ((sresumeBody c f) : Op U64) := by
  unfold sresumeBody
  repeat' first
    | intro _
    | with_reducible assumption
    | dsimp only
    | with_reducible apply KeptOp.ite
    | with_reducible apply Kept.ite
    | with_reducible apply Kept.dite
    | with_reducible apply KeptOp.pure
    | with_reducible apply KeptOp.throw
    | with_reducible apply KeptOp.get
    | with_reducible apply engRing_kept
    | with_reducible apply finishEnd_kept
    | with_reducible apply engOf_kept
    | with_reducible apply modE_kept
    | with_reducible apply nextPC_kept
    | with_reducible apply needRing_kept
    | with_reducible apply illegalIf_kept
    | with_reducible apply KeptOp.bind
    | with_reducible apply KeptOp.map
    | with_reducible apply KeptOp.modify
    | with_reducible apply KeptOp.modifyGet
    | with_reducible apply Kept.resOk
    | with_reducible apply Kept.resError
    | with_reducible apply Kept.refl
    | simp only [↓Kept.upd_eq]
    | with_reducible apply Kept.fold
    | with_reducible apply Kept.foldFst
    | refine KeptOp.ok (m := _) ?_ (by assumption) ?_
    | refine KeptOp.error (m := _) ?_ (by assumption) ?_
    | split
    | refine KeptOp.bind ?_ (fun _ => ?_)
    | refine KeptOp.mk (fun s => ?_)

theorem execSresume_kept {r0 : State} (c : CoreId) (f : BitVec 22) (s : State) (h : Kept r0 s) : KeptOut r0 (execSresume c f s) := by
  unfold execSresume
  repeat' first
    | intro _
    | with_reducible assumption
    | dsimp only
    | with_reducible apply KeptOut.ite
    | with_reducible apply KeptOut.next
    | with_reducible apply KeptOut.fault
    | with_reducible apply Kept.ite
    | with_reducible apply Kept.dite
    | with_reducible apply KeptOp.pure
    | with_reducible apply KeptOp.throw
    | with_reducible apply KeptOp.get
    | with_reducible apply sresumeBody_kept
    | with_reducible apply issueSub_kept
    | with_reducible apply KeptOp.bind
    | with_reducible apply KeptOp.map
    | with_reducible apply KeptOp.modify
    | with_reducible apply KeptOp.modifyGet
    | with_reducible apply Kept.resOk
    | with_reducible apply Kept.resError
    | with_reducible apply Kept.refl
    | simp only [↓Kept.upd_eq]
    | with_reducible apply Kept.fold
    | with_reducible apply Kept.foldFst
    | refine KeptOp.ok (m := _) ?_ (by assumption) ?_
    | refine KeptOp.error (m := _) ?_ (by assumption) ?_
    | split
    | refine KeptOp.mk (fun s => ?_)

theorem execScancel_kept {r0 : State} (c : CoreId) (f : BitVec 22) (s : State) (h : Kept r0 s) : KeptOut r0 (execScancel c f s) := by
  unfold execScancel
  repeat' first
    | intro _
    | with_reducible assumption
    | dsimp only
    | with_reducible apply KeptOut.ite
    | with_reducible apply KeptOut.next
    | with_reducible apply KeptOut.fault
    | with_reducible apply Kept.ite
    | with_reducible apply Kept.dite
    | with_reducible apply KeptOp.pure
    | with_reducible apply KeptOp.throw
    | with_reducible apply KeptOp.get
    | with_reducible apply engRing_kept
    | with_reducible apply cancelStream_kept
    | with_reducible apply issueSub_kept
    | with_reducible apply nextPC_kept
    | with_reducible apply illegalIf_kept
    | with_reducible apply KeptOp.bind
    | with_reducible apply KeptOp.map
    | with_reducible apply KeptOp.modify
    | with_reducible apply KeptOp.modifyGet
    | with_reducible apply Kept.resOk
    | with_reducible apply Kept.resError
    | with_reducible apply Kept.refl
    | simp only [↓Kept.upd_eq]
    | with_reducible apply Kept.fold
    | with_reducible apply Kept.foldFst
    | refine KeptOp.ok (m := _) ?_ (by assumption) ?_
    | refine KeptOp.error (m := _) ?_ (by assumption) ?_
    | split
    | refine KeptOp.mk (fun s => ?_)

theorem execSwait_kept {r0 : State} (c : CoreId) (f : BitVec 22) (s : State) (h : Kept r0 s) : KeptOut r0 (execSwait c f s) := by
  unfold execSwait
  repeat' first
    | intro _
    | with_reducible assumption
    | dsimp only
    | with_reducible apply KeptOut.ite
    | with_reducible apply KeptOut.next
    | with_reducible apply KeptOut.fault
    | with_reducible apply Kept.ite
    | with_reducible apply Kept.dite
    | with_reducible apply KeptOp.pure
    | with_reducible apply KeptOp.throw
    | with_reducible apply KeptOp.get
    | with_reducible apply engRing_kept
    | with_reducible apply engOf_kept
    | with_reducible apply issueSub_kept
    | with_reducible apply nextPC_kept
    | with_reducible apply wrD_kept
    | with_reducible apply waitIf_kept
    | with_reducible apply illegalIf_kept
    | with_reducible apply KeptOp.bind
    | with_reducible apply KeptOp.map
    | with_reducible apply KeptOp.modify
    | with_reducible apply KeptOp.modifyGet
    | with_reducible apply Kept.resOk
    | with_reducible apply Kept.resError
    | with_reducible apply Kept.refl
    | simp only [↓Kept.upd_eq]
    | with_reducible apply Kept.fold
    | with_reducible apply Kept.foldFst
    | refine KeptOp.ok (m := _) ?_ (by assumption) ?_
    | refine KeptOp.error (m := _) ?_ (by assumption) ?_
    | split
    | refine KeptOp.mk (fun s => ?_)

theorem execSwaitb_kept {r0 : State} (c : CoreId) (f : BitVec 22) (s : State) (h : Kept r0 s) : KeptOut r0 (execSwaitb c f s) := by
  unfold execSwaitb
  repeat' first
    | intro _
    | with_reducible assumption
    | dsimp only
    | with_reducible apply KeptOut.ite
    | with_reducible apply KeptOut.next
    | with_reducible apply KeptOut.fault
    | with_reducible apply Kept.ite
    | with_reducible apply Kept.dite
    | with_reducible apply KeptOp.pure
    | with_reducible apply KeptOp.throw
    | with_reducible apply KeptOp.get
    | with_reducible apply engRing_kept
    | with_reducible apply engOf_kept
    | with_reducible apply issueSub_kept
    | with_reducible apply nextPC_kept
    | with_reducible apply wrD_kept
    | with_reducible apply rdD_kept
    | with_reducible apply waitIf_kept
    | with_reducible apply illegalIf_kept
    | with_reducible apply KeptOp.bind
    | with_reducible apply KeptOp.map
    | with_reducible apply KeptOp.modify
    | with_reducible apply KeptOp.modifyGet
    | with_reducible apply Kept.resOk
    | with_reducible apply Kept.resError
    | with_reducible apply Kept.refl
    | simp only [↓Kept.upd_eq]
    | with_reducible apply Kept.fold
    | with_reducible apply Kept.foldFst
    | refine KeptOp.ok (m := _) ?_ (by assumption) ?_
    | refine KeptOp.error (m := _) ?_ (by assumption) ?_
    | split
    | refine KeptOp.mk (fun s => ?_)

theorem faultBlock_kept {r0 : State} (s : State) (c : CoreId) (e : Nat) (b : Nat) (subc : Nat) (addr : U64) (h : Kept r0 s) : Kept r0 (faultBlock s c e b subc addr) := by
  unfold faultBlock
  repeat' first
    | intro _
    | with_reducible assumption
    | dsimp only
    | with_reducible apply Kept.ite
    | with_reducible apply Kept.dite
    | with_reducible apply State.modCore_kept
    | with_reducible apply Kept.refl
    | simp only [↓Kept.upd_eq]
    | with_reducible apply Kept.fold
    | with_reducible apply Kept.foldFst
    | split

theorem issueBlock_kept {r0 : State} (s : State) (c : CoreId) (e : Nat) (b : Nat) (d : Desc) (h : Kept r0 s) : Kept r0 (issueBlock s c e b d) := by
  unfold issueBlock
  repeat' first
    | intro _
    | with_reducible assumption
    | dsimp only
    | with_reducible apply Kept.ite
    | with_reducible apply Kept.dite
    | with_reducible apply endIfDone_kept
    | with_reducible apply State.modCore_kept
    | with_reducible apply Kept.refl
    | simp only [↓Kept.upd_eq]
    | with_reducible apply Kept.fold
    | with_reducible apply Kept.foldFst
    | split

theorem execStreamBlockIssue_kept {r0 : State} (c : CoreId) (e : Fin 2) (s : State) (h : Kept r0 s) : KeptOut r0 (execStreamBlockIssue c e s) := by
  unfold execStreamBlockIssue
  repeat' first
    | intro _
    | with_reducible assumption
    | dsimp only
    | with_reducible apply KeptOut.ite
    | with_reducible apply KeptOut.next
    | with_reducible apply KeptOut.fault
    | with_reducible apply Kept.ite
    | with_reducible apply Kept.dite
    | with_reducible apply KeptOp.pure
    | with_reducible apply KeptOp.throw
    | with_reducible apply KeptOp.get
    | with_reducible apply issueBlock_kept
    | with_reducible apply faultBlock_kept
    | with_reducible apply readDesc_kept
    | with_reducible apply engAsk_kept
    | with_reducible apply abortTask_kept
    | with_reducible apply KeptOp.bind
    | with_reducible apply KeptOp.map
    | with_reducible apply KeptOp.modify
    | with_reducible apply KeptOp.modifyGet
    | with_reducible apply Kept.resOk
    | with_reducible apply Kept.resError
    | with_reducible apply Kept.refl
    | simp only [↓Kept.upd_eq]
    | with_reducible apply Kept.fold
    | with_reducible apply Kept.foldFst
    | refine KeptOp.ok (m := _) ?_ (by assumption) ?_
    | refine KeptOp.error (m := _) ?_ (by assumption) ?_
    | split
    | refine KeptOp.mk (fun s => ?_)

theorem faultGran_kept {r0 : State} (s : State) (c : CoreId) (e : Nat) (p : Nat × Nat) (cause : Nat) (info : U64) (h : Kept r0 s) : Kept r0 (faultGran s c e p cause info) := by
  unfold faultGran
  repeat' first
    | intro _
    | with_reducible assumption
    | dsimp only
    | with_reducible apply Kept.ite
    | with_reducible apply Kept.dite
    | with_reducible apply machineCheck_kept
    | with_reducible apply State.modCore_kept
    | with_reducible apply Kept.refl
    | simp only [↓Kept.upd_eq]
    | with_reducible apply Kept.fold
    | with_reducible apply Kept.foldFst
    | split

theorem granStop_kept {r0 : State} (s : State) (c : CoreId) (e : Nat) (p : Nat × Nat) (q : Stop) (h : Kept r0 s) : Kept r0 (granStop s c e p q) := by
  unfold granStop
  repeat' first
    | intro _
    | with_reducible assumption
    | dsimp only
    | with_reducible apply Kept.ite
    | with_reducible apply Kept.dite
    | with_reducible apply faultGran_kept
    | with_reducible apply engAsk_kept
    | with_reducible apply abortTask_kept
    | with_reducible apply Kept.refl
    | simp only [↓Kept.upd_eq]
    | with_reducible apply Kept.fold
    | with_reducible apply Kept.foldFst
    | split

theorem execGranuleLands_kept {r0 : State} (c : CoreId) (e : Fin 2) (blk : BitVec 16) (g : Nat) (s : State) (h : Kept r0 s) : KeptOut r0 (execGranuleLands c e blk g s) := by
  unfold execGranuleLands
  repeat' first
    | intro _
    | with_reducible assumption
    | dsimp only
    | with_reducible apply KeptOut.ite
    | with_reducible apply KeptOut.next
    | with_reducible apply KeptOut.fault
    | with_reducible apply Kept.ite
    | with_reducible apply Kept.dite
    | with_reducible apply KeptOp.pure
    | with_reducible apply KeptOp.throw
    | with_reducible apply KeptOp.get
    | with_reducible apply granStop_kept
    | with_reducible apply squareGran_kept
    | with_reducible apply finishGran_kept
    | with_reducible apply readOnce_kept
    | with_reducible apply KeptOp.bind
    | with_reducible apply KeptOp.map
    | with_reducible apply KeptOp.modify
    | with_reducible apply KeptOp.modifyGet
    | with_reducible apply Kept.resOk
    | with_reducible apply Kept.resError
    | with_reducible apply Kept.refl
    | simp only [↓Kept.upd_eq]
    | with_reducible apply Kept.fold
    | with_reducible apply Kept.foldFst
    | refine KeptOp.ok (m := _) ?_ (by assumption) ?_
    | refine KeptOp.error (m := _) ?_ (by assumption) ?_
    | split
    | refine KeptOp.mk (fun s => ?_)

theorem execStreamBlockComplete_kept {r0 : State} (c : CoreId) (e : Fin 2) (s : State) (h : Kept r0 s) : KeptOut r0 (execStreamBlockComplete c e s) := by
  unfold execStreamBlockComplete
  repeat' first
    | intro _
    | with_reducible assumption
    | dsimp only
    | with_reducible apply KeptOut.ite
    | with_reducible apply KeptOut.next
    | with_reducible apply KeptOut.fault
    | with_reducible apply Kept.ite
    | with_reducible apply Kept.dite
    | with_reducible apply endIfDone_kept
    | with_reducible apply completeBlock_kept
    | with_reducible apply Kept.refl
    | simp only [↓Kept.upd_eq]
    | with_reducible apply Kept.fold
    | with_reducible apply Kept.foldFst
    | split

theorem execStreamHalt_kept {r0 : State} (c : CoreId) (e : Fin 2) (s : State) (h : Kept r0 s) : KeptOut r0 (execStreamHalt c e s) := by
  unfold execStreamHalt
  repeat' first
    | intro _
    | with_reducible assumption
    | dsimp only
    | with_reducible apply KeptOut.ite
    | with_reducible apply KeptOut.next
    | with_reducible apply KeptOut.fault
    | with_reducible apply Kept.ite
    | with_reducible apply Kept.dite
    | with_reducible apply haltEng_kept
    | with_reducible apply Kept.refl
    | simp only [↓Kept.upd_eq]
    | with_reducible apply Kept.fold
    | with_reducible apply Kept.foldFst
    | split

theorem execSemsig_kept {r0 : State} (c : CoreId) (f : BitVec 22) (s : State) (h : Kept r0 s) : KeptOut r0 (execSemsig c f s) := by
  unfold execSemsig
  repeat' first
    | intro _
    | with_reducible assumption
    | dsimp only
    | with_reducible apply KeptOut.ite
    | with_reducible apply KeptOut.next
    | with_reducible apply KeptOut.fault
    | with_reducible apply Kept.ite
    | with_reducible apply Kept.dite
    | with_reducible apply KeptOp.pure
    | with_reducible apply KeptOp.throw
    | with_reducible apply KeptOp.get
    | with_reducible apply issueSub_kept
    | with_reducible apply nextPC_kept
    | with_reducible apply illegalIf_kept
    | with_reducible apply signalPair_kept
    | with_reducible apply KeptOp.bind
    | with_reducible apply KeptOp.map
    | with_reducible apply KeptOp.modify
    | with_reducible apply KeptOp.modifyGet
    | with_reducible apply Kept.resOk
    | with_reducible apply Kept.resError
    | with_reducible apply Kept.refl
    | simp only [↓Kept.upd_eq]
    | with_reducible apply Kept.fold
    | with_reducible apply Kept.foldFst
    | refine KeptOp.ok (m := _) ?_ (by assumption) ?_
    | refine KeptOp.error (m := _) ?_ (by assumption) ?_
    | split
    | refine KeptOp.mk (fun s => ?_)

theorem execSemwait_kept {r0 : State} (c : CoreId) (f : BitVec 22) (s : State) (h : Kept r0 s) : KeptOut r0 (execSemwait c f s) := by
  unfold execSemwait
  repeat' first
    | intro _
    | with_reducible assumption
    | dsimp only
    | with_reducible apply KeptOut.ite
    | with_reducible apply KeptOut.next
    | with_reducible apply KeptOut.fault
    | with_reducible apply Kept.ite
    | with_reducible apply Kept.dite
    | with_reducible apply KeptOp.pure
    | with_reducible apply KeptOp.throw
    | with_reducible apply KeptOp.get
    | with_reducible apply issueSub_kept
    | with_reducible apply nextPC_kept
    | with_reducible apply modC_kept
    | with_reducible apply wrD_kept
    | with_reducible apply coreOf_kept
    | with_reducible apply waitIf_kept
    | with_reducible apply illegalIf_kept
    | with_reducible apply KeptOp.bind
    | with_reducible apply KeptOp.map
    | with_reducible apply KeptOp.modify
    | with_reducible apply KeptOp.modifyGet
    | with_reducible apply Kept.resOk
    | with_reducible apply Kept.resError
    | with_reducible apply Kept.refl
    | simp only [↓Kept.upd_eq]
    | with_reducible apply Kept.fold
    | with_reducible apply Kept.foldFst
    | refine KeptOp.ok (m := _) ?_ (by assumption) ?_
    | refine KeptOp.error (m := _) ?_ (by assumption) ?_
    | split
    | refine KeptOp.mk (fun s => ?_)

theorem execBara_kept {r0 : State} (c : CoreId) (f : BitVec 22) (s : State) (h : Kept r0 s) : KeptOut r0 (execBara c f s) := by
  unfold execBara
  repeat' first
    | intro _
    | with_reducible assumption
    | dsimp only
    | with_reducible apply KeptOut.ite
    | with_reducible apply KeptOut.next
    | with_reducible apply KeptOut.fault
    | with_reducible apply Kept.ite
    | with_reducible apply Kept.dite
    | with_reducible apply KeptOp.pure
    | with_reducible apply KeptOp.throw
    | with_reducible apply KeptOp.get
    | with_reducible apply issueSub_kept
    | with_reducible apply nextPC_kept
    | with_reducible apply modC_kept
    | with_reducible apply illegalIf_kept
    | with_reducible apply arriveBarrier_kept
    | with_reducible apply KeptOp.bind
    | with_reducible apply KeptOp.map
    | with_reducible apply KeptOp.modify
    | with_reducible apply KeptOp.modifyGet
    | with_reducible apply Kept.resOk
    | with_reducible apply Kept.resError
    | with_reducible apply Kept.refl
    | simp only [↓Kept.upd_eq]
    | with_reducible apply Kept.fold
    | with_reducible apply Kept.foldFst
    | refine KeptOp.ok (m := _) ?_ (by assumption) ?_
    | refine KeptOp.error (m := _) ?_ (by assumption) ?_
    | split
    | refine KeptOp.mk (fun s => ?_)

theorem execBarw_kept {r0 : State} (c : CoreId) (f : BitVec 22) (s : State) (h : Kept r0 s) : KeptOut r0 (execBarw c f s) := by
  unfold execBarw
  repeat' first
    | intro _
    | with_reducible assumption
    | dsimp only
    | with_reducible apply KeptOut.ite
    | with_reducible apply KeptOut.next
    | with_reducible apply KeptOut.fault
    | with_reducible apply Kept.ite
    | with_reducible apply Kept.dite
    | with_reducible apply KeptOp.pure
    | with_reducible apply KeptOp.throw
    | with_reducible apply KeptOp.get
    | with_reducible apply issueSub_kept
    | with_reducible apply nextPC_kept
    | with_reducible apply modC_kept
    | with_reducible apply coreOf_kept
    | with_reducible apply waitIf_kept
    | with_reducible apply illegalIf_kept
    | with_reducible apply KeptOp.bind
    | with_reducible apply KeptOp.map
    | with_reducible apply KeptOp.modify
    | with_reducible apply KeptOp.modifyGet
    | with_reducible apply Kept.resOk
    | with_reducible apply Kept.resError
    | with_reducible apply Kept.refl
    | simp only [↓Kept.upd_eq]
    | with_reducible apply Kept.fold
    | with_reducible apply Kept.foldFst
    | refine KeptOp.ok (m := _) ?_ (by assumption) ?_
    | refine KeptOp.error (m := _) ?_ (by assumption) ?_
    | split
    | refine KeptOp.mk (fun s => ?_)

theorem execBarcfg_kept {r0 : State} (c : CoreId) (f : BitVec 22) (s : State) (h : Kept r0 s) : KeptOut r0 (execBarcfg c f s) := by
  unfold execBarcfg
  repeat' first
    | intro _
    | with_reducible assumption
    | dsimp only
    | with_reducible apply KeptOut.ite
    | with_reducible apply KeptOut.next
    | with_reducible apply KeptOut.fault
    | with_reducible apply Kept.ite
    | with_reducible apply Kept.dite
    | with_reducible apply KeptOp.pure
    | with_reducible apply KeptOp.throw
    | with_reducible apply KeptOp.get
    | with_reducible apply issueSub_kept
    | with_reducible apply nextPC_kept
    | with_reducible apply needRing_kept
    | with_reducible apply rdD_kept
    | with_reducible apply illegalIf_kept
    | with_reducible apply KeptOp.bind
    | with_reducible apply KeptOp.map
    | with_reducible apply KeptOp.modify
    | with_reducible apply KeptOp.modifyGet
    | with_reducible apply Kept.resOk
    | with_reducible apply Kept.resError
    | with_reducible apply Kept.refl
    | simp only [↓Kept.upd_eq]
    | with_reducible apply Kept.fold
    | with_reducible apply Kept.foldFst
    | refine KeptOp.ok (m := _) ?_ (by assumption) ?_
    | refine KeptOp.error (m := _) ?_ (by assumption) ?_
    | split
    | refine KeptOp.mk (fun s => ?_)

theorem execBargen_kept {r0 : State} (c : CoreId) (f : BitVec 22) (s : State) (h : Kept r0 s) : KeptOut r0 (execBargen c f s) := by
  unfold execBargen
  repeat' first
    | intro _
    | with_reducible assumption
    | dsimp only
    | with_reducible apply KeptOut.ite
    | with_reducible apply KeptOut.next
    | with_reducible apply KeptOut.fault
    | with_reducible apply Kept.ite
    | with_reducible apply Kept.dite
    | with_reducible apply KeptOp.pure
    | with_reducible apply KeptOp.throw
    | with_reducible apply KeptOp.get
    | with_reducible apply issueSub_kept
    | with_reducible apply nextPC_kept
    | with_reducible apply wrD_kept
    | with_reducible apply illegalIf_kept
    | with_reducible apply KeptOp.bind
    | with_reducible apply KeptOp.map
    | with_reducible apply KeptOp.modify
    | with_reducible apply KeptOp.modifyGet
    | with_reducible apply Kept.resOk
    | with_reducible apply Kept.resError
    | with_reducible apply Kept.refl
    | simp only [↓Kept.upd_eq]
    | with_reducible apply Kept.fold
    | with_reducible apply Kept.foldFst
    | refine KeptOp.ok (m := _) ?_ (by assumption) ?_
    | refine KeptOp.error (m := _) ?_ (by assumption) ?_
    | split
    | refine KeptOp.mk (fun s => ?_)

end Sys2Proof.Machine
end

