-- ==== Sys2Proof/Laws/KeptTile.lean ====
section
/-! SUPPORT. Laws/KeptTile.lean: every operation of Machine/Tile.lean keeps what Laws/Kept.lean names. -/

namespace Sys2Proof.Machine

set_option linter.unusedTactic false
set_option linter.unreachableTactic false

theorem tileOf_kept (c : CoreId) : KeptOp ((tileOf c) : Op TileRegs) := by
  unfold tileOf
  repeat' first
    | intro _
    | with_reducible assumption
    | dsimp only
    | with_reducible apply KeptOp.ite
    | with_reducible apply Kept.ite
    | with_reducible apply Kept.dite
    | with_reducible apply KeptOp.pure
    | with_reducible apply KeptOp.throw
    | with_reducible apply KeptOp.get
    | with_reducible apply coreOf_kept
    | with_reducible apply KeptOp.bind
    | with_reducible apply KeptOp.map
    | with_reducible apply KeptOp.modify
    | with_reducible apply KeptOp.modifyGet
    | with_reducible apply Kept.resOk
    | with_reducible apply Kept.resError
    | with_reducible apply Kept.refl
    | simp only [↓Kept.upd_eq]
    | with_reducible apply Kept.fold
    | with_reducible apply Kept.foldFst
    | refine KeptOp.ok (m := _) ?_ (by assumption) ?_
    | refine KeptOp.error (m := _) ?_ (by assumption) ?_
    | split
    | refine KeptOp.bind ?_ (fun _ => ?_)
    | refine KeptOp.mk (fun s => ?_)

theorem modT_kept (c : CoreId) (f : TileRegs → TileRegs) : KeptOp ((modT c f) : Op Unit) := by
  unfold modT
  repeat' first
    | intro _
    | with_reducible assumption
    | dsimp only
    | with_reducible apply KeptOp.ite
    | with_reducible apply Kept.ite
    | with_reducible apply Kept.dite
    | with_reducible apply KeptOp.pure
    | with_reducible apply KeptOp.throw
    | with_reducible apply KeptOp.get
    | with_reducible apply modC_kept
    | with_reducible apply KeptOp.bind
    | with_reducible apply KeptOp.map
    | with_reducible apply KeptOp.modify
    | with_reducible apply KeptOp.modifyGet
    | with_reducible apply Kept.resOk
    | with_reducible apply Kept.resError
    | with_reducible apply Kept.refl
    | simp only [↓Kept.upd_eq]
    | with_reducible apply Kept.fold
    | with_reducible apply Kept.foldFst
    | refine KeptOp.ok (m := _) ?_ (by assumption) ?_
    | refine KeptOp.error (m := _) ?_ (by assumption) ?_
    | split
    | refine KeptOp.bind ?_ (fun _ => ?_)
    | refine KeptOp.mk (fun s => ?_)

theorem needTile_kept (c : CoreId) : KeptOp ((needTile c) : Op Unit) := by
  unfold needTile
  repeat' first
    | intro _
    | with_reducible assumption
    | dsimp only
    | with_reducible apply KeptOp.ite
    | with_reducible apply Kept.ite
    | with_reducible apply Kept.dite
    | with_reducible apply KeptOp.pure
    | with_reducible apply KeptOp.throw
    | with_reducible apply KeptOp.get
    | with_reducible apply illegalIf_kept
    | with_reducible apply KeptOp.bind
    | with_reducible apply KeptOp.map
    | with_reducible apply KeptOp.modify
    | with_reducible apply KeptOp.modifyGet
    | with_reducible apply Kept.resOk
    | with_reducible apply Kept.resError
    | with_reducible apply Kept.refl
    | simp only [↓Kept.upd_eq]
    | with_reducible apply Kept.fold
    | with_reducible apply Kept.foldFst
    | refine KeptOp.ok (m := _) ?_ (by assumption) ?_
    | refine KeptOp.error (m := _) ?_ (by assumption) ?_
    | split
    | refine KeptOp.bind ?_ (fun _ => ?_)
    | refine KeptOp.mk (fun s => ?_)

theorem xlatePieces_kept (c : CoreId) (acc : Acc) (x0 : List (U64 × Nat)) : KeptOp ((xlatePieces c acc x0) : Op (List (Nat × Nat))) := by
  induction x0 generalizing c acc with
  | nil =>
    unfold xlatePieces
    repeat' first
      | intro _
      | with_reducible assumption
      | dsimp only
      | with_reducible apply KeptOp.ite
      | with_reducible apply Kept.ite
      | with_reducible apply Kept.dite
      | with_reducible apply KeptOp.pure
      | with_reducible apply KeptOp.throw
      | with_reducible apply KeptOp.get
      | with_reducible apply xlateAt_kept
      | with_reducible apply ringOf_kept
      | with_reducible apply trapIf_kept
      | with_reducible apply KeptOp.bind
      | with_reducible apply KeptOp.map
      | with_reducible apply KeptOp.modify
      | with_reducible apply KeptOp.modifyGet
      | with_reducible apply Kept.resOk
      | with_reducible apply Kept.resError
      | with_reducible apply Kept.refl
      | simp only [↓Kept.upd_eq]
      | with_reducible apply Kept.fold
      | with_reducible apply Kept.foldFst
      | refine KeptOp.ok (m := _) ?_ (by assumption) ?_
      | refine KeptOp.error (m := _) ?_ (by assumption) ?_
      | split
      | refine KeptOp.bind ?_ (fun _ => ?_)
      | refine KeptOp.mk (fun s => ?_)
  | cons x xs ih =>
    unfold xlatePieces
    repeat' first
      | with_reducible apply ih
      | intro _
      | with_reducible assumption
      | dsimp only
      | with_reducible apply KeptOp.ite
      | with_reducible apply Kept.ite
      | with_reducible apply Kept.dite
      | with_reducible apply KeptOp.pure
      | with_reducible apply KeptOp.throw
      | with_reducible apply KeptOp.get
      | with_reducible apply xlateAt_kept
      | with_reducible apply ringOf_kept
      | with_reducible apply trapIf_kept
      | with_reducible apply KeptOp.bind
      | with_reducible apply KeptOp.map
      | with_reducible apply KeptOp.modify
      | with_reducible apply KeptOp.modifyGet
      | with_reducible apply Kept.resOk
      | with_reducible apply Kept.resError
      | with_reducible apply Kept.refl
      | simp only [↓Kept.upd_eq]
      | with_reducible apply Kept.fold
      | with_reducible apply Kept.foldFst
      | refine KeptOp.ok (m := _) ?_ (by assumption) ?_
      | refine KeptOp.error (m := _) ?_ (by assumption) ?_
      | split
      | refine KeptOp.bind ?_ (fun _ => ?_)
      | refine KeptOp.mk (fun s => ?_)

theorem readPieces_kept (c : CoreId) (x0 : List (Nat × Nat)) : KeptOp ((readPieces c x0) : Op (List Byte)) := by
  induction x0 generalizing c with
  | nil =>
    unfold readPieces
    refine KeptOp.ofRun (fun r0 s h => ?_)
    repeat' first
      | intro _
      | with_reducible assumption
      | dsimp only
      | with_reducible apply KeptRun.ite
      | with_reducible apply KeptRun.getBind
      | with_reducible apply KeptRun.bind
      | with_reducible apply KeptRun.set
      | with_reducible apply KeptRun.modify
      | with_reducible apply KeptOp.ite
      | with_reducible apply Kept.ite
      | with_reducible apply Kept.dite
      | with_reducible apply KeptOp.pure
      | with_reducible apply KeptOp.throw
      | with_reducible apply KeptOp.get
      | with_reducible apply machineCheck_kept
      | with_reducible apply agentRead_kept
      | with_reducible apply KeptOp.bind
      | with_reducible apply KeptOp.map
      | with_reducible apply KeptOp.modify
      | with_reducible apply KeptOp.modifyGet
      | with_reducible apply Kept.resOk
      | with_reducible apply Kept.resError
      | with_reducible apply Kept.refl
      | simp only [↓Kept.upd_eq]
      | with_reducible apply Kept.fold
      | with_reducible apply Kept.foldFst
      | refine KeptOp.ok (m := _) ?_ (by assumption) ?_
      | refine KeptOp.error (m := _) ?_ (by assumption) ?_
      | split
      | refine KeptOp.bind ?_ (fun _ => ?_)
      | with_reducible apply KeptRun.op
  | cons x xs ih =>
    unfold readPieces
    refine KeptOp.ofRun (fun r0 s h => ?_)
    repeat' first
      | with_reducible apply ih
      | intro _
      | with_reducible assumption
      | dsimp only
      | with_reducible apply KeptRun.ite
      | with_reducible apply KeptRun.getBind
      | with_reducible apply KeptRun.bind
      | with_reducible apply KeptRun.set
      | with_reducible apply KeptRun.modify
      | with_reducible apply KeptOp.ite
      | with_reducible apply Kept.ite
      | with_reducible apply Kept.dite
      | with_reducible apply KeptOp.pure
      | with_reducible apply KeptOp.throw
      | with_reducible apply KeptOp.get
      | with_reducible apply machineCheck_kept
      | with_reducible apply agentRead_kept
      | with_reducible apply KeptOp.bind
      | with_reducible apply KeptOp.map
      | with_reducible apply KeptOp.modify
      | with_reducible apply KeptOp.modifyGet
      | with_reducible apply Kept.resOk
      | with_reducible apply Kept.resError
      | with_reducible apply Kept.refl
      | simp only [↓Kept.upd_eq]
      | with_reducible apply Kept.fold
      | with_reducible apply Kept.foldFst
      | refine KeptOp.ok (m := _) ?_ (by assumption) ?_
      | refine KeptOp.error (m := _) ?_ (by assumption) ?_
      | split
      | refine KeptOp.bind ?_ (fun _ => ?_)
      | with_reducible apply KeptRun.op

theorem writePieces_kept (c : CoreId) (x0 : List (Nat × Nat)) (x1 : List Byte) : KeptOp ((writePieces c x0 x1) : Op Unit) := by
  induction x0 generalizing c x1 with
  | nil =>
    unfold writePieces
    refine KeptOp.ofRun (fun r0 s h => ?_)
    repeat' first
      | intro _
      | with_reducible assumption
      | dsimp only
      | with_reducible apply KeptRun.ite
      | with_reducible apply KeptRun.getBind
      | with_reducible apply KeptRun.bind
      | with_reducible apply KeptRun.set
      | with_reducible apply KeptRun.modify
      | with_reducible apply KeptOp.ite
      | with_reducible apply Kept.ite
      | with_reducible apply Kept.dite
      | with_reducible apply KeptOp.pure
      | with_reducible apply KeptOp.throw
      | with_reducible apply KeptOp.get
      | with_reducible apply agentWrite_kept
      | with_reducible apply KeptOp.bind
      | with_reducible apply KeptOp.map
      | with_reducible apply KeptOp.modify
      | with_reducible apply KeptOp.modifyGet
      | with_reducible apply Kept.resOk
      | with_reducible apply Kept.resError
      | with_reducible apply Kept.refl
      | simp only [↓Kept.upd_eq]
      | with_reducible apply Kept.fold
      | with_reducible apply Kept.foldFst
      | refine KeptOp.ok (m := _) ?_ (by assumption) ?_
      | refine KeptOp.error (m := _) ?_ (by assumption) ?_
      | split
      | refine KeptOp.bind ?_ (fun _ => ?_)
      | with_reducible apply KeptRun.op
  | cons x xs ih =>
    unfold writePieces
    refine KeptOp.ofRun (fun r0 s h => ?_)
    repeat' first
      | with_reducible apply ih
      | intro _
      | with_reducible assumption
      | dsimp only
      | with_reducible apply KeptRun.ite
      | with_reducible apply KeptRun.getBind
      | with_reducible apply KeptRun.bind
      | with_reducible apply KeptRun.set
      | with_reducible apply KeptRun.modify
      | with_reducible apply KeptOp.ite
      | with_reducible apply Kept.ite
      | with_reducible apply Kept.dite
      | with_reducible apply KeptOp.pure
      | with_reducible apply KeptOp.throw
      | with_reducible apply KeptOp.get
      | with_reducible apply agentWrite_kept
      | with_reducible apply KeptOp.bind
      | with_reducible apply KeptOp.map
      | with_reducible apply KeptOp.modify
      | with_reducible apply KeptOp.modifyGet
      | with_reducible apply Kept.resOk
      | with_reducible apply Kept.resError
      | with_reducible apply Kept.refl
      | simp only [↓Kept.upd_eq]
      | with_reducible apply Kept.fold
      | with_reducible apply Kept.foldFst
      | refine KeptOp.ok (m := _) ?_ (by assumption) ?_
      | refine KeptOp.error (m := _) ?_ (by assumption) ?_
      | split
      | refine KeptOp.bind ?_ (fun _ => ?_)
      | with_reducible apply KeptRun.op

theorem tileRead_kept (c : CoreId) (va : U64) (n : Nat) : KeptOp ((tileRead c va n) : Op (List Byte)) := by
  unfold tileRead
  repeat' first
    | intro _
    | with_reducible assumption
    | dsimp only
    | with_reducible apply KeptOp.ite
    | with_reducible apply Kept.ite
    | with_reducible apply Kept.dite
    | with_reducible apply KeptOp.pure
    | with_reducible apply KeptOp.throw
    | with_reducible apply KeptOp.get
    | with_reducible apply readPieces_kept
    | with_reducible apply xlatePieces_kept
    | with_reducible apply KeptOp.bind
    | with_reducible apply KeptOp.map
    | with_reducible apply KeptOp.modify
    | with_reducible apply KeptOp.modifyGet
    | with_reducible apply Kept.resOk
    | with_reducible apply Kept.resError
    | with_reducible apply Kept.refl
    | simp only [↓Kept.upd_eq]
    | with_reducible apply Kept.fold
    | with_reducible apply Kept.foldFst
    | refine KeptOp.ok (m := _) ?_ (by assumption) ?_
    | refine KeptOp.error (m := _) ?_ (by assumption) ?_
    | split
    | refine KeptOp.bind ?_ (fun _ => ?_)
    | refine KeptOp.mk (fun s => ?_)

theorem tileWrite_kept (c : CoreId) (va : U64) (bs : List Byte) : KeptOp ((tileWrite c va bs) : Op Unit) := by
  unfold tileWrite
  repeat' first
    | intro _
    | with_reducible assumption
    | dsimp only
    | with_reducible apply KeptOp.ite
    | with_reducible apply Kept.ite
    | with_reducible apply Kept.dite
    | with_reducible apply KeptOp.pure
    | with_reducible apply KeptOp.throw
    | with_reducible apply KeptOp.get
    | with_reducible apply writePieces_kept
    | with_reducible apply xlatePieces_kept
    | with_reducible apply KeptOp.bind
    | with_reducible apply KeptOp.map
    | with_reducible apply KeptOp.modify
    | with_reducible apply KeptOp.modifyGet
    | with_reducible apply Kept.resOk
    | with_reducible apply Kept.resError
    | with_reducible apply Kept.refl
    | simp only [↓Kept.upd_eq]
    | with_reducible apply Kept.fold
    | with_reducible apply Kept.foldFst
    | refine KeptOp.ok (m := _) ?_ (by assumption) ?_
    | refine KeptOp.error (m := _) ?_ (by assumption) ?_
    | split
    | refine KeptOp.bind ?_ (fun _ => ?_)
    | refine KeptOp.mk (fun s => ?_)

theorem readRows_kept (c : CoreId) (x0 : List (U64 × Nat)) : KeptOp ((readRows c x0) : Op (List (List Byte))) := by
  induction x0 generalizing c with
  | nil =>
    unfold readRows
    repeat' first
      | intro _
      | with_reducible assumption
      | dsimp only
      | with_reducible apply KeptOp.ite
      | with_reducible apply Kept.ite
      | with_reducible apply Kept.dite
      | with_reducible apply KeptOp.pure
      | with_reducible apply KeptOp.throw
      | with_reducible apply KeptOp.get
      | with_reducible apply tileRead_kept
      | with_reducible apply KeptOp.bind
      | with_reducible apply KeptOp.map
      | with_reducible apply KeptOp.modify
      | with_reducible apply KeptOp.modifyGet
      | with_reducible apply Kept.resOk
      | with_reducible apply Kept.resError
      | with_reducible apply Kept.refl
      | simp only [↓Kept.upd_eq]
      | with_reducible apply Kept.fold
      | with_reducible apply Kept.foldFst
      | refine KeptOp.ok (m := _) ?_ (by assumption) ?_
      | refine KeptOp.error (m := _) ?_ (by assumption) ?_
      | split
      | refine KeptOp.bind ?_ (fun _ => ?_)
      | refine KeptOp.mk (fun s => ?_)
  | cons x xs ih =>
    unfold readRows
    repeat' first
      | with_reducible apply ih
      | intro _
      | with_reducible assumption
      | dsimp only
      | with_reducible apply KeptOp.ite
      | with_reducible apply Kept.ite
      | with_reducible apply Kept.dite
      | with_reducible apply KeptOp.pure
      | with_reducible apply KeptOp.throw
      | with_reducible apply KeptOp.get
      | with_reducible apply tileRead_kept
      | with_reducible apply KeptOp.bind
      | with_reducible apply KeptOp.map
      | with_reducible apply KeptOp.modify
      | with_reducible apply KeptOp.modifyGet
      | with_reducible apply Kept.resOk
      | with_reducible apply Kept.resError
      | with_reducible apply Kept.refl
      | simp only [↓Kept.upd_eq]
      | with_reducible apply Kept.fold
      | with_reducible apply Kept.foldFst
      | refine KeptOp.ok (m := _) ?_ (by assumption) ?_
      | refine KeptOp.error (m := _) ?_ (by assumption) ?_
      | split
      | refine KeptOp.bind ?_ (fun _ => ?_)
      | refine KeptOp.mk (fun s => ?_)

theorem writeRows_kept (c : CoreId) (x0 : List (U64 × List Byte)) : KeptOp ((writeRows c x0) : Op Unit) := by
  induction x0 generalizing c with
  | nil =>
    unfold writeRows
    repeat' first
      | intro _
      | with_reducible assumption
      | dsimp only
      | with_reducible apply KeptOp.ite
      | with_reducible apply Kept.ite
      | with_reducible apply Kept.dite
      | with_reducible apply KeptOp.pure
      | with_reducible apply KeptOp.throw
      | with_reducible apply KeptOp.get
      | with_reducible apply tileWrite_kept
      | with_reducible apply KeptOp.bind
      | with_reducible apply KeptOp.map
      | with_reducible apply KeptOp.modify
      | with_reducible apply KeptOp.modifyGet
      | with_reducible apply Kept.resOk
      | with_reducible apply Kept.resError
      | with_reducible apply Kept.refl
      | simp only [↓Kept.upd_eq]
      | with_reducible apply Kept.fold
      | with_reducible apply Kept.foldFst
      | refine KeptOp.ok (m := _) ?_ (by assumption) ?_
      | refine KeptOp.error (m := _) ?_ (by assumption) ?_
      | split
      | refine KeptOp.bind ?_ (fun _ => ?_)
      | refine KeptOp.mk (fun s => ?_)
  | cons x xs ih =>
    unfold writeRows
    repeat' first
      | with_reducible apply ih
      | intro _
      | with_reducible assumption
      | dsimp only
      | with_reducible apply KeptOp.ite
      | with_reducible apply Kept.ite
      | with_reducible apply Kept.dite
      | with_reducible apply KeptOp.pure
      | with_reducible apply KeptOp.throw
      | with_reducible apply KeptOp.get
      | with_reducible apply tileWrite_kept
      | with_reducible apply KeptOp.bind
      | with_reducible apply KeptOp.map
      | with_reducible apply KeptOp.modify
      | with_reducible apply KeptOp.modifyGet
      | with_reducible apply Kept.resOk
      | with_reducible apply Kept.resError
      | with_reducible apply Kept.refl
      | simp only [↓Kept.upd_eq]
      | with_reducible apply Kept.fold
      | with_reducible apply Kept.foldFst
      | refine KeptOp.ok (m := _) ?_ (by assumption) ?_
      | refine KeptOp.error (m := _) ?_ (by assumption) ?_
      | split
      | refine KeptOp.bind ?_ (fun _ => ?_)
      | refine KeptOp.mk (fun s => ?_)

theorem someRows_kept {r0 : State} (c : CoreId) (free : Nat) (x0 : List (U64 × List Byte)) (x1 : State) (h : Kept r0 x1) : Kept r0 (someRows c free x0 x1) := by
  induction x0 generalizing c free x1 with
  | nil =>
    unfold someRows
    repeat' first
      | intro _
      | with_reducible assumption
      | dsimp only
      | with_reducible apply Kept.ite
      | with_reducible apply Kept.dite
      | with_reducible apply KeptOp.pure
      | with_reducible apply KeptOp.throw
      | with_reducible apply KeptOp.get
      | with_reducible apply tileWrite_kept
      | with_reducible apply KeptOp.bind
      | with_reducible apply KeptOp.map
      | with_reducible apply KeptOp.modify
      | with_reducible apply KeptOp.modifyGet
      | with_reducible apply Kept.resOk
      | with_reducible apply Kept.resError
      | with_reducible apply Kept.refl
      | simp only [↓Kept.upd_eq]
      | with_reducible apply Kept.fold
      | with_reducible apply Kept.foldFst
      | refine KeptOp.ok (m := _) ?_ (by assumption) ?_
      | refine KeptOp.error (m := _) ?_ (by assumption) ?_
      | split
      | refine KeptOp.mk (fun s => ?_)
  | cons x xs ih =>
    unfold someRows
    repeat' first
      | with_reducible apply ih
      | intro _
      | with_reducible assumption
      | dsimp only
      | with_reducible apply Kept.ite
      | with_reducible apply Kept.dite
      | with_reducible apply KeptOp.pure
      | with_reducible apply KeptOp.throw
      | with_reducible apply KeptOp.get
      | with_reducible apply tileWrite_kept
      | with_reducible apply KeptOp.bind
      | with_reducible apply KeptOp.map
      | with_reducible apply KeptOp.modify
      | with_reducible apply KeptOp.modifyGet
      | with_reducible apply Kept.resOk
      | with_reducible apply Kept.resError
      | with_reducible apply Kept.refl
      | simp only [↓Kept.upd_eq]
      | with_reducible apply Kept.fold
      | with_reducible apply Kept.foldFst
      | refine KeptOp.ok (m := _) ?_ (by assumption) ?_
      | refine KeptOp.error (m := _) ?_ (by assumption) ?_
      | split
      | refine KeptOp.mk (fun s => ?_)

theorem storeRows_kept (c : CoreId) (rows : List (U64 × List Byte)) : KeptOp ((storeRows c rows) : Op Unit) := by
  unfold storeRows
  repeat' first
    | intro _
    | with_reducible assumption
    | dsimp only
    | with_reducible apply KeptOp.ite
    | with_reducible apply Kept.ite
    | with_reducible apply Kept.dite
    | with_reducible apply KeptOp.pure
    | with_reducible apply KeptOp.throw
    | with_reducible apply KeptOp.get
    | with_reducible apply someRows_kept
    | with_reducible apply writeRows_kept
    | with_reducible apply KeptOp.bind
    | with_reducible apply KeptOp.map
    | with_reducible apply KeptOp.modify
    | with_reducible apply KeptOp.modifyGet
    | with_reducible apply Kept.resOk
    | with_reducible apply Kept.resError
    | with_reducible apply Kept.refl
    | simp only [↓Kept.upd_eq]
    | with_reducible apply Kept.fold
    | with_reducible apply Kept.foldFst
    | refine KeptOp.ok (m := _) ?_ (by assumption) ?_
    | refine KeptOp.error (m := _) ?_ (by assumption) ?_
    | split
    | refine KeptOp.bind ?_ (fun _ => ?_)
    | refine KeptOp.mk (fun s => ?_)

theorem enqueue_kept (c : CoreId) (op : TileOp) (sem : Option Nat) : KeptOp ((enqueue c op sem) : Op Unit) := by
  unfold enqueue
  repeat' first
    | intro _
    | with_reducible assumption
    | dsimp only
    | with_reducible apply KeptOp.ite
    | with_reducible apply Kept.ite
    | with_reducible apply Kept.dite
    | with_reducible apply KeptOp.pure
    | with_reducible apply KeptOp.throw
    | with_reducible apply KeptOp.get
    | with_reducible apply modC_kept
    | with_reducible apply pcOf_kept
    | with_reducible apply KeptOp.bind
    | with_reducible apply KeptOp.map
    | with_reducible apply KeptOp.modify
    | with_reducible apply KeptOp.modifyGet
    | with_reducible apply Kept.resOk
    | with_reducible apply Kept.resError
    | with_reducible apply Kept.refl
    | simp only [↓Kept.upd_eq]
    | with_reducible apply Kept.fold
    | with_reducible apply Kept.foldFst
    | refine KeptOp.ok (m := _) ?_ (by assumption) ?_
    | refine KeptOp.error (m := _) ?_ (by assumption) ?_
    | split
    | refine KeptOp.bind ?_ (fun _ => ?_)
    | refine KeptOp.mk (fun s => ?_)

theorem enqueueBehind_kept (c : CoreId) (op : TileOp) : KeptOp ((enqueueBehind c op) : Op Unit) := by
  unfold enqueueBehind
  repeat' first
    | intro _
    | with_reducible assumption
    | dsimp only
    | with_reducible apply KeptOp.ite
    | with_reducible apply Kept.ite
    | with_reducible apply Kept.dite
    | with_reducible apply KeptOp.pure
    | with_reducible apply KeptOp.throw
    | with_reducible apply KeptOp.get
    | with_reducible apply enqueue_kept
    | with_reducible apply tileOf_kept
    | with_reducible apply KeptOp.bind
    | with_reducible apply KeptOp.map
    | with_reducible apply KeptOp.modify
    | with_reducible apply KeptOp.modifyGet
    | with_reducible apply Kept.resOk
    | with_reducible apply Kept.resError
    | with_reducible apply Kept.refl
    | simp only [↓Kept.upd_eq]
    | with_reducible apply Kept.fold
    | with_reducible apply Kept.foldFst
    | refine KeptOp.ok (m := _) ?_ (by assumption) ?_
    | refine KeptOp.error (m := _) ?_ (by assumption) ?_
    | split
    | refine KeptOp.bind ?_ (fun _ => ?_)
    | refine KeptOp.mk (fun s => ?_)

theorem semReserve_kept (c : CoreId) (en : Bool) (p : Nat) : KeptOp ((semReserve c en p) : Op Unit) := by
  unfold semReserve
  repeat' first
    | intro _
    | with_reducible assumption
    | dsimp only
    | with_reducible apply KeptOp.ite
    | with_reducible apply Kept.ite
    | with_reducible apply Kept.dite
    | with_reducible apply KeptOp.pure
    | with_reducible apply KeptOp.throw
    | with_reducible apply KeptOp.get
    | with_reducible apply modC_kept
    | with_reducible apply coreOf_kept
    | with_reducible apply trapIf_kept
    | with_reducible apply KeptOp.bind
    | with_reducible apply KeptOp.map
    | with_reducible apply KeptOp.modify
    | with_reducible apply KeptOp.modifyGet
    | with_reducible apply Kept.resOk
    | with_reducible apply Kept.resError
    | with_reducible apply Kept.refl
    | simp only [↓Kept.upd_eq]
    | with_reducible apply Kept.fold
    | with_reducible apply Kept.foldFst
    | refine KeptOp.ok (m := _) ?_ (by assumption) ?_
    | refine KeptOp.error (m := _) ?_ (by assumption) ?_
    | split
    | refine KeptOp.bind ?_ (fun _ => ?_)
    | refine KeptOp.mk (fun s => ?_)

theorem queueRoom_kept (c : CoreId) : KeptOp ((queueRoom c) : Op Unit) := by
  unfold queueRoom
  repeat' first
    | intro _
    | with_reducible assumption
    | dsimp only
    | with_reducible apply KeptOp.ite
    | with_reducible apply Kept.ite
    | with_reducible apply Kept.dite
    | with_reducible apply KeptOp.pure
    | with_reducible apply KeptOp.throw
    | with_reducible apply KeptOp.get
    | with_reducible apply tileOf_kept
    | with_reducible apply waitIf_kept
    | with_reducible apply KeptOp.bind
    | with_reducible apply KeptOp.map
    | with_reducible apply KeptOp.modify
    | with_reducible apply KeptOp.modifyGet
    | with_reducible apply Kept.resOk
    | with_reducible apply Kept.resError
    | with_reducible apply Kept.refl
    | simp only [↓Kept.upd_eq]
    | with_reducible apply Kept.fold
    | with_reducible apply Kept.foldFst
    | refine KeptOp.ok (m := _) ?_ (by assumption) ?_
    | refine KeptOp.error (m := _) ?_ (by assumption) ?_
    | split
    | refine KeptOp.bind ?_ (fun _ => ?_)
    | refine KeptOp.mk (fun s => ?_)

theorem waitFed_kept (c : CoreId) (reg : Nat) : KeptOp ((waitFed c reg) : Op Unit) := by
  unfold waitFed
  repeat' first
    | intro _
    | with_reducible assumption
    | dsimp only
    | with_reducible apply KeptOp.ite
    | with_reducible apply Kept.ite
    | with_reducible apply Kept.dite
    | with_reducible apply KeptOp.pure
    | with_reducible apply KeptOp.throw
    | with_reducible apply KeptOp.get
    | with_reducible apply waitIf_kept
    | with_reducible apply KeptOp.bind
    | with_reducible apply KeptOp.map
    | with_reducible apply KeptOp.modify
    | with_reducible apply KeptOp.modifyGet
    | with_reducible apply Kept.resOk
    | with_reducible apply Kept.resError
    | with_reducible apply Kept.refl
    | simp only [↓Kept.upd_eq]
    | with_reducible apply Kept.fold
    | with_reducible apply Kept.foldFst
    | refine KeptOp.ok (m := _) ?_ (by assumption) ?_
    | refine KeptOp.error (m := _) ?_ (by assumption) ?_
    | split
    | refine KeptOp.bind ?_ (fun _ => ?_)
    | refine KeptOp.mk (fun s => ?_)

theorem waitLoaded_kept (c : CoreId) (reg : Nat) : KeptOp ((waitLoaded c reg) : Op Unit) := by
  unfold waitLoaded
  repeat' first
    | intro _
    | with_reducible assumption
    | dsimp only
    | with_reducible apply KeptOp.ite
    | with_reducible apply Kept.ite
    | with_reducible apply Kept.dite
    | with_reducible apply KeptOp.pure
    | with_reducible apply KeptOp.throw
    | with_reducible apply KeptOp.get
    | with_reducible apply tileOf_kept
    | with_reducible apply waitIf_kept
    | with_reducible apply KeptOp.bind
    | with_reducible apply KeptOp.map
    | with_reducible apply KeptOp.modify
    | with_reducible apply KeptOp.modifyGet
    | with_reducible apply Kept.resOk
    | with_reducible apply Kept.resError
    | with_reducible apply Kept.refl
    | simp only [↓Kept.upd_eq]
    | with_reducible apply Kept.fold
    | with_reducible apply Kept.foldFst
    | refine KeptOp.ok (m := _) ?_ (by assumption) ?_
    | refine KeptOp.error (m := _) ?_ (by assumption) ?_
    | split
    | refine KeptOp.bind ?_ (fun _ => ?_)
    | refine KeptOp.mk (fun s => ?_)

theorem freshTile_kept (c : CoreId) : KeptOp ((freshTile c) : Op Nat) := by
  unfold freshTile
  repeat' first
    | intro _
    | with_reducible assumption
    | dsimp only
    | with_reducible apply KeptOp.ite
    | with_reducible apply Kept.ite
    | with_reducible apply Kept.dite
    | with_reducible apply KeptOp.pure
    | with_reducible apply KeptOp.throw
    | with_reducible apply KeptOp.get
    | with_reducible apply tileOf_kept
    | with_reducible apply waitIf_kept
    | with_reducible apply KeptOp.bind
    | with_reducible apply KeptOp.map
    | with_reducible apply KeptOp.modify
    | with_reducible apply KeptOp.modifyGet
    | with_reducible apply Kept.resOk
    | with_reducible apply Kept.resError
    | with_reducible apply Kept.refl
    | simp only [↓Kept.upd_eq]
    | with_reducible apply Kept.fold
    | with_reducible apply Kept.foldFst
    | refine KeptOp.ok (m := _) ?_ (by assumption) ?_
    | refine KeptOp.error (m := _) ?_ (by assumption) ?_
    | split
    | refine KeptOp.bind ?_ (fun _ => ?_)
    | refine KeptOp.mk (fun s => ?_)

theorem eccError_kept {r0 : State} (c : CoreId) (s : State) (double : Bool) (h : Kept r0 s) : Kept r0 (eccError c s double) := by
  unfold eccError
  repeat' first
    | intro _
    | with_reducible assumption
    | dsimp only
    | with_reducible apply Kept.ite
    | with_reducible apply Kept.dite
    | with_reducible apply machineCheck_kept
    | with_reducible apply State.modCore_kept
    | with_reducible apply Kept.refl
    | simp only [↓Kept.upd_eq]
    | with_reducible apply Kept.fold
    | with_reducible apply Kept.foldFst
    | split

theorem eccErrors_kept (c : CoreId) (es : List Bool) : KeptOp ((eccErrors c es) : Op Unit) := by
  unfold eccErrors
  repeat' first
    | intro _
    | with_reducible assumption
    | dsimp only
    | with_reducible apply KeptOp.ite
    | with_reducible apply Kept.ite
    | with_reducible apply Kept.dite
    | with_reducible apply KeptOp.pure
    | with_reducible apply KeptOp.throw
    | with_reducible apply KeptOp.get
    | with_reducible apply eccError_kept
    | with_reducible apply KeptOp.bind
    | with_reducible apply KeptOp.map
    | with_reducible apply KeptOp.modify
    | with_reducible apply KeptOp.modifyGet
    | with_reducible apply Kept.resOk
    | with_reducible apply Kept.resError
    | with_reducible apply Kept.refl
    | simp only [↓Kept.upd_eq]
    | with_reducible apply Kept.fold
    | with_reducible apply Kept.foldFst
    | refine KeptOp.ok (m := _) ?_ (by assumption) ?_
    | refine KeptOp.error (m := _) ?_ (by assumption) ?_
    | split
    | refine KeptOp.bind ?_ (fun _ => ?_)
    | refine KeptOp.mk (fun s => ?_)

theorem tcfgBody_kept (c : CoreId) (f : BitVec 26) : KeptOp ((tcfgBody c f) : Op U64) := by
  unfold tcfgBody
  repeat' first
    | intro _
    | with_reducible assumption
    | dsimp only
    | with_reducible apply KeptOp.ite
    | with_reducible apply Kept.ite
    | with_reducible apply Kept.dite
    | with_reducible apply KeptOp.pure
    | with_reducible apply KeptOp.throw
    | with_reducible apply KeptOp.get
    | with_reducible apply needTile_kept
    | with_reducible apply modT_kept
    | with_reducible apply nextPC_kept
    | with_reducible apply rdD_kept
    | with_reducible apply trapIf_kept
    | with_reducible apply illegalIf_kept
    | with_reducible apply KeptOp.bind
    | with_reducible apply KeptOp.map
    | with_reducible apply KeptOp.modify
    | with_reducible apply KeptOp.modifyGet
    | with_reducible apply Kept.resOk
    | with_reducible apply Kept.resError
    | with_reducible apply Kept.refl
    | simp only [↓Kept.upd_eq]
    | with_reducible apply Kept.fold
    | with_reducible apply Kept.foldFst
    | refine KeptOp.ok (m := _) ?_ (by assumption) ?_
    | refine KeptOp.error (m := _) ?_ (by assumption) ?_
    | split
    | refine KeptOp.bind ?_ (fun _ => ?_)
    | refine KeptOp.mk (fun s => ?_)

theorem execTcfg_kept {r0 : State} (c : CoreId) (f : BitVec 26) (s : State) (h : Kept r0 s) : KeptOut r0 (execTcfg c f s) := by
  unfold execTcfg
  repeat' first
    | intro _
    | with_reducible assumption
    | dsimp only
    | with_reducible apply KeptOut.ite
    | with_reducible apply KeptOut.next
    | with_reducible apply KeptOut.fault
    | with_reducible apply Kept.ite
    | with_reducible apply Kept.dite
    | with_reducible apply KeptOp.pure
    | with_reducible apply KeptOp.throw
    | with_reducible apply KeptOp.get
    | with_reducible apply tcfgBody_kept
    | with_reducible apply issue_kept
    | with_reducible apply KeptOp.bind
    | with_reducible apply KeptOp.map
    | with_reducible apply KeptOp.modify
    | with_reducible apply KeptOp.modifyGet
    | with_reducible apply Kept.resOk
    | with_reducible apply Kept.resError
    | with_reducible apply Kept.refl
    | simp only [↓Kept.upd_eq]
    | with_reducible apply Kept.fold
    | with_reducible apply Kept.foldFst
    | refine KeptOp.ok (m := _) ?_ (by assumption) ?_
    | refine KeptOp.error (m := _) ?_ (by assumption) ?_
    | split
    | refine KeptOp.mk (fun s => ?_)

theorem tileMemOf_kept (c : CoreId) (p : Option (BitVec 26)) (isTld : Bool) (f : BitVec 26) : KeptOp ((tileMemOf c p isTld f) : Op TileMem) := by
  unfold tileMemOf
  repeat' first
    | intro _
    | with_reducible assumption
    | dsimp only
    | with_reducible apply KeptOp.ite
    | with_reducible apply Kept.ite
    | with_reducible apply Kept.dite
    | with_reducible apply KeptOp.pure
    | with_reducible apply KeptOp.throw
    | with_reducible apply KeptOp.get
    | with_reducible apply needTile_kept
    | with_reducible apply rdA_kept
    | with_reducible apply illegalIf_kept
    | with_reducible apply KeptOp.bind
    | with_reducible apply KeptOp.map
    | with_reducible apply KeptOp.modify
    | with_reducible apply KeptOp.modifyGet
    | with_reducible apply Kept.resOk
    | with_reducible apply Kept.resError
    | with_reducible apply Kept.refl
    | simp only [↓Kept.upd_eq]
    | with_reducible apply Kept.fold
    | with_reducible apply Kept.foldFst
    | refine KeptOp.ok (m := _) ?_ (by assumption) ?_
    | refine KeptOp.error (m := _) ?_ (by assumption) ?_
    | split
    | refine KeptOp.bind ?_ (fun _ => ?_)
    | refine KeptOp.mk (fun s => ?_)

theorem TileMem.aligned_kept (m : TileMem) : KeptOp ((TileMem.aligned m) : Op Unit) := by
  unfold TileMem.aligned
  repeat' first
    | intro _
    | with_reducible assumption
    | dsimp only
    | with_reducible apply KeptOp.ite
    | with_reducible apply Kept.ite
    | with_reducible apply Kept.dite
    | with_reducible apply KeptOp.pure
    | with_reducible apply KeptOp.throw
    | with_reducible apply KeptOp.get
    | with_reducible apply trapIf_kept
    | with_reducible apply KeptOp.bind
    | with_reducible apply KeptOp.map
    | with_reducible apply KeptOp.modify
    | with_reducible apply KeptOp.modifyGet
    | with_reducible apply Kept.resOk
    | with_reducible apply Kept.resError
    | with_reducible apply Kept.refl
    | simp only [↓Kept.upd_eq]
    | with_reducible apply Kept.fold
    | with_reducible apply Kept.foldFst
    | refine KeptOp.ok (m := _) ?_ (by assumption) ?_
    | refine KeptOp.error (m := _) ?_ (by assumption) ?_
    | split
    | refine KeptOp.bind ?_ (fun _ => ?_)
    | refine KeptOp.mk (fun s => ?_)

theorem tldAbandon_kept {r0 : State} (c : CoreId) (m : TileMem) (t : TileReg) (s : State) (h : Kept r0 s) : Kept r0 (tldAbandon c m t s) := by
  unfold tldAbandon
  repeat' first
    | intro _
    | with_reducible assumption
    | dsimp only
    | with_reducible apply Kept.ite
    | with_reducible apply Kept.dite
    | with_reducible apply State.modCore_kept
    | with_reducible apply Kept.refl
    | simp only [↓Kept.upd_eq]
    | with_reducible apply Kept.fold
    | with_reducible apply Kept.foldFst
    | split

theorem tldRead_kept (c : CoreId) (m : TileMem) (t : TileReg) : KeptOp ((tldRead c m t) : Op (List (List Byte) × List (List Byte))) := by
  unfold tldRead
  repeat' first
    | intro _
    | with_reducible assumption
    | dsimp only
    | with_reducible apply KeptOp.ite
    | with_reducible apply Kept.ite
    | with_reducible apply Kept.dite
    | with_reducible apply KeptOp.pure
    | with_reducible apply KeptOp.throw
    | with_reducible apply KeptOp.get
    | with_reducible apply tldAbandon_kept
    | with_reducible apply readRows_kept
    | with_reducible apply KeptOp.bind
    | with_reducible apply KeptOp.map
    | with_reducible apply KeptOp.modify
    | with_reducible apply KeptOp.modifyGet
    | with_reducible apply Kept.resOk
    | with_reducible apply Kept.resError
    | with_reducible apply Kept.refl
    | simp only [↓Kept.upd_eq]
    | with_reducible apply Kept.fold
    | with_reducible apply Kept.foldFst
    | refine KeptOp.ok (m := _) ?_ (by assumption) ?_
    | refine KeptOp.error (m := _) ?_ (by assumption) ?_
    | split
    | refine KeptOp.bind ?_ (fun _ => ?_)
    | refine KeptOp.mk (fun s => ?_)

theorem tldBody_kept (c : CoreId) (p : Option (BitVec 26)) (f : BitVec 26) : KeptOp ((tldBody c p f) : Op U64) := by
  unfold tldBody
  repeat' first
    | intro _
    | with_reducible assumption
    | dsimp only
    | with_reducible apply KeptOp.ite
    | with_reducible apply Kept.ite
    | with_reducible apply Kept.dite
    | with_reducible apply KeptOp.pure
    | with_reducible apply KeptOp.throw
    | with_reducible apply KeptOp.get
    | with_reducible apply tldRead_kept
    | with_reducible apply TileMem.aligned_kept
    | with_reducible apply tileMemOf_kept
    | with_reducible apply waitFed_kept
    | with_reducible apply queueRoom_kept
    | with_reducible apply semReserve_kept
    | with_reducible apply enqueue_kept
    | with_reducible apply modT_kept
    | with_reducible apply tileOf_kept
    | with_reducible apply nextPC_kept
    | with_reducible apply coreOf_kept
    | with_reducible apply trapIf_kept
    | with_reducible apply KeptOp.bind
    | with_reducible apply KeptOp.map
    | with_reducible apply KeptOp.modify
    | with_reducible apply KeptOp.modifyGet
    | with_reducible apply Kept.resOk
    | with_reducible apply Kept.resError
    | with_reducible apply Kept.refl
    | simp only [↓Kept.upd_eq]
    | with_reducible apply Kept.fold
    | with_reducible apply Kept.foldFst
    | refine KeptOp.ok (m := _) ?_ (by assumption) ?_
    | refine KeptOp.error (m := _) ?_ (by assumption) ?_
    | split
    | refine KeptOp.bind ?_ (fun _ => ?_)
    | refine KeptOp.mk (fun s => ?_)

theorem execTld_kept {r0 : State} (c : CoreId) (p : Option (BitVec 26)) (hi : BitVec 17) (lo : BitVec 7) (s : State) (h : Kept r0 s) : KeptOut r0 (execTld c p hi lo s) := by
  unfold execTld
  repeat' first
    | intro _
    | with_reducible assumption
    | dsimp only
    | with_reducible apply KeptOut.ite
    | with_reducible apply KeptOut.next
    | with_reducible apply KeptOut.fault
    | with_reducible apply Kept.ite
    | with_reducible apply Kept.dite
    | with_reducible apply KeptOp.pure
    | with_reducible apply KeptOp.throw
    | with_reducible apply KeptOp.get
    | with_reducible apply tldBody_kept
    | with_reducible apply issue_kept
    | with_reducible apply KeptOp.bind
    | with_reducible apply KeptOp.map
    | with_reducible apply KeptOp.modify
    | with_reducible apply KeptOp.modifyGet
    | with_reducible apply Kept.resOk
    | with_reducible apply Kept.resError
    | with_reducible apply Kept.refl
    | simp only [↓Kept.upd_eq]
    | with_reducible apply Kept.fold
    | with_reducible apply Kept.foldFst
    | refine KeptOp.ok (m := _) ?_ (by assumption) ?_
    | refine KeptOp.error (m := _) ?_ (by assumption) ?_
    | split
    | refine KeptOp.mk (fun s => ?_)

theorem tstBody_kept (c : CoreId) (p : Option (BitVec 26)) (f : BitVec 26) (ecc : List Bool) : KeptOp ((tstBody c p f ecc) : Op U64) := by
  unfold tstBody
  repeat' first
    | intro _
    | with_reducible assumption
    | dsimp only
    | with_reducible apply KeptOp.ite
    | with_reducible apply Kept.ite
    | with_reducible apply Kept.dite
    | with_reducible apply KeptOp.pure
    | with_reducible apply KeptOp.throw
    | with_reducible apply KeptOp.get
    | with_reducible apply TileMem.aligned_kept
    | with_reducible apply tileMemOf_kept
    | with_reducible apply eccErrors_kept
    | with_reducible apply storeRows_kept
    | with_reducible apply tileOf_kept
    | with_reducible apply nextPC_kept
    | with_reducible apply trapIf_kept
    | with_reducible apply KeptOp.bind
    | with_reducible apply KeptOp.map
    | with_reducible apply KeptOp.modify
    | with_reducible apply KeptOp.modifyGet
    | with_reducible apply Kept.resOk
    | with_reducible apply Kept.resError
    | with_reducible apply Kept.refl
    | simp only [↓Kept.upd_eq]
    | with_reducible apply Kept.fold
    | with_reducible apply Kept.foldFst
    | refine KeptOp.ok (m := _) ?_ (by assumption) ?_
    | refine KeptOp.error (m := _) ?_ (by assumption) ?_
    | split
    | refine KeptOp.bind ?_ (fun _ => ?_)
    | refine KeptOp.mk (fun s => ?_)

theorem execTst_kept {r0 : State} (c : TileReader) (p : Option (BitVec 26)) (hi : BitVec 17) (lo : BitVec 7) (s : State) (h : Kept r0 s) : KeptOut r0 (execTst c p hi lo s) := by
  unfold execTst
  repeat' first
    | intro _
    | with_reducible assumption
    | dsimp only
    | with_reducible apply KeptOut.ite
    | with_reducible apply KeptOut.next
    | with_reducible apply KeptOut.fault
    | with_reducible apply Kept.ite
    | with_reducible apply Kept.dite
    | with_reducible apply KeptOp.pure
    | with_reducible apply KeptOp.throw
    | with_reducible apply KeptOp.get
    | with_reducible apply tstBody_kept
    | with_reducible apply issue_kept
    | with_reducible apply KeptOp.bind
    | with_reducible apply KeptOp.map
    | with_reducible apply KeptOp.modify
    | with_reducible apply KeptOp.modifyGet
    | with_reducible apply Kept.resOk
    | with_reducible apply Kept.resError
    | with_reducible apply Kept.refl
    | simp only [↓Kept.upd_eq]
    | with_reducible apply Kept.fold
    | with_reducible apply Kept.foldFst
    | refine KeptOp.ok (m := _) ?_ (by assumption) ?_
    | refine KeptOp.error (m := _) ?_ (by assumption) ?_
    | split
    | refine KeptOp.mk (fun s => ?_)

theorem zldBody_kept (c : CoreId) (f : BitVec 26) : KeptOp ((zldBody c f) : Op U64) := by
  unfold zldBody
  repeat' first
    | intro _
    | with_reducible assumption
    | dsimp only
    | with_reducible apply KeptOp.ite
    | with_reducible apply Kept.ite
    | with_reducible apply Kept.dite
    | with_reducible apply KeptOp.pure
    | with_reducible apply KeptOp.throw
    | with_reducible apply KeptOp.get
    | with_reducible apply TileMem.aligned_kept
    | with_reducible apply tileMemOf_kept
    | with_reducible apply freshTile_kept
    | with_reducible apply queueRoom_kept
    | with_reducible apply enqueueBehind_kept
    | with_reducible apply readRows_kept
    | with_reducible apply modT_kept
    | with_reducible apply tileOf_kept
    | with_reducible apply nextPC_kept
    | with_reducible apply KeptOp.bind
    | with_reducible apply KeptOp.map
    | with_reducible apply KeptOp.modify
    | with_reducible apply KeptOp.modifyGet
    | with_reducible apply Kept.resOk
    | with_reducible apply Kept.resError
    | with_reducible apply Kept.refl
    | simp only [↓Kept.upd_eq]
    | with_reducible apply Kept.fold
    | with_reducible apply Kept.foldFst
    | refine KeptOp.ok (m := _) ?_ (by assumption) ?_
    | refine KeptOp.error (m := _) ?_ (by assumption) ?_
    | split
    | refine KeptOp.bind ?_ (fun _ => ?_)
    | refine KeptOp.mk (fun s => ?_)

theorem execZld_kept {r0 : State} (c : CoreId) (hi : BitVec 17) (lo : BitVec 7) (s : State) (h : Kept r0 s) : KeptOut r0 (execZld c hi lo s) := by
  unfold execZld
  repeat' first
    | intro _
    | with_reducible assumption
    | dsimp only
    | with_reducible apply KeptOut.ite
    | with_reducible apply KeptOut.next
    | with_reducible apply KeptOut.fault
    | with_reducible apply Kept.ite
    | with_reducible apply Kept.dite
    | with_reducible apply KeptOp.pure
    | with_reducible apply KeptOp.throw
    | with_reducible apply KeptOp.get
    | with_reducible apply zldBody_kept
    | with_reducible apply issue_kept
    | with_reducible apply KeptOp.bind
    | with_reducible apply KeptOp.map
    | with_reducible apply KeptOp.modify
    | with_reducible apply KeptOp.modifyGet
    | with_reducible apply Kept.resOk
    | with_reducible apply Kept.resError
    | with_reducible apply Kept.refl
    | simp only [↓Kept.upd_eq]
    | with_reducible apply Kept.fold
    | with_reducible apply Kept.foldFst
    | refine KeptOp.ok (m := _) ?_ (by assumption) ?_
    | refine KeptOp.error (m := _) ?_ (by assumption) ?_
    | split
    | refine KeptOp.mk (fun s => ?_)

theorem zstBody_kept (c : CoreId) (f : BitVec 26) (ecc : List Bool) : KeptOp ((zstBody c f ecc) : Op U64) := by
  unfold zstBody
  repeat' first
    | intro _
    | with_reducible assumption
    | dsimp only
    | with_reducible apply KeptOp.ite
    | with_reducible apply Kept.ite
    | with_reducible apply Kept.dite
    | with_reducible apply KeptOp.pure
    | with_reducible apply KeptOp.throw
    | with_reducible apply KeptOp.get
    | with_reducible apply TileMem.aligned_kept
    | with_reducible apply tileMemOf_kept
    | with_reducible apply eccErrors_kept
    | with_reducible apply storeRows_kept
    | with_reducible apply tileOf_kept
    | with_reducible apply nextPC_kept
    | with_reducible apply KeptOp.bind
    | with_reducible apply KeptOp.map
    | with_reducible apply KeptOp.modify
    | with_reducible apply KeptOp.modifyGet
    | with_reducible apply Kept.resOk
    | with_reducible apply Kept.resError
    | with_reducible apply Kept.refl
    | simp only [↓Kept.upd_eq]
    | with_reducible apply Kept.fold
    | with_reducible apply Kept.foldFst
    | refine KeptOp.ok (m := _) ?_ (by assumption) ?_
    | refine KeptOp.error (m := _) ?_ (by assumption) ?_
    | split
    | refine KeptOp.bind ?_ (fun _ => ?_)
    | refine KeptOp.mk (fun s => ?_)

theorem execZst_kept {r0 : State} (c : TileReader) (hi : BitVec 17) (lo : BitVec 7) (s : State) (h : Kept r0 s) : KeptOut r0 (execZst c hi lo s) := by
  unfold execZst
  repeat' first
    | intro _
    | with_reducible assumption
    | dsimp only
    | with_reducible apply KeptOut.ite
    | with_reducible apply KeptOut.next
    | with_reducible apply KeptOut.fault
    | with_reducible apply Kept.ite
    | with_reducible apply Kept.dite
    | with_reducible apply KeptOp.pure
    | with_reducible apply KeptOp.throw
    | with_reducible apply KeptOp.get
    | with_reducible apply zstBody_kept
    | with_reducible apply issue_kept
    | with_reducible apply KeptOp.bind
    | with_reducible apply KeptOp.map
    | with_reducible apply KeptOp.modify
    | with_reducible apply KeptOp.modifyGet
    | with_reducible apply Kept.resOk
    | with_reducible apply Kept.resError
    | with_reducible apply Kept.refl
    | simp only [↓Kept.upd_eq]
    | with_reducible apply Kept.fold
    | with_reducible apply Kept.foldFst
    | refine KeptOp.ok (m := _) ?_ (by assumption) ?_
    | refine KeptOp.error (m := _) ?_ (by assumption) ?_
    | split
    | refine KeptOp.mk (fun s => ?_)

theorem needArray_kept (c : CoreId) : KeptOp ((needArray c) : Op Unit) := by
  unfold needArray
  repeat' first
    | intro _
    | with_reducible assumption
    | dsimp only
    | with_reducible apply KeptOp.ite
    | with_reducible apply Kept.ite
    | with_reducible apply Kept.dite
    | with_reducible apply KeptOp.pure
    | with_reducible apply KeptOp.throw
    | with_reducible apply KeptOp.get
    | with_reducible apply modT_kept
    | with_reducible apply tileOf_kept
    | with_reducible apply KeptOp.bind
    | with_reducible apply KeptOp.map
    | with_reducible apply KeptOp.modify
    | with_reducible apply KeptOp.modifyGet
    | with_reducible apply Kept.resOk
    | with_reducible apply Kept.resError
    | with_reducible apply Kept.refl
    | simp only [↓Kept.upd_eq]
    | with_reducible apply Kept.fold
    | with_reducible apply Kept.foldFst
    | refine KeptOp.ok (m := _) ?_ (by assumption) ?_
    | refine KeptOp.error (m := _) ?_ (by assumption) ?_
    | split
    | refine KeptOp.bind ?_ (fun _ => ?_)
    | refine KeptOp.mk (fun s => ?_)

theorem freeBuf_kept (c : CoreId) : KeptOp ((freeBuf c) : Op Nat) := by
  unfold freeBuf
  repeat' first
    | intro _
    | with_reducible assumption
    | dsimp only
    | with_reducible apply KeptOp.ite
    | with_reducible apply Kept.ite
    | with_reducible apply Kept.dite
    | with_reducible apply KeptOp.pure
    | with_reducible apply KeptOp.throw
    | with_reducible apply KeptOp.get
    | with_reducible apply tileOf_kept
    | with_reducible apply KeptOp.bind
    | with_reducible apply KeptOp.map
    | with_reducible apply KeptOp.modify
    | with_reducible apply KeptOp.modifyGet
    | with_reducible apply Kept.resOk
    | with_reducible apply Kept.resError
    | with_reducible apply Kept.refl
    | simp only [↓Kept.upd_eq]
    | with_reducible apply Kept.fold
    | with_reducible apply Kept.foldFst
    | refine KeptOp.ok (m := _) ?_ (by assumption) ?_
    | refine KeptOp.error (m := _) ?_ (by assumption) ?_
    | split
    | refine KeptOp.bind ?_ (fun _ => ?_)
    | refine KeptOp.mk (fun s => ?_)

theorem tlwBody_kept (c : CoreId) (f : BitVec 26) : KeptOp ((tlwBody c f) : Op U64) := by
  unfold tlwBody
  repeat' first
    | intro _
    | with_reducible assumption
    | dsimp only
    | with_reducible apply KeptOp.ite
    | with_reducible apply Kept.ite
    | with_reducible apply Kept.dite
    | with_reducible apply KeptOp.pure
    | with_reducible apply KeptOp.throw
    | with_reducible apply KeptOp.get
    | with_reducible apply freeBuf_kept
    | with_reducible apply needArray_kept
    | with_reducible apply queueRoom_kept
    | with_reducible apply semReserve_kept
    | with_reducible apply enqueue_kept
    | with_reducible apply tileRead_kept
    | with_reducible apply needTile_kept
    | with_reducible apply modT_kept
    | with_reducible apply tileOf_kept
    | with_reducible apply nextPC_kept
    | with_reducible apply rdA_kept
    | with_reducible apply trapIf_kept
    | with_reducible apply illegalIf_kept
    | with_reducible apply KeptOp.bind
    | with_reducible apply KeptOp.map
    | with_reducible apply KeptOp.modify
    | with_reducible apply KeptOp.modifyGet
    | with_reducible apply Kept.resOk
    | with_reducible apply Kept.resError
    | with_reducible apply Kept.refl
    | simp only [↓Kept.upd_eq]
    | with_reducible apply Kept.fold
    | with_reducible apply Kept.foldFst
    | refine KeptOp.ok (m := _) ?_ (by assumption) ?_
    | refine KeptOp.error (m := _) ?_ (by assumption) ?_
    | split
    | refine KeptOp.bind ?_ (fun _ => ?_)
    | refine KeptOp.mk (fun s => ?_)

theorem execTlw_kept {r0 : State} (c : CoreId) (f : BitVec 26) (s : State) (h : Kept r0 s) : KeptOut r0 (execTlw c f s) := by
  unfold execTlw
  repeat' first
    | intro _
    | with_reducible assumption
    | dsimp only
    | with_reducible apply KeptOut.ite
    | with_reducible apply KeptOut.next
    | with_reducible apply KeptOut.fault
    | with_reducible apply Kept.ite
    | with_reducible apply Kept.dite
    | with_reducible apply KeptOp.pure
    | with_reducible apply KeptOp.throw
    | with_reducible apply KeptOp.get
    | with_reducible apply tlwBody_kept
    | with_reducible apply issue_kept
    | with_reducible apply KeptOp.bind
    | with_reducible apply KeptOp.map
    | with_reducible apply KeptOp.modify
    | with_reducible apply KeptOp.modifyGet
    | with_reducible apply Kept.resOk
    | with_reducible apply Kept.resError
    | with_reducible apply Kept.refl
    | simp only [↓Kept.upd_eq]
    | with_reducible apply Kept.fold
    | with_reducible apply Kept.foldFst
    | refine KeptOp.ok (m := _) ?_ (by assumption) ?_
    | refine KeptOp.error (m := _) ?_ (by assumption) ?_
    | split
    | refine KeptOp.mk (fun s => ?_)

theorem feedArrays_kept {r0 : State} (s : State) (c : CoreId) (h : Kept r0 s) : Kept r0 (feedArrays s c) := by
  unfold feedArrays
  repeat' first
    | intro _
    | with_reducible assumption
    | dsimp only
    | with_reducible apply Kept.ite
    | with_reducible apply Kept.dite
    | with_reducible apply Kept.refl
    | simp only [↓Kept.upd_eq]
    | with_reducible apply Kept.fold
    | with_reducible apply Kept.foldFst
    | split

theorem execTlwDelivery_kept {r0 : State} (c : TileReader) (s : State) (h : Kept r0 s) : KeptOut r0 (execTlwDelivery c s) := by
  unfold execTlwDelivery
  repeat' first
    | intro _
    | with_reducible assumption
    | dsimp only
    | with_reducible apply KeptOut.ite
    | with_reducible apply KeptOut.next
    | with_reducible apply KeptOut.fault
    | with_reducible apply Kept.ite
    | with_reducible apply Kept.dite
    | with_reducible apply feedArrays_kept
    | with_reducible apply eccError_kept
    | with_reducible apply stepDone_kept
    | with_reducible apply tileSync_kept
    | with_reducible apply tileSyncAt_kept
    | with_reducible apply State.toClk_kept
    | with_reducible apply State.modCore_kept
    | with_reducible apply Kept.refl
    | simp only [↓Kept.upd_eq]
    | with_reducible apply Kept.fold
    | with_reducible apply Kept.foldFst
    | split

theorem tmmaBody_kept (c : CoreId) (f : BitVec 26) (us : List Upset) : KeptOp ((tmmaBody c f us) : Op U64) := by
  unfold tmmaBody
  refine KeptOp.ofRun (fun r0 s h => ?_)
  repeat' first
    | intro _
    | with_reducible assumption
    | dsimp only
    | with_reducible apply KeptRun.ite
    | with_reducible apply KeptRun.getBind
    | with_reducible apply KeptRun.bind
    | with_reducible apply KeptRun.set
    | with_reducible apply KeptRun.modify
    | with_reducible apply KeptOp.ite
    | with_reducible apply Kept.ite
    | with_reducible apply Kept.dite
    | with_reducible apply KeptOp.pure
    | with_reducible apply KeptOp.throw
    | with_reducible apply KeptOp.get
    | with_reducible apply feedArrays_kept
    | with_reducible apply needArray_kept
    | with_reducible apply eccErrors_kept
    | with_reducible apply queueRoom_kept
    | with_reducible apply enqueue_kept
    | with_reducible apply needTile_kept
    | with_reducible apply modT_kept
    | with_reducible apply nextPC_kept
    | with_reducible apply trapIf_kept
    | with_reducible apply illegalIf_kept
    | with_reducible apply KeptOp.bind
    | with_reducible apply KeptOp.map
    | with_reducible apply KeptOp.modify
    | with_reducible apply KeptOp.modifyGet
    | with_reducible apply Kept.resOk
    | with_reducible apply Kept.resError
    | with_reducible apply Kept.refl
    | simp only [↓Kept.upd_eq]
    | with_reducible apply Kept.fold
    | with_reducible apply Kept.foldFst
    | refine KeptOp.ok (m := _) ?_ (by assumption) ?_
    | refine KeptOp.error (m := _) ?_ (by assumption) ?_
    | split
    | refine KeptOp.bind ?_ (fun _ => ?_)
    | with_reducible apply KeptRun.op

theorem execTmma4_kept {r0 : State} (c : CoreId) (f : BitVec 26) (us : List Upset) (s : State) (h : Kept r0 s) : KeptOut r0 (execTmma4 c f us s) := by
  unfold execTmma4
  repeat' first
    | intro _
    | with_reducible assumption
    | dsimp only
    | with_reducible apply KeptOut.ite
    | with_reducible apply KeptOut.next
    | with_reducible apply KeptOut.fault
    | with_reducible apply Kept.ite
    | with_reducible apply Kept.dite
    | with_reducible apply KeptOp.pure
    | with_reducible apply KeptOp.throw
    | with_reducible apply KeptOp.get
    | with_reducible apply tmmaBody_kept
    | with_reducible apply issue_kept
    | with_reducible apply KeptOp.bind
    | with_reducible apply KeptOp.map
    | with_reducible apply KeptOp.modify
    | with_reducible apply KeptOp.modifyGet
    | with_reducible apply Kept.resOk
    | with_reducible apply Kept.resError
    | with_reducible apply Kept.refl
    | simp only [↓Kept.upd_eq]
    | with_reducible apply Kept.fold
    | with_reducible apply Kept.foldFst
    | refine KeptOp.ok (m := _) ?_ (by assumption) ?_
    | refine KeptOp.error (m := _) ?_ (by assumption) ?_
    | split
    | refine KeptOp.mk (fun s => ?_)

theorem toDone_kept {r0 : State} (s : State) (c : CoreId) (h : Kept r0 s) : Kept r0 (toDone s c) := by
  unfold toDone
  repeat' first
    | intro _
    | with_reducible assumption
    | dsimp only
    | with_reducible apply Kept.ite
    | with_reducible apply Kept.dite
    | with_reducible apply tileSyncAt_kept
    | with_reducible apply State.toClk_kept
    | with_reducible apply Kept.refl
    | simp only [↓Kept.upd_eq]
    | with_reducible apply Kept.fold
    | with_reducible apply Kept.foldFst
    | split

theorem execTmma4Complete_kept {r0 : State} (c : CoreId) (s : State) (h : Kept r0 s) : KeptOut r0 (execTmma4Complete c s) := by
  unfold execTmma4Complete
  repeat' first
    | intro _
    | with_reducible assumption
    | dsimp only
    | with_reducible apply KeptOut.ite
    | with_reducible apply KeptOut.next
    | with_reducible apply KeptOut.fault
    | with_reducible apply Kept.ite
    | with_reducible apply Kept.dite
    | with_reducible apply toDone_kept
    | with_reducible apply feedArrays_kept
    | with_reducible apply stepDone_kept
    | with_reducible apply raiseSync_kept
    | with_reducible apply discardTiles_kept
    | with_reducible apply tileSync_kept
    | with_reducible apply State.modCore_kept
    | with_reducible apply Kept.refl
    | simp only [↓Kept.upd_eq]
    | with_reducible apply Kept.fold
    | with_reducible apply Kept.foldFst
    | split

theorem execTldComplete_kept {r0 : State} (c : CoreId) (s : State) (h : Kept r0 s) : KeptOut r0 (execTldComplete c s) := by
  unfold execTldComplete
  repeat' first
    | intro _
    | with_reducible assumption
    | dsimp only
    | with_reducible apply KeptOut.ite
    | with_reducible apply KeptOut.next
    | with_reducible apply KeptOut.fault
    | with_reducible apply Kept.ite
    | with_reducible apply Kept.dite
    | with_reducible apply stepDone_kept
    | with_reducible apply tileSync_kept
    | with_reducible apply State.modCore_kept
    | with_reducible apply Kept.refl
    | simp only [↓Kept.upd_eq]
    | with_reducible apply Kept.fold
    | with_reducible apply Kept.foldFst
    | split

theorem tstzBody_kept (c : CoreId) (p : Option (BitVec 26)) (f : BitVec 26) (ecc : List Bool) : KeptOp ((tstzBody c p f ecc) : Op U64) := by
  unfold tstzBody
  repeat' first
    | intro _
    | with_reducible assumption
    | dsimp only
    | with_reducible apply KeptOp.ite
    | with_reducible apply Kept.ite
    | with_reducible apply Kept.dite
    | with_reducible apply KeptOp.pure
    | with_reducible apply KeptOp.throw
    | with_reducible apply KeptOp.get
    | with_reducible apply eccErrors_kept
    | with_reducible apply storeRows_kept
    | with_reducible apply needTile_kept
    | with_reducible apply modT_kept
    | with_reducible apply countConversion_kept
    | with_reducible apply useFree_kept
    | with_reducible apply nextPC_kept
    | with_reducible apply rdA_kept
    | with_reducible apply coreOf_kept
    | with_reducible apply trapIf_kept
    | with_reducible apply illegalIf_kept
    | with_reducible apply KeptOp.bind
    | with_reducible apply KeptOp.map
    | with_reducible apply KeptOp.modify
    | with_reducible apply KeptOp.modifyGet
    | with_reducible apply Kept.resOk
    | with_reducible apply Kept.resError
    | with_reducible apply Kept.refl
    | simp only [↓Kept.upd_eq]
    | with_reducible apply Kept.fold
    | with_reducible apply Kept.foldFst
    | refine KeptOp.ok (m := _) ?_ (by assumption) ?_
    | refine KeptOp.error (m := _) ?_ (by assumption) ?_
    | split
    | refine KeptOp.bind ?_ (fun _ => ?_)
    | refine KeptOp.mk (fun s => ?_)

theorem execTstz_kept {r0 : State} (c : TileReader) (p : Option (BitVec 26)) (f : BitVec 26) (s : State) (h : Kept r0 s) : KeptOut r0 (execTstz c p f s) := by
  unfold execTstz
  repeat' first
    | intro _
    | with_reducible assumption
    | dsimp only
    | with_reducible apply KeptOut.ite
    | with_reducible apply KeptOut.next
    | with_reducible apply KeptOut.fault
    | with_reducible apply Kept.ite
    | with_reducible apply Kept.dite
    | with_reducible apply KeptOp.pure
    | with_reducible apply KeptOp.throw
    | with_reducible apply KeptOp.get
    | with_reducible apply tstzBody_kept
    | with_reducible apply issue_kept
    | with_reducible apply KeptOp.bind
    | with_reducible apply KeptOp.map
    | with_reducible apply KeptOp.modify
    | with_reducible apply KeptOp.modifyGet
    | with_reducible apply Kept.resOk
    | with_reducible apply Kept.resError
    | with_reducible apply Kept.refl
    | simp only [↓Kept.upd_eq]
    | with_reducible apply Kept.fold
    | with_reducible apply Kept.foldFst
    | refine KeptOp.ok (m := _) ?_ (by assumption) ?_
    | refine KeptOp.error (m := _) ?_ (by assumption) ?_
    | split
    | refine KeptOp.mk (fun s => ?_)

theorem tileMoveBody_kept (c : CoreId) (sub : Nat) (f : BitVec 23) (ecc : List Bool) : KeptOp ((tileMoveBody c sub f ecc) : Op U64) := by
  unfold tileMoveBody
  repeat' first
    | intro _
    | with_reducible assumption
    | dsimp only
    | with_reducible apply KeptOp.ite
    | with_reducible apply Kept.ite
    | with_reducible apply Kept.dite
    | with_reducible apply KeptOp.pure
    | with_reducible apply KeptOp.throw
    | with_reducible apply KeptOp.get
    | with_reducible apply eccErrors_kept
    | with_reducible apply freshTile_kept
    | with_reducible apply waitLoaded_kept
    | with_reducible apply waitFed_kept
    | with_reducible apply queueRoom_kept
    | with_reducible apply enqueueBehind_kept
    | with_reducible apply needTile_kept
    | with_reducible apply modT_kept
    | with_reducible apply tileOf_kept
    | with_reducible apply nextPC_kept
    | with_reducible apply waitIf_kept
    | with_reducible apply trapIf_kept
    | with_reducible apply illegalIf_kept
    | with_reducible apply KeptOp.bind
    | with_reducible apply KeptOp.map
    | with_reducible apply KeptOp.modify
    | with_reducible apply KeptOp.modifyGet
    | with_reducible apply Kept.resOk
    | with_reducible apply Kept.resError
    | with_reducible apply Kept.refl
    | simp only [↓Kept.upd_eq]
    | with_reducible apply Kept.fold
    | with_reducible apply Kept.foldFst
    | refine KeptOp.ok (m := _) ?_ (by assumption) ?_
    | refine KeptOp.error (m := _) ?_ (by assumption) ?_
    | split
    | refine KeptOp.bind ?_ (fun _ => ?_)
    | refine KeptOp.mk (fun s => ?_)

theorem issueMove_kept {r0 : State} (c : CoreId) (sub : Nat) (f : BitVec 23) (ecc : List Bool) (s : State) (h : Kept r0 s) : Kept r0 (issueMove c sub f ecc s) := by
  unfold issueMove
  repeat' first
    | intro _
    | with_reducible assumption
    | dsimp only
    | with_reducible apply Kept.ite
    | with_reducible apply Kept.dite
    | with_reducible apply KeptOp.pure
    | with_reducible apply KeptOp.throw
    | with_reducible apply KeptOp.get
    | with_reducible apply tileMoveBody_kept
    | with_reducible apply issue_kept
    | with_reducible apply KeptOp.bind
    | with_reducible apply KeptOp.map
    | with_reducible apply KeptOp.modify
    | with_reducible apply KeptOp.modifyGet
    | with_reducible apply Kept.resOk
    | with_reducible apply Kept.resError
    | with_reducible apply Kept.refl
    | simp only [↓Kept.upd_eq]
    | with_reducible apply Kept.fold
    | with_reducible apply Kept.foldFst
    | refine KeptOp.ok (m := _) ?_ (by assumption) ?_
    | refine KeptOp.error (m := _) ?_ (by assumption) ?_
    | split
    | refine KeptOp.mk (fun s => ?_)

theorem execTzeroT_kept {r0 : State} (c : CoreId) (f : BitVec 23) (s : State) (h : Kept r0 s) : KeptOut r0 (execTzeroT c f s) := by
  unfold execTzeroT
  repeat' first
    | intro _
    | with_reducible assumption
    | dsimp only
    | with_reducible apply KeptOut.ite
    | with_reducible apply KeptOut.next
    | with_reducible apply KeptOut.fault
    | with_reducible apply Kept.ite
    | with_reducible apply Kept.dite
    | with_reducible apply issueMove_kept
    | with_reducible apply Kept.refl
    | simp only [↓Kept.upd_eq]
    | with_reducible apply Kept.fold
    | with_reducible apply Kept.foldFst
    | split

theorem execTzeroZ_kept {r0 : State} (c : CoreId) (f : BitVec 23) (s : State) (h : Kept r0 s) : KeptOut r0 (execTzeroZ c f s) := by
  unfold execTzeroZ
  repeat' first
    | intro _
    | with_reducible assumption
    | dsimp only
    | with_reducible apply KeptOut.ite
    | with_reducible apply KeptOut.next
    | with_reducible apply KeptOut.fault
    | with_reducible apply Kept.ite
    | with_reducible apply Kept.dite
    | with_reducible apply issueMove_kept
    | with_reducible apply Kept.refl
    | simp only [↓Kept.upd_eq]
    | with_reducible apply Kept.fold
    | with_reducible apply Kept.foldFst
    | split

theorem execTmov_kept {r0 : State} (c : TileReader) (f : BitVec 23) (s : State) (h : Kept r0 s) : KeptOut r0 (execTmov c f s) := by
  unfold execTmov
  repeat' first
    | intro _
    | with_reducible assumption
    | dsimp only
    | with_reducible apply KeptOut.ite
    | with_reducible apply KeptOut.next
    | with_reducible apply KeptOut.fault
    | with_reducible apply Kept.ite
    | with_reducible apply Kept.dite
    | with_reducible apply issueMove_kept
    | with_reducible apply Kept.refl
    | simp only [↓Kept.upd_eq]
    | with_reducible apply Kept.fold
    | with_reducible apply Kept.foldFst
    | split

theorem execZmov_kept {r0 : State} (c : TileReader) (f : BitVec 23) (s : State) (h : Kept r0 s) : KeptOut r0 (execZmov c f s) := by
  unfold execZmov
  repeat' first
    | intro _
    | with_reducible assumption
    | dsimp only
    | with_reducible apply KeptOut.ite
    | with_reducible apply KeptOut.next
    | with_reducible apply KeptOut.fault
    | with_reducible apply Kept.ite
    | with_reducible apply Kept.dite
    | with_reducible apply issueMove_kept
    | with_reducible apply Kept.refl
    | simp only [↓Kept.upd_eq]
    | with_reducible apply Kept.fold
    | with_reducible apply Kept.foldFst
    | split

end Sys2Proof.Machine
end

