-- ==== Sys2Proof/Laws/KeptGather.lean ====
section
/-! SUPPORT. Laws/KeptGather.lean: every operation of Machine/Gather.lean keeps what Laws/Kept.lean names. -/

namespace Sys2Proof.Machine

set_option linter.unusedTactic false
set_option linter.unreachableTactic false

theorem submitJob_kept {r0 : State} (s : State) (j : GJob) (h : Kept r0 s) : Kept r0 (submitJob s j) := by
  unfold submitJob
  repeat' first
    | intro _
    | with_reducible assumption
    | dsimp only
    | with_reducible apply Kept.ite
    | with_reducible apply Kept.dite
    | with_reducible apply Kept.refl
    | simp only [↓Kept.upd_eq]
    | with_reducible apply Kept.fold
    | with_reducible apply Kept.foldFst
    | split

theorem gsubmitBody_kept (c : CoreId) (f : BitVec 22) : KeptOp ((gsubmitBody c f) : Op U64) := by
  unfold gsubmitBody
  refine KeptOp.ofRun (fun r0 s h => ?_)
  repeat' first
    | intro _
    | with_reducible assumption
    | dsimp only
    | with_reducible apply KeptRun.ite
    | with_reducible apply KeptRun.getBind
    | with_reducible apply KeptRun.bind
    | with_reducible apply KeptRun.set
    | with_reducible apply KeptRun.modify
    | with_reducible apply KeptOp.ite
    | with_reducible apply Kept.ite
    | with_reducible apply Kept.dite
    | with_reducible apply KeptOp.pure
    | with_reducible apply KeptOp.throw
    | with_reducible apply KeptOp.get
    | with_reducible apply submitJob_kept
    | with_reducible apply tileRead_kept
    | with_reducible apply nextPC_kept
    | with_reducible apply wrD_kept
    | with_reducible apply rdA_kept
    | with_reducible apply trapIf_kept
    | with_reducible apply illegalIf_kept
    | with_reducible apply KeptOp.bind
    | with_reducible apply KeptOp.map
    | with_reducible apply KeptOp.modify
    | with_reducible apply KeptOp.modifyGet
    | with_reducible apply Kept.resOk
    | with_reducible apply Kept.resError
    | with_reducible apply Kept.refl
    | simp only [↓Kept.upd_eq]
    | with_reducible apply Kept.fold
    | with_reducible apply Kept.foldFst
    | refine KeptOp.ok (m := _) ?_ (by assumption) ?_
    | refine KeptOp.error (m := _) ?_ (by assumption) ?_
    | split
    | refine KeptOp.bind ?_ (fun _ => ?_)
    | with_reducible apply KeptRun.op

theorem execGsubmit_kept {r0 : State} (c : CoreId) (f : BitVec 22) (s : State) (h : Kept r0 s) : KeptOut r0 (execGsubmit c f s) := by
  unfold execGsubmit
  repeat' first
    | intro _
    | with_reducible assumption
    | dsimp only
    | with_reducible apply KeptOut.ite
    | with_reducible apply KeptOut.next
    | with_reducible apply KeptOut.fault
    | with_reducible apply Kept.ite
    | with_reducible apply Kept.dite
    | with_reducible apply KeptOp.pure
    | with_reducible apply KeptOp.throw
    | with_reducible apply KeptOp.get
    | with_reducible apply gsubmitBody_kept
    | with_reducible apply issueSub_kept
    | with_reducible apply KeptOp.bind
    | with_reducible apply KeptOp.map
    | with_reducible apply KeptOp.modify
    | with_reducible apply KeptOp.modifyGet
    | with_reducible apply Kept.resOk
    | with_reducible apply Kept.resError
    | with_reducible apply Kept.refl
    | simp only [↓Kept.upd_eq]
    | with_reducible apply Kept.fold
    | with_reducible apply Kept.foldFst
    | refine KeptOp.ok (m := _) ?_ (by assumption) ?_
    | refine KeptOp.error (m := _) ?_ (by assumption) ?_
    | split
    | refine KeptOp.mk (fun s => ?_)

theorem modJob_kept {r0 : State} (s : State) (id : Nat) (f : GJob → GJob) (h : Kept r0 s) : Kept r0 (modJob s id f) := by
  unfold modJob
  repeat' first
    | intro _
    | with_reducible assumption
    | dsimp only
    | with_reducible apply Kept.ite
    | with_reducible apply Kept.dite
    | with_reducible apply Kept.refl
    | simp only [↓Kept.upd_eq]
    | with_reducible apply Kept.fold
    | with_reducible apply Kept.foldFst
    | split

theorem gReach_kept (pa : Nat) (n : Nat) : KeptOp ((gReach pa n) : Op Unit) := by
  unfold gReach
  repeat' first
    | intro _
    | with_reducible assumption
    | dsimp only
    | with_reducible apply KeptOp.ite
    | with_reducible apply Kept.ite
    | with_reducible apply Kept.dite
    | with_reducible apply KeptOp.pure
    | with_reducible apply KeptOp.throw
    | with_reducible apply KeptOp.get
    | with_reducible apply trapIf_kept
    | with_reducible apply KeptOp.bind
    | with_reducible apply KeptOp.map
    | with_reducible apply KeptOp.modify
    | with_reducible apply KeptOp.modifyGet
    | with_reducible apply Kept.resOk
    | with_reducible apply Kept.resError
    | with_reducible apply Kept.refl
    | simp only [↓Kept.upd_eq]
    | with_reducible apply Kept.fold
    | with_reducible apply Kept.foldFst
    | refine KeptOp.ok (m := _) ?_ (by assumption) ?_
    | refine KeptOp.error (m := _) ?_ (by assumption) ?_
    | split
    | refine KeptOp.bind ?_ (fun _ => ?_)
    | refine KeptOp.mk (fun s => ?_)

theorem gRead_kept (j : GJob) (t : Option Nat) (pa : Nat) (n : Nat) : KeptOp ((gRead j t pa n) : Op (List (Byte × Bool))) := by
  unfold gRead
  refine KeptOp.ofRun (fun r0 s h => ?_)
  repeat' first
    | intro _
    | with_reducible assumption
    | dsimp only
    | with_reducible apply KeptRun.ite
    | with_reducible apply KeptRun.getBind
    | with_reducible apply KeptRun.bind
    | with_reducible apply KeptRun.set
    | with_reducible apply KeptRun.modify
    | with_reducible apply KeptOp.ite
    | with_reducible apply Kept.ite
    | with_reducible apply Kept.dite
    | with_reducible apply KeptOp.pure
    | with_reducible apply KeptOp.throw
    | with_reducible apply KeptOp.get
    | with_reducible apply gReach_kept
    | with_reducible apply agentRead_kept
    | with_reducible apply KeptOp.bind
    | with_reducible apply KeptOp.map
    | with_reducible apply KeptOp.modify
    | with_reducible apply KeptOp.modifyGet
    | with_reducible apply Kept.resOk
    | with_reducible apply Kept.resError
    | with_reducible apply Kept.refl
    | simp only [↓Kept.upd_eq]
    | with_reducible apply Kept.fold
    | with_reducible apply Kept.foldFst
    | refine KeptOp.ok (m := _) ?_ (by assumption) ?_
    | refine KeptOp.error (m := _) ?_ (by assumption) ?_
    | split
    | refine KeptOp.bind ?_ (fun _ => ?_)
    | with_reducible apply KeptRun.op

theorem gWrite_kept (j : GJob) (t : Option Nat) (pa : Nat) (bs : List (Byte × Bool)) : KeptOp ((gWrite j t pa bs) : Op Unit) := by
  unfold gWrite
  repeat' first
    | intro _
    | with_reducible assumption
    | dsimp only
    | with_reducible apply KeptOp.ite
    | with_reducible apply Kept.ite
    | with_reducible apply Kept.dite
    | with_reducible apply KeptOp.pure
    | with_reducible apply KeptOp.throw
    | with_reducible apply KeptOp.get
    | with_reducible apply gReach_kept
    | with_reducible apply poisonBytes_kept
    | with_reducible apply agentWrite_kept
    | with_reducible apply KeptOp.bind
    | with_reducible apply KeptOp.map
    | with_reducible apply KeptOp.modify
    | with_reducible apply KeptOp.modifyGet
    | with_reducible apply Kept.resOk
    | with_reducible apply Kept.resError
    | with_reducible apply Kept.refl
    | simp only [↓Kept.upd_eq]
    | with_reducible apply Kept.fold
    | with_reducible apply Kept.foldFst
    | refine KeptOp.ok (m := _) ?_ (by assumption) ?_
    | refine KeptOp.error (m := _) ?_ (by assumption) ?_
    | split
    | refine KeptOp.bind ?_ (fun _ => ?_)
    | refine KeptOp.mk (fun s => ?_)

theorem gAwait_kept (id : Nat) (r : Nat) (q : HallReq) : KeptOp ((gAwait id r q) : Op HallRes) := by
  unfold gAwait
  refine KeptOp.ofRun (fun r0 s h => ?_)
  repeat' first
    | intro _
    | with_reducible assumption
    | dsimp only
    | with_reducible apply KeptRun.ite
    | with_reducible apply KeptRun.getBind
    | with_reducible apply KeptRun.bind
    | with_reducible apply KeptRun.set
    | with_reducible apply KeptRun.modify
    | with_reducible apply KeptOp.ite
    | with_reducible apply Kept.ite
    | with_reducible apply Kept.dite
    | with_reducible apply KeptOp.pure
    | with_reducible apply KeptOp.throw
    | with_reducible apply KeptOp.get
    | with_reducible apply modJob_kept
    | with_reducible apply KeptOp.bind
    | with_reducible apply KeptOp.map
    | with_reducible apply KeptOp.modify
    | with_reducible apply KeptOp.modifyGet
    | with_reducible apply Kept.resOk
    | with_reducible apply Kept.resError
    | with_reducible apply Kept.refl
    | simp only [↓Kept.upd_eq]
    | with_reducible apply Kept.fold
    | with_reducible apply Kept.foldFst
    | refine KeptOp.ok (m := _) ?_ (by assumption) ?_
    | refine KeptOp.error (m := _) ?_ (by assumption) ?_
    | split
    | refine KeptOp.bind ?_ (fun _ => ?_)
    | with_reducible apply KeptRun.op

theorem gReadFar_kept (j : GJob) (t : Option Nat) (r : Nat) (call : Nat) (x0 : List (Nat × Nat)) : KeptOp ((gReadFar j t r call x0) : Op (List (Byte × Bool))) := by
  induction x0 generalizing j t r call with
  | nil =>
    unfold gReadFar
    repeat' first
      | intro _
      | with_reducible assumption
      | dsimp only
      | with_reducible apply KeptOp.ite
      | with_reducible apply Kept.ite
      | with_reducible apply Kept.dite
      | with_reducible apply KeptOp.pure
      | with_reducible apply KeptOp.throw
      | with_reducible apply KeptOp.get
      | with_reducible apply gAwait_kept
      | with_reducible apply trapIf_kept
      | with_reducible apply trap_kept
      | with_reducible apply KeptOp.bind
      | with_reducible apply KeptOp.map
      | with_reducible apply KeptOp.modify
      | with_reducible apply KeptOp.modifyGet
      | with_reducible apply Kept.resOk
      | with_reducible apply Kept.resError
      | with_reducible apply Kept.refl
      | simp only [↓Kept.upd_eq]
      | with_reducible apply Kept.fold
      | with_reducible apply Kept.foldFst
      | refine KeptOp.ok (m := _) ?_ (by assumption) ?_
      | refine KeptOp.error (m := _) ?_ (by assumption) ?_
      | split
      | refine KeptOp.bind ?_ (fun _ => ?_)
      | refine KeptOp.mk (fun s => ?_)
  | cons x xs ih =>
    unfold gReadFar
    repeat' first
      | with_reducible apply ih
      | intro _
      | with_reducible assumption
      | dsimp only
      | with_reducible apply KeptOp.ite
      | with_reducible apply Kept.ite
      | with_reducible apply Kept.dite
      | with_reducible apply KeptOp.pure
      | with_reducible apply KeptOp.throw
      | with_reducible apply KeptOp.get
      | with_reducible apply gAwait_kept
      | with_reducible apply trapIf_kept
      | with_reducible apply trap_kept
      | with_reducible apply KeptOp.bind
      | with_reducible apply KeptOp.map
      | with_reducible apply KeptOp.modify
      | with_reducible apply KeptOp.modifyGet
      | with_reducible apply Kept.resOk
      | with_reducible apply Kept.resError
      | with_reducible apply Kept.refl
      | simp only [↓Kept.upd_eq]
      | with_reducible apply Kept.fold
      | with_reducible apply Kept.foldFst
      | refine KeptOp.ok (m := _) ?_ (by assumption) ?_
      | refine KeptOp.error (m := _) ?_ (by assumption) ?_
      | split
      | refine KeptOp.bind ?_ (fun _ => ?_)
      | refine KeptOp.mk (fun s => ?_)

theorem gWriteFar_kept (j : GJob) (r : Nat) (call : Nat) (x0 : List (Nat × Nat)) (x1 : List (Byte × Bool)) : KeptOp ((gWriteFar j r call x0 x1) : Op Unit) := by
  induction x0 generalizing j r call x1 with
  | nil =>
    unfold gWriteFar
    repeat' first
      | intro _
      | with_reducible assumption
      | dsimp only
      | with_reducible apply KeptOp.ite
      | with_reducible apply Kept.ite
      | with_reducible apply Kept.dite
      | with_reducible apply KeptOp.pure
      | with_reducible apply KeptOp.throw
      | with_reducible apply KeptOp.get
      | with_reducible apply gAwait_kept
      | with_reducible apply trapIf_kept
      | with_reducible apply trap_kept
      | with_reducible apply KeptOp.bind
      | with_reducible apply KeptOp.map
      | with_reducible apply KeptOp.modify
      | with_reducible apply KeptOp.modifyGet
      | with_reducible apply Kept.resOk
      | with_reducible apply Kept.resError
      | with_reducible apply Kept.refl
      | simp only [↓Kept.upd_eq]
      | with_reducible apply Kept.fold
      | with_reducible apply Kept.foldFst
      | refine KeptOp.ok (m := _) ?_ (by assumption) ?_
      | refine KeptOp.error (m := _) ?_ (by assumption) ?_
      | split
      | refine KeptOp.bind ?_ (fun _ => ?_)
      | refine KeptOp.mk (fun s => ?_)
  | cons x xs ih =>
    unfold gWriteFar
    repeat' first
      | with_reducible apply ih
      | intro _
      | with_reducible assumption
      | dsimp only
      | with_reducible apply KeptOp.ite
      | with_reducible apply Kept.ite
      | with_reducible apply Kept.dite
      | with_reducible apply KeptOp.pure
      | with_reducible apply KeptOp.throw
      | with_reducible apply KeptOp.get
      | with_reducible apply gAwait_kept
      | with_reducible apply trapIf_kept
      | with_reducible apply trap_kept
      | with_reducible apply KeptOp.bind
      | with_reducible apply KeptOp.map
      | with_reducible apply KeptOp.modify
      | with_reducible apply KeptOp.modifyGet
      | with_reducible apply Kept.resOk
      | with_reducible apply Kept.resError
      | with_reducible apply Kept.refl
      | simp only [↓Kept.upd_eq]
      | with_reducible apply Kept.fold
      | with_reducible apply Kept.foldFst
      | refine KeptOp.ok (m := _) ?_ (by assumption) ?_
      | refine KeptOp.error (m := _) ?_ (by assumption) ?_
      | split
      | refine KeptOp.bind ?_ (fun _ => ?_)
      | refine KeptOp.mk (fun s => ?_)

theorem gStore_kept (j : GJob) (t : Option Nat) (pa : Nat) (bs : List (Byte × Bool)) : KeptOp ((gStore j t pa bs) : Op Unit) := by
  unfold gStore
  repeat' first
    | intro _
    | with_reducible assumption
    | dsimp only
    | with_reducible apply KeptOp.ite
    | with_reducible apply Kept.ite
    | with_reducible apply Kept.dite
    | with_reducible apply KeptOp.pure
    | with_reducible apply KeptOp.throw
    | with_reducible apply KeptOp.get
    | with_reducible apply gWrite_kept
    | with_reducible apply useFree_kept
    | with_reducible apply KeptOp.bind
    | with_reducible apply KeptOp.map
    | with_reducible apply KeptOp.modify
    | with_reducible apply KeptOp.modifyGet
    | with_reducible apply Kept.resOk
    | with_reducible apply Kept.resError
    | with_reducible apply Kept.refl
    | simp only [↓Kept.upd_eq]
    | with_reducible apply Kept.fold
    | with_reducible apply Kept.foldFst
    | refine KeptOp.ok (m := _) ?_ (by assumption) ?_
    | refine KeptOp.error (m := _) ?_ (by assumption) ?_
    | split
    | refine KeptOp.bind ?_ (fun _ => ?_)
    | refine KeptOp.mk (fun s => ?_)

theorem gConsume_kept (j : GJob) (pa : Nat) (bs : List (Byte × Bool)) : KeptOp ((gConsume j pa bs) : Op Unit) := by
  unfold gConsume
  repeat' first
    | intro _
    | with_reducible assumption
    | dsimp only
    | with_reducible apply KeptOp.ite
    | with_reducible apply Kept.ite
    | with_reducible apply Kept.dite
    | with_reducible apply KeptOp.pure
    | with_reducible apply KeptOp.throw
    | with_reducible apply KeptOp.get
    | with_reducible apply machineCheck_kept
    | with_reducible apply KeptOp.bind
    | with_reducible apply KeptOp.map
    | with_reducible apply KeptOp.modify
    | with_reducible apply KeptOp.modifyGet
    | with_reducible apply Kept.resOk
    | with_reducible apply Kept.resError
    | with_reducible apply Kept.refl
    | simp only [↓Kept.upd_eq]
    | with_reducible apply Kept.fold
    | with_reducible apply Kept.foldFst
    | refine KeptOp.ok (m := _) ?_ (by assumption) ?_
    | refine KeptOp.error (m := _) ?_ (by assumption) ?_
    | split
    | refine KeptOp.bind ?_ (fun _ => ?_)
    | refine KeptOp.mk (fun s => ?_)

theorem gRow_kept (j : GJob) (t : Option Nat) (r : Nat) (p : Nat) (x : Nat) : KeptOp ((gRow j t r p x) : Op Unit) := by
  unfold gRow
  repeat' first
    | intro _
    | with_reducible assumption
    | dsimp only
    | with_reducible apply KeptOp.ite
    | with_reducible apply Kept.ite
    | with_reducible apply Kept.dite
    | with_reducible apply KeptOp.pure
    | with_reducible apply KeptOp.throw
    | with_reducible apply KeptOp.get
    | with_reducible apply gConsume_kept
    | with_reducible apply gStore_kept
    | with_reducible apply gWriteFar_kept
    | with_reducible apply gReadFar_kept
    | with_reducible apply gRead_kept
    | with_reducible apply KeptOp.bind
    | with_reducible apply KeptOp.map
    | with_reducible apply KeptOp.modify
    | with_reducible apply KeptOp.modifyGet
    | with_reducible apply Kept.resOk
    | with_reducible apply Kept.resError
    | with_reducible apply Kept.refl
    | simp only [↓Kept.upd_eq]
    | with_reducible apply Kept.fold
    | with_reducible apply Kept.foldFst
    | refine KeptOp.ok (m := _) ?_ (by assumption) ?_
    | refine KeptOp.error (m := _) ?_ (by assumption) ?_
    | split
    | refine KeptOp.bind ?_ (fun _ => ?_)
    | refine KeptOp.mk (fun s => ?_)

theorem gSkip_kept (j : GJob) (t : Option Nat) (p : Nat) : KeptOp ((gSkip j t p) : Op Unit) := by
  unfold gSkip
  repeat' first
    | intro _
    | with_reducible assumption
    | dsimp only
    | with_reducible apply KeptOp.ite
    | with_reducible apply Kept.ite
    | with_reducible apply Kept.dite
    | with_reducible apply KeptOp.pure
    | with_reducible apply KeptOp.throw
    | with_reducible apply KeptOp.get
    | with_reducible apply gStore_kept
    | with_reducible apply modJob_kept
    | with_reducible apply KeptOp.bind
    | with_reducible apply KeptOp.map
    | with_reducible apply KeptOp.modify
    | with_reducible apply KeptOp.modifyGet
    | with_reducible apply Kept.resOk
    | with_reducible apply Kept.resError
    | with_reducible apply Kept.refl
    | simp only [↓Kept.upd_eq]
    | with_reducible apply Kept.fold
    | with_reducible apply Kept.foldFst
    | refine KeptOp.ok (m := _) ?_ (by assumption) ?_
    | refine KeptOp.error (m := _) ?_ (by assumption) ?_
    | split
    | refine KeptOp.bind ?_ (fun _ => ?_)
    | refine KeptOp.mk (fun s => ?_)

theorem gPosition_kept (j : GJob) (t : Option Nat) (r : Nat) (p : Nat) : KeptOp ((gPosition j t r p) : Op Bool) := by
  unfold gPosition
  repeat' first
    | intro _
    | with_reducible assumption
    | dsimp only
    | with_reducible apply KeptOp.ite
    | with_reducible apply Kept.ite
    | with_reducible apply Kept.dite
    | with_reducible apply KeptOp.pure
    | with_reducible apply KeptOp.throw
    | with_reducible apply KeptOp.get
    | with_reducible apply gSkip_kept
    | with_reducible apply gRow_kept
    | with_reducible apply gConsume_kept
    | with_reducible apply gRead_kept
    | with_reducible apply KeptOp.bind
    | with_reducible apply KeptOp.map
    | with_reducible apply KeptOp.modify
    | with_reducible apply KeptOp.modifyGet
    | with_reducible apply Kept.resOk
    | with_reducible apply Kept.resError
    | with_reducible apply Kept.refl
    | simp only [↓Kept.upd_eq]
    | with_reducible apply Kept.fold
    | with_reducible apply Kept.foldFst
    | refine KeptOp.ok (m := _) ?_ (by assumption) ?_
    | refine KeptOp.error (m := _) ?_ (by assumption) ?_
    | split
    | refine KeptOp.bind ?_ (fun _ => ?_)
    | refine KeptOp.mk (fun s => ?_)

theorem gAsk_kept {r0 : State} (s : State) (id : Nat) (r : Nat) (q : HallReq) (h : Kept r0 s) : Kept r0 (gAsk s id r q) := by
  unfold gAsk
  repeat' first
    | intro _
    | with_reducible assumption
    | dsimp only
    | with_reducible apply Kept.ite
    | with_reducible apply Kept.dite
    | with_reducible apply sendHall_kept
    | with_reducible apply Kept.refl
    | simp only [↓Kept.upd_eq]
    | with_reducible apply Kept.fold
    | with_reducible apply Kept.foldFst
    | split

theorem execGatherPosition_kept {r0 : State} (e : Fin 32) (s : State) (h : Kept r0 s) : KeptOut r0 (execGatherPosition e s) := by
  unfold execGatherPosition
  repeat' first
    | intro _
    | with_reducible assumption
    | dsimp only
    | with_reducible apply KeptOut.ite
    | with_reducible apply KeptOut.next
    | with_reducible apply KeptOut.fault
    | with_reducible apply Kept.ite
    | with_reducible apply Kept.dite
    | with_reducible apply KeptOp.pure
    | with_reducible apply KeptOp.throw
    | with_reducible apply KeptOp.get
    | with_reducible apply gAsk_kept
    | with_reducible apply gPosition_kept
    | with_reducible apply modJob_kept
    | with_reducible apply abortTask_kept
    | with_reducible apply KeptOp.bind
    | with_reducible apply KeptOp.map
    | with_reducible apply KeptOp.modify
    | with_reducible apply KeptOp.modifyGet
    | with_reducible apply Kept.resOk
    | with_reducible apply Kept.resError
    | with_reducible apply Kept.refl
    | simp only [↓Kept.upd_eq]
    | with_reducible apply Kept.fold
    | with_reducible apply Kept.foldFst
    | refine KeptOp.ok (m := _) ?_ (by assumption) ?_
    | refine KeptOp.error (m := _) ?_ (by assumption) ?_
    | split
    | refine KeptOp.mk (fun s => ?_)

theorem dropJob_kept {r0 : State} (s : State) (id : Nat) (h : Kept r0 s) : Kept r0 (dropJob s id) := by
  unfold dropJob
  repeat' first
    | intro _
    | with_reducible assumption
    | dsimp only
    | with_reducible apply Kept.ite
    | with_reducible apply Kept.dite
    | with_reducible apply Kept.refl
    | simp only [↓Kept.upd_eq]
    | with_reducible apply Kept.fold
    | with_reducible apply Kept.foldFst
    | split

theorem endJob_kept {r0 : State} (s : State) (j : GJob) (fin : Nat) (reason : Nat) (fail : Nat) (h : Kept r0 s) : Kept r0 (endJob s j fin reason fail) := by
  unfold endJob
  repeat' first
    | intro _
    | with_reducible assumption
    | dsimp only
    | with_reducible apply Kept.ite
    | with_reducible apply Kept.dite
    | with_reducible apply dropJob_kept
    | with_reducible apply signal_kept
    | with_reducible apply Kept.refl
    | simp only [↓Kept.upd_eq]
    | with_reducible apply Kept.fold
    | with_reducible apply Kept.foldFst
    | split

theorem execGatherJobComplete_kept {r0 : State} (id : Nat) (s : State) (h : Kept r0 s) : KeptOut r0 (execGatherJobComplete id s) := by
  unfold execGatherJobComplete
  repeat' first
    | intro _
    | with_reducible assumption
    | dsimp only
    | with_reducible apply KeptOut.ite
    | with_reducible apply KeptOut.next
    | with_reducible apply KeptOut.fault
    | with_reducible apply Kept.ite
    | with_reducible apply Kept.dite
    | with_reducible apply endJob_kept
    | with_reducible apply Kept.refl
    | simp only [↓Kept.upd_eq]
    | with_reducible apply Kept.fold
    | with_reducible apply Kept.foldFst
    | split

theorem execGatherJobRefused_kept {r0 : State} (id : Nat) (s : State) (h : Kept r0 s) : KeptOut r0 (execGatherJobRefused id s) := by
  unfold execGatherJobRefused
  repeat' first
    | intro _
    | with_reducible assumption
    | dsimp only
    | with_reducible apply KeptOut.ite
    | with_reducible apply KeptOut.next
    | with_reducible apply KeptOut.fault
    | with_reducible apply Kept.ite
    | with_reducible apply Kept.dite
    | with_reducible apply endJob_kept
    | with_reducible apply Kept.refl
    | simp only [↓Kept.upd_eq]
    | with_reducible apply Kept.fold
    | with_reducible apply Kept.foldFst
    | split

theorem execGcancel_kept {r0 : State} (c : CoreId) (f : BitVec 22) (s : State) (h : Kept r0 s) : KeptOut r0 (execGcancel c f s) := by
  unfold execGcancel
  repeat' first
    | intro _
    | with_reducible assumption
    | dsimp only
    | with_reducible apply KeptOut.ite
    | with_reducible apply KeptOut.next
    | with_reducible apply KeptOut.fault
    | with_reducible apply Kept.ite
    | with_reducible apply Kept.dite
    | with_reducible apply KeptOp.pure
    | with_reducible apply KeptOp.throw
    | with_reducible apply KeptOp.get
    | with_reducible apply endJob_kept
    | with_reducible apply issueSub_kept
    | with_reducible apply nextPC_kept
    | with_reducible apply rdA_kept
    | with_reducible apply coreOf_kept
    | with_reducible apply trapIf_kept
    | with_reducible apply illegalIf_kept
    | with_reducible apply KeptOp.bind
    | with_reducible apply KeptOp.map
    | with_reducible apply KeptOp.modify
    | with_reducible apply KeptOp.modifyGet
    | with_reducible apply Kept.resOk
    | with_reducible apply Kept.resError
    | with_reducible apply Kept.refl
    | simp only [↓Kept.upd_eq]
    | with_reducible apply Kept.fold
    | with_reducible apply Kept.foldFst
    | refine KeptOp.ok (m := _) ?_ (by assumption) ?_
    | refine KeptOp.error (m := _) ?_ (by assumption) ?_
    | split
    | refine KeptOp.mk (fun s => ?_)

theorem gatherAnswered_kept {r0 : State} (s : State) (id : Nat) (r : Nat) (q : HallReq) (res : HallRes) (h : Kept r0 s) : Kept r0 (gatherAnswered s id r q res) := by
  unfold gatherAnswered
  repeat' first
    | intro _
    | with_reducible assumption
    | dsimp only
    | with_reducible apply Kept.ite
    | with_reducible apply Kept.dite
    | with_reducible apply modJob_kept
    | with_reducible apply Kept.refl
    | simp only [↓Kept.upd_eq]
    | with_reducible apply Kept.fold
    | with_reducible apply Kept.foldFst
    | split

theorem cancelJobs_kept {r0 : State} (s : State) (h : Kept r0 s) : Kept r0 (cancelJobs s) := by
  unfold cancelJobs
  repeat' first
    | intro _
    | with_reducible assumption
    | dsimp only
    | with_reducible apply Kept.ite
    | with_reducible apply Kept.dite
    | with_reducible apply endJob_kept
    | with_reducible apply State.modCore_kept
    | with_reducible apply Kept.refl
    | simp only [↓Kept.upd_eq]
    | with_reducible apply Kept.fold
    | with_reducible apply Kept.foldFst
    | split

end Sys2Proof.Machine
end

