-- ==== Sys2Proof/Laws/KeptAnswer.lean ====
section
/-! SUPPORT. Laws/KeptAnswer.lean: every operation of Machine/Answer.lean keeps what Laws/Kept.lean names. -/

namespace Sys2Proof.Machine

set_option linter.unusedTactic false
set_option linter.unreachableTactic false

theorem keepWatches_kept {r0 : State} (s : State) (q : PendReq) (h : Kept r0 s) : Kept r0 (keepWatches s q) := by
  unfold keepWatches
  repeat' first
    | intro _
    | with_reducible assumption
    | dsimp only
    | with_reducible apply Kept.ite
    | with_reducible apply Kept.dite
    | with_reducible apply relWatches_kept
    | with_reducible apply State.modCore_kept
    | with_reducible apply Kept.refl
    | simp only [↓Kept.upd_eq]
    | with_reducible apply Kept.fold
    | with_reducible apply Kept.foldFst
    | split

theorem coreAnswered_kept {r0 : State} (s : State) (c : CoreId) (tag : BitVec 32) (r : HallReq) (res : HallRes) (h : Kept r0 s) : Kept r0 (coreAnswered s c tag r res) := by
  unfold coreAnswered
  repeat' first
    | intro _
    | with_reducible assumption
    | dsimp only
    | with_reducible apply Kept.ite
    | with_reducible apply Kept.dite
    | with_reducible apply State.modCore_kept
    | with_reducible apply Kept.refl
    | simp only [↓Kept.upd_eq]
    | with_reducible apply Kept.fold
    | with_reducible apply Kept.foldFst
    | split

theorem answered_kept {r0 : State} (s : State) (q : PendReq) (res : HallRes) (h : Kept r0 s) : Kept r0 (answered s q res) := by
  unfold answered
  repeat' first
    | intro _
    | with_reducible assumption
    | dsimp only
    | with_reducible apply Kept.ite
    | with_reducible apply Kept.dite
    | with_reducible apply coreAnswered_kept
    | with_reducible apply gatherAnswered_kept
    | with_reducible apply streamAnswered_kept
    | with_reducible apply Kept.refl
    | simp only [↓Kept.upd_eq]
    | with_reducible apply Kept.fold
    | with_reducible apply Kept.foldFst
    | split

theorem breakHeld_kept {r0 : State} (s : State) (call : Nat) (h : Kept r0 s) : Kept r0 (breakHeld s call) := by
  unfold breakHeld
  repeat' first
    | intro _
    | with_reducible assumption
    | dsimp only
    | with_reducible apply Kept.ite
    | with_reducible apply Kept.dite
    | with_reducible apply abortTasks_kept
    | with_reducible apply Kept.refl
    | simp only [↓Kept.upd_eq]
    | with_reducible apply Kept.fold
    | with_reducible apply Kept.foldFst
    | split

theorem refuseReq_kept {r0 : State} (s : State) (q : PendReq) (code : Nat) (h : Kept r0 s) : Kept r0 (refuseReq s q code) := by
  unfold refuseReq
  repeat' first
    | intro _
    | with_reducible assumption
    | dsimp only
    | with_reducible apply Kept.ite
    | with_reducible apply Kept.dite
    | with_reducible apply breakHeld_kept
    | with_reducible apply answered_kept
    | with_reducible apply Kept.refl
    | simp only [↓Kept.upd_eq]
    | with_reducible apply Kept.fold
    | with_reducible apply Kept.foldFst
    | split

theorem refuseAll_kept {r0 : State} (s : State) (code : Nat) (h : Kept r0 s) : Kept r0 (refuseAll s code) := by
  unfold refuseAll
  repeat' first
    | intro _
    | with_reducible assumption
    | dsimp only
    | with_reducible apply Kept.ite
    | with_reducible apply Kept.dite
    | with_reducible apply answered_kept
    | with_reducible apply Kept.refl
    | simp only [↓Kept.upd_eq]
    | with_reducible apply Kept.fold
    | with_reducible apply Kept.foldFst
    | split

theorem execRequestTimeout_kept {r0 : State} (tag : BitVec 32) (s : State) (h : Kept r0 s) : KeptOut r0 (execRequestTimeout tag s) := by
  unfold execRequestTimeout
  repeat' first
    | intro _
    | with_reducible assumption
    | dsimp only
    | with_reducible apply KeptOut.ite
    | with_reducible apply KeptOut.next
    | with_reducible apply KeptOut.fault
    | with_reducible apply Kept.ite
    | with_reducible apply Kept.dite
    | with_reducible apply answered_kept
    | with_reducible apply State.advanceTo_kept
    | with_reducible apply State.timedOut_kept
    | with_reducible apply Kept.refl
    | simp only [↓Kept.upd_eq]
    | with_reducible apply Kept.fold
    | with_reducible apply Kept.foldFst
    | split

end Sys2Proof.Machine
end

