-- ==== Sys2Proof/Laws/KeptFunctions.lean ====
section
/-! SUPPORT. Laws/KeptFunctions.lean: every operation of Machine/Functions.lean keeps what Laws/Kept.lean names. -/

namespace Sys2Proof.Machine

set_option linter.unusedTactic false
set_option linter.unreachableTactic false

theorem State.setFn_kept {r0 : State} (s : State) (fn : Nat) (x : FnSt) (h : Kept r0 s) : Kept r0 (State.setFn s fn x) := by
  unfold State.setFn
  repeat' first
    | intro _
    | with_reducible assumption
    | dsimp only
    | with_reducible apply Kept.ite
    | with_reducible apply Kept.dite
    | with_reducible apply Kept.refl
    | simp only [↓Kept.upd_eq]
    | with_reducible apply Kept.fold
    | with_reducible apply Kept.foldFst
    | split

theorem State.setWork_kept {r0 : State} (s : State) (fn : Nat) (w : Option FnWork) (h : Kept r0 s) : Kept r0 (State.setWork s fn w) := by
  unfold State.setWork
  repeat' first
    | intro _
    | with_reducible assumption
    | dsimp only
    | with_reducible apply Kept.ite
    | with_reducible apply Kept.dite
    | with_reducible apply Kept.refl
    | simp only [↓Kept.upd_eq]
    | with_reducible apply Kept.fold
    | with_reducible apply Kept.foldFst
    | split

theorem haltByOrder_kept {r0 : State} (s : State) (c : CoreId) (r : StopReason) (h : Kept r0 s) : Kept r0 (haltByOrder s c r) := by
  unfold haltByOrder
  repeat' first
    | intro _
    | with_reducible assumption
    | dsimp only
    | with_reducible apply Kept.ite
    | with_reducible apply Kept.dite
    | with_reducible apply discardTiles_kept
    | with_reducible apply stopCore_kept
    | with_reducible apply Kept.refl
    | simp only [↓Kept.upd_eq]
    | with_reducible apply Kept.fold
    | with_reducible apply Kept.foldFst
    | split

theorem loadGloss_kept {r0 : State} (s : State) (c : CoreId) (g : Nat × List U64) (h : Kept r0 s) : Kept r0 (loadGloss s c g) := by
  unfold loadGloss
  repeat' first
    | intro _
    | with_reducible assumption
    | dsimp only
    | with_reducible apply Kept.ite
    | with_reducible apply Kept.dite
    | with_reducible apply glCommit_kept
    | with_reducible apply State.modCore_kept
    | with_reducible apply Kept.refl
    | simp only [↓Kept.upd_eq]
    | with_reducible apply Kept.fold
    | with_reducible apply Kept.foldFst
    | split

theorem loadGlosses_kept {r0 : State} (s : State) (c : CoreId) (h : Kept r0 s) : Kept r0 (loadGlosses s c) := by
  unfold loadGlosses
  repeat' first
    | intro _
    | with_reducible assumption
    | dsimp only
    | with_reducible apply Kept.ite
    | with_reducible apply Kept.dite
    | with_reducible apply loadGloss_kept
    | with_reducible apply Kept.refl
    | simp only [↓Kept.upd_eq]
    | with_reducible apply Kept.fold
    | with_reducible apply Kept.foldFst
    | split

theorem resetCore_kept {r0 : State} (s : State) (c : CoreId) (h : Kept r0 s) : Kept r0 (resetCore s c) := by
  unfold resetCore
  repeat' first
    | intro _
    | with_reducible assumption
    | dsimp only
    | with_reducible apply Kept.ite
    | with_reducible apply Kept.dite
    | with_reducible apply loadGlosses_kept
    | with_reducible apply State.setCore_kept
    | with_reducible apply Kept.refl
    | simp only [↓Kept.upd_eq]
    | with_reducible apply Kept.fold
    | with_reducible apply Kept.foldFst
    | split

theorem startCore_kept {r0 : State} (s : State) (c : CoreId) (entry : U64) (h : Kept r0 s) : Kept r0 (startCore s c entry) := by
  unfold startCore
  repeat' first
    | intro _
    | with_reducible assumption
    | dsimp only
    | with_reducible apply Kept.ite
    | with_reducible apply Kept.dite
    | with_reducible apply State.modCore_kept
    | with_reducible apply Kept.refl
    | simp only [↓Kept.upd_eq]
    | with_reducible apply Kept.fold
    | with_reducible apply Kept.foldFst
    | split

theorem startHub_kept {r0 : State} (s : State) (h : Kept r0 s) : Kept r0 (startHub s) := by
  unfold startHub
  repeat' first
    | intro _
    | with_reducible assumption
    | dsimp only
    | with_reducible apply Kept.ite
    | with_reducible apply Kept.dite
    | with_reducible apply startCore_kept
    | with_reducible apply Kept.refl
    | simp only [↓Kept.upd_eq]
    | with_reducible apply Kept.fold
    | with_reducible apply Kept.foldFst
    | split

theorem poisonPair_kept {r0 : State} (s : State) (c : CoreId) (p : Nat) (h : Kept r0 s) : Kept r0 (poisonPair s c p) := by
  unfold poisonPair
  repeat' first
    | intro _
    | with_reducible assumption
    | dsimp only
    | with_reducible apply Kept.ite
    | with_reducible apply Kept.dite
    | with_reducible apply State.modCore_kept
    | with_reducible apply Kept.refl
    | simp only [↓Kept.upd_eq]
    | with_reducible apply Kept.fold
    | with_reducible apply Kept.foldFst
    | split

theorem abortStream_kept {r0 : State} (s : State) (c : CoreId) (e : Nat) (h : Kept r0 s) : Kept r0 (abortStream s c e) := by
  unfold abortStream
  repeat' first
    | intro _
    | with_reducible assumption
    | dsimp only
    | with_reducible apply Kept.ite
    | with_reducible apply Kept.dite
    | with_reducible apply poisonPair_kept
    | with_reducible apply endStream_kept
    | with_reducible apply finishEnd_kept
    | with_reducible apply State.modCore_kept
    | with_reducible apply Kept.refl
    | simp only [↓Kept.upd_eq]
    | with_reducible apply Kept.fold
    | with_reducible apply Kept.foldFst
    | split

theorem dropReqs_kept {r0 : State} (s : State) (fn : Nat) (h : Kept r0 s) : Kept r0 (dropReqs s fn) := by
  unfold dropReqs
  repeat' first
    | intro _
    | with_reducible assumption
    | dsimp only
    | with_reducible apply Kept.ite
    | with_reducible apply Kept.dite
    | with_reducible apply Kept.refl
    | simp only [↓Kept.upd_eq]
    | with_reducible apply Kept.fold
    | with_reducible apply Kept.foldFst
    | split

theorem breakPlans_kept {r0 : State} (s : State) (ps : List Nat) (report : Bool) (h : Kept r0 s) : Kept r0 (breakPlans s ps report) := by
  unfold breakPlans
  repeat' first
    | intro _
    | with_reducible assumption
    | dsimp only
    | with_reducible apply Kept.ite
    | with_reducible apply Kept.dite
    | with_reducible apply Kept.refl
    | simp only [↓Kept.upd_eq]
    | with_reducible apply Kept.fold
    | with_reducible apply Kept.foldFst
    | split

theorem abortFn_kept {r0 : State} (s : State) (fn : Nat) (h : Kept r0 s) : Kept r0 (abortFn s fn).1 := by
  unfold abortFn
  repeat' first
    | intro _
    | with_reducible assumption
    | dsimp only
    | with_reducible apply Kept.ite
    | with_reducible apply Kept.dite
    | with_reducible apply breakPlans_kept
    | with_reducible apply dropReqs_kept
    | with_reducible apply abortStream_kept
    | with_reducible apply poisonPair_kept
    | with_reducible apply refuseAll_kept
    | with_reducible apply cancelJobs_kept
    | with_reducible apply State.modPow_kept
    | with_reducible apply State.modLed_kept
    | with_reducible apply discardTiles_kept
    | with_reducible apply stopCore_kept
    | with_reducible apply State.modBox_kept
    | with_reducible apply State.modCore_kept
    | with_reducible apply Kept.refl
    | simp only [↓Kept.upd_eq]
    | with_reducible apply Kept.fold
    | with_reducible apply Kept.foldFst
    | split

theorem ledgerPairs_kept {r0 : State} (s : State) (h : Kept r0 s) : Kept r0 (ledgerPairs s) := by
  unfold ledgerPairs
  repeat' first
    | intro _
    | with_reducible assumption
    | dsimp only
    | with_reducible apply Kept.ite
    | with_reducible apply Kept.dite
    | with_reducible apply ledDrain_kept
    | with_reducible apply State.modLed_kept
    | with_reducible apply Kept.refl
    | simp only [↓Kept.upd_eq]
    | with_reducible apply Kept.fold
    | with_reducible apply Kept.foldFst
    | split

theorem answerWaits_kept {r0 : State} (s : State) (ws : List (Nat × Bool)) (n : Nat) (h : Kept r0 s) : Kept r0 (answerWaits s ws n) := by
  unfold answerWaits
  repeat' first
    | intro _
    | with_reducible assumption
    | dsimp only
    | with_reducible apply Kept.ite
    | with_reducible apply Kept.dite
    | with_reducible apply reply_kept
    | with_reducible apply Kept.refl
    | simp only [↓Kept.upd_eq]
    | with_reducible apply Kept.fold
    | with_reducible apply Kept.foldFst
    | split

theorem startDrain_kept {r0 : State} (s : State) (fn : Nat) (drain : Nat) (waits : List (Nat × Bool)) (reset : Bool) (stay : Bool) (h : Kept r0 s) : Kept r0 (startDrain s fn drain waits reset stay) := by
  unfold startDrain
  repeat' first
    | intro _
    | with_reducible assumption
    | dsimp only
    | with_reducible apply Kept.ite
    | with_reducible apply Kept.dite
    | with_reducible apply State.setWork_kept
    | with_reducible apply State.setFn_kept
    | with_reducible apply ledEmpty_kept
    | with_reducible apply State.modLed_kept
    | with_reducible apply stopAtBoundary_kept
    | with_reducible apply Kept.refl
    | simp only [↓Kept.upd_eq]
    | with_reducible apply Kept.fold
    | with_reducible apply Kept.foldFst
    | split

theorem endDrain_kept {r0 : State} (s : State) (fn : Nat) (h : Kept r0 s) : Kept r0 (endDrain s fn) := by
  unfold endDrain
  repeat' first
    | intro _
    | with_reducible assumption
    | dsimp only
    | with_reducible apply Kept.ite
    | with_reducible apply Kept.dite
    | with_reducible apply answerWaits_kept
    | with_reducible apply abortFn_kept
    | with_reducible apply State.setWork_kept
    | with_reducible apply State.setFn_kept
    | with_reducible apply ownerNotice_kept
    | with_reducible apply Kept.refl
    | simp only [↓Kept.upd_eq]
    | with_reducible apply Kept.fold
    | with_reducible apply Kept.foldFst
    | refine Kept.ofFst (x := abortFn _ _) (by assumption) ?_
    | split

theorem execFnDrainEnd_kept {r0 : State} (fn : Fin 10) (s : State) (h : Kept r0 s) : KeptOut r0 (execFnDrainEnd fn s) := by
  unfold execFnDrainEnd
  repeat' first
    | intro _
    | with_reducible assumption
    | dsimp only
    | with_reducible apply KeptOut.ite
    | with_reducible apply KeptOut.next
    | with_reducible apply KeptOut.fault
    | with_reducible apply Kept.ite
    | with_reducible apply Kept.dite
    | with_reducible apply endDrain_kept
    | with_reducible apply State.advanceTo_kept
    | with_reducible apply Kept.refl
    | simp only [↓Kept.upd_eq]
    | with_reducible apply Kept.fold
    | with_reducible apply Kept.foldFst
    | split

theorem zeroRange_kept {r0 : State} (s : State) (lo hi : Nat) (h : Kept r0 s) : Kept r0 (zeroRange s lo hi) := by
  unfold zeroRange
  dsimp only
  have h1 : Kept r0 { s with
      mem := s.mem.filter (fun c => !decide (lo ≤ c.1 ∧ c.1 < hi)),
      poison := s.poison.filter (fun w => !decide (lo ≤ 8 * w ∧ 8 * w < hi)) } :=
    h.trans ⟨fun w => spWf_filter _ w, rfl, Nat.le_refl _⟩
  exact breakWatches_kept _ _ (abortTasks_kept _ _ _ h1)

theorem releaseOwner_kept {r0 : State} (s : State) (h : Kept r0 s) : Kept r0 (releaseOwner s) := by
  unfold releaseOwner
  repeat' first
    | intro _
    | with_reducible assumption
    | dsimp only
    | with_reducible apply Kept.ite
    | with_reducible apply Kept.dite
    | with_reducible apply queueNotice_kept
    | with_reducible apply Kept.refl
    | simp only [↓Kept.upd_eq]
    | with_reducible apply Kept.fold
    | with_reducible apply Kept.foldFst
    | split

theorem clearFn_kept {r0 : State} (s : State) (fn : Nat) (h : Kept r0 s) : Kept r0 (clearFn s fn) := by
  unfold clearFn
  repeat' first
    | intro _
    | with_reducible assumption
    | dsimp only
    | with_reducible apply Kept.ite
    | with_reducible apply Kept.dite
    | with_reducible apply releaseOwner_kept
    | with_reducible apply zeroRange_kept
    | with_reducible apply breakPlans_kept
    | with_reducible apply dropReqs_kept
    | with_reducible apply resetCore_kept
    | with_reducible apply refuseAll_kept
    | with_reducible apply State.modBox_kept
    | with_reducible apply abortTasks_kept
    | with_reducible apply Kept.refl
    | simp only [↓Kept.upd_eq]
    | with_reducible apply Kept.fold
    | with_reducible apply Kept.foldFst
    | split

theorem execFnResetDone_kept {r0 : State} (fn : Fin 10) (s : State) (h : Kept r0 s) : KeptOut r0 (execFnResetDone fn s) := by
  unfold execFnResetDone
  repeat' first
    | intro _
    | with_reducible assumption
    | dsimp only
    | with_reducible apply KeptOut.ite
    | with_reducible apply KeptOut.next
    | with_reducible apply KeptOut.fault
    | with_reducible apply Kept.ite
    | with_reducible apply Kept.dite
    | with_reducible apply clearFn_kept
    | with_reducible apply answerWaits_kept
    | with_reducible apply ledgerPairs_kept
    | with_reducible apply startHub_kept
    | with_reducible apply State.setWork_kept
    | with_reducible apply State.setFn_kept
    | with_reducible apply Kept.refl
    | simp only [↓Kept.upd_eq]
    | with_reducible apply Kept.fold
    | with_reducible apply Kept.foldFst
    | split

theorem execFnQuery_kept {r0 : State} (mb : MailId) (s : State) (h : Kept r0 s) : KeptOut r0 (execFnQuery mb s) := by
  unfold execFnQuery
  repeat' first
    | intro _
    | with_reducible assumption
    | dsimp only
    | with_reducible apply KeptOut.ite
    | with_reducible apply KeptOut.next
    | with_reducible apply KeptOut.fault
    | with_reducible apply Kept.ite
    | with_reducible apply Kept.dite
    | with_reducible apply onSlip_kept
    | with_reducible apply reply_kept
    | with_reducible apply Kept.refl
    | simp only [↓Kept.upd_eq]
    | with_reducible apply Kept.fold
    | with_reducible apply Kept.foldFst
    | split

theorem execFnDisable_kept {r0 : State} (mb : MailId) (s : State) (h : Kept r0 s) : KeptOut r0 (execFnDisable mb s) := by
  unfold execFnDisable
  repeat' first
    | intro _
    | with_reducible assumption
    | dsimp only
    | with_reducible apply KeptOut.ite
    | with_reducible apply KeptOut.next
    | with_reducible apply KeptOut.fault
    | with_reducible apply Kept.ite
    | with_reducible apply Kept.dite
    | with_reducible apply startDrain_kept
    | with_reducible apply State.setWork_kept
    | with_reducible apply onSlip_kept
    | with_reducible apply takeSlip_kept
    | with_reducible apply reply_kept
    | with_reducible apply Kept.refl
    | simp only [↓Kept.upd_eq]
    | with_reducible apply Kept.fold
    | with_reducible apply Kept.foldFst
    | split

theorem execFnEnable_kept {r0 : State} (mb : MailId) (s : State) (h : Kept r0 s) : KeptOut r0 (execFnEnable mb s) := by
  unfold execFnEnable
  repeat' first
    | intro _
    | with_reducible assumption
    | dsimp only
    | with_reducible apply KeptOut.ite
    | with_reducible apply KeptOut.next
    | with_reducible apply KeptOut.fault
    | with_reducible apply Kept.ite
    | with_reducible apply Kept.dite
    | with_reducible apply ledgerPairs_kept
    | with_reducible apply startHub_kept
    | with_reducible apply State.setFn_kept
    | with_reducible apply onSlip_kept
    | with_reducible apply reply_kept
    | with_reducible apply Kept.refl
    | simp only [↓Kept.upd_eq]
    | with_reducible apply Kept.fold
    | with_reducible apply Kept.foldFst
    | split

theorem execFnReset_kept {r0 : State} (mb : MailId) (s : State) (h : Kept r0 s) : KeptOut r0 (execFnReset mb s) := by
  unfold execFnReset
  repeat' first
    | intro _
    | with_reducible assumption
    | dsimp only
    | with_reducible apply KeptOut.ite
    | with_reducible apply KeptOut.next
    | with_reducible apply KeptOut.fault
    | with_reducible apply Kept.ite
    | with_reducible apply Kept.dite
    | with_reducible apply startDrain_kept
    | with_reducible apply State.setWork_kept
    | with_reducible apply State.setFn_kept
    | with_reducible apply onSlip_kept
    | with_reducible apply takeSlip_kept
    | with_reducible apply reply_kept
    | with_reducible apply Kept.refl
    | simp only [↓Kept.upd_eq]
    | with_reducible apply Kept.fold
    | with_reducible apply Kept.foldFst
    | split

theorem execCoreStoprec_kept {r0 : State} (mb : MailId) (s : State) (h : Kept r0 s) : KeptOut r0 (execCoreStoprec mb s) := by
  unfold execCoreStoprec
  repeat' first
    | intro _
    | with_reducible assumption
    | dsimp only
    | with_reducible apply KeptOut.ite
    | with_reducible apply KeptOut.next
    | with_reducible apply KeptOut.fault
    | with_reducible apply Kept.ite
    | with_reducible apply Kept.dite
    | with_reducible apply onSlip_kept
    | with_reducible apply reply_kept
    | with_reducible apply Kept.refl
    | simp only [↓Kept.upd_eq]
    | with_reducible apply Kept.fold
    | with_reducible apply Kept.foldFst
    | split

theorem execCoreRestart_kept {r0 : State} (mb : MailId) (s : State) (h : Kept r0 s) : KeptOut r0 (execCoreRestart mb s) := by
  unfold execCoreRestart
  repeat' first
    | intro _
    | with_reducible assumption
    | dsimp only
    | with_reducible apply KeptOut.ite
    | with_reducible apply KeptOut.next
    | with_reducible apply KeptOut.fault
    | with_reducible apply Kept.ite
    | with_reducible apply Kept.dite
    | with_reducible apply startCore_kept
    | with_reducible apply onSlip_kept
    | with_reducible apply reply_kept
    | with_reducible apply Kept.refl
    | simp only [↓Kept.upd_eq]
    | with_reducible apply Kept.fold
    | with_reducible apply Kept.foldFst
    | split

theorem execCoreStop_kept {r0 : State} (mb : MailId) (s : State) (h : Kept r0 s) : KeptOut r0 (execCoreStop mb s) := by
  unfold execCoreStop
  repeat' first
    | intro _
    | with_reducible assumption
    | dsimp only
    | with_reducible apply KeptOut.ite
    | with_reducible apply KeptOut.next
    | with_reducible apply KeptOut.fault
    | with_reducible apply Kept.ite
    | with_reducible apply Kept.dite
    | with_reducible apply haltByOrder_kept
    | with_reducible apply onSlip_kept
    | with_reducible apply reply_kept
    | with_reducible apply Kept.refl
    | simp only [↓Kept.upd_eq]
    | with_reducible apply Kept.fold
    | with_reducible apply Kept.foldFst
    | split

theorem execWdog_kept {r0 : State} (mb : MailId) (s : State) (h : Kept r0 s) : KeptOut r0 (execWdog mb s) := by
  unfold execWdog
  repeat' first
    | intro _
    | with_reducible assumption
    | dsimp only
    | with_reducible apply KeptOut.ite
    | with_reducible apply KeptOut.next
    | with_reducible apply KeptOut.fault
    | with_reducible apply Kept.ite
    | with_reducible apply Kept.dite
    | with_reducible apply onSlip_kept
    | with_reducible apply reply_kept
    | with_reducible apply Kept.refl
    | simp only [↓Kept.upd_eq]
    | with_reducible apply Kept.fold
    | with_reducible apply Kept.foldFst
    | split

theorem execDbgHalt_kept {r0 : State} (mb : MailId) (s : State) (h : Kept r0 s) : KeptOut r0 (execDbgHalt mb s) := by
  unfold execDbgHalt
  repeat' first
    | intro _
    | with_reducible assumption
    | dsimp only
    | with_reducible apply KeptOut.ite
    | with_reducible apply KeptOut.next
    | with_reducible apply KeptOut.fault
    | with_reducible apply Kept.ite
    | with_reducible apply Kept.dite
    | with_reducible apply onSlip_kept
    | with_reducible apply reply_kept
    | with_reducible apply discardTiles_kept
    | with_reducible apply haltCore_kept
    | with_reducible apply State.modCore_kept
    | with_reducible apply Kept.refl
    | simp only [↓Kept.upd_eq]
    | with_reducible apply Kept.fold
    | with_reducible apply Kept.foldFst
    | split

theorem execDbgResume_kept {r0 : State} (mb : MailId) (s : State) (h : Kept r0 s) : KeptOut r0 (execDbgResume mb s) := by
  unfold execDbgResume
  repeat' first
    | intro _
    | with_reducible assumption
    | dsimp only
    | with_reducible apply KeptOut.ite
    | with_reducible apply KeptOut.next
    | with_reducible apply KeptOut.fault
    | with_reducible apply Kept.ite
    | with_reducible apply Kept.dite
    | with_reducible apply onSlip_kept
    | with_reducible apply reply_kept
    | with_reducible apply State.modCore_kept
    | with_reducible apply Kept.refl
    | simp only [↓Kept.upd_eq]
    | with_reducible apply Kept.fold
    | with_reducible apply Kept.foldFst
    | split

end Sys2Proof.Machine
end

