-- ==== Sys2Proof/Laws/KeptOwnership.lean ====
section
/-! SUPPORT. Laws/KeptOwnership.lean: every operation of Machine/Ownership.lean keeps what Laws/Kept.lean names. -/

namespace Sys2Proof.Machine

set_option linter.unusedTactic false
set_option linter.unreachableTactic false

theorem ownerNotices_kept {r0 : State} (s : State) (key : U64) (standing : BitVec 3) (h : Kept r0 s) : Kept r0 (ownerNotices s key standing) := by
  unfold ownerNotices
  repeat' first
    | intro _
    | with_reducible assumption
    | dsimp only
    | with_reducible apply Kept.ite
    | with_reducible apply Kept.dite
    | with_reducible apply queueNotice_kept
    | with_reducible apply Kept.refl
    | simp only [↓Kept.upd_eq]
    | with_reducible apply Kept.fold
    | with_reducible apply Kept.foldFst
    | split

theorem takeOwner_kept {r0 : State} (s : State) (key : U64) (standing : BitVec 3) (h : Kept r0 s) : Kept r0 (takeOwner s key standing) := by
  unfold takeOwner
  repeat' first
    | intro _
    | with_reducible assumption
    | dsimp only
    | with_reducible apply Kept.ite
    | with_reducible apply Kept.dite
    | with_reducible apply ownerNotices_kept
    | with_reducible apply Kept.refl
    | simp only [↓Kept.upd_eq]
    | with_reducible apply Kept.fold
    | with_reducible apply Kept.foldFst
    | split

theorem renewLease_kept {r0 : State} (s : State) (standing : BitVec 3) (h : Kept r0 s) : Kept r0 (renewLease s standing) := by
  unfold renewLease
  repeat' first
    | intro _
    | with_reducible assumption
    | dsimp only
    | with_reducible apply Kept.ite
    | with_reducible apply Kept.dite
    | with_reducible apply Kept.refl
    | simp only [↓Kept.upd_eq]
    | with_reducible apply Kept.fold
    | with_reducible apply Kept.foldFst
    | split

theorem replyHeld_kept {r0 : State} (s : State) (mb : Nat) (h : Kept r0 s) : Kept r0 (replyHeld s mb) := by
  unfold replyHeld
  repeat' first
    | intro _
    | with_reducible assumption
    | dsimp only
    | with_reducible apply Kept.ite
    | with_reducible apply Kept.dite
    | with_reducible apply reply_kept
    | with_reducible apply Kept.refl
    | simp only [↓Kept.upd_eq]
    | with_reducible apply Kept.fold
    | with_reducible apply Kept.foldFst
    | split

theorem settleLease_kept {r0 : State} (s : State) (h : Kept r0 s) : Kept r0 (settleLease s) := by
  unfold settleLease
  repeat' first
    | intro _
    | with_reducible assumption
    | dsimp only
    | with_reducible apply Kept.ite
    | with_reducible apply Kept.dite
    | with_reducible apply releaseOwner_kept
    | with_reducible apply Kept.refl
    | simp only [↓Kept.upd_eq]
    | with_reducible apply Kept.fold
    | with_reducible apply Kept.foldFst
    | split

theorem execOwnQuery_kept {r0 : State} (mb : MailId) (s : State) (h : Kept r0 s) : KeptOut r0 (execOwnQuery mb s) := by
  unfold execOwnQuery
  repeat' first
    | intro _
    | with_reducible assumption
    | dsimp only
    | with_reducible apply KeptOut.ite
    | with_reducible apply KeptOut.next
    | with_reducible apply KeptOut.fault
    | with_reducible apply Kept.ite
    | with_reducible apply Kept.dite
    | with_reducible apply onSlip_kept
    | with_reducible apply reply_kept
    | with_reducible apply Kept.refl
    | simp only [↓Kept.upd_eq]
    | with_reducible apply Kept.fold
    | with_reducible apply Kept.foldFst
    | split

theorem execOwnClaim_kept {r0 : State} (mb : MailId) (s : State) (h : Kept r0 s) : KeptOut r0 (execOwnClaim mb s) := by
  unfold execOwnClaim
  repeat' first
    | intro _
    | with_reducible assumption
    | dsimp only
    | with_reducible apply KeptOut.ite
    | with_reducible apply KeptOut.next
    | with_reducible apply KeptOut.fault
    | with_reducible apply Kept.ite
    | with_reducible apply Kept.dite
    | with_reducible apply settleLease_kept
    | with_reducible apply replyHeld_kept
    | with_reducible apply renewLease_kept
    | with_reducible apply onSlip_kept
    | with_reducible apply takeSlip_kept
    | with_reducible apply reply_kept
    | with_reducible apply Kept.refl
    | simp only [↓Kept.upd_eq]
    | with_reducible apply Kept.fold
    | with_reducible apply Kept.foldFst
    | split

theorem answerHeld_kept {r0 : State} (s : State) (l : List (Nat × U64 × BitVec 3)) (h : Kept r0 s) : Kept r0 (answerHeld s l) := by
  unfold answerHeld
  repeat' first
    | intro _
    | with_reducible assumption
    | dsimp only
    | with_reducible apply Kept.ite
    | with_reducible apply Kept.dite
    | with_reducible apply replyHeld_kept
    | with_reducible apply Kept.refl
    | simp only [↓Kept.upd_eq]
    | with_reducible apply Kept.fold
    | with_reducible apply Kept.foldFst
    | split

theorem execOwnershipContestClose_kept {r0 : State} (s : State) (h : Kept r0 s) : KeptOut r0 (execOwnershipContestClose s) := by
  unfold execOwnershipContestClose
  repeat' first
    | intro _
    | with_reducible assumption
    | dsimp only
    | with_reducible apply KeptOut.ite
    | with_reducible apply KeptOut.next
    | with_reducible apply KeptOut.fault
    | with_reducible apply Kept.ite
    | with_reducible apply Kept.dite
    | with_reducible apply answerHeld_kept
    | with_reducible apply takeOwner_kept
    | with_reducible apply reply_kept
    | with_reducible apply State.advanceTo_kept
    | with_reducible apply Kept.refl
    | simp only [↓Kept.upd_eq]
    | with_reducible apply Kept.fold
    | with_reducible apply Kept.foldFst
    | split

theorem execOwnRenew_kept {r0 : State} (mb : MailId) (s : State) (h : Kept r0 s) : KeptOut r0 (execOwnRenew mb s) := by
  unfold execOwnRenew
  repeat' first
    | intro _
    | with_reducible assumption
    | dsimp only
    | with_reducible apply KeptOut.ite
    | with_reducible apply KeptOut.next
    | with_reducible apply KeptOut.fault
    | with_reducible apply Kept.ite
    | with_reducible apply Kept.dite
    | with_reducible apply renewLease_kept
    | with_reducible apply onSlip_kept
    | with_reducible apply reply_kept
    | with_reducible apply Kept.refl
    | simp only [↓Kept.upd_eq]
    | with_reducible apply Kept.fold
    | with_reducible apply Kept.foldFst
    | split

theorem execLeaseExpiry_kept {r0 : State} (s : State) (h : Kept r0 s) : KeptOut r0 (execLeaseExpiry s) := by
  unfold execLeaseExpiry
  repeat' first
    | intro _
    | with_reducible assumption
    | dsimp only
    | with_reducible apply KeptOut.ite
    | with_reducible apply KeptOut.next
    | with_reducible apply KeptOut.fault
    | with_reducible apply Kept.ite
    | with_reducible apply Kept.dite
    | with_reducible apply releaseOwner_kept
    | with_reducible apply State.advanceTo_kept
    | with_reducible apply Kept.refl
    | simp only [↓Kept.upd_eq]
    | with_reducible apply Kept.fold
    | with_reducible apply Kept.foldFst
    | split

theorem execOwnRelease_kept {r0 : State} (mb : MailId) (s : State) (h : Kept r0 s) : KeptOut r0 (execOwnRelease mb s) := by
  unfold execOwnRelease
  repeat' first
    | intro _
    | with_reducible assumption
    | dsimp only
    | with_reducible apply KeptOut.ite
    | with_reducible apply KeptOut.next
    | with_reducible apply KeptOut.fault
    | with_reducible apply Kept.ite
    | with_reducible apply Kept.dite
    | with_reducible apply releaseOwner_kept
    | with_reducible apply onSlip_kept
    | with_reducible apply reply_kept
    | with_reducible apply Kept.refl
    | simp only [↓Kept.upd_eq]
    | with_reducible apply Kept.fold
    | with_reducible apply Kept.foldFst
    | split

theorem execOwnGrant_kept {r0 : State} (mb : MailId) (s : State) (h : Kept r0 s) : KeptOut r0 (execOwnGrant mb s) := by
  unfold execOwnGrant
  repeat' first
    | intro _
    | with_reducible assumption
    | dsimp only
    | with_reducible apply KeptOut.ite
    | with_reducible apply KeptOut.next
    | with_reducible apply KeptOut.fault
    | with_reducible apply Kept.ite
    | with_reducible apply Kept.dite
    | with_reducible apply onSlip_kept
    | with_reducible apply reply_kept
    | with_reducible apply Kept.refl
    | simp only [↓Kept.upd_eq]
    | with_reducible apply Kept.fold
    | with_reducible apply Kept.foldFst
    | split

theorem newChallenge_kept {r0 : State} (s : State) (h : Kept r0 s) : Kept r0 (newChallenge s) := by
  unfold newChallenge
  repeat' first
    | intro _
    | with_reducible assumption
    | dsimp only
    | with_reducible apply Kept.ite
    | with_reducible apply Kept.dite
    | with_reducible apply State.freeNext_kept
    | with_reducible apply Kept.refl
    | simp only [↓Kept.upd_eq]
    | with_reducible apply Kept.fold
    | with_reducible apply Kept.foldFst
    | refine Kept.ofSnd (x := State.freeNext _) (by assumption) ?_
    | split

theorem execOwnForce_kept {r0 : State} (mb : MailId) (s : State) (h : Kept r0 s) : KeptOut r0 (execOwnForce mb s) := by
  unfold execOwnForce
  repeat' first
    | intro _
    | with_reducible assumption
    | dsimp only
    | with_reducible apply KeptOut.ite
    | with_reducible apply KeptOut.next
    | with_reducible apply KeptOut.fault
    | with_reducible apply Kept.ite
    | with_reducible apply Kept.dite
    | with_reducible apply newChallenge_kept
    | with_reducible apply answerHeld_kept
    | with_reducible apply takeOwner_kept
    | with_reducible apply onSlip_kept
    | with_reducible apply reply_kept
    | with_reducible apply Kept.refl
    | simp only [↓Kept.upd_eq]
    | with_reducible apply Kept.fold
    | with_reducible apply Kept.foldFst
    | split

theorem extendState_kept {r0 : State} (s : State) (i : Nat) (x : List Byte) (h : Kept r0 s) : Kept r0 (extendState s i x) := by
  unfold extendState
  repeat' first
    | intro _
    | with_reducible assumption
    | dsimp only
    | with_reducible apply Kept.ite
    | with_reducible apply Kept.dite
    | with_reducible apply Kept.refl
    | simp only [↓Kept.upd_eq]
    | with_reducible apply Kept.fold
    | with_reducible apply Kept.foldFst
    | split

theorem setForceKey_kept {r0 : State} (s : State) (key : List Byte) (h : Kept r0 s) : Kept r0 (setForceKey s key) := by
  unfold setForceKey
  repeat' first
    | intro _
    | with_reducible assumption
    | dsimp only
    | with_reducible apply Kept.ite
    | with_reducible apply Kept.dite
    | with_reducible apply extendState_kept
    | with_reducible apply Kept.refl
    | simp only [↓Kept.upd_eq]
    | with_reducible apply Kept.fold
    | with_reducible apply Kept.foldFst
    | split

theorem execOwnKeyset_kept {r0 : State} (mb : MailId) (s : State) (h : Kept r0 s) : KeptOut r0 (execOwnKeyset mb s) := by
  unfold execOwnKeyset
  repeat' first
    | intro _
    | with_reducible assumption
    | dsimp only
    | with_reducible apply KeptOut.ite
    | with_reducible apply KeptOut.next
    | with_reducible apply KeptOut.fault
    | with_reducible apply Kept.ite
    | with_reducible apply Kept.dite
    | with_reducible apply setForceKey_kept
    | with_reducible apply newChallenge_kept
    | with_reducible apply onSlip_kept
    | with_reducible apply reply_kept
    | with_reducible apply Kept.refl
    | simp only [↓Kept.upd_eq]
    | with_reducible apply Kept.fold
    | with_reducible apply Kept.foldFst
    | split

end Sys2Proof.Machine
end

