-- ==== Sys2Proof/Laws/KeptFabric.lean ====
section
/-! SUPPORT. Laws/KeptFabric.lean: every operation of Machine/Fabric.lean keeps what Laws/Kept.lean names. -/

namespace Sys2Proof.Machine

set_option linter.unusedTactic false
set_option linter.unreachableTactic false

theorem linkControl_kept {r0 : State} (s : State) (p : PortId) (k : Packet) (h : Kept r0 s) : Kept r0 (linkControl s p k) := by
  unfold linkControl
  repeat' first
    | intro _
    | with_reducible assumption
    | dsimp only
    | with_reducible apply Kept.ite
    | with_reducible apply Kept.dite
    | with_reducible apply drainTx_kept
    | with_reducible apply State.setPort_kept
    | with_reducible apply Kept.refl
    | simp only [↓Kept.upd_eq]
    | with_reducible apply Kept.fold
    | with_reducible apply Kept.foldFst
    | split

theorem linkIn_kept {r0 : State} (s : State) (p : PortId) (k : Packet) (h : Kept r0 s) : Kept r0 (linkIn s p k).1 := by
  unfold linkIn
  repeat' first
    | intro _
    | with_reducible assumption
    | dsimp only
    | with_reducible apply Kept.ite
    | with_reducible apply Kept.dite
    | with_reducible apply linkControl_kept
    | with_reducible apply State.setPort_kept
    | with_reducible apply Kept.refl
    | simp only [↓Kept.upd_eq]
    | with_reducible apply Kept.fold
    | with_reducible apply Kept.foldFst
    | split

theorem refuseTo_kept {r0 : State} (s : State) (k : Packet) (status : Nat) (which : Bool) (h : Kept r0 s) : Kept r0 (refuseTo s k status which) := by
  unfold refuseTo
  repeat' first
    | intro _
    | with_reducible assumption
    | dsimp only
    | with_reducible apply Kept.ite
    | with_reducible apply Kept.dite
    | with_reducible apply State.emit_kept
    | with_reducible apply Kept.refl
    | simp only [↓Kept.upd_eq]
    | with_reducible apply Kept.fold
    | with_reducible apply Kept.foldFst
    | split

theorem refuseBack_kept {r0 : State} (s : State) (p : PortId) (k : Packet) (status : Nat) (h : Kept r0 s) : Kept r0 (refuseBack s p k status) := by
  unfold refuseBack
  repeat' first
    | intro _
    | with_reducible assumption
    | dsimp only
    | with_reducible apply Kept.ite
    | with_reducible apply Kept.dite
    | with_reducible apply State.sendOn_kept
    | with_reducible apply Kept.refl
    | simp only [↓Kept.upd_eq]
    | with_reducible apply Kept.fold
    | with_reducible apply Kept.foldFst
    | split

theorem sendAlong_kept {r0 : State} (s : State) (from' : Option PortId) (k : Packet) (h : Kept r0 s) : Kept r0 (sendAlong s from' k) := by
  unfold sendAlong
  repeat' first
    | intro _
    | with_reducible assumption
    | dsimp only
    | with_reducible apply Kept.ite
    | with_reducible apply Kept.dite
    | with_reducible apply refuseTo_kept
    | with_reducible apply State.route_kept
    | with_reducible apply State.sendFrom_kept
    | with_reducible apply State.owe_kept
    | with_reducible apply State.drop_kept
    | with_reducible apply Kept.refl
    | simp only [↓Kept.upd_eq]
    | with_reducible apply Kept.fold
    | with_reducible apply Kept.foldFst
    | refine Kept.ofSnd (x := State.route _ _) (by assumption) ?_
    | split

theorem forward_kept {r0 : State} (s : State) (p : PortId) (k : Packet) (h : Kept r0 s) : Kept r0 (forward s p k) := by
  unfold forward
  repeat' first
    | intro _
    | with_reducible assumption
    | dsimp only
    | with_reducible apply Kept.ite
    | with_reducible apply Kept.dite
    | with_reducible apply sendAlong_kept
    | with_reducible apply State.owe_kept
    | with_reducible apply State.drop_kept
    | with_reducible apply Kept.refl
    | simp only [↓Kept.upd_eq]
    | with_reducible apply Kept.fold
    | with_reducible apply Kept.foldFst
    | split

theorem sendMgmt_kept {r0 : State} (s : State) (call : Nat) (tag : Nat) (ws : List U64) (h : Kept r0 s) : Kept r0 (sendMgmt s call tag ws) := by
  unfold sendMgmt
  repeat' first
    | intro _
    | with_reducible assumption
    | dsimp only
    | with_reducible apply Kept.ite
    | with_reducible apply Kept.dite
    | with_reducible apply State.send_kept
    | with_reducible apply Kept.refl
    | simp only [↓Kept.upd_eq]
    | with_reducible apply Kept.fold
    | with_reducible apply Kept.foldFst
    | split

theorem fenceJobs_kept {r0 : State} (s : State) (h : Kept r0 s) : Kept r0 (fenceJobs s) := by
  unfold fenceJobs
  repeat' first
    | intro _
    | with_reducible assumption
    | dsimp only
    | with_reducible apply Kept.ite
    | with_reducible apply Kept.dite
    | with_reducible apply endJob_kept
    | with_reducible apply Kept.refl
    | simp only [↓Kept.upd_eq]
    | with_reducible apply Kept.fold
    | with_reducible apply Kept.foldFst
    | split

theorem fenceGather_kept {r0 : State} (s : State) (h : Kept r0 s) : Kept r0 (fenceGather s) := by
  unfold fenceGather
  repeat' first
    | intro _
    | with_reducible assumption
    | dsimp only
    | with_reducible apply Kept.ite
    | with_reducible apply Kept.dite
    | with_reducible apply endDrain_kept
    | with_reducible apply startDrain_kept
    | with_reducible apply State.setWork_kept
    | with_reducible apply Kept.refl
    | simp only [↓Kept.upd_eq]
    | with_reducible apply Kept.fold
    | with_reducible apply Kept.foldFst
    | split

theorem fence_kept {r0 : State} (s : State) (h : Kept r0 s) : Kept r0 (fence s) := by
  unfold fence
  repeat' first
    | intro _
    | with_reducible assumption
    | dsimp only
    | with_reducible apply Kept.ite
    | with_reducible apply Kept.dite
    | with_reducible apply fenceGather_kept
    | with_reducible apply fenceJobs_kept
    | with_reducible apply sendMgmt_kept
    | with_reducible apply haltByOrder_kept
    | with_reducible apply refuseAll_kept
    | with_reducible apply queueNotice_kept
    | with_reducible apply Kept.refl
    | simp only [↓Kept.upd_eq]
    | with_reducible apply Kept.fold
    | with_reducible apply Kept.foldFst
    | split

theorem endpointIn_kept {r0 : State} (s : State) (k : Packet) (h : Kept r0 s) : Kept r0 (endpointIn s k).1 := by
  unfold endpointIn
  repeat' first
    | intro _
    | with_reducible assumption
    | dsimp only
    | with_reducible apply Kept.ite
    | with_reducible apply Kept.dite
    | with_reducible apply fence_kept
    | with_reducible apply refuseTo_kept
    | with_reducible apply State.stale_kept
    | with_reducible apply State.drop_kept
    | with_reducible apply Kept.refl
    | simp only [↓Kept.upd_eq]
    | with_reducible apply Kept.fold
    | with_reducible apply Kept.foldFst
    | split

theorem receive_kept {r0 : State} (s : State) (p : PortId) (k : Packet) (h : Kept r0 s) : Kept r0 (receive s p k).1 := by
  unfold receive
  repeat' first
    | intro _
    | with_reducible assumption
    | dsimp only
    | with_reducible apply Kept.ite
    | with_reducible apply Kept.dite
    | with_reducible apply endpointIn_kept
    | with_reducible apply forward_kept
    | with_reducible apply refuseBack_kept
    | with_reducible apply linkIn_kept
    | with_reducible apply State.notePlan_kept
    | with_reducible apply State.owe_kept
    | with_reducible apply State.stale_kept
    | with_reducible apply State.drop_kept
    | with_reducible apply Kept.refl
    | simp only [↓Kept.upd_eq]
    | with_reducible apply Kept.fold
    | with_reducible apply Kept.foldFst
    | refine Kept.ofFst (x := endpointIn _ _) (by assumption) ?_
    | refine Kept.ofFst (x := linkIn _ _ _) (by assumption) ?_
    | split

theorem onPacket_kept {r0 : State} (s : State) (p : PortId) (k : Packet) (ty : BitVec 5) (f : State → State) (kf : ∀ a0, Kept r0 a0 → Kept r0 (f a0)) (h : Kept r0 s) : KeptOut r0 (onPacket s p k ty f) := by
  unfold onPacket
  repeat' first
    | intro _
    | with_reducible assumption
    | dsimp only
    | with_reducible apply KeptOut.ite
    | with_reducible apply KeptOut.next
    | with_reducible apply KeptOut.fault
    | with_reducible apply Kept.ite
    | with_reducible apply Kept.dite
    | with_reducible apply kf
    | with_reducible apply receive_kept
    | with_reducible apply Kept.refl
    | simp only [↓Kept.upd_eq]
    | with_reducible apply Kept.fold
    | with_reducible apply Kept.foldFst
    | refine Kept.ofFst (x := receive _ _ _) (by assumption) ?_
    | split

theorem sendLocal_kept {r0 : State} (s : State) (p : PortId) (b : Body) (h : Kept r0 s) : Kept r0 (sendLocal s p b) := by
  unfold sendLocal
  repeat' first
    | intro _
    | with_reducible assumption
    | dsimp only
    | with_reducible apply Kept.ite
    | with_reducible apply Kept.dite
    | with_reducible apply State.sendOn_kept
    | with_reducible apply Kept.refl
    | simp only [↓Kept.upd_eq]
    | with_reducible apply Kept.fold
    | with_reducible apply Kept.foldFst
    | split

theorem State.dup_kept {r0 : State} (s : State) (m : BitVec 32) (h : Kept r0 s) : Kept r0 (State.dup s m) := by
  unfold State.dup
  repeat' first
    | intro _
    | with_reducible assumption
    | dsimp only
    | with_reducible apply Kept.ite
    | with_reducible apply Kept.dite
    | with_reducible apply Kept.refl
    | simp only [↓Kept.upd_eq]
    | with_reducible apply Kept.fold
    | with_reducible apply Kept.foldFst
    | split

theorem hearClaim_kept {r0 : State} (s : State) (from' : Option PortId) (rank : BitVec 3) (shelf : BitVec 32) (h : Kept r0 s) : Kept r0 (hearClaim s from' rank shelf) := by
  unfold hearClaim
  repeat' first
    | intro _
    | with_reducible assumption
    | dsimp only
    | with_reducible apply Kept.ite
    | with_reducible apply Kept.dite
    | with_reducible apply State.dup_kept
    | with_reducible apply sendLocal_kept
    | with_reducible apply Kept.refl
    | simp only [↓Kept.upd_eq]
    | with_reducible apply Kept.fold
    | with_reducible apply Kept.foldFst
    | split

theorem noteLink_kept {r0 : State} (s : State) (shelf : BitVec 32) (p : BitVec 5) (far : Option (BitVec 32)) (up fit : Bool) (h : Kept r0 s) : Kept r0 (noteLink s shelf p far up fit) := by
  unfold noteLink
  repeat' first
    | intro _
    | with_reducible assumption
    | dsimp only
    | with_reducible apply Kept.ite
    | with_reducible apply Kept.dite
    | with_reducible apply State.dup_kept
    | with_reducible apply Kept.refl
    | simp only [↓Kept.upd_eq]
    | with_reducible apply Kept.fold
    | with_reducible apply Kept.foldFst
    | split

theorem flushReports_kept {r0 : State} (s : State) (h : Kept r0 s) : Kept r0 (flushReports s) := by
  unfold flushReports
  repeat' first
    | intro _
    | with_reducible assumption
    | dsimp only
    | with_reducible apply Kept.ite
    | with_reducible apply Kept.dite
    | with_reducible apply noteLink_kept
    | with_reducible apply State.send_kept
    | with_reducible apply Kept.refl
    | simp only [↓Kept.upd_eq]
    | with_reducible apply Kept.fold
    | with_reducible apply Kept.foldFst
    | split

theorem flushLayout_kept {r0 : State} (s : State) (h : Kept r0 s) : Kept r0 (flushLayout s) := by
  unfold flushLayout
  repeat' first
    | intro _
    | with_reducible assumption
    | dsimp only
    | with_reducible apply Kept.ite
    | with_reducible apply Kept.dite
    | with_reducible apply sendMgmt_kept
    | with_reducible apply Kept.refl
    | simp only [↓Kept.upd_eq]
    | with_reducible apply Kept.fold
    | with_reducible apply Kept.foldFst
    | split

theorem reportPort_kept {r0 : State} (s : State) (p : PortId) (up : Bool) (h : Kept r0 s) : Kept r0 (reportPort s p up) := by
  unfold reportPort
  repeat' first
    | intro _
    | with_reducible assumption
    | dsimp only
    | with_reducible apply Kept.ite
    | with_reducible apply Kept.dite
    | with_reducible apply flushReports_kept
    | with_reducible apply Kept.refl
    | simp only [↓Kept.upd_eq]
    | with_reducible apply Kept.fold
    | with_reducible apply Kept.foldFst
    | split

theorem sendHello_kept {r0 : State} (s : State) (p : PortId) (h : Kept r0 s) : Kept r0 (sendHello s p) := by
  unfold sendHello
  repeat' first
    | intro _
    | with_reducible assumption
    | dsimp only
    | with_reducible apply Kept.ite
    | with_reducible apply Kept.dite
    | with_reducible apply State.sendOn_kept
    | with_reducible apply Kept.refl
    | simp only [↓Kept.upd_eq]
    | with_reducible apply Kept.fold
    | with_reducible apply Kept.foldFst
    | split

theorem execPortTrained_kept {r0 : State} (p : PortId) (s : State) (h : Kept r0 s) : KeptOut r0 (execPortTrained p s) := by
  unfold execPortTrained
  repeat' first
    | intro _
    | with_reducible assumption
    | dsimp only
    | with_reducible apply KeptOut.ite
    | with_reducible apply KeptOut.next
    | with_reducible apply KeptOut.fault
    | with_reducible apply Kept.ite
    | with_reducible apply Kept.dite
    | with_reducible apply sendHello_kept
    | with_reducible apply State.setPort_kept
    | with_reducible apply Kept.refl
    | simp only [↓Kept.upd_eq]
    | with_reducible apply Kept.fold
    | with_reducible apply Kept.foldFst
    | split

theorem execPortTrainingRetry_kept {r0 : State} (p : PortId) (s : State) (h : Kept r0 s) : KeptOut r0 (execPortTrainingRetry p s) := by
  unfold execPortTrainingRetry
  repeat' first
    | intro _
    | with_reducible assumption
    | dsimp only
    | with_reducible apply KeptOut.ite
    | with_reducible apply KeptOut.next
    | with_reducible apply KeptOut.fault
    | with_reducible apply Kept.ite
    | with_reducible apply Kept.dite
    | with_reducible apply State.advanceTo_kept
    | with_reducible apply State.setPort_kept
    | with_reducible apply Kept.refl
    | simp only [↓Kept.upd_eq]
    | with_reducible apply Kept.fold
    | with_reducible apply Kept.foldFst
    | split

theorem holdover_kept {r0 : State} (s : State) (h : Kept r0 s) : Kept r0 (holdover s) := by
  unfold holdover
  repeat' first
    | intro _
    | with_reducible assumption
    | dsimp only
    | with_reducible apply Kept.ite
    | with_reducible apply Kept.dite
    | with_reducible apply Kept.refl
    | simp only [↓Kept.upd_eq]
    | with_reducible apply Kept.fold
    | with_reducible apply Kept.foldFst
    | split

theorem rerouted_kept {r0 : State} (s : State) (x : TxEnt) (h : Kept r0 s) : Kept r0 (rerouted s x) := by
  unfold rerouted
  repeat' first
    | intro _
    | with_reducible assumption
    | dsimp only
    | with_reducible apply Kept.ite
    | with_reducible apply Kept.dite
    | with_reducible apply sendAlong_kept
    | with_reducible apply State.route_kept
    | with_reducible apply State.sendOn_kept
    | with_reducible apply State.owe_kept
    | with_reducible apply State.drop_kept
    | with_reducible apply Kept.refl
    | simp only [↓Kept.upd_eq]
    | with_reducible apply Kept.fold
    | with_reducible apply Kept.foldFst
    | refine Kept.ofSnd (x := State.route _ _) (by assumption) ?_
    | split

theorem execPortDown_kept {r0 : State} (p : PortId) (s : State) (h : Kept r0 s) : KeptOut r0 (execPortDown p s) := by
  unfold execPortDown
  repeat' first
    | intro _
    | with_reducible assumption
    | dsimp only
    | with_reducible apply KeptOut.ite
    | with_reducible apply KeptOut.next
    | with_reducible apply KeptOut.fault
    | with_reducible apply Kept.ite
    | with_reducible apply Kept.dite
    | with_reducible apply rerouted_kept
    | with_reducible apply holdover_kept
    | with_reducible apply reportPort_kept
    | with_reducible apply breakPlans_kept
    | with_reducible apply State.advanceTo_kept
    | with_reducible apply State.setPort_kept
    | with_reducible apply Kept.refl
    | simp only [↓Kept.upd_eq]
    | with_reducible apply Kept.fold
    | with_reducible apply Kept.foldFst
    | split

theorem execLinkReplay_kept {r0 : State} (p : PortId) (s : State) (h : Kept r0 s) : KeptOut r0 (execLinkReplay p s) := by
  unfold execLinkReplay
  repeat' first
    | intro _
    | with_reducible assumption
    | dsimp only
    | with_reducible apply KeptOut.ite
    | with_reducible apply KeptOut.next
    | with_reducible apply KeptOut.fault
    | with_reducible apply Kept.ite
    | with_reducible apply Kept.dite
    | with_reducible apply State.advanceTo_kept
    | with_reducible apply State.setPort_kept
    | with_reducible apply Kept.refl
    | simp only [↓Kept.upd_eq]
    | with_reducible apply Kept.fold
    | with_reducible apply Kept.foldFst
    | split

theorem execLinkAck_kept {r0 : State} (p : PortId) (s : State) (h : Kept r0 s) : KeptOut r0 (execLinkAck p s) := by
  unfold execLinkAck
  repeat' first
    | intro _
    | with_reducible assumption
    | dsimp only
    | with_reducible apply KeptOut.ite
    | with_reducible apply KeptOut.next
    | with_reducible apply KeptOut.fault
    | with_reducible apply Kept.ite
    | with_reducible apply Kept.dite
    | with_reducible apply State.setPort_kept
    | with_reducible apply Kept.refl
    | simp only [↓Kept.upd_eq]
    | with_reducible apply Kept.fold
    | with_reducible apply Kept.foldFst
    | split

theorem execPacketForward_kept {r0 : State} (p : PortId) (k : Packet) (s : State) (h : Kept r0 s) : KeptOut r0 (execPacketForward p k s) := by
  unfold execPacketForward
  repeat' first
    | intro _
    | with_reducible assumption
    | dsimp only
    | with_reducible apply KeptOut.ite
    | with_reducible apply KeptOut.next
    | with_reducible apply KeptOut.fault
    | with_reducible apply Kept.ite
    | with_reducible apply Kept.dite
    | with_reducible apply noteLink_kept
    | with_reducible apply receive_kept
    | with_reducible apply ledReceive_kept
    | with_reducible apply Kept.refl
    | simp only [↓Kept.upd_eq]
    | with_reducible apply Kept.fold
    | with_reducible apply Kept.foldFst
    | refine Kept.ofFst (x := receive _ _ _) (by assumption) ?_
    | split

theorem execLiveSend_kept {r0 : State} (p : PortId) (s : State) (h : Kept r0 s) : KeptOut r0 (execLiveSend p s) := by
  unfold execLiveSend
  repeat' first
    | intro _
    | with_reducible assumption
    | dsimp only
    | with_reducible apply KeptOut.ite
    | with_reducible apply KeptOut.next
    | with_reducible apply KeptOut.fault
    | with_reducible apply Kept.ite
    | with_reducible apply Kept.dite
    | with_reducible apply State.sendOn_kept
    | with_reducible apply State.setPort_kept
    | with_reducible apply Kept.refl
    | simp only [↓Kept.upd_eq]
    | with_reducible apply Kept.fold
    | with_reducible apply Kept.foldFst
    | split

theorem exchange_kept {r0 : State} (s : State) (offset : Int) (delay : Int) (hs : Bool) (h : Kept r0 s) : Kept r0 (exchange s offset delay hs) := by
  unfold exchange
  repeat' first
    | intro _
    | with_reducible assumption
    | dsimp only
    | with_reducible apply Kept.ite
    | with_reducible apply Kept.dite
    | with_reducible apply Kept.refl
    | simp only [↓Kept.upd_eq]
    | with_reducible apply Kept.fold
    | with_reducible apply Kept.foldFst
    | split

theorem execLive_kept {r0 : State} (p : PortId) (k : Packet) (s : State) (h : Kept r0 s) : KeptOut r0 (execLive p k s) := by
  unfold execLive
  repeat' first
    | intro _
    | with_reducible assumption
    | dsimp only
    | with_reducible apply KeptOut.ite
    | with_reducible apply KeptOut.next
    | with_reducible apply KeptOut.fault
    | with_reducible apply Kept.ite
    | with_reducible apply Kept.dite
    | with_reducible apply exchange_kept
    | with_reducible apply onPacket_kept
    | with_reducible apply State.setPort_kept
    | with_reducible apply Kept.refl
    | simp only [↓Kept.upd_eq]
    | with_reducible apply Kept.fold
    | with_reducible apply Kept.foldFst
    | split

theorem execHtHoldover_kept {r0 : State} (s : State) (h : Kept r0 s) : KeptOut r0 (execHtHoldover s) := by
  unfold execHtHoldover
  repeat' first
    | intro _
    | with_reducible assumption
    | dsimp only
    | with_reducible apply KeptOut.ite
    | with_reducible apply KeptOut.next
    | with_reducible apply KeptOut.fault
    | with_reducible apply Kept.ite
    | with_reducible apply Kept.dite
    | with_reducible apply holdover_kept
    | with_reducible apply State.advanceTo_kept
    | with_reducible apply Kept.refl
    | simp only [↓Kept.upd_eq]
    | with_reducible apply Kept.fold
    | with_reducible apply Kept.foldFst
    | split

theorem execHtSyncLost_kept {r0 : State} (s : State) (h : Kept r0 s) : KeptOut r0 (execHtSyncLost s) := by
  unfold execHtSyncLost
  repeat' first
    | intro _
    | with_reducible assumption
    | dsimp only
    | with_reducible apply KeptOut.ite
    | with_reducible apply KeptOut.next
    | with_reducible apply KeptOut.fault
    | with_reducible apply Kept.ite
    | with_reducible apply Kept.dite
    | with_reducible apply State.advanceTo_kept
    | with_reducible apply Kept.refl
    | simp only [↓Kept.upd_eq]
    | with_reducible apply Kept.fold
    | with_reducible apply Kept.foldFst
    | split

theorem sendUpdates_kept {r0 : State} (s : State) (p : PortId) (us : List CatUpdate) (h : Kept r0 s) : Kept r0 (sendUpdates s p us) := by
  unfold sendUpdates
  repeat' first
    | intro _
    | with_reducible assumption
    | dsimp only
    | with_reducible apply Kept.ite
    | with_reducible apply Kept.dite
    | with_reducible apply drainTx_kept
    | with_reducible apply State.setPort_kept
    | with_reducible apply Kept.refl
    | simp only [↓Kept.upd_eq]
    | with_reducible apply Kept.fold
    | with_reducible apply Kept.foldFst
    | split

theorem execHello_kept {r0 : State} (p : PortId) (k : Packet) (s : State) (h : Kept r0 s) : KeptOut r0 (execHello p k s) := by
  unfold execHello
  repeat' first
    | intro _
    | with_reducible assumption
    | dsimp only
    | with_reducible apply KeptOut.ite
    | with_reducible apply KeptOut.next
    | with_reducible apply KeptOut.fault
    | with_reducible apply Kept.ite
    | with_reducible apply Kept.dite
    | with_reducible apply sendUpdates_kept
    | with_reducible apply reportPort_kept
    | with_reducible apply sendLocal_kept
    | with_reducible apply onPacket_kept
    | with_reducible apply drainTx_kept
    | with_reducible apply State.setPort_kept
    | with_reducible apply Kept.refl
    | simp only [↓Kept.upd_eq]
    | with_reducible apply Kept.fold
    | with_reducible apply Kept.foldFst
    | split

theorem execCatalogueClaim_kept {r0 : State} (p : PortId) (k : Packet) (s : State) (h : Kept r0 s) : KeptOut r0 (execCatalogueClaim p k s) := by
  unfold execCatalogueClaim
  repeat' first
    | intro _
    | with_reducible assumption
    | dsimp only
    | with_reducible apply KeptOut.ite
    | with_reducible apply KeptOut.next
    | with_reducible apply KeptOut.fault
    | with_reducible apply Kept.ite
    | with_reducible apply Kept.dite
    | with_reducible apply hearClaim_kept
    | with_reducible apply onPacket_kept
    | with_reducible apply Kept.refl
    | simp only [↓Kept.upd_eq]
    | with_reducible apply Kept.fold
    | with_reducible apply Kept.foldFst
    | split

theorem execProbe_kept {r0 : State} (p : PortId) (k : Packet) (s : State) (h : Kept r0 s) : KeptOut r0 (execProbe p k s) := by
  unfold execProbe
  repeat' first
    | intro _
    | with_reducible assumption
    | dsimp only
    | with_reducible apply KeptOut.ite
    | with_reducible apply KeptOut.next
    | with_reducible apply KeptOut.fault
    | with_reducible apply Kept.ite
    | with_reducible apply Kept.dite
    | with_reducible apply onPacket_kept
    | with_reducible apply State.emit_kept
    | with_reducible apply Kept.refl
    | simp only [↓Kept.upd_eq]
    | with_reducible apply Kept.fold
    | with_reducible apply Kept.foldFst
    | split

theorem execProberesp_kept {r0 : State} (p : PortId) (k : Packet) (s : State) (h : Kept r0 s) : KeptOut r0 (execProberesp p k s) := by
  unfold execProberesp
  repeat' first
    | intro _
    | with_reducible assumption
    | dsimp only
    | with_reducible apply KeptOut.ite
    | with_reducible apply KeptOut.next
    | with_reducible apply KeptOut.fault
    | with_reducible apply Kept.ite
    | with_reducible apply Kept.dite
    | with_reducible apply onPacket_kept
    | with_reducible apply Kept.refl
    | simp only [↓Kept.upd_eq]
    | with_reducible apply Kept.fold
    | with_reducible apply Kept.foldFst
    | split

end Sys2Proof.Machine
end

