-- ==== Sys2Proof/Laws/KeptWeed.lean ====
section
/-! SUPPORT. Laws/KeptWeed.lean: every operation of Machine/Weed.lean keeps what Laws/Kept.lean names. -/

namespace Sys2Proof.Machine

set_option linter.unusedTactic false
set_option linter.unreachableTactic false

theorem requestWithdrawal_kept {r0 : State} (s : State) (h : Kept r0 s) : Kept r0 (requestWithdrawal s) := by
  unfold requestWithdrawal
  repeat' first
    | intro _
    | with_reducible assumption
    | dsimp only
    | with_reducible apply Kept.ite
    | with_reducible apply Kept.dite
    | with_reducible apply sendMgmt_kept
    | with_reducible apply Kept.refl
    | simp only [↓Kept.upd_eq]
    | with_reducible apply Kept.fold
    | with_reducible apply Kept.foldFst
    | split

theorem parkCore_kept {r0 : State} (s : State) (c : CoreId) (h : Kept r0 s) : Kept r0 (parkCore s c) := by
  unfold parkCore
  repeat' first
    | intro _
    | with_reducible assumption
    | dsimp only
    | with_reducible apply Kept.ite
    | with_reducible apply Kept.dite
    | with_reducible apply haltByOrder_kept
    | with_reducible apply State.modCore_kept
    | with_reducible apply Kept.refl
    | simp only [↓Kept.upd_eq]
    | with_reducible apply Kept.fold
    | with_reducible apply Kept.foldFst
    | split

theorem weed_kept {r0 : State} (s : State) (c : CoreId) (mask : BitVec 4) (park : Bool) (h : Kept r0 s) : Kept r0 (weed s c mask park) := by
  unfold weed
  repeat' first
    | intro _
    | with_reducible assumption
    | dsimp only
    | with_reducible apply Kept.ite
    | with_reducible apply Kept.dite
    | with_reducible apply parkCore_kept
    | with_reducible apply requestWithdrawal_kept
    | with_reducible apply ownerNotice_kept
    | with_reducible apply State.modCore_kept
    | with_reducible apply Kept.refl
    | simp only [↓Kept.upd_eq]
    | with_reducible apply Kept.fold
    | with_reducible apply Kept.foldFst
    | split

theorem testSuspects_kept {r0 : State} (s : State) (c : CoreId) (h : Kept r0 s) : Kept r0 (testSuspects s c) := by
  unfold testSuspects
  repeat' first
    | intro _
    | with_reducible assumption
    | dsimp only
    | with_reducible apply Kept.ite
    | with_reducible apply Kept.dite
    | with_reducible apply weed_kept
    | with_reducible apply State.modCore_kept
    | with_reducible apply State.freeNext_kept
    | with_reducible apply Kept.refl
    | simp only [↓Kept.upd_eq]
    | with_reducible apply Kept.fold
    | with_reducible apply Kept.foldFst
    | refine Kept.ofSnd (x := State.freeNext _) (by assumption) ?_
    | split

theorem judgeArrays_kept {r0 : State} (s : State) (h : Kept r0 s) : Kept r0 (judgeArrays s) := by
  unfold judgeArrays
  repeat' first
    | intro _
    | with_reducible assumption
    | dsimp only
    | with_reducible apply Kept.ite
    | with_reducible apply Kept.dite
    | with_reducible apply testSuspects_kept
    | with_reducible apply weed_kept
    | with_reducible apply Kept.refl
    | simp only [↓Kept.upd_eq]
    | with_reducible apply Kept.fold
    | with_reducible apply Kept.foldFst
    | split

theorem testAll_kept {r0 : State} (s : State) (march : Bool) (h : Kept r0 s) : Kept r0 (testAll s march).1 := by
  unfold testAll
  repeat' first
    | intro _
    | with_reducible assumption
    | dsimp only
    | with_reducible apply Kept.ite
    | with_reducible apply Kept.dite
    | with_reducible apply weed_kept
    | with_reducible apply State.modCore_kept
    | with_reducible apply State.freeNext_kept
    | with_reducible apply Kept.refl
    | simp only [↓Kept.upd_eq]
    | with_reducible apply Kept.fold
    | with_reducible apply Kept.foldFst
    | refine Kept.ofSnd (x := State.freeNext _) (by assumption) ?_
    | split

theorem judgeStops_kept {r0 : State} (s : State) (h : Kept r0 s) : Kept r0 (judgeStops s) := by
  unfold judgeStops
  repeat' first
    | intro _
    | with_reducible assumption
    | dsimp only
    | with_reducible apply Kept.ite
    | with_reducible apply Kept.dite
    | with_reducible apply weed_kept
    | with_reducible apply startDrain_kept
    | with_reducible apply Kept.refl
    | simp only [↓Kept.upd_eq]
    | with_reducible apply Kept.fold
    | with_reducible apply Kept.foldFst
    | split

theorem countTransients_kept {r0 : State} (s : State) (n : U64) (h : Kept r0 s) : Kept r0 (countTransients s n) := by
  unfold countTransients
  repeat' first
    | intro _
    | with_reducible assumption
    | dsimp only
    | with_reducible apply Kept.ite
    | with_reducible apply Kept.dite
    | with_reducible apply Kept.refl
    | simp only [↓Kept.upd_eq]
    | with_reducible apply Kept.fold
    | with_reducible apply Kept.foldFst
    | split

end Sys2Proof.Machine
end

