-- ==== Sys2Proof/Laws/KeptBringup.lean ====
section
/-! SUPPORT. Laws/KeptBringup.lean: every operation of Machine/Bringup.lean keeps what Laws/Kept.lean names. -/

namespace Sys2Proof.Machine

set_option linter.unusedTactic false
set_option linter.unreachableTactic false

theorem endStage_kept {r0 : State} (s : State) (n : Nat) (h : Kept r0 s) : Kept r0 (endStage s n) := by
  unfold endStage
  repeat' first
    | intro _
    | with_reducible assumption
    | dsimp only
    | with_reducible apply Kept.ite
    | with_reducible apply Kept.dite
    | with_reducible apply Kept.refl
    | simp only [↓Kept.upd_eq]
    | with_reducible apply Kept.fold
    | with_reducible apply Kept.foldFst
    | split

theorem haltBringup_kept {r0 : State} (s : State) (code : Nat) (unit : Nat) (h : Kept r0 s) : Kept r0 (haltBringup s code unit) := by
  unfold haltBringup
  repeat' first
    | intro _
    | with_reducible assumption
    | dsimp only
    | with_reducible apply Kept.ite
    | with_reducible apply Kept.dite
    | with_reducible apply Kept.refl
    | simp only [↓Kept.upd_eq]
    | with_reducible apply Kept.fold
    | with_reducible apply Kept.foldFst
    | split

theorem recover_kept {r0 : State} (s : State) (code : Nat) (h : Kept r0 s) : Kept r0 (recover s code) := by
  unfold recover
  repeat' first
    | intro _
    | with_reducible assumption
    | dsimp only
    | with_reducible apply Kept.ite
    | with_reducible apply Kept.dite
    | with_reducible apply Kept.refl
    | simp only [↓Kept.upd_eq]
    | with_reducible apply Kept.fold
    | with_reducible apply Kept.foldFst
    | split

theorem execFirmwareVerify_kept {r0 : State} (s : State) (h : Kept r0 s) : KeptOut r0 (execFirmwareVerify s) := by
  unfold execFirmwareVerify
  repeat' first
    | intro _
    | with_reducible assumption
    | dsimp only
    | with_reducible apply KeptOut.ite
    | with_reducible apply KeptOut.next
    | with_reducible apply KeptOut.fault
    | with_reducible apply Kept.ite
    | with_reducible apply Kept.dite
    | with_reducible apply recover_kept
    | with_reducible apply endStage_kept
    | with_reducible apply extendState_kept
    | with_reducible apply Kept.refl
    | simp only [↓Kept.upd_eq]
    | with_reducible apply Kept.fold
    | with_reducible apply Kept.foldFst
    | split

theorem execCuratorBoot_kept {r0 : State} (ok : Bool) (s : State) (h : Kept r0 s) : KeptOut r0 (execCuratorBoot ok s) := by
  unfold execCuratorBoot
  repeat' first
    | intro _
    | with_reducible assumption
    | dsimp only
    | with_reducible apply KeptOut.ite
    | with_reducible apply KeptOut.next
    | with_reducible apply KeptOut.fault
    | with_reducible apply Kept.ite
    | with_reducible apply Kept.dite
    | with_reducible apply recover_kept
    | with_reducible apply endStage_kept
    | with_reducible apply Kept.refl
    | simp only [↓Kept.upd_eq]
    | with_reducible apply Kept.fold
    | with_reducible apply Kept.foldFst
    | split

theorem execCalibration_kept {r0 : State} (ok : Bool) (s : State) (h : Kept r0 s) : KeptOut r0 (execCalibration ok s) := by
  unfold execCalibration
  repeat' first
    | intro _
    | with_reducible assumption
    | dsimp only
    | with_reducible apply KeptOut.ite
    | with_reducible apply KeptOut.next
    | with_reducible apply KeptOut.fault
    | with_reducible apply Kept.ite
    | with_reducible apply Kept.dite
    | with_reducible apply haltBringup_kept
    | with_reducible apply endStage_kept
    | with_reducible apply Kept.refl
    | simp only [↓Kept.upd_eq]
    | with_reducible apply Kept.fold
    | with_reducible apply Kept.foldFst
    | split

theorem invalidateL1_kept {r0 : State} (s : State) (h : Kept r0 s) : Kept r0 (invalidateL1 s) := by
  unfold invalidateL1
  repeat' first
    | intro _
    | with_reducible assumption
    | dsimp only
    | with_reducible apply Kept.ite
    | with_reducible apply Kept.dite
    | with_reducible apply Kept.refl
    | simp only [↓Kept.upd_eq]
    | with_reducible apply Kept.fold
    | with_reducible apply Kept.foldFst
    | split

theorem execHbmTraining_kept {r0 : State} (bad : Option (Fin 12)) (s : State) (h : Kept r0 s) : KeptOut r0 (execHbmTraining bad s) := by
  unfold execHbmTraining
  repeat' first
    | intro _
    | with_reducible assumption
    | dsimp only
    | with_reducible apply KeptOut.ite
    | with_reducible apply KeptOut.next
    | with_reducible apply KeptOut.fault
    | with_reducible apply Kept.ite
    | with_reducible apply Kept.dite
    | with_reducible apply haltBringup_kept
    | with_reducible apply endStage_kept
    | with_reducible apply zeroRange_kept
    | with_reducible apply Kept.refl
    | simp only [↓Kept.upd_eq]
    | with_reducible apply Kept.fold
    | with_reducible apply Kept.foldFst
    | split

theorem execCarrelZeroing_kept {r0 : State} (bad : Option (Fin 64)) (s : State) (h : Kept r0 s) : KeptOut r0 (execCarrelZeroing bad s) := by
  unfold execCarrelZeroing
  repeat' first
    | intro _
    | with_reducible assumption
    | dsimp only
    | with_reducible apply KeptOut.ite
    | with_reducible apply KeptOut.next
    | with_reducible apply KeptOut.fault
    | with_reducible apply Kept.ite
    | with_reducible apply Kept.dite
    | with_reducible apply invalidateL1_kept
    | with_reducible apply haltBringup_kept
    | with_reducible apply endStage_kept
    | with_reducible apply zeroRange_kept
    | with_reducible apply Kept.refl
    | simp only [↓Kept.upd_eq]
    | with_reducible apply Kept.fold
    | with_reducible apply Kept.foldFst
    | split

theorem execSelfTest_kept {r0 : State} (bad : Option (Fin 64)) (tests : List CoreTest) (s : State) (h : Kept r0 s) : KeptOut r0 (execSelfTest bad tests s) := by
  unfold execSelfTest
  repeat' first
    | intro _
    | with_reducible assumption
    | dsimp only
    | with_reducible apply KeptOut.ite
    | with_reducible apply KeptOut.next
    | with_reducible apply KeptOut.fault
    | with_reducible apply Kept.ite
    | with_reducible apply Kept.dite
    | with_reducible apply haltBringup_kept
    | with_reducible apply endStage_kept
    | with_reducible apply weed_kept
    | with_reducible apply Kept.refl
    | simp only [↓Kept.upd_eq]
    | with_reducible apply Kept.fold
    | with_reducible apply Kept.foldFst
    | split

theorem execLinkTrainingStage_kept {r0 : State} (partners : BitVec 24) (s : State) (h : Kept r0 s) : KeptOut r0 (execLinkTrainingStage partners s) := by
  unfold execLinkTrainingStage
  repeat' first
    | intro _
    | with_reducible assumption
    | dsimp only
    | with_reducible apply KeptOut.ite
    | with_reducible apply KeptOut.next
    | with_reducible apply KeptOut.fault
    | with_reducible apply Kept.ite
    | with_reducible apply Kept.dite
    | with_reducible apply endStage_kept
    | with_reducible apply State.advanceTo_kept
    | with_reducible apply Kept.refl
    | simp only [↓Kept.upd_eq]
    | with_reducible apply Kept.fold
    | with_reducible apply Kept.foldFst
    | split

theorem holdRecords_kept {r0 : State} (s : State) (h : Kept r0 s) : Kept r0 (holdRecords s) := by
  unfold holdRecords
  repeat' first
    | intro _
    | with_reducible assumption
    | dsimp only
    | with_reducible apply Kept.ite
    | with_reducible apply Kept.dite
    | with_reducible apply Kept.refl
    | simp only [↓Kept.upd_eq]
    | with_reducible apply Kept.fold
    | with_reducible apply Kept.foldFst
    | split

theorem execReady_kept {r0 : State} (s : State) (h : Kept r0 s) : KeptOut r0 (execReady s) := by
  unfold execReady
  repeat' first
    | intro _
    | with_reducible assumption
    | dsimp only
    | with_reducible apply KeptOut.ite
    | with_reducible apply KeptOut.next
    | with_reducible apply KeptOut.fault
    | with_reducible apply Kept.ite
    | with_reducible apply Kept.dite
    | with_reducible apply holdRecords_kept
    | with_reducible apply endStage_kept
    | with_reducible apply extendState_kept
    | with_reducible apply loadGlosses_kept
    | with_reducible apply Kept.refl
    | simp only [↓Kept.upd_eq]
    | with_reducible apply Kept.fold
    | with_reducible apply Kept.foldFst
    | split

theorem bootFetch_kept {r0 : State} (s : State) (img : Option (List Byte)) (h : Kept r0 s) : Kept r0 (bootFetch s img) := by
  unfold bootFetch
  repeat' first
    | intro _
    | with_reducible assumption
    | dsimp only
    | with_reducible apply Kept.ite
    | with_reducible apply Kept.dite
    | with_reducible apply extendState_kept
    | with_reducible apply startHub_kept
    | with_reducible apply homeWrite_kept
    | with_reducible apply Kept.refl
    | simp only [↓Kept.upd_eq]
    | with_reducible apply Kept.fold
    | with_reducible apply Kept.foldFst
    | split

theorem execHubBootFetch_kept {r0 : State} (img : Option (List Byte)) (s : State) (h : Kept r0 s) : KeptOut r0 (execHubBootFetch img s) := by
  unfold execHubBootFetch
  repeat' first
    | intro _
    | with_reducible assumption
    | dsimp only
    | with_reducible apply KeptOut.ite
    | with_reducible apply KeptOut.next
    | with_reducible apply KeptOut.fault
    | with_reducible apply Kept.ite
    | with_reducible apply Kept.dite
    | with_reducible apply bootFetch_kept
    | with_reducible apply Kept.refl
    | simp only [↓Kept.upd_eq]
    | with_reducible apply Kept.fold
    | with_reducible apply Kept.foldFst
    | split

theorem execHubBootRetry_kept {r0 : State} (img : Option (List Byte)) (s : State) (h : Kept r0 s) : KeptOut r0 (execHubBootRetry img s) := by
  unfold execHubBootRetry
  repeat' first
    | intro _
    | with_reducible assumption
    | dsimp only
    | with_reducible apply KeptOut.ite
    | with_reducible apply KeptOut.next
    | with_reducible apply KeptOut.fault
    | with_reducible apply Kept.ite
    | with_reducible apply Kept.dite
    | with_reducible apply bootFetch_kept
    | with_reducible apply State.advanceTo_kept
    | with_reducible apply Kept.refl
    | simp only [↓Kept.upd_eq]
    | with_reducible apply Kept.fold
    | with_reducible apply Kept.foldFst
    | split

end Sys2Proof.Machine
end

