-- ==== Sys2Proof/Laws/KeptPlans.lean ====
section
/-! SUPPORT. Laws/KeptPlans.lean: every operation of Machine/Plans.lean keeps what Laws/Kept.lean names. -/

namespace Sys2Proof.Machine

set_option linter.unusedTactic false
set_option linter.unreachableTactic false

theorem planWrite_kept {r0 : State} (s : State) (pa : Nat) (bs : List Byte) (h : Kept r0 s) : Kept r0 (planWrite s pa bs) := by
  unfold planWrite
  repeat' first
    | intro _
    | with_reducible assumption
    | dsimp only
    | with_reducible apply Kept.ite
    | with_reducible apply Kept.dite
    | with_reducible apply homeWrite_kept
    | with_reducible apply Kept.refl
    | simp only [↓Kept.upd_eq]
    | with_reducible apply Kept.fold
    | with_reducible apply Kept.foldFst
    | split

theorem reduceOut_kept {r0 : State} (s : State) (p : Nat) (e : List U64) (u : PlanUnit) (h : Kept r0 s) : Kept r0 (reduceOut s p e u) := by
  unfold reduceOut
  repeat' first
    | intro _
    | with_reducible assumption
    | dsimp only
    | with_reducible apply Kept.ite
    | with_reducible apply Kept.dite
    | with_reducible apply planWrite_kept
    | with_reducible apply arriveBarrier_kept
    | with_reducible apply l2Touch_kept
    | with_reducible apply consumed_kept
    | with_reducible apply State.send_kept
    | with_reducible apply Kept.refl
    | simp only [↓Kept.upd_eq]
    | with_reducible apply Kept.fold
    | with_reducible apply Kept.foldFst
    | split

theorem reduceRun_kept {r0 : State} (x0 : Nat) (x1 : State) (x2 : Nat) (x3 : List U64) (h : Kept r0 x1) : Kept r0 (reduceRun x0 x1 x2 x3) := by
  induction x0 generalizing x1 x2 x3 with
  | zero =>
    unfold reduceRun
    repeat' first
      | intro _
      | with_reducible assumption
      | dsimp only
      | with_reducible apply Kept.ite
      | with_reducible apply Kept.dite
      | with_reducible apply reduceOut_kept
      | with_reducible apply Kept.refl
      | simp only [↓Kept.upd_eq]
      | with_reducible apply Kept.fold
      | with_reducible apply Kept.foldFst
      | split
  | succ n ih =>
    unfold reduceRun
    repeat' first
      | with_reducible apply ih
      | intro _
      | with_reducible assumption
      | dsimp only
      | with_reducible apply Kept.ite
      | with_reducible apply Kept.dite
      | with_reducible apply reduceOut_kept
      | with_reducible apply Kept.refl
      | simp only [↓Kept.upd_eq]
      | with_reducible apply Kept.fold
      | with_reducible apply Kept.foldFst
      | split

theorem heldInput_kept {r0 : State} (s : State) (p : Nat) (e : List U64) (unit : Nat) (lacks : PlanUnit → Bool) (f : PlanUnit → PlanUnit) (h : Kept r0 s) : Kept r0 (heldInput s p e unit lacks f) := by
  unfold heldInput
  repeat' first
    | intro _
    | with_reducible assumption
    | dsimp only
    | with_reducible apply Kept.ite
    | with_reducible apply Kept.dite
    | with_reducible apply reduceRun_kept
    | with_reducible apply Kept.refl
    | simp only [↓Kept.upd_eq]
    | with_reducible apply Kept.fold
    | with_reducible apply Kept.foldFst
    | split

theorem execReduce_kept {r0 : State} (p : PortId) (k : Packet) (s : State) (h : Kept r0 s) : KeptOut r0 (execReduce p k s) := by
  unfold execReduce
  repeat' first
    | intro _
    | with_reducible assumption
    | dsimp only
    | with_reducible apply KeptOut.ite
    | with_reducible apply KeptOut.next
    | with_reducible apply KeptOut.fault
    | with_reducible apply Kept.ite
    | with_reducible apply Kept.dite
    | with_reducible apply heldInput_kept
    | with_reducible apply onPacket_kept
    | with_reducible apply consumed_kept
    | with_reducible apply Kept.refl
    | simp only [↓Kept.upd_eq]
    | with_reducible apply Kept.fold
    | with_reducible apply Kept.foldFst
    | split

theorem inject_kept {r0 : State} (s : State) (p : Nat) (e : List U64) (unit : Nat) (mark : Bool) (h : Kept r0 s) : Kept r0 (inject s p e unit mark) := by
  unfold inject
  repeat' first
    | intro _
    | with_reducible assumption
    | dsimp only
    | with_reducible apply Kept.ite
    | with_reducible apply Kept.dite
    | with_reducible apply heldInput_kept
    | with_reducible apply l2Touch_kept
    | with_reducible apply consumed_kept
    | with_reducible apply Kept.refl
    | simp only [↓Kept.upd_eq]
    | with_reducible apply Kept.fold
    | with_reducible apply Kept.foldFst
    | split

theorem mcastLand_kept {r0 : State} (s : State) (p : Nat) (e : List U64) (unit : Nat) (mark : Bool) (pmask : Nat) (bs : List Byte) (h : Kept r0 s) : Kept r0 (mcastLand s p e unit mark pmask bs) := by
  unfold mcastLand
  repeat' first
    | intro _
    | with_reducible assumption
    | dsimp only
    | with_reducible apply Kept.ite
    | with_reducible apply Kept.dite
    | with_reducible apply planWrite_kept
    | with_reducible apply State.modLed_kept
    | with_reducible apply arriveBarrier_kept
    | with_reducible apply State.addPoison_kept
    | with_reducible apply Kept.refl
    | simp only [↓Kept.upd_eq]
    | with_reducible apply Kept.fold
    | with_reducible apply Kept.foldFst
    | split

theorem mcastDown_kept {r0 : State} (s : State) (p : Nat) (e : List U64) (unit : Nat) (mark : Bool) (pmask : Nat) (bs : List Byte) (h : Kept r0 s) : Kept r0 (mcastDown s p e unit mark pmask bs) := by
  unfold mcastDown
  repeat' first
    | intro _
    | with_reducible assumption
    | dsimp only
    | with_reducible apply Kept.ite
    | with_reducible apply Kept.dite
    | with_reducible apply State.send_kept
    | with_reducible apply Kept.refl
    | simp only [↓Kept.upd_eq]
    | with_reducible apply Kept.fold
    | with_reducible apply Kept.foldFst
    | split

theorem execMcast_kept {r0 : State} (p : PortId) (k : Packet) (s : State) (h : Kept r0 s) : KeptOut r0 (execMcast p k s) := by
  unfold execMcast
  repeat' first
    | intro _
    | with_reducible assumption
    | dsimp only
    | with_reducible apply KeptOut.ite
    | with_reducible apply KeptOut.next
    | with_reducible apply KeptOut.fault
    | with_reducible apply Kept.ite
    | with_reducible apply Kept.dite
    | with_reducible apply mcastDown_kept
    | with_reducible apply mcastLand_kept
    | with_reducible apply onPacket_kept
    | with_reducible apply Kept.refl
    | simp only [↓Kept.upd_eq]
    | with_reducible apply Kept.fold
    | with_reducible apply Kept.foldFst
    | split

theorem mcastSend_kept {r0 : State} (s : State) (p : Nat) (e : List U64) (unit : Nat) (mark : Bool) (h : Kept r0 s) : Kept r0 (mcastSend s p e unit mark) := by
  unfold mcastSend
  repeat' first
    | intro _
    | with_reducible assumption
    | dsimp only
    | with_reducible apply Kept.ite
    | with_reducible apply Kept.dite
    | with_reducible apply mcastDown_kept
    | with_reducible apply mcastLand_kept
    | with_reducible apply State.modLed_kept
    | with_reducible apply l2Touch_kept
    | with_reducible apply Kept.refl
    | simp only [↓Kept.upd_eq]
    | with_reducible apply Kept.fold
    | with_reducible apply Kept.foldFst
    | split

theorem State.modRun_kept {r0 : State} (s : State) (p : Nat) (f : PlanRun → PlanRun) (h : Kept r0 s) : Kept r0 (State.modRun s p f) := by
  unfold State.modRun
  repeat' first
    | intro _
    | with_reducible assumption
    | dsimp only
    | with_reducible apply Kept.ite
    | with_reducible apply Kept.dite
    | with_reducible apply Kept.refl
    | simp only [↓Kept.upd_eq]
    | with_reducible apply Kept.fold
    | with_reducible apply Kept.foldFst
    | split

theorem hallArrive_kept {r0 : State} (s : State) (p : Nat) (e : List U64) (t : U64) (h : Kept r0 s) : Kept r0 (hallArrive s p e t) := by
  unfold hallArrive
  repeat' first
    | intro _
    | with_reducible assumption
    | dsimp only
    | with_reducible apply Kept.ite
    | with_reducible apply Kept.dite
    | with_reducible apply State.modRun_kept
    | with_reducible apply syncStart_kept
    | with_reducible apply State.modLed_kept
    | with_reducible apply arriveBarrier_kept
    | with_reducible apply Kept.refl
    | simp only [↓Kept.upd_eq]
    | with_reducible apply Kept.fold
    | with_reducible apply Kept.foldFst
    | split

theorem release_kept {r0 : State} (s : State) (p : Nat) (e : List U64) (t : U64) (h : Kept r0 s) : Kept r0 (release s p e t) := by
  unfold release
  repeat' first
    | intro _
    | with_reducible assumption
    | dsimp only
    | with_reducible apply Kept.ite
    | with_reducible apply Kept.dite
    | with_reducible apply hallArrive_kept
    | with_reducible apply State.modRun_kept
    | with_reducible apply State.send_kept
    | with_reducible apply State.late_kept
    | with_reducible apply Kept.refl
    | simp only [↓Kept.upd_eq]
    | with_reducible apply Kept.fold
    | with_reducible apply Kept.foldFst
    | split

theorem barrierUp_kept {r0 : State} (s : State) (p : Nat) (e : List U64) (h : Kept r0 s) : Kept r0 (barrierUp s p e) := by
  unfold barrierUp
  repeat' first
    | intro _
    | with_reducible assumption
    | dsimp only
    | with_reducible apply Kept.ite
    | with_reducible apply Kept.dite
    | with_reducible apply release_kept
    | with_reducible apply State.modRun_kept
    | with_reducible apply State.send_kept
    | with_reducible apply Kept.refl
    | simp only [↓Kept.upd_eq]
    | with_reducible apply Kept.fold
    | with_reducible apply Kept.foldFst
    | split

theorem execHarrive_kept {r0 : State} (p : PortId) (k : Packet) (s : State) (h : Kept r0 s) : KeptOut r0 (execHarrive p k s) := by
  unfold execHarrive
  repeat' first
    | intro _
    | with_reducible assumption
    | dsimp only
    | with_reducible apply KeptOut.ite
    | with_reducible apply KeptOut.next
    | with_reducible apply KeptOut.fault
    | with_reducible apply Kept.ite
    | with_reducible apply Kept.dite
    | with_reducible apply barrierUp_kept
    | with_reducible apply State.modRun_kept
    | with_reducible apply onPacket_kept
    | with_reducible apply Kept.refl
    | simp only [↓Kept.upd_eq]
    | with_reducible apply Kept.fold
    | with_reducible apply Kept.foldFst
    | split

theorem execHrelease_kept {r0 : State} (p : PortId) (k : Packet) (s : State) (h : Kept r0 s) : KeptOut r0 (execHrelease p k s) := by
  unfold execHrelease
  repeat' first
    | intro _
    | with_reducible assumption
    | dsimp only
    | with_reducible apply KeptOut.ite
    | with_reducible apply KeptOut.next
    | with_reducible apply KeptOut.fault
    | with_reducible apply Kept.ite
    | with_reducible apply Kept.dite
    | with_reducible apply release_kept
    | with_reducible apply onPacket_kept
    | with_reducible apply Kept.refl
    | simp only [↓Kept.upd_eq]
    | with_reducible apply Kept.fold
    | with_reducible apply Kept.foldFst
    | split

theorem execHallBarrierArrive_kept {r0 : State} (p : BitVec 12) (s : State) (h : Kept r0 s) : KeptOut r0 (execHallBarrierArrive p s) := by
  unfold execHallBarrierArrive
  repeat' first
    | intro _
    | with_reducible assumption
    | dsimp only
    | with_reducible apply KeptOut.ite
    | with_reducible apply KeptOut.next
    | with_reducible apply KeptOut.fault
    | with_reducible apply Kept.ite
    | with_reducible apply Kept.dite
    | with_reducible apply hallArrive_kept
    | with_reducible apply State.toHall_kept
    | with_reducible apply Kept.refl
    | simp only [↓Kept.upd_eq]
    | with_reducible apply Kept.fold
    | with_reducible apply Kept.foldFst
    | split

theorem popTrigger_kept {r0 : State} (s : State) (h : Kept r0 s) : Kept r0 (popTrigger s) := by
  unfold popTrigger
  repeat' first
    | intro _
    | with_reducible assumption
    | dsimp only
    | with_reducible apply Kept.ite
    | with_reducible apply Kept.dite
    | with_reducible apply Kept.refl
    | simp only [↓Kept.upd_eq]
    | with_reducible apply Kept.fold
    | with_reducible apply Kept.foldFst
    | split

theorem badTrigger_kept {r0 : State} (s : State) (h : Kept r0 s) : Kept r0 (badTrigger s) := by
  unfold badTrigger
  repeat' first
    | intro _
    | with_reducible assumption
    | dsimp only
    | with_reducible apply Kept.ite
    | with_reducible apply Kept.dite
    | with_reducible apply popTrigger_kept
    | with_reducible apply Kept.refl
    | simp only [↓Kept.upd_eq]
    | with_reducible apply Kept.fold
    | with_reducible apply Kept.foldFst
    | split

theorem overUnits_kept {r0 : State} (f : State → Nat → Bool → State) (s : State) (off : Nat) (len : Nat) (mark : Bool) (kf : ∀ a0 a1 a2, Kept r0 a0 → Kept r0 (f a0 a1 a2)) (h : Kept r0 s) : Kept r0 (overUnits f s off len mark) := by
  unfold overUnits
  repeat' first
    | intro _
    | with_reducible assumption
    | dsimp only
    | with_reducible apply Kept.ite
    | with_reducible apply Kept.dite
    | with_reducible apply kf
    | with_reducible apply Kept.refl
    | simp only [↓Kept.upd_eq]
    | with_reducible apply Kept.fold
    | with_reducible apply Kept.foldFst
    | split

theorem execPlanTrigger_kept {r0 : State} (s : State) (h : Kept r0 s) : KeptOut r0 (execPlanTrigger s) := by
  unfold execPlanTrigger
  repeat' first
    | intro _
    | with_reducible assumption
    | dsimp only
    | with_reducible apply KeptOut.ite
    | with_reducible apply KeptOut.next
    | with_reducible apply KeptOut.fault
    | with_reducible apply Kept.ite
    | with_reducible apply Kept.dite
    | with_reducible apply overUnits_kept
    | with_reducible apply badTrigger_kept
    | with_reducible apply popTrigger_kept
    | with_reducible apply barrierUp_kept
    | with_reducible apply State.modRun_kept
    | with_reducible apply mcastSend_kept
    | with_reducible apply inject_kept
    | with_reducible apply Kept.refl
    | simp only [↓Kept.upd_eq]
    | with_reducible apply Kept.fold
    | with_reducible apply Kept.foldFst
    | split

theorem flushPlans_kept {r0 : State} (s : State) (h : Kept r0 s) : Kept r0 (flushPlans s) := by
  unfold flushPlans
  repeat' first
    | intro _
    | with_reducible assumption
    | dsimp only
    | with_reducible apply Kept.ite
    | with_reducible apply Kept.dite
    | with_reducible apply Kept.refl
    | simp only [↓Kept.upd_eq]
    | with_reducible apply Kept.fold
    | with_reducible apply Kept.foldFst
    | split

end Sys2Proof.Machine
end

