-- ==== Sys2Proof/Laws/KeptSeal.lean ====
section
/-! SUPPORT. Laws/KeptSeal.lean: every operation of Machine/Seal.lean keeps what Laws/Kept.lean names. -/

namespace Sys2Proof.Machine

set_option linter.unusedTactic false
set_option linter.unreachableTactic false

theorem execVoteSend_kept {r0 : State} (s : State) (h : Kept r0 s) : KeptOut r0 (execVoteSend s) := by
  unfold execVoteSend
  repeat' first
    | intro _
    | with_reducible assumption
    | dsimp only
    | with_reducible apply KeptOut.ite
    | with_reducible apply KeptOut.next
    | with_reducible apply KeptOut.fault
    | with_reducible apply Kept.ite
    | with_reducible apply Kept.dite
    | with_reducible apply castVote_kept
    | with_reducible apply Kept.refl
    | simp only [↓Kept.upd_eq]
    | with_reducible apply Kept.fold
    | with_reducible apply Kept.foldFst
    | split

theorem ledPacket_kept {r0 : State} (s : State) (p : PortId) (k : Packet) (kind : Nat) (h : Kept r0 s) : KeptOut r0 (ledPacket s p k kind) := by
  unfold ledPacket
  repeat' first
    | intro _
    | with_reducible assumption
    | dsimp only
    | with_reducible apply KeptOut.ite
    | with_reducible apply KeptOut.next
    | with_reducible apply KeptOut.fault
    | with_reducible apply Kept.ite
    | with_reducible apply Kept.dite
    | with_reducible apply onPacket_kept
    | with_reducible apply ledReceive_kept
    | with_reducible apply Kept.refl
    | simp only [↓Kept.upd_eq]
    | with_reducible apply Kept.fold
    | with_reducible apply Kept.foldFst
    | split

theorem execVote_kept {r0 : State} (p : PortId) (k : Packet) (s : State) (h : Kept r0 s) : KeptOut r0 (execVote p k s) := by
  unfold execVote
  repeat' first
    | intro _
    | with_reducible assumption
    | dsimp only
    | with_reducible apply KeptOut.ite
    | with_reducible apply KeptOut.next
    | with_reducible apply KeptOut.fault
    | with_reducible apply Kept.ite
    | with_reducible apply Kept.dite
    | with_reducible apply ledPacket_kept
    | with_reducible apply Kept.refl
    | simp only [↓Kept.upd_eq]
    | with_reducible apply Kept.fold
    | with_reducible apply Kept.foldFst
    | split

theorem execOutcome_kept {r0 : State} (p : PortId) (k : Packet) (s : State) (h : Kept r0 s) : KeptOut r0 (execOutcome p k s) := by
  unfold execOutcome
  repeat' first
    | intro _
    | with_reducible assumption
    | dsimp only
    | with_reducible apply KeptOut.ite
    | with_reducible apply KeptOut.next
    | with_reducible apply KeptOut.fault
    | with_reducible apply Kept.ite
    | with_reducible apply Kept.dite
    | with_reducible apply ledPacket_kept
    | with_reducible apply Kept.refl
    | simp only [↓Kept.upd_eq]
    | with_reducible apply Kept.fold
    | with_reducible apply Kept.foldFst
    | split

theorem execDigup_kept {r0 : State} (p : PortId) (k : Packet) (s : State) (h : Kept r0 s) : KeptOut r0 (execDigup p k s) := by
  unfold execDigup
  repeat' first
    | intro _
    | with_reducible assumption
    | dsimp only
    | with_reducible apply KeptOut.ite
    | with_reducible apply KeptOut.next
    | with_reducible apply KeptOut.fault
    | with_reducible apply Kept.ite
    | with_reducible apply Kept.dite
    | with_reducible apply ledPacket_kept
    | with_reducible apply Kept.refl
    | simp only [↓Kept.upd_eq]
    | with_reducible apply Kept.fold
    | with_reducible apply Kept.foldFst
    | split

theorem execDigdown_kept {r0 : State} (p : PortId) (k : Packet) (s : State) (h : Kept r0 s) : KeptOut r0 (execDigdown p k s) := by
  unfold execDigdown
  repeat' first
    | intro _
    | with_reducible assumption
    | dsimp only
    | with_reducible apply KeptOut.ite
    | with_reducible apply KeptOut.next
    | with_reducible apply KeptOut.fault
    | with_reducible apply Kept.ite
    | with_reducible apply Kept.dite
    | with_reducible apply ledPacket_kept
    | with_reducible apply Kept.refl
    | simp only [↓Kept.upd_eq]
    | with_reducible apply Kept.fold
    | with_reducible apply Kept.foldFst
    | split

theorem execUwrup_kept {r0 : State} (p : PortId) (k : Packet) (s : State) (h : Kept r0 s) : KeptOut r0 (execUwrup p k s) := by
  unfold execUwrup
  repeat' first
    | intro _
    | with_reducible assumption
    | dsimp only
    | with_reducible apply KeptOut.ite
    | with_reducible apply KeptOut.next
    | with_reducible apply KeptOut.fault
    | with_reducible apply Kept.ite
    | with_reducible apply Kept.dite
    | with_reducible apply ledPacket_kept
    | with_reducible apply Kept.refl
    | simp only [↓Kept.upd_eq]
    | with_reducible apply Kept.fold
    | with_reducible apply Kept.foldFst
    | split

theorem execRatiodn_kept {r0 : State} (p : PortId) (k : Packet) (s : State) (h : Kept r0 s) : KeptOut r0 (execRatiodn p k s) := by
  unfold execRatiodn
  repeat' first
    | intro _
    | with_reducible assumption
    | dsimp only
    | with_reducible apply KeptOut.ite
    | with_reducible apply KeptOut.next
    | with_reducible apply KeptOut.fault
    | with_reducible apply Kept.ite
    | with_reducible apply Kept.dite
    | with_reducible apply ledPacket_kept
    | with_reducible apply Kept.refl
    | simp only [↓Kept.upd_eq]
    | with_reducible apply Kept.fold
    | with_reducible apply Kept.foldFst
    | split

theorem clearCounters_kept {r0 : State} (s : State) (h : Kept r0 s) : Kept r0 (clearCounters s) := by
  unfold clearCounters
  repeat' first
    | intro _
    | with_reducible assumption
    | dsimp only
    | with_reducible apply Kept.ite
    | with_reducible apply Kept.dite
    | with_reducible apply Kept.refl
    | simp only [↓Kept.upd_eq]
    | with_reducible apply Kept.fold
    | with_reducible apply Kept.foldFst
    | split

theorem clearNonrep_kept {r0 : State} (s : State) (h : Kept r0 s) : Kept r0 (clearNonrep s) := by
  unfold clearNonrep
  repeat' first
    | intro _
    | with_reducible assumption
    | dsimp only
    | with_reducible apply Kept.ite
    | with_reducible apply Kept.dite
    | with_reducible apply Kept.refl
    | simp only [↓Kept.upd_eq]
    | with_reducible apply Kept.fold
    | with_reducible apply Kept.foldFst
    | split

theorem commitTo_kept {r0 : State} (s : State) (n : U64) (h : Kept r0 s) : Kept r0 (commitTo s n) := by
  unfold commitTo
  repeat' first
    | intro _
    | with_reducible assumption
    | dsimp only
    | with_reducible apply Kept.ite
    | with_reducible apply Kept.dite
    | with_reducible apply commitTasks_kept
    | with_reducible apply Kept.refl
    | simp only [↓Kept.upd_eq]
    | with_reducible apply Kept.fold
    | with_reducible apply Kept.foldFst
    | split

theorem State.interval_kept {r0 : State} (s : State) (four : Nat) (d : Nat) (bound : Nat) (h : Kept r0 s) : Kept r0 (State.interval s four d bound).2 := by
  unfold State.interval
  repeat' first
    | intro _
    | with_reducible assumption
    | dsimp only
    | with_reducible apply Kept.ite
    | with_reducible apply Kept.dite
    | with_reducible apply State.freeNext_kept
    | with_reducible apply Kept.refl
    | simp only [↓Kept.upd_eq]
    | with_reducible apply Kept.fold
    | with_reducible apply Kept.foldFst
    | refine Kept.ofSnd (x := State.freeNext _) (by assumption) ?_
    | split

theorem intervalRule_kept {r0 : State} (s : State) (n : U64) (h : Kept r0 s) : Kept r0 (intervalRule s n) := by
  unfold intervalRule
  repeat' first
    | intro _
    | with_reducible assumption
    | dsimp only
    | with_reducible apply Kept.ite
    | with_reducible apply Kept.dite
    | with_reducible apply State.interval_kept
    | with_reducible apply State.modLed_kept
    | with_reducible apply Kept.refl
    | simp only [↓Kept.upd_eq]
    | with_reducible apply Kept.fold
    | with_reducible apply Kept.foldFst
    | refine Kept.ofSnd (x := State.interval _ _ _ _) (by assumption) ?_
    | split

theorem brokerRun_kept {r0 : State} (s : State) (h : Kept r0 s) : Kept r0 (brokerRun s) := by
  unfold brokerRun
  repeat' first
    | intro _
    | with_reducible assumption
    | dsimp only
    | with_reducible apply Kept.ite
    | with_reducible apply Kept.dite
    | with_reducible apply State.modPow_kept
    | with_reducible apply Kept.refl
    | simp only [↓Kept.upd_eq]
    | with_reducible apply Kept.fold
    | with_reducible apply Kept.foldFst
    | split

theorem brokerMean_kept {r0 : State} (s : State) (call : Nat) (mean : Nat) (x : Nat) (h : Kept r0 s) : Kept r0 (brokerMean s call mean x) := by
  unfold brokerMean
  repeat' first
    | intro _
    | with_reducible assumption
    | dsimp only
    | with_reducible apply Kept.ite
    | with_reducible apply Kept.dite
    | with_reducible apply brokerRun_kept
    | with_reducible apply State.modPow_kept
    | with_reducible apply Kept.refl
    | simp only [↓Kept.upd_eq]
    | with_reducible apply Kept.fold
    | with_reducible apply Kept.foldFst
    | split

theorem brokerSeal_kept {r0 : State} (s : State) (n : U64) (t : U64) (requested : Bool) (h : Kept r0 s) : Kept r0 (brokerSeal s n t requested) := by
  unfold brokerSeal
  repeat' first
    | intro _
    | with_reducible assumption
    | dsimp only
    | with_reducible apply Kept.ite
    | with_reducible apply Kept.dite
    | with_reducible apply brokerMean_kept
    | with_reducible apply sendMgmt_kept
    | with_reducible apply State.modPow_kept
    | with_reducible apply Kept.refl
    | simp only [↓Kept.upd_eq]
    | with_reducible apply Kept.fold
    | with_reducible apply Kept.foldFst
    | split

theorem execMeanSlack_kept {r0 : State} (p : PortId) (k : Packet) (s : State) (h : Kept r0 s) : KeptOut r0 (execMeanSlack p k s) := by
  unfold execMeanSlack
  repeat' first
    | intro _
    | with_reducible assumption
    | dsimp only
    | with_reducible apply KeptOut.ite
    | with_reducible apply KeptOut.next
    | with_reducible apply KeptOut.fault
    | with_reducible apply Kept.ite
    | with_reducible apply Kept.dite
    | with_reducible apply brokerMean_kept
    | with_reducible apply onPacket_kept
    | with_reducible apply Kept.refl
    | simp only [↓Kept.upd_eq]
    | with_reducible apply Kept.fold
    | with_reducible apply Kept.foldFst
    | split

theorem execBrokerMeanTimeout_kept {r0 : State} (s : State) (h : Kept r0 s) : KeptOut r0 (execBrokerMeanTimeout s) := by
  unfold execBrokerMeanTimeout
  repeat' first
    | intro _
    | with_reducible assumption
    | dsimp only
    | with_reducible apply KeptOut.ite
    | with_reducible apply KeptOut.next
    | with_reducible apply KeptOut.fault
    | with_reducible apply Kept.ite
    | with_reducible apply Kept.dite
    | with_reducible apply State.modPow_kept
    | with_reducible apply State.advanceTo_kept
    | with_reducible apply Kept.refl
    | simp only [↓Kept.upd_eq]
    | with_reducible apply Kept.fold
    | with_reducible apply Kept.foldFst
    | split

theorem stepArrive_kept {r0 : State} (s : State) (h : Kept r0 s) : Kept r0 (stepArrive s) := by
  unfold stepArrive
  repeat' first
    | intro _
    | with_reducible assumption
    | dsimp only
    | with_reducible apply Kept.ite
    | with_reducible apply Kept.dite
    | with_reducible apply arriveBarrier_kept
    | with_reducible apply Kept.refl
    | simp only [↓Kept.upd_eq]
    | with_reducible apply Kept.fold
    | with_reducible apply Kept.foldFst
    | split

theorem completeSeal_kept {r0 : State} (s : State) (h : Kept r0 s) : Kept r0 (completeSeal s) := by
  unfold completeSeal
  repeat' first
    | intro _
    | with_reducible assumption
    | dsimp only
    | with_reducible apply Kept.ite
    | with_reducible apply Kept.dite
    | with_reducible apply stepArrive_kept
    | with_reducible apply State.modLed_kept
    | with_reducible apply lateVote_kept
    | with_reducible apply Kept.refl
    | simp only [↓Kept.upd_eq]
    | with_reducible apply Kept.fold
    | with_reducible apply Kept.foldFst
    | split

theorem openWindow_kept {r0 : State} (s : State) (t : U64) (h : Kept r0 s) : Kept r0 (openWindow s t) := by
  unfold openWindow
  repeat' first
    | intro _
    | with_reducible assumption
    | dsimp only
    | with_reducible apply Kept.ite
    | with_reducible apply Kept.dite
    | with_reducible apply State.modPow_kept
    | with_reducible apply State.modLed_kept
    | with_reducible apply Kept.refl
    | simp only [↓Kept.upd_eq]
    | with_reducible apply Kept.fold
    | with_reducible apply Kept.foldFst
    | split

theorem applySealed_kept {r0 : State} (s : State) (o : Outcome) (h : Kept r0 s) : Kept r0 (applySealed s o) := by
  unfold applySealed
  repeat' first
    | intro _
    | with_reducible assumption
    | dsimp only
    | with_reducible apply Kept.ite
    | with_reducible apply Kept.dite
    | with_reducible apply openWindow_kept
    | with_reducible apply completeSeal_kept
    | with_reducible apply brokerSeal_kept
    | with_reducible apply intervalRule_kept
    | with_reducible apply commitTo_kept
    | with_reducible apply clearNonrep_kept
    | with_reducible apply clearCounters_kept
    | with_reducible apply countTransients_kept
    | with_reducible apply judgeArrays_kept
    | with_reducible apply syncStart_kept
    | with_reducible apply setStep_kept
    | with_reducible apply setProfile_kept
    | with_reducible apply ledWrite_kept
    | with_reducible apply State.modLed_kept
    | with_reducible apply State.toHall_kept
    | with_reducible apply l2Touch_kept
    | with_reducible apply Kept.refl
    | simp only [↓Kept.upd_eq]
    | with_reducible apply Kept.fold
    | with_reducible apply Kept.foldFst
    | split

theorem execSealedOutcomeApply_kept {r0 : State} (s : State) (h : Kept r0 s) : KeptOut r0 (execSealedOutcomeApply s) := by
  unfold execSealedOutcomeApply
  repeat' first
    | intro _
    | with_reducible assumption
    | dsimp only
    | with_reducible apply KeptOut.ite
    | with_reducible apply KeptOut.next
    | with_reducible apply KeptOut.fault
    | with_reducible apply Kept.ite
    | with_reducible apply Kept.dite
    | with_reducible apply applySealed_kept
    | with_reducible apply Kept.refl
    | simp only [↓Kept.upd_eq]
    | with_reducible apply Kept.fold
    | with_reducible apply Kept.foldFst
    | split

theorem judgeReplay_kept {r0 : State} (s : State) (own : Nat) (o : Outcome) (replays : Nat) (wd : Bool) (h : Kept r0 s) : Kept r0 (judgeReplay s own o replays wd) := by
  unfold judgeReplay
  repeat' first
    | intro _
    | with_reducible assumption
    | dsimp only
    | with_reducible apply Kept.ite
    | with_reducible apply Kept.dite
    | with_reducible apply requestWithdrawal_kept
    | with_reducible apply raiseAlarm_kept
    | with_reducible apply State.modLed_kept
    | with_reducible apply Kept.refl
    | simp only [↓Kept.upd_eq]
    | with_reducible apply Kept.fold
    | with_reducible apply Kept.foldFst
    | split

theorem applyReplay_kept {r0 : State} (s : State) (t : U64) (h : Kept r0 s) : Kept r0 (applyReplay s t) := by
  unfold applyReplay
  repeat' first
    | intro _
    | with_reducible assumption
    | dsimp only
    | with_reducible apply Kept.ite
    | with_reducible apply Kept.dite
    | with_reducible apply clearCounters_kept
    | with_reducible apply flushPlans_kept
    | with_reducible apply judgeStops_kept
    | with_reducible apply judgeArrays_kept
    | with_reducible apply syncStart_kept
    | with_reducible apply setStep_kept
    | with_reducible apply setProfile_kept
    | with_reducible apply noticeAll_kept
    | with_reducible apply State.modLed_kept
    | with_reducible apply State.toHall_kept
    | with_reducible apply abortTasks_kept
    | with_reducible apply Kept.refl
    | simp only [↓Kept.upd_eq]
    | with_reducible apply Kept.fold
    | with_reducible apply Kept.foldFst
    | split

theorem execReplayOutcomeApply_kept {r0 : State} (s : State) (h : Kept r0 s) : KeptOut r0 (execReplayOutcomeApply s) := by
  unfold execReplayOutcomeApply
  repeat' first
    | intro _
    | with_reducible assumption
    | dsimp only
    | with_reducible apply KeptOut.ite
    | with_reducible apply KeptOut.next
    | with_reducible apply KeptOut.fault
    | with_reducible apply Kept.ite
    | with_reducible apply Kept.dite
    | with_reducible apply applyReplay_kept
    | with_reducible apply judgeReplay_kept
    | with_reducible apply State.modLed_kept
    | with_reducible apply Kept.refl
    | simp only [↓Kept.upd_eq]
    | with_reducible apply Kept.fold
    | with_reducible apply Kept.foldFst
    | split

theorem loadStandby_kept {r0 : State} (s : State) (h : Kept r0 s) : Kept r0 (loadStandby s) := by
  unfold loadStandby
  repeat' first
    | intro _
    | with_reducible assumption
    | dsimp only
    | with_reducible apply Kept.ite
    | with_reducible apply Kept.dite
    | with_reducible apply lgWrite_kept
    | with_reducible apply feWrite_kept
    | with_reducible apply Kept.refl
    | simp only [↓Kept.upd_eq]
    | with_reducible apply Kept.fold
    | with_reducible apply Kept.foldFst
    | split

theorem afterFlush_kept {r0 : State} (s : State) (h : Kept r0 s) : Kept r0 (afterFlush s) := by
  unfold afterFlush
  repeat' first
    | intro _
    | with_reducible assumption
    | dsimp only
    | with_reducible apply Kept.ite
    | with_reducible apply Kept.dite
    | with_reducible apply loadStandby_kept
    | with_reducible apply Kept.refl
    | simp only [↓Kept.upd_eq]
    | with_reducible apply Kept.fold
    | with_reducible apply Kept.foldFst
    | split

theorem execReplayQuietFlush_kept {r0 : State} (s : State) (h : Kept r0 s) : KeptOut r0 (execReplayQuietFlush s) := by
  unfold execReplayQuietFlush
  repeat' first
    | intro _
    | with_reducible assumption
    | dsimp only
    | with_reducible apply KeptOut.ite
    | with_reducible apply KeptOut.next
    | with_reducible apply KeptOut.fault
    | with_reducible apply Kept.ite
    | with_reducible apply Kept.dite
    | with_reducible apply afterFlush_kept
    | with_reducible apply stepArrive_kept
    | with_reducible apply flushPlans_kept
    | with_reducible apply State.modLed_kept
    | with_reducible apply State.toHall_kept
    | with_reducible apply lateVote_kept
    | with_reducible apply Kept.refl
    | simp only [↓Kept.upd_eq]
    | with_reducible apply Kept.fold
    | with_reducible apply Kept.foldFst
    | split

theorem execFieldTestWindowEnd_kept {r0 : State} (s : State) (h : Kept r0 s) : KeptOut r0 (execFieldTestWindowEnd s) := by
  unfold execFieldTestWindowEnd
  repeat' first
    | intro _
    | with_reducible assumption
    | dsimp only
    | with_reducible apply KeptOut.ite
    | with_reducible apply KeptOut.next
    | with_reducible apply KeptOut.fault
    | with_reducible apply Kept.ite
    | with_reducible apply Kept.dite
    | with_reducible apply completeSeal_kept
    | with_reducible apply testAll_kept
    | with_reducible apply State.modPow_kept
    | with_reducible apply State.modLed_kept
    | with_reducible apply State.toHall_kept
    | with_reducible apply Kept.refl
    | simp only [↓Kept.upd_eq]
    | with_reducible apply Kept.fold
    | with_reducible apply Kept.foldFst
    | refine Kept.ofFst (x := testAll _ _) (by assumption) ?_
    | split

theorem stressCycle_kept {r0 : State} (s : State) (h : Kept r0 s) : Kept r0 (stressCycle s) := by
  unfold stressCycle
  repeat' first
    | intro _
    | with_reducible assumption
    | dsimp only
    | with_reducible apply Kept.ite
    | with_reducible apply Kept.dite
    | with_reducible apply State.modPow_kept
    | with_reducible apply State.advance_kept
    | with_reducible apply State.freeNext_kept
    | with_reducible apply Kept.refl
    | simp only [↓Kept.upd_eq]
    | with_reducible apply Kept.fold
    | with_reducible apply Kept.foldFst
    | refine Kept.ofSnd (x := State.freeNext _) (by assumption) ?_
    | split

theorem execReserveTestCycle_kept {r0 : State} (s : State) (h : Kept r0 s) : KeptOut r0 (execReserveTestCycle s) := by
  unfold execReserveTestCycle
  repeat' first
    | intro _
    | with_reducible assumption
    | dsimp only
    | with_reducible apply KeptOut.ite
    | with_reducible apply KeptOut.next
    | with_reducible apply KeptOut.fault
    | with_reducible apply Kept.ite
    | with_reducible apply Kept.dite
    | with_reducible apply stressCycle_kept
    | with_reducible apply testAll_kept
    | with_reducible apply queueNotice_kept
    | with_reducible apply Kept.refl
    | simp only [↓Kept.upd_eq]
    | with_reducible apply Kept.fold
    | with_reducible apply Kept.foldFst
    | refine Kept.ofFst (x := testAll _ _) (by assumption) ?_
    | split

end Sys2Proof.Machine
end

