-- ==== Sys2Proof/Laws/KeptCatalogue.lean ====
section
/-! SUPPORT. Laws/KeptCatalogue.lean: every operation of Machine/Catalogue.lean keeps what Laws/Kept.lean names. -/

namespace Sys2Proof.Machine

set_option linter.unusedTactic false
set_option linter.unreachableTactic false

theorem takeName_kept {r0 : State} (s : State) (e : CatEntry) (h : Kept r0 s) : Kept r0 (takeName s e) := by
  unfold takeName
  repeat' first
    | intro _
    | with_reducible assumption
    | dsimp only
    | with_reducible apply Kept.ite
    | with_reducible apply Kept.dite
    | with_reducible apply Kept.refl
    | simp only [↓Kept.upd_eq]
    | with_reducible apply Kept.fold
    | with_reducible apply Kept.foldFst
    | split

theorem resetQuadrants_kept {r0 : State} (s : State) (h : Kept r0 s) : Kept r0 (resetQuadrants s) := by
  unfold resetQuadrants
  repeat' first
    | intro _
    | with_reducible assumption
    | dsimp only
    | with_reducible apply Kept.ite
    | with_reducible apply Kept.dite
    | with_reducible apply clearFn_kept
    | with_reducible apply Kept.refl
    | simp only [↓Kept.upd_eq]
    | with_reducible apply Kept.fold
    | with_reducible apply Kept.foldFst
    | split

theorem ownName_kept {r0 : State} (s : State) (u : CatUpdate) (h : Kept r0 s) : Kept r0 (ownName s u) := by
  unfold ownName
  repeat' first
    | intro _
    | with_reducible assumption
    | dsimp only
    | with_reducible apply Kept.ite
    | with_reducible apply Kept.dite
    | with_reducible apply resetQuadrants_kept
    | with_reducible apply takeName_kept
    | with_reducible apply fence_kept
    | with_reducible apply Kept.refl
    | simp only [↓Kept.upd_eq]
    | with_reducible apply Kept.fold
    | with_reducible apply Kept.foldFst
    | split

theorem superseded_kept {r0 : State} (s : State) (old : List CatEntry) (h : Kept r0 s) : Kept r0 (superseded s old) := by
  unfold superseded
  repeat' first
    | intro _
    | with_reducible assumption
    | dsimp only
    | with_reducible apply Kept.ite
    | with_reducible apply Kept.dite
    | with_reducible apply breakHeld_kept
    | with_reducible apply unbind_kept
    | with_reducible apply Kept.refl
    | simp only [↓Kept.upd_eq]
    | with_reducible apply Kept.fold
    | with_reducible apply Kept.foldFst
    | split

theorem timeTree_kept {r0 : State} (s : State) (h : Kept r0 s) : Kept r0 (timeTree s) := by
  unfold timeTree
  repeat' first
    | intro _
    | with_reducible assumption
    | dsimp only
    | with_reducible apply Kept.ite
    | with_reducible apply Kept.dite
    | with_reducible apply Kept.refl
    | simp only [↓Kept.upd_eq]
    | with_reducible apply Kept.fold
    | with_reducible apply Kept.foldFst
    | split

theorem countFailure_kept {r0 : State} (s : State) (tact : U64) (h : Kept r0 s) : Kept r0 (countFailure s tact) := by
  unfold countFailure
  repeat' first
    | intro _
    | with_reducible assumption
    | dsimp only
    | with_reducible apply Kept.ite
    | with_reducible apply Kept.dite
    | with_reducible apply State.modLed_kept
    | with_reducible apply State.freeNext_kept
    | with_reducible apply Kept.refl
    | simp only [↓Kept.upd_eq]
    | with_reducible apply Kept.fold
    | with_reducible apply Kept.foldFst
    | refine Kept.ofSnd (x := State.freeNext _) (by assumption) ?_
    | split

theorem withdrawal_kept {r0 : State} (s : State) (old : List CatEntry) (u : CatUpdate) (h : Kept r0 s) : Kept r0 (withdrawal s old u) := by
  unfold withdrawal
  repeat' first
    | intro _
    | with_reducible assumption
    | dsimp only
    | with_reducible apply Kept.ite
    | with_reducible apply Kept.dite
    | with_reducible apply countFailure_kept
    | with_reducible apply applyReplay_kept
    | with_reducible apply flushPlans_kept
    | with_reducible apply State.modLed_kept
    | with_reducible apply Kept.refl
    | simp only [↓Kept.upd_eq]
    | with_reducible apply Kept.fold
    | with_reducible apply Kept.foldFst
    | split

theorem succession_kept {r0 : State} (s : State) (before : Option Nat) (lostCat : Bool) (h : Kept r0 s) : Kept r0 (succession s before lostCat) := by
  unfold succession
  repeat' first
    | intro _
    | with_reducible assumption
    | dsimp only
    | with_reducible apply Kept.ite
    | with_reducible apply Kept.dite
    | with_reducible apply Kept.refl
    | simp only [↓Kept.upd_eq]
    | with_reducible apply Kept.fold
    | with_reducible apply Kept.foldFst
    | split

theorem applyUpdate_kept {r0 : State} (s : State) (u : CatUpdate) (h : Kept r0 s) : Kept r0 (applyUpdate s u) := by
  unfold applyUpdate
  repeat' first
    | intro _
    | with_reducible assumption
    | dsimp only
    | with_reducible apply Kept.ite
    | with_reducible apply Kept.dite
    | with_reducible apply succession_kept
    | with_reducible apply withdrawal_kept
    | with_reducible apply timeTree_kept
    | with_reducible apply superseded_kept
    | with_reducible apply ownName_kept
    | with_reducible apply loadStandby_kept
    | with_reducible apply flushLayout_kept
    | with_reducible apply flushReports_kept
    | with_reducible apply drainTx_kept
    | with_reducible apply Kept.refl
    | simp only [↓Kept.upd_eq]
    | with_reducible apply Kept.fold
    | with_reducible apply Kept.foldFst
    | split

theorem takeUpdate_kept {r0 : State} (s : State) (from' : Option PortId) (u : CatUpdate) (h : Kept r0 s) : Kept r0 (takeUpdate s from' u) := by
  unfold takeUpdate
  repeat' first
    | intro _
    | with_reducible assumption
    | dsimp only
    | with_reducible apply Kept.ite
    | with_reducible apply Kept.dite
    | with_reducible apply applyUpdate_kept
    | with_reducible apply sendUpdates_kept
    | with_reducible apply State.setPort_kept
    | with_reducible apply Kept.refl
    | simp only [↓Kept.upd_eq]
    | with_reducible apply Kept.fold
    | with_reducible apply Kept.foldFst
    | split

theorem updatePart_kept {r0 : State} (s : State) (p : PortId) (u : CatUpdate) (h : Kept r0 s) : Kept r0 (updatePart s p u) := by
  unfold updatePart
  repeat' first
    | intro _
    | with_reducible assumption
    | dsimp only
    | with_reducible apply Kept.ite
    | with_reducible apply Kept.dite
    | with_reducible apply takeUpdate_kept
    | with_reducible apply State.setPort_kept
    | with_reducible apply Kept.refl
    | simp only [↓Kept.upd_eq]
    | with_reducible apply Kept.fold
    | with_reducible apply Kept.foldFst
    | split

theorem execCatalogueUpdate_kept {r0 : State} (p : Option PortId) (k : Packet) (s : State) (h : Kept r0 s) : KeptOut r0 (execCatalogueUpdate p k s) := by
  unfold execCatalogueUpdate
  repeat' first
    | intro _
    | with_reducible assumption
    | dsimp only
    | with_reducible apply KeptOut.ite
    | with_reducible apply KeptOut.next
    | with_reducible apply KeptOut.fault
    | with_reducible apply Kept.ite
    | with_reducible apply Kept.dite
    | with_reducible apply updatePart_kept
    | with_reducible apply takeUpdate_kept
    | with_reducible apply onPacket_kept
    | with_reducible apply Kept.refl
    | simp only [↓Kept.upd_eq]
    | with_reducible apply Kept.fold
    | with_reducible apply Kept.foldFst
    | split

theorem execCatalogueUpdateApply_kept {r0 : State} (s : State) (h : Kept r0 s) : KeptOut r0 (execCatalogueUpdateApply s) := by
  unfold execCatalogueUpdateApply
  repeat' first
    | intro _
    | with_reducible assumption
    | dsimp only
    | with_reducible apply KeptOut.ite
    | with_reducible apply KeptOut.next
    | with_reducible apply KeptOut.fault
    | with_reducible apply Kept.ite
    | with_reducible apply Kept.dite
    | with_reducible apply applyUpdate_kept
    | with_reducible apply State.toHall_kept
    | with_reducible apply Kept.refl
    | simp only [↓Kept.upd_eq]
    | with_reducible apply Kept.fold
    | with_reducible apply Kept.foldFst
    | split

theorem execCataloguerElected_kept {r0 : State} (u : CatUpdate) (s : State) (h : Kept r0 s) : KeptOut r0 (execCataloguerElected u s) := by
  unfold execCataloguerElected
  repeat' first
    | intro _
    | with_reducible assumption
    | dsimp only
    | with_reducible apply KeptOut.ite
    | with_reducible apply KeptOut.next
    | with_reducible apply KeptOut.fault
    | with_reducible apply Kept.ite
    | with_reducible apply Kept.dite
    | with_reducible apply takeUpdate_kept
    | with_reducible apply flushReports_kept
    | with_reducible apply State.advanceTo_kept
    | with_reducible apply Kept.refl
    | simp only [↓Kept.upd_eq]
    | with_reducible apply Kept.fold
    | with_reducible apply Kept.foldFst
    | split

theorem probe_kept {r0 : State} (s : State) (e : CatEntry) (h : Kept r0 s) : Kept r0 (probe s e) := by
  unfold probe
  repeat' first
    | intro _
    | with_reducible assumption
    | dsimp only
    | with_reducible apply Kept.ite
    | with_reducible apply Kept.dite
    | with_reducible apply State.sendOn_kept
    | with_reducible apply Kept.refl
    | simp only [↓Kept.upd_eq]
    | with_reducible apply Kept.fold
    | with_reducible apply Kept.foldFst
    | split

theorem execModuleSuspect_kept {r0 : State} (call : BitVec 20) (s : State) (h : Kept r0 s) : KeptOut r0 (execModuleSuspect call s) := by
  unfold execModuleSuspect
  repeat' first
    | intro _
    | with_reducible assumption
    | dsimp only
    | with_reducible apply KeptOut.ite
    | with_reducible apply KeptOut.next
    | with_reducible apply KeptOut.fault
    | with_reducible apply Kept.ite
    | with_reducible apply Kept.dite
    | with_reducible apply probe_kept
    | with_reducible apply Kept.refl
    | simp only [↓Kept.upd_eq]
    | with_reducible apply Kept.fold
    | with_reducible apply Kept.foldFst
    | split

theorem execModuleWithdrawn_kept {r0 : State} (call : BitVec 20) (u : CatUpdate) (s : State) (h : Kept r0 s) : KeptOut r0 (execModuleWithdrawn call u s) := by
  unfold execModuleWithdrawn
  repeat' first
    | intro _
    | with_reducible assumption
    | dsimp only
    | with_reducible apply KeptOut.ite
    | with_reducible apply KeptOut.next
    | with_reducible apply KeptOut.fault
    | with_reducible apply Kept.ite
    | with_reducible apply Kept.dite
    | with_reducible apply takeUpdate_kept
    | with_reducible apply State.advanceTo_kept
    | with_reducible apply Kept.refl
    | simp only [↓Kept.upd_eq]
    | with_reducible apply Kept.fold
    | with_reducible apply Kept.foldFst
    | split

end Sys2Proof.Machine
end

