-- ==== Sys2Proof/Laws/KeptCurator.lean ====
section
/-! SUPPORT. Laws/KeptCurator.lean: every operation of Machine/Curator.lean keeps what Laws/Kept.lean names. -/

namespace Sys2Proof.Machine

set_option linter.unusedTactic false
set_option linter.unreachableTactic false

theorem execInfo_kept {r0 : State} (mb : MailId) (s : State) (h : Kept r0 s) : KeptOut r0 (execInfo mb s) := by
  unfold execInfo
  repeat' first
    | intro _
    | with_reducible assumption
    | dsimp only
    | with_reducible apply KeptOut.ite
    | with_reducible apply KeptOut.next
    | with_reducible apply KeptOut.fault
    | with_reducible apply Kept.ite
    | with_reducible apply Kept.dite
    | with_reducible apply onSlip_kept
    | with_reducible apply reply_kept
    | with_reducible apply Kept.refl
    | simp only [↓Kept.upd_eq]
    | with_reducible apply Kept.fold
    | with_reducible apply Kept.foldFst
    | split

theorem execArrayMap_kept {r0 : State} (mb : MailId) (s : State) (h : Kept r0 s) : KeptOut r0 (execArrayMap mb s) := by
  unfold execArrayMap
  repeat' first
    | intro _
    | with_reducible assumption
    | dsimp only
    | with_reducible apply KeptOut.ite
    | with_reducible apply KeptOut.next
    | with_reducible apply KeptOut.fault
    | with_reducible apply Kept.ite
    | with_reducible apply Kept.dite
    | with_reducible apply onSlip_kept
    | with_reducible apply reply_kept
    | with_reducible apply Kept.refl
    | simp only [↓Kept.upd_eq]
    | with_reducible apply Kept.fold
    | with_reducible apply Kept.foldFst
    | split

theorem execBookplate_kept {r0 : State} (mb : MailId) (s : State) (h : Kept r0 s) : KeptOut r0 (execBookplate mb s) := by
  unfold execBookplate
  repeat' first
    | intro _
    | with_reducible assumption
    | dsimp only
    | with_reducible apply KeptOut.ite
    | with_reducible apply KeptOut.next
    | with_reducible apply KeptOut.fault
    | with_reducible apply Kept.ite
    | with_reducible apply Kept.dite
    | with_reducible apply onSlip_kept
    | with_reducible apply reply_kept
    | with_reducible apply Kept.refl
    | simp only [↓Kept.upd_eq]
    | with_reducible apply Kept.fold
    | with_reducible apply Kept.foldFst
    | split

theorem execQuote_kept {r0 : State} (mb : MailId) (s : State) (h : Kept r0 s) : KeptOut r0 (execQuote mb s) := by
  unfold execQuote
  repeat' first
    | intro _
    | with_reducible assumption
    | dsimp only
    | with_reducible apply KeptOut.ite
    | with_reducible apply KeptOut.next
    | with_reducible apply KeptOut.fault
    | with_reducible apply Kept.ite
    | with_reducible apply Kept.dite
    | with_reducible apply onSlip_kept
    | with_reducible apply reply_kept
    | with_reducible apply State.modBox_kept
    | with_reducible apply Kept.refl
    | simp only [↓Kept.upd_eq]
    | with_reducible apply Kept.fold
    | with_reducible apply Kept.foldFst
    | split

theorem setMode_kept {r0 : State} (s : State) (v : U64) (h : Kept r0 s) : Kept r0 (setMode s v) := by
  unfold setMode
  repeat' first
    | intro _
    | with_reducible assumption
    | dsimp only
    | with_reducible apply Kept.ite
    | with_reducible apply Kept.dite
    | with_reducible apply State.modPow_kept
    | with_reducible apply Kept.refl
    | simp only [↓Kept.upd_eq]
    | with_reducible apply Kept.fold
    | with_reducible apply Kept.foldFst
    | split

theorem execPwMode_kept {r0 : State} (mb : MailId) (s : State) (h : Kept r0 s) : KeptOut r0 (execPwMode mb s) := by
  unfold execPwMode
  repeat' first
    | intro _
    | with_reducible assumption
    | dsimp only
    | with_reducible apply KeptOut.ite
    | with_reducible apply KeptOut.next
    | with_reducible apply KeptOut.fault
    | with_reducible apply Kept.ite
    | with_reducible apply Kept.dite
    | with_reducible apply setMode_kept
    | with_reducible apply onSlip_kept
    | with_reducible apply reply_kept
    | with_reducible apply Kept.refl
    | simp only [↓Kept.upd_eq]
    | with_reducible apply Kept.fold
    | with_reducible apply Kept.foldFst
    | split

theorem execPwOpp_kept {r0 : State} (mb : MailId) (s : State) (h : Kept r0 s) : KeptOut r0 (execPwOpp mb s) := by
  unfold execPwOpp
  repeat' first
    | intro _
    | with_reducible assumption
    | dsimp only
    | with_reducible apply KeptOut.ite
    | with_reducible apply KeptOut.next
    | with_reducible apply KeptOut.fault
    | with_reducible apply Kept.ite
    | with_reducible apply Kept.dite
    | with_reducible apply State.modPow_kept
    | with_reducible apply onSlip_kept
    | with_reducible apply reply_kept
    | with_reducible apply Kept.refl
    | simp only [↓Kept.upd_eq]
    | with_reducible apply Kept.fold
    | with_reducible apply Kept.foldFst
    | split

theorem execPwGroup_kept {r0 : State} (mb : MailId) (s : State) (h : Kept r0 s) : KeptOut r0 (execPwGroup mb s) := by
  unfold execPwGroup
  repeat' first
    | intro _
    | with_reducible assumption
    | dsimp only
    | with_reducible apply KeptOut.ite
    | with_reducible apply KeptOut.next
    | with_reducible apply KeptOut.fault
    | with_reducible apply Kept.ite
    | with_reducible apply Kept.dite
    | with_reducible apply shareCap_kept
    | with_reducible apply State.modPow_kept
    | with_reducible apply onSlip_kept
    | with_reducible apply reply_kept
    | with_reducible apply Kept.refl
    | simp only [↓Kept.upd_eq]
    | with_reducible apply Kept.fold
    | with_reducible apply Kept.foldFst
    | split

theorem execPwShareset_kept {r0 : State} (mb : MailId) (s : State) (h : Kept r0 s) : KeptOut r0 (execPwShareset mb s) := by
  unfold execPwShareset
  repeat' first
    | intro _
    | with_reducible assumption
    | dsimp only
    | with_reducible apply KeptOut.ite
    | with_reducible apply KeptOut.next
    | with_reducible apply KeptOut.fault
    | with_reducible apply Kept.ite
    | with_reducible apply Kept.dite
    | with_reducible apply State.modPow_kept
    | with_reducible apply onSlip_kept
    | with_reducible apply reply_kept
    | with_reducible apply Kept.refl
    | simp only [↓Kept.upd_eq]
    | with_reducible apply Kept.fold
    | with_reducible apply Kept.foldFst
    | split

theorem execPwRead_kept {r0 : State} (mb : MailId) (s : State) (h : Kept r0 s) : KeptOut r0 (execPwRead mb s) := by
  unfold execPwRead
  repeat' first
    | intro _
    | with_reducible assumption
    | dsimp only
    | with_reducible apply KeptOut.ite
    | with_reducible apply KeptOut.next
    | with_reducible apply KeptOut.fault
    | with_reducible apply Kept.ite
    | with_reducible apply Kept.dite
    | with_reducible apply onSlip_kept
    | with_reducible apply reply_kept
    | with_reducible apply Kept.refl
    | simp only [↓Kept.upd_eq]
    | with_reducible apply Kept.fold
    | with_reducible apply Kept.foldFst
    | split

theorem execFabShelf_kept {r0 : State} (mb : MailId) (s : State) (h : Kept r0 s) : KeptOut r0 (execFabShelf mb s) := by
  unfold execFabShelf
  repeat' first
    | intro _
    | with_reducible assumption
    | dsimp only
    | with_reducible apply KeptOut.ite
    | with_reducible apply KeptOut.next
    | with_reducible apply KeptOut.fault
    | with_reducible apply Kept.ite
    | with_reducible apply Kept.dite
    | with_reducible apply sendHello_kept
    | with_reducible apply hearClaim_kept
    | with_reducible apply onSlip_kept
    | with_reducible apply reply_kept
    | with_reducible apply Kept.refl
    | simp only [↓Kept.upd_eq]
    | with_reducible apply Kept.fold
    | with_reducible apply Kept.foldFst
    | split

theorem execFabLayout_kept {r0 : State} (mb : MailId) (s : State) (h : Kept r0 s) : KeptOut r0 (execFabLayout mb s) := by
  unfold execFabLayout
  repeat' first
    | intro _
    | with_reducible assumption
    | dsimp only
    | with_reducible apply KeptOut.ite
    | with_reducible apply KeptOut.next
    | with_reducible apply KeptOut.fault
    | with_reducible apply Kept.ite
    | with_reducible apply Kept.dite
    | with_reducible apply flushLayout_kept
    | with_reducible apply onSlip_kept
    | with_reducible apply reply_kept
    | with_reducible apply Kept.refl
    | simp only [↓Kept.upd_eq]
    | with_reducible apply Kept.fold
    | with_reducible apply Kept.foldFst
    | split

theorem writePlans_kept {r0 : State} (s : State) (ps : List (Nat × List U64)) (h : Kept r0 s) : Kept r0 (writePlans s ps) := by
  unfold writePlans
  repeat' first
    | intro _
    | with_reducible assumption
    | dsimp only
    | with_reducible apply Kept.ite
    | with_reducible apply Kept.dite
    | with_reducible apply Kept.refl
    | simp only [↓Kept.upd_eq]
    | with_reducible apply Kept.fold
    | with_reducible apply Kept.foldFst
    | split

theorem execPlanWrite_kept {r0 : State} (mb : MailId) (s : State) (h : Kept r0 s) : KeptOut r0 (execPlanWrite mb s) := by
  unfold execPlanWrite
  repeat' first
    | intro _
    | with_reducible assumption
    | dsimp only
    | with_reducible apply KeptOut.ite
    | with_reducible apply KeptOut.next
    | with_reducible apply KeptOut.fault
    | with_reducible apply Kept.ite
    | with_reducible apply Kept.dite
    | with_reducible apply writePlans_kept
    | with_reducible apply onSlip_kept
    | with_reducible apply reply_kept
    | with_reducible apply Kept.refl
    | simp only [↓Kept.upd_eq]
    | with_reducible apply Kept.fold
    | with_reducible apply Kept.foldFst
    | split

theorem execPlanRead_kept {r0 : State} (mb : MailId) (s : State) (h : Kept r0 s) : KeptOut r0 (execPlanRead mb s) := by
  unfold execPlanRead
  repeat' first
    | intro _
    | with_reducible assumption
    | dsimp only
    | with_reducible apply KeptOut.ite
    | with_reducible apply KeptOut.next
    | with_reducible apply KeptOut.fault
    | with_reducible apply Kept.ite
    | with_reducible apply Kept.dite
    | with_reducible apply onSlip_kept
    | with_reducible apply reply_kept
    | with_reducible apply Kept.refl
    | simp only [↓Kept.upd_eq]
    | with_reducible apply Kept.fold
    | with_reducible apply Kept.foldFst
    | split

theorem execCatRead_kept {r0 : State} (mb : MailId) (s : State) (h : Kept r0 s) : KeptOut r0 (execCatRead mb s) := by
  unfold execCatRead
  repeat' first
    | intro _
    | with_reducible assumption
    | dsimp only
    | with_reducible apply KeptOut.ite
    | with_reducible apply KeptOut.next
    | with_reducible apply KeptOut.fault
    | with_reducible apply Kept.ite
    | with_reducible apply Kept.dite
    | with_reducible apply onSlip_kept
    | with_reducible apply reply_kept
    | with_reducible apply Kept.refl
    | simp only [↓Kept.upd_eq]
    | with_reducible apply Kept.fold
    | with_reducible apply Kept.foldFst
    | split

theorem execWithdraw_kept {r0 : State} (mb : MailId) (s : State) (h : Kept r0 s) : KeptOut r0 (execWithdraw mb s) := by
  unfold execWithdraw
  repeat' first
    | intro _
    | with_reducible assumption
    | dsimp only
    | with_reducible apply KeptOut.ite
    | with_reducible apply KeptOut.next
    | with_reducible apply KeptOut.fault
    | with_reducible apply Kept.ite
    | with_reducible apply Kept.dite
    | with_reducible apply requestWithdrawal_kept
    | with_reducible apply onSlip_kept
    | with_reducible apply reply_kept
    | with_reducible apply Kept.refl
    | simp only [↓Kept.upd_eq]
    | with_reducible apply Kept.fold
    | with_reducible apply Kept.foldFst
    | split

theorem execMbBind_kept {r0 : State} (mb : MailId) (s : State) (h : Kept r0 s) : KeptOut r0 (execMbBind mb s) := by
  unfold execMbBind
  repeat' first
    | intro _
    | with_reducible assumption
    | dsimp only
    | with_reducible apply KeptOut.ite
    | with_reducible apply KeptOut.next
    | with_reducible apply KeptOut.fault
    | with_reducible apply Kept.ite
    | with_reducible apply Kept.dite
    | with_reducible apply bindBox_kept
    | with_reducible apply unbind_kept
    | with_reducible apply onSlip_kept
    | with_reducible apply reply_kept
    | with_reducible apply Kept.refl
    | simp only [↓Kept.upd_eq]
    | with_reducible apply Kept.fold
    | with_reducible apply Kept.foldFst
    | split

theorem execWeedRead_kept {r0 : State} (mb : MailId) (s : State) (h : Kept r0 s) : KeptOut r0 (execWeedRead mb s) := by
  unfold execWeedRead
  repeat' first
    | intro _
    | with_reducible assumption
    | dsimp only
    | with_reducible apply KeptOut.ite
    | with_reducible apply KeptOut.next
    | with_reducible apply KeptOut.fault
    | with_reducible apply Kept.ite
    | with_reducible apply Kept.dite
    | with_reducible apply onSlip_kept
    | with_reducible apply reply_kept
    | with_reducible apply Kept.refl
    | simp only [↓Kept.upd_eq]
    | with_reducible apply Kept.fold
    | with_reducible apply Kept.foldFst
    | split

theorem execWeedClear_kept {r0 : State} (mb : MailId) (s : State) (h : Kept r0 s) : KeptOut r0 (execWeedClear mb s) := by
  unfold execWeedClear
  repeat' first
    | intro _
    | with_reducible assumption
    | dsimp only
    | with_reducible apply KeptOut.ite
    | with_reducible apply KeptOut.next
    | with_reducible apply KeptOut.fault
    | with_reducible apply Kept.ite
    | with_reducible apply Kept.dite
    | with_reducible apply extendState_kept
    | with_reducible apply newChallenge_kept
    | with_reducible apply onSlip_kept
    | with_reducible apply reply_kept
    | with_reducible apply Kept.refl
    | simp only [↓Kept.upd_eq]
    | with_reducible apply Kept.fold
    | with_reducible apply Kept.foldFst
    | split

theorem execFtest_kept {r0 : State} (mb : MailId) (s : State) (h : Kept r0 s) : KeptOut r0 (execFtest mb s) := by
  unfold execFtest
  repeat' first
    | intro _
    | with_reducible assumption
    | dsimp only
    | with_reducible apply KeptOut.ite
    | with_reducible apply KeptOut.next
    | with_reducible apply KeptOut.fault
    | with_reducible apply Kept.ite
    | with_reducible apply Kept.dite
    | with_reducible apply onSlip_kept
    | with_reducible apply reply_kept
    | with_reducible apply Kept.refl
    | simp only [↓Kept.upd_eq]
    | with_reducible apply Kept.fold
    | with_reducible apply Kept.foldFst
    | split

theorem execStandbySet_kept {r0 : State} (mb : MailId) (s : State) (h : Kept r0 s) : KeptOut r0 (execStandbySet mb s) := by
  unfold execStandbySet
  repeat' first
    | intro _
    | with_reducible assumption
    | dsimp only
    | with_reducible apply KeptOut.ite
    | with_reducible apply KeptOut.next
    | with_reducible apply KeptOut.fault
    | with_reducible apply Kept.ite
    | with_reducible apply Kept.dite
    | with_reducible apply onSlip_kept
    | with_reducible apply reply_kept
    | with_reducible apply Kept.refl
    | simp only [↓Kept.upd_eq]
    | with_reducible apply Kept.fold
    | with_reducible apply Kept.foldFst
    | split

theorem execHbmMode_kept {r0 : State} (mb : MailId) (s : State) (h : Kept r0 s) : KeptOut r0 (execHbmMode mb s) := by
  unfold execHbmMode
  repeat' first
    | intro _
    | with_reducible assumption
    | dsimp only
    | with_reducible apply KeptOut.ite
    | with_reducible apply KeptOut.next
    | with_reducible apply KeptOut.fault
    | with_reducible apply Kept.ite
    | with_reducible apply Kept.dite
    | with_reducible apply onSlip_kept
    | with_reducible apply reply_kept
    | with_reducible apply Kept.refl
    | simp only [↓Kept.upd_eq]
    | with_reducible apply Kept.fold
    | with_reducible apply Kept.foldFst
    | split

theorem execTelemRead_kept {r0 : State} (mb : MailId) (s : State) (h : Kept r0 s) : KeptOut r0 (execTelemRead mb s) := by
  unfold execTelemRead
  repeat' first
    | intro _
    | with_reducible assumption
    | dsimp only
    | with_reducible apply KeptOut.ite
    | with_reducible apply KeptOut.next
    | with_reducible apply KeptOut.fault
    | with_reducible apply Kept.ite
    | with_reducible apply Kept.dite
    | with_reducible apply onSlip_kept
    | with_reducible apply reply_kept
    | with_reducible apply Kept.refl
    | simp only [↓Kept.upd_eq]
    | with_reducible apply Kept.fold
    | with_reducible apply Kept.foldFst
    | split

theorem execTelemLatch_kept {r0 : State} (mb : MailId) (s : State) (h : Kept r0 s) : KeptOut r0 (execTelemLatch mb s) := by
  unfold execTelemLatch
  repeat' first
    | intro _
    | with_reducible assumption
    | dsimp only
    | with_reducible apply KeptOut.ite
    | with_reducible apply KeptOut.next
    | with_reducible apply KeptOut.fault
    | with_reducible apply Kept.ite
    | with_reducible apply Kept.dite
    | with_reducible apply onSlip_kept
    | with_reducible apply reply_kept
    | with_reducible apply Kept.refl
    | simp only [↓Kept.upd_eq]
    | with_reducible apply Kept.fold
    | with_reducible apply Kept.foldFst
    | split

theorem execTelemetryLatchTaken_kept {r0 : State} (s : State) (h : Kept r0 s) : KeptOut r0 (execTelemetryLatchTaken s) := by
  unfold execTelemetryLatchTaken
  repeat' first
    | intro _
    | with_reducible assumption
    | dsimp only
    | with_reducible apply KeptOut.ite
    | with_reducible apply KeptOut.next
    | with_reducible apply KeptOut.fault
    | with_reducible apply Kept.ite
    | with_reducible apply Kept.dite
    | with_reducible apply State.toHall_kept
    | with_reducible apply Kept.refl
    | simp only [↓Kept.upd_eq]
    | with_reducible apply Kept.fold
    | with_reducible apply Kept.foldFst
    | split

theorem execLedgerRead_kept {r0 : State} (mb : MailId) (s : State) (h : Kept r0 s) : KeptOut r0 (execLedgerRead mb s) := by
  unfold execLedgerRead
  repeat' first
    | intro _
    | with_reducible assumption
    | dsimp only
    | with_reducible apply KeptOut.ite
    | with_reducible apply KeptOut.next
    | with_reducible apply KeptOut.fault
    | with_reducible apply Kept.ite
    | with_reducible apply Kept.dite
    | with_reducible apply onSlip_kept
    | with_reducible apply reply_kept
    | with_reducible apply l2Touch_kept
    | with_reducible apply Kept.refl
    | simp only [↓Kept.upd_eq]
    | with_reducible apply Kept.fold
    | with_reducible apply Kept.foldFst
    | split

end Sys2Proof.Machine
end

