-- ==== Sys2Proof/Laws/KeptReset.lean ====
section
/-! SUPPORT. Laws/KeptReset.lean: every operation of Machine/Reset.lean keeps what Laws/Kept.lean names. -/

namespace Sys2Proof.Machine

set_option linter.unusedTactic false
set_option linter.unreachableTactic false

theorem resetCores_kept {r0 : State} (s : State) (h : Kept r0 s) : Kept r0 (resetCores s) := by
  unfold resetCores
  repeat' first
    | intro _
    | with_reducible assumption
    | dsimp only
    | with_reducible apply Kept.ite
    | with_reducible apply Kept.dite
    | with_reducible apply Kept.refl
    | simp only [↓Kept.upd_eq]
    | with_reducible apply Kept.fold
    | with_reducible apply Kept.foldFst
    | split

theorem freshModule_kept {r0 : State} (s : State) (p : PlatState) (h : Kept r0 s) : Kept r0 (freshModule s p) := by
  exact h.trans ⟨fun _ => rfl, rfl, Nat.le_refl _⟩

theorem stopConversion_kept {r0 : State} (s : State) (h : Kept r0 s) : Kept r0 (stopConversion s) := by
  unfold stopConversion
  repeat' first
    | intro _
    | with_reducible assumption
    | dsimp only
    | with_reducible apply Kept.ite
    | with_reducible apply Kept.dite
    | with_reducible apply freshModule_kept
    | with_reducible apply Kept.refl
    | simp only [↓Kept.upd_eq]
    | with_reducible apply Kept.fold
    | with_reducible apply Kept.foldFst
    | split

theorem deviceReset_kept {r0 : State} (s : State) (h : Kept r0 s) : Kept r0 (deviceReset s) := by
  unfold deviceReset
  repeat' first
    | intro _
    | with_reducible assumption
    | dsimp only
    | with_reducible apply Kept.ite
    | with_reducible apply Kept.dite
    | with_reducible apply freshModule_kept
    | with_reducible apply resetCores_kept
    | with_reducible apply Kept.refl
    | simp only [↓Kept.upd_eq]
    | with_reducible apply Kept.fold
    | with_reducible apply Kept.foldFst
    | split

theorem execDevReset_kept {r0 : State} (mb : MailId) (s : State) (h : Kept r0 s) : KeptOut r0 (execDevReset mb s) := by
  unfold execDevReset
  repeat' first
    | intro _
    | with_reducible assumption
    | dsimp only
    | with_reducible apply KeptOut.ite
    | with_reducible apply KeptOut.next
    | with_reducible apply KeptOut.fault
    | with_reducible apply Kept.ite
    | with_reducible apply Kept.dite
    | with_reducible apply onSlip_kept
    | with_reducible apply reply_kept
    | with_reducible apply Kept.refl
    | simp only [↓Kept.upd_eq]
    | with_reducible apply Kept.fold
    | with_reducible apply Kept.foldFst
    | split

theorem execDeviceReset_kept {r0 : State} (s : State) (h : Kept r0 s) : KeptOut r0 (execDeviceReset s) := by
  unfold execDeviceReset
  repeat' first
    | intro _
    | with_reducible assumption
    | dsimp only
    | with_reducible apply KeptOut.ite
    | with_reducible apply KeptOut.next
    | with_reducible apply KeptOut.fault
    | with_reducible apply Kept.ite
    | with_reducible apply Kept.dite
    | with_reducible apply deviceReset_kept
    | with_reducible apply State.advanceTo_kept
    | with_reducible apply Kept.refl
    | simp only [↓Kept.upd_eq]
    | with_reducible apply Kept.fold
    | with_reducible apply Kept.foldFst
    | split

end Sys2Proof.Machine
end

