-- ==== Sys2Proof/Laws/KeptHallTarget.lean ====
section
/-! SUPPORT. Laws/KeptHallTarget.lean: every operation of Machine/HallTarget.lean keeps what Laws/Kept.lean names. -/

namespace Sys2Proof.Machine

set_option linter.unusedTactic false
set_option linter.unreachableTactic false

theorem boxByte_kept {r0 : State} (s : State) (mb : Nat) (off : Nat) (b : Byte) (h : Kept r0 s) : Kept r0 (boxByte s mb off b) := by
  unfold boxByte
  repeat' first
    | intro _
    | with_reducible assumption
    | dsimp only
    | with_reducible apply Kept.ite
    | with_reducible apply Kept.dite
    | with_reducible apply State.modBox_kept
    | with_reducible apply Kept.refl
    | simp only [↓Kept.upd_eq]
    | with_reducible apply Kept.fold
    | with_reducible apply Kept.foldFst
    | split

theorem boxWord_kept {r0 : State} (s : State) (word : Nat) (bs : List (Nat × Byte)) (h : Kept r0 s) : Kept r0 (boxWord s word bs) := by
  unfold boxWord
  repeat' first
    | intro _
    | with_reducible assumption
    | dsimp only
    | with_reducible apply Kept.ite
    | with_reducible apply Kept.dite
    | with_reducible apply boxByte_kept
    | with_reducible apply boxWrite_kept
    | with_reducible apply Kept.refl
    | simp only [↓Kept.upd_eq]
    | with_reducible apply Kept.fold
    | with_reducible apply Kept.foldFst
    | split

theorem boxStore_kept {r0 : State} (s : State) (k : Packet) (h : Kept r0 s) : Kept r0 (boxStore s k) := by
  unfold boxStore
  repeat' first
    | intro _
    | with_reducible assumption
    | dsimp only
    | with_reducible apply Kept.ite
    | with_reducible apply Kept.dite
    | with_reducible apply boxWord_kept
    | with_reducible apply bindBox_kept
    | with_reducible apply Kept.refl
    | simp only [↓Kept.upd_eq]
    | with_reducible apply Kept.fold
    | with_reducible apply Kept.foldFst
    | split

theorem setWatches_kept {r0 : State} (s : State) (k : Packet) (ls : List Nat) (h : Kept r0 s) : Kept r0 (setWatches s k ls).1 := by
  unfold setWatches
  repeat' first
    | intro _
    | with_reducible assumption
    | dsimp only
    | with_reducible apply Kept.ite
    | with_reducible apply Kept.dite
    | with_reducible apply Kept.refl
    | simp only [↓Kept.upd_eq]
    | with_reducible apply Kept.fold
    | with_reducible apply Kept.foldFst
    | split

theorem doRdreq_kept {r0 : State} (s : State) (k : Packet) (h : Kept r0 s) : Kept r0 (doRdreq s k) := by
  unfold doRdreq
  repeat' first
    | intro _
    | with_reducible assumption
    | dsimp only
    | with_reducible apply Kept.ite
    | with_reducible apply Kept.dite
    | with_reducible apply setWatches_kept
    | with_reducible apply l2Touch_kept
    | with_reducible apply State.send_kept
    | with_reducible apply Kept.refl
    | simp only [↓Kept.upd_eq]
    | with_reducible apply Kept.fold
    | with_reducible apply Kept.foldFst
    | refine Kept.ofFst (x := setWatches _ _ _) (by assumption) ?_
    | split

theorem doWrreq_kept {r0 : State} (s : State) (k : Packet) (h : Kept r0 s) : Kept r0 (doWrreq s k) := by
  unfold doWrreq
  repeat' first
    | intro _
    | with_reducible assumption
    | dsimp only
    | with_reducible apply Kept.ite
    | with_reducible apply Kept.dite
    | with_reducible apply boxStore_kept
    | with_reducible apply State.addPoison_kept
    | with_reducible apply homeWrites_kept
    | with_reducible apply State.send_kept
    | with_reducible apply Kept.refl
    | simp only [↓Kept.upd_eq]
    | with_reducible apply Kept.fold
    | with_reducible apply Kept.foldFst
    | split

theorem doAtomreq_kept {r0 : State} (s : State) (k : Packet) (h : Kept r0 s) : Kept r0 (doAtomreq s k) := by
  unfold doAtomreq
  repeat' first
    | intro _
    | with_reducible assumption
    | dsimp only
    | with_reducible apply Kept.ite
    | with_reducible apply Kept.dite
    | with_reducible apply atomicHome_kept
    | with_reducible apply State.send_kept
    | with_reducible apply Kept.refl
    | simp only [↓Kept.upd_eq]
    | with_reducible apply Kept.fold
    | with_reducible apply Kept.foldFst
    | refine Kept.ofSnd2 (x := atomicHome _ _ _ _ _ _ _) (by assumption) ?_
    | split

theorem perform_kept {r0 : State} (s : State) (k : Packet) (f : State → Packet → State) (kf : ∀ a0 a1, Kept r0 a0 → Kept r0 (f a0 a1)) (h : Kept r0 s) : Kept r0 (perform s k f) := by
  unfold perform
  repeat' first
    | intro _
    | with_reducible assumption
    | dsimp only
    | with_reducible apply Kept.ite
    | with_reducible apply Kept.dite
    | with_reducible apply kf
    | with_reducible apply refuseTo_kept
    | with_reducible apply Kept.refl
    | simp only [↓Kept.upd_eq]
    | with_reducible apply Kept.fold
    | with_reducible apply Kept.foldFst
    | split

theorem execRdreq_kept {r0 : State} (p : PortId) (k : Packet) (s : State) (h : Kept r0 s) : KeptOut r0 (execRdreq p k s) := by
  unfold execRdreq
  repeat' first
    | intro _
    | with_reducible assumption
    | dsimp only
    | with_reducible apply KeptOut.ite
    | with_reducible apply KeptOut.next
    | with_reducible apply KeptOut.fault
    | with_reducible apply Kept.ite
    | with_reducible apply Kept.dite
    | with_reducible apply perform_kept
    | with_reducible apply doRdreq_kept
    | with_reducible apply onPacket_kept
    | with_reducible apply Kept.refl
    | simp only [↓Kept.upd_eq]
    | with_reducible apply Kept.fold
    | with_reducible apply Kept.foldFst
    | split

theorem execWrreq_kept {r0 : State} (p : PortId) (k : Packet) (s : State) (h : Kept r0 s) : KeptOut r0 (execWrreq p k s) := by
  unfold execWrreq
  repeat' first
    | intro _
    | with_reducible assumption
    | dsimp only
    | with_reducible apply KeptOut.ite
    | with_reducible apply KeptOut.next
    | with_reducible apply KeptOut.fault
    | with_reducible apply Kept.ite
    | with_reducible apply Kept.dite
    | with_reducible apply perform_kept
    | with_reducible apply doWrreq_kept
    | with_reducible apply onPacket_kept
    | with_reducible apply Kept.refl
    | simp only [↓Kept.upd_eq]
    | with_reducible apply Kept.fold
    | with_reducible apply Kept.foldFst
    | split

theorem execAtomreq_kept {r0 : State} (p : PortId) (k : Packet) (s : State) (h : Kept r0 s) : KeptOut r0 (execAtomreq p k s) := by
  unfold execAtomreq
  repeat' first
    | intro _
    | with_reducible assumption
    | dsimp only
    | with_reducible apply KeptOut.ite
    | with_reducible apply KeptOut.next
    | with_reducible apply KeptOut.fault
    | with_reducible apply Kept.ite
    | with_reducible apply Kept.dite
    | with_reducible apply perform_kept
    | with_reducible apply doAtomreq_kept
    | with_reducible apply onPacket_kept
    | with_reducible apply Kept.refl
    | simp only [↓Kept.upd_eq]
    | with_reducible apply Kept.fold
    | with_reducible apply Kept.foldFst
    | split

theorem execRdresp_kept {r0 : State} (p : PortId) (k : Packet) (s : State) (h : Kept r0 s) : KeptOut r0 (execRdresp p k s) := by
  unfold execRdresp
  repeat' first
    | intro _
    | with_reducible assumption
    | dsimp only
    | with_reducible apply KeptOut.ite
    | with_reducible apply KeptOut.next
    | with_reducible apply KeptOut.fault
    | with_reducible apply Kept.ite
    | with_reducible apply Kept.dite
    | with_reducible apply onPacket_kept
    | with_reducible apply answered_kept
    | with_reducible apply keepWatches_kept
    | with_reducible apply abortTask_kept
    | with_reducible apply Kept.refl
    | simp only [↓Kept.upd_eq]
    | with_reducible apply Kept.fold
    | with_reducible apply Kept.foldFst
    | split

theorem execWrack_kept {r0 : State} (p : PortId) (k : Packet) (s : State) (h : Kept r0 s) : KeptOut r0 (execWrack p k s) := by
  unfold execWrack
  repeat' first
    | intro _
    | with_reducible assumption
    | dsimp only
    | with_reducible apply KeptOut.ite
    | with_reducible apply KeptOut.next
    | with_reducible apply KeptOut.fault
    | with_reducible apply Kept.ite
    | with_reducible apply Kept.dite
    | with_reducible apply onPacket_kept
    | with_reducible apply answered_kept
    | with_reducible apply Kept.refl
    | simp only [↓Kept.upd_eq]
    | with_reducible apply Kept.fold
    | with_reducible apply Kept.foldFst
    | split

theorem execAtomresp_kept {r0 : State} (p : PortId) (k : Packet) (s : State) (h : Kept r0 s) : KeptOut r0 (execAtomresp p k s) := by
  unfold execAtomresp
  repeat' first
    | intro _
    | with_reducible assumption
    | dsimp only
    | with_reducible apply KeptOut.ite
    | with_reducible apply KeptOut.next
    | with_reducible apply KeptOut.fault
    | with_reducible apply Kept.ite
    | with_reducible apply Kept.dite
    | with_reducible apply onPacket_kept
    | with_reducible apply answered_kept
    | with_reducible apply Kept.refl
    | simp only [↓Kept.upd_eq]
    | with_reducible apply Kept.fold
    | with_reducible apply Kept.foldFst
    | split

theorem refused_kept {r0 : State} (s : State) (k : Packet) (h : Kept r0 s) : Kept r0 (refused s k) := by
  unfold refused
  repeat' first
    | intro _
    | with_reducible assumption
    | dsimp only
    | with_reducible apply Kept.ite
    | with_reducible apply Kept.dite
    | with_reducible apply fence_kept
    | with_reducible apply refuseReq_kept
    | with_reducible apply Kept.refl
    | simp only [↓Kept.upd_eq]
    | with_reducible apply Kept.fold
    | with_reducible apply Kept.foldFst
    | split

theorem execRefuse_kept {r0 : State} (p : Option PortId) (k : Packet) (s : State) (h : Kept r0 s) : KeptOut r0 (execRefuse p k s) := by
  unfold execRefuse
  repeat' first
    | intro _
    | with_reducible assumption
    | dsimp only
    | with_reducible apply KeptOut.ite
    | with_reducible apply KeptOut.next
    | with_reducible apply KeptOut.fault
    | with_reducible apply Kept.ite
    | with_reducible apply Kept.dite
    | with_reducible apply refused_kept
    | with_reducible apply onPacket_kept
    | with_reducible apply refuseReq_kept
    | with_reducible apply Kept.refl
    | simp only [↓Kept.upd_eq]
    | with_reducible apply Kept.fold
    | with_reducible apply Kept.foldFst
    | split

theorem execWatchrel_kept {r0 : State} (p : PortId) (k : Packet) (s : State) (h : Kept r0 s) : KeptOut r0 (execWatchrel p k s) := by
  unfold execWatchrel
  repeat' first
    | intro _
    | with_reducible assumption
    | dsimp only
    | with_reducible apply KeptOut.ite
    | with_reducible apply KeptOut.next
    | with_reducible apply KeptOut.fault
    | with_reducible apply Kept.ite
    | with_reducible apply Kept.dite
    | with_reducible apply onPacket_kept
    | with_reducible apply Kept.refl
    | simp only [↓Kept.upd_eq]
    | with_reducible apply Kept.fold
    | with_reducible apply Kept.foldFst
    | split

theorem execWatchbreak_kept {r0 : State} (p : PortId) (k : Packet) (s : State) (h : Kept r0 s) : KeptOut r0 (execWatchbreak p k s) := by
  unfold execWatchbreak
  repeat' first
    | intro _
    | with_reducible assumption
    | dsimp only
    | with_reducible apply KeptOut.ite
    | with_reducible apply KeptOut.next
    | with_reducible apply KeptOut.fault
    | with_reducible apply Kept.ite
    | with_reducible apply Kept.dite
    | with_reducible apply onPacket_kept
    | with_reducible apply abortTasks_kept
    | with_reducible apply Kept.refl
    | simp only [↓Kept.upd_eq]
    | with_reducible apply Kept.fold
    | with_reducible apply Kept.foldFst
    | split

end Sys2Proof.Machine
end

