-- ==== Sys2Proof/Laws/KeptPins.lean ====
section
/-! SUPPORT. Laws/KeptPins.lean: every operation of Machine/Pins.lean keeps what Laws/Kept.lean names. -/

namespace Sys2Proof.Machine

set_option linter.unusedTactic false
set_option linter.unreachableTactic false

theorem State.modHall_kept {r0 : State} (s : State) (f : HallClock → HallClock) (h : Kept r0 s) : Kept r0 (State.modHall s f) := by
  unfold State.modHall
  repeat' first
    | intro _
    | with_reducible assumption
    | dsimp only
    | with_reducible apply Kept.ite
    | with_reducible apply Kept.dite
    | with_reducible apply Kept.refl
    | simp only [↓Kept.upd_eq]
    | with_reducible apply Kept.fold
    | with_reducible apply Kept.foldFst
    | split

theorem execHallRefTimeCode_kept {r0 : State} (bs : List Byte) (s : State) (h : Kept r0 s) : KeptOut r0 (execHallRefTimeCode bs s) := by
  unfold execHallRefTimeCode
  repeat' first
    | intro _
    | with_reducible assumption
    | dsimp only
    | with_reducible apply KeptOut.ite
    | with_reducible apply KeptOut.next
    | with_reducible apply KeptOut.fault
    | with_reducible apply Kept.ite
    | with_reducible apply Kept.dite
    | with_reducible apply State.modHall_kept
    | with_reducible apply Kept.refl
    | simp only [↓Kept.upd_eq]
    | with_reducible apply Kept.fold
    | with_reducible apply Kept.foldFst
    | split

theorem execHallRefEdge_kept {r0 : State} (n : BitVec 32) (s : State) (h : Kept r0 s) : KeptOut r0 (execHallRefEdge n s) := by
  unfold execHallRefEdge
  repeat' first
    | intro _
    | with_reducible assumption
    | dsimp only
    | with_reducible apply KeptOut.ite
    | with_reducible apply KeptOut.next
    | with_reducible apply KeptOut.fault
    | with_reducible apply Kept.ite
    | with_reducible apply Kept.dite
    | with_reducible apply State.modHall_kept
    | with_reducible apply State.advance_kept
    | with_reducible apply Kept.refl
    | simp only [↓Kept.upd_eq]
    | with_reducible apply Kept.fold
    | with_reducible apply Kept.foldFst
    | split

theorem execHallRefLoss_kept {r0 : State} (s : State) (h : Kept r0 s) : KeptOut r0 (execHallRefLoss s) := by
  unfold execHallRefLoss
  repeat' first
    | intro _
    | with_reducible assumption
    | dsimp only
    | with_reducible apply KeptOut.ite
    | with_reducible apply KeptOut.next
    | with_reducible apply KeptOut.fault
    | with_reducible apply Kept.ite
    | with_reducible apply Kept.dite
    | with_reducible apply State.modHall_kept
    | with_reducible apply State.advanceTo_kept
    | with_reducible apply Kept.refl
    | simp only [↓Kept.upd_eq]
    | with_reducible apply Kept.fold
    | with_reducible apply Kept.foldFst
    | split

theorem selectIr_kept {r0 : State} (s : State) (code : BitVec 8) (h : Kept r0 s) : Kept r0 (selectIr s code) := by
  unfold selectIr
  repeat' first
    | intro _
    | with_reducible assumption
    | dsimp only
    | with_reducible apply Kept.ite
    | with_reducible apply Kept.dite
    | with_reducible apply State.modPlat_kept
    | with_reducible apply Kept.refl
    | simp only [↓Kept.upd_eq]
    | with_reducible apply Kept.fold
    | with_reducible apply Kept.foldFst
    | split

theorem jtag_kept {r0 : State} (s : State) (f : State → State) (kf : ∀ a0, Kept r0 a0 → Kept r0 (f a0)) (h : Kept r0 s) : KeptOut r0 (jtag s f) := by
  unfold jtag
  repeat' first
    | intro _
    | with_reducible assumption
    | dsimp only
    | with_reducible apply KeptOut.ite
    | with_reducible apply KeptOut.next
    | with_reducible apply KeptOut.fault
    | with_reducible apply Kept.ite
    | with_reducible apply Kept.dite
    | with_reducible apply kf
    | with_reducible apply Kept.refl
    | simp only [↓Kept.upd_eq]
    | with_reducible apply Kept.fold
    | with_reducible apply Kept.foldFst
    | split

theorem execExtest_kept {r0 : State} (cells : BitVec 21) (s : State) (h : Kept r0 s) : KeptOut r0 (execExtest cells s) := by
  unfold execExtest
  repeat' first
    | intro _
    | with_reducible assumption
    | dsimp only
    | with_reducible apply KeptOut.ite
    | with_reducible apply KeptOut.next
    | with_reducible apply KeptOut.fault
    | with_reducible apply Kept.ite
    | with_reducible apply Kept.dite
    | with_reducible apply jtag_kept
    | with_reducible apply selectIr_kept
    | with_reducible apply State.modPlat_kept
    | with_reducible apply Kept.refl
    | simp only [↓Kept.upd_eq]
    | with_reducible apply Kept.fold
    | with_reducible apply Kept.foldFst
    | split

theorem execSamplePreload_kept {r0 : State} (ext : BitVec 21) (s : State) (h : Kept r0 s) : KeptOut r0 (execSamplePreload ext s) := by
  unfold execSamplePreload
  repeat' first
    | intro _
    | with_reducible assumption
    | dsimp only
    | with_reducible apply KeptOut.ite
    | with_reducible apply KeptOut.next
    | with_reducible apply KeptOut.fault
    | with_reducible apply Kept.ite
    | with_reducible apply Kept.dite
    | with_reducible apply jtag_kept
    | with_reducible apply selectIr_kept
    | with_reducible apply State.modPlat_kept
    | with_reducible apply Kept.refl
    | simp only [↓Kept.upd_eq]
    | with_reducible apply Kept.fold
    | with_reducible apply Kept.foldFst
    | split

theorem execIdcode_kept {r0 : State} (s : State) (h : Kept r0 s) : KeptOut r0 (execIdcode s) := by
  unfold execIdcode
  repeat' first
    | intro _
    | with_reducible assumption
    | dsimp only
    | with_reducible apply KeptOut.ite
    | with_reducible apply KeptOut.next
    | with_reducible apply KeptOut.fault
    | with_reducible apply Kept.ite
    | with_reducible apply Kept.dite
    | with_reducible apply jtag_kept
    | with_reducible apply selectIr_kept
    | with_reducible apply Kept.refl
    | simp only [↓Kept.upd_eq]
    | with_reducible apply Kept.fold
    | with_reducible apply Kept.foldFst
    | split

theorem execBypass_kept {r0 : State} (code : BitVec 8) (s : State) (h : Kept r0 s) : KeptOut r0 (execBypass code s) := by
  unfold execBypass
  repeat' first
    | intro _
    | with_reducible assumption
    | dsimp only
    | with_reducible apply KeptOut.ite
    | with_reducible apply KeptOut.next
    | with_reducible apply KeptOut.fault
    | with_reducible apply Kept.ite
    | with_reducible apply Kept.dite
    | with_reducible apply jtag_kept
    | with_reducible apply selectIr_kept
    | with_reducible apply Kept.refl
    | simp only [↓Kept.upd_eq]
    | with_reducible apply Kept.fold
    | with_reducible apply Kept.foldFst
    | split

theorem execMbx_kept {r0 : State} (dr : BitVec 82) (s : State) (h : Kept r0 s) : KeptOut r0 (execMbx dr s) := by
  unfold execMbx
  repeat' first
    | intro _
    | with_reducible assumption
    | dsimp only
    | with_reducible apply KeptOut.ite
    | with_reducible apply KeptOut.next
    | with_reducible apply KeptOut.fault
    | with_reducible apply Kept.ite
    | with_reducible apply Kept.dite
    | with_reducible apply jtag_kept
    | with_reducible apply selectIr_kept
    | with_reducible apply State.modPlat_kept
    | with_reducible apply boxWrite_kept
    | with_reducible apply Kept.refl
    | simp only [↓Kept.upd_eq]
    | with_reducible apply Kept.fold
    | with_reducible apply Kept.foldFst
    | split

theorem execTapReset_kept {r0 : State} (s : State) (h : Kept r0 s) : KeptOut r0 (execTapReset s) := by
  unfold execTapReset
  repeat' first
    | intro _
    | with_reducible assumption
    | dsimp only
    | with_reducible apply KeptOut.ite
    | with_reducible apply KeptOut.next
    | with_reducible apply KeptOut.fault
    | with_reducible apply Kept.ite
    | with_reducible apply Kept.dite
    | with_reducible apply jtag_kept
    | with_reducible apply selectIr_kept
    | with_reducible apply Kept.refl
    | simp only [↓Kept.upd_eq]
    | with_reducible apply Kept.fold
    | with_reducible apply Kept.foldFst
    | split

end Sys2Proof.Machine
end

