-- ==== Sys2Proof/Laws/KeptRepeat.lean ====
section
/-! SUPPORT. Laws/KeptRepeat.lean: every operation of Machine/Repeat.lean keeps what Laws/Kept.lean names. -/

namespace Sys2Proof.Machine

set_option linter.unusedTactic false
set_option linter.unreachableTactic false

theorem microOp_kept (c : CoreId) (f : BitVec 26) (w : U64) : KeptOp ((microOp c f w) : Op Unit) := by
  unfold microOp
  repeat' first
    | intro _
    | with_reducible assumption
    | dsimp only
    | with_reducible apply KeptOp.ite
    | with_reducible apply Kept.ite
    | with_reducible apply Kept.dite
    | with_reducible apply KeptOp.pure
    | with_reducible apply KeptOp.throw
    | with_reducible apply KeptOp.get
    | with_reducible apply scalarWord_kept
    | with_reducible apply KeptOp.bind
    | with_reducible apply KeptOp.map
    | with_reducible apply KeptOp.modify
    | with_reducible apply KeptOp.modifyGet
    | with_reducible apply Kept.resOk
    | with_reducible apply Kept.resError
    | with_reducible apply Kept.refl
    | simp only [↓Kept.upd_eq]
    | with_reducible apply Kept.fold
    | with_reducible apply Kept.foldFst
    | refine KeptOp.ok (m := _) ?_ (by assumption) ?_
    | refine KeptOp.error (m := _) ?_ (by assumption) ?_
    | split
    | refine KeptOp.bind ?_ (fun _ => ?_)
    | refine KeptOp.mk (fun s => ?_)

theorem glossOps_kept {r0 : State} (c : CoreId) (f : BitVec 26) (s0 : State) (last : Nat) (x0 : Nat) (x1 : State) (h : Kept r0 s0) (h_x1 : Kept r0 x1) : Kept r0 (resState (glossOps c f s0 last x0 x1)) := by
  induction x0 generalizing c f s0 last x1 with
  | zero =>
    unfold glossOps
    repeat' first
      | intro _
      | with_reducible assumption
      | dsimp only
      | with_reducible apply Kept.ite
      | with_reducible apply Kept.dite
      | with_reducible apply KeptOp.pure
      | with_reducible apply KeptOp.throw
      | with_reducible apply KeptOp.get
      | with_reducible apply microOp_kept
      | with_reducible apply State.modCore_kept
      | with_reducible apply KeptOp.bind
      | with_reducible apply KeptOp.map
      | with_reducible apply KeptOp.modify
      | with_reducible apply KeptOp.modifyGet
      | with_reducible apply Kept.resOk
      | with_reducible apply Kept.resError
      | with_reducible apply Kept.refl
      | simp only [↓Kept.upd_eq]
      | with_reducible apply Kept.fold
      | with_reducible apply Kept.foldFst
      | refine KeptOp.ok (m := _) ?_ (by assumption) ?_
      | refine KeptOp.error (m := _) ?_ (by assumption) ?_
      | split
      | refine KeptOp.mk (fun s => ?_)
  | succ n ih =>
    unfold glossOps
    repeat' first
      | with_reducible apply ih
      | intro _
      | with_reducible assumption
      | dsimp only
      | with_reducible apply Kept.ite
      | with_reducible apply Kept.dite
      | with_reducible apply KeptOp.pure
      | with_reducible apply KeptOp.throw
      | with_reducible apply KeptOp.get
      | with_reducible apply microOp_kept
      | with_reducible apply State.modCore_kept
      | with_reducible apply KeptOp.bind
      | with_reducible apply KeptOp.map
      | with_reducible apply KeptOp.modify
      | with_reducible apply KeptOp.modifyGet
      | with_reducible apply Kept.resOk
      | with_reducible apply Kept.resError
      | with_reducible apply Kept.refl
      | simp only [↓Kept.upd_eq]
      | with_reducible apply Kept.fold
      | with_reducible apply Kept.foldFst
      | refine KeptOp.ok (m := _) ?_ (by assumption) ?_
      | refine KeptOp.error (m := _) ?_ (by assumption) ?_
      | split
      | refine KeptOp.mk (fun s => ?_)

theorem glossBody_kept (c : CoreId) (f : BitVec 26) : KeptOp ((glossBody c f) : Op Unit) := by
  unfold glossBody
  repeat' first
    | intro _
    | with_reducible assumption
    | dsimp only
    | with_reducible apply KeptOp.ite
    | with_reducible apply Kept.ite
    | with_reducible apply Kept.dite
    | with_reducible apply KeptOp.pure
    | with_reducible apply KeptOp.throw
    | with_reducible apply KeptOp.get
    | with_reducible apply glossOps_kept
    | with_reducible apply State.modCore_kept
    | with_reducible apply KeptOp.bind
    | with_reducible apply KeptOp.map
    | with_reducible apply KeptOp.modify
    | with_reducible apply KeptOp.modifyGet
    | with_reducible apply Kept.resOk
    | with_reducible apply Kept.resError
    | with_reducible apply Kept.refl
    | simp only [↓Kept.upd_eq]
    | with_reducible apply Kept.fold
    | with_reducible apply Kept.foldFst
    | refine Kept.ofOk (x := glossOps _ _ _ _ _ _) (by assumption) ?_
    | refine Kept.ofError (x := glossOps _ _ _ _ _ _) (by assumption) ?_
    | refine KeptOp.ok (m := _) ?_ (by assumption) ?_
    | refine KeptOp.error (m := _) ?_ (by assumption) ?_
    | split
    | refine KeptOp.bind ?_ (fun _ => ?_)
    | refine KeptOp.mk (fun s => ?_)

theorem execGloss_kept {r0 : State} (c : CoreId) (f : BitVec 26) (s : State) (h : Kept r0 s) : KeptOut r0 (execGloss c f s) := by
  unfold execGloss
  repeat' first
    | intro _
    | with_reducible assumption
    | dsimp only
    | with_reducible apply KeptOut.ite
    | with_reducible apply KeptOut.next
    | with_reducible apply KeptOut.fault
    | with_reducible apply Kept.ite
    | with_reducible apply Kept.dite
    | with_reducible apply KeptOp.pure
    | with_reducible apply KeptOp.throw
    | with_reducible apply KeptOp.get
    | with_reducible apply glossBody_kept
    | with_reducible apply nextPC_kept
    | with_reducible apply issue_kept
    | with_reducible apply KeptOp.bind
    | with_reducible apply KeptOp.map
    | with_reducible apply KeptOp.modify
    | with_reducible apply KeptOp.modifyGet
    | with_reducible apply Kept.resOk
    | with_reducible apply Kept.resError
    | with_reducible apply Kept.refl
    | simp only [↓Kept.upd_eq]
    | with_reducible apply Kept.fold
    | with_reducible apply Kept.foldFst
    | refine KeptOp.ok (m := _) ?_ (by assumption) ?_
    | refine KeptOp.error (m := _) ?_ (by assumption) ?_
    | split
    | refine KeptOp.mk (fun s => ?_)

theorem repLoop_kept {r0 : State} (c : CoreId) (rpti : Bool) (plain : Bool) (body : Op Unit) (x0 : Nat) (x1 : State) (kbody : KeptOp body) (h : Kept r0 x1) : Kept r0 (resState (repLoop c rpti plain body x0 x1)) := by
  induction x0 generalizing c rpti plain body x1 with
  | zero =>
    unfold repLoop
    repeat' first
      | intro _
      | with_reducible assumption
      | dsimp only
      | with_reducible apply Kept.ite
      | with_reducible apply Kept.dite
      | with_reducible apply KeptOp.pure
      | with_reducible apply KeptOp.throw
      | with_reducible apply KeptOp.get
      | with_reducible apply kbody
      | with_reducible apply haltCore_kept
      | with_reducible apply State.modCore_kept
      | with_reducible apply KeptOp.bind
      | with_reducible apply KeptOp.map
      | with_reducible apply KeptOp.modify
      | with_reducible apply KeptOp.modifyGet
      | with_reducible apply Kept.resOk
      | with_reducible apply Kept.resError
      | with_reducible apply Kept.refl
      | simp only [↓Kept.upd_eq]
      | with_reducible apply Kept.fold
      | with_reducible apply Kept.foldFst
      | refine KeptOp.ok (m := _) ?_ (by assumption) ?_
      | refine KeptOp.error (m := _) ?_ (by assumption) ?_
      | split
      | refine KeptOp.mk (fun s => ?_)
  | succ n ih =>
    unfold repLoop
    repeat' first
      | with_reducible apply ih
      | intro _
      | with_reducible assumption
      | dsimp only
      | with_reducible apply Kept.ite
      | with_reducible apply Kept.dite
      | with_reducible apply KeptOp.pure
      | with_reducible apply KeptOp.throw
      | with_reducible apply KeptOp.get
      | with_reducible apply kbody
      | with_reducible apply haltCore_kept
      | with_reducible apply State.modCore_kept
      | with_reducible apply KeptOp.bind
      | with_reducible apply KeptOp.map
      | with_reducible apply KeptOp.modify
      | with_reducible apply KeptOp.modifyGet
      | with_reducible apply Kept.resOk
      | with_reducible apply Kept.resError
      | with_reducible apply Kept.refl
      | simp only [↓Kept.upd_eq]
      | with_reducible apply Kept.fold
      | with_reducible apply Kept.foldFst
      | refine KeptOp.ok (m := _) ?_ (by assumption) ?_
      | refine KeptOp.error (m := _) ?_ (by assumption) ?_
      | split
      | refine KeptOp.mk (fun s => ?_)

theorem repBody_kept (c : CoreId) (x : Option (BitVec 26)) (w : BitVec 32) : KeptOp ((repBody c x w) : Op Unit) := by
  unfold repBody
  repeat' first
    | intro _
    | with_reducible assumption
    | dsimp only
    | with_reducible apply KeptOp.ite
    | with_reducible apply Kept.ite
    | with_reducible apply Kept.dite
    | with_reducible apply KeptOp.pure
    | with_reducible apply KeptOp.throw
    | with_reducible apply KeptOp.get
    | with_reducible apply glossBody_kept
    | with_reducible apply scalarWord_kept
    | with_reducible apply KeptOp.bind
    | with_reducible apply KeptOp.map
    | with_reducible apply KeptOp.modify
    | with_reducible apply KeptOp.modifyGet
    | with_reducible apply Kept.resOk
    | with_reducible apply Kept.resError
    | with_reducible apply Kept.refl
    | simp only [↓Kept.upd_eq]
    | with_reducible apply Kept.fold
    | with_reducible apply Kept.foldFst
    | refine KeptOp.ok (m := _) ?_ (by assumption) ?_
    | refine KeptOp.error (m := _) ?_ (by assumption) ?_
    | split
    | refine KeptOp.bind ?_ (fun _ => ?_)
    | refine KeptOp.mk (fun s => ?_)

theorem repeatOp_kept (c : CoreId) (rpti : Bool) (p : BitVec 25) (x : Option (BitVec 26)) (w : BitVec 32) : KeptOp ((repeatOp c rpti p x w) : Op U64) := by
  unfold repeatOp
  repeat' first
    | intro _
    | with_reducible assumption
    | dsimp only
    | with_reducible apply KeptOp.ite
    | with_reducible apply Kept.ite
    | with_reducible apply Kept.dite
    | with_reducible apply KeptOp.pure
    | with_reducible apply KeptOp.throw
    | with_reducible apply KeptOp.get
    | with_reducible apply repBody_kept
    | with_reducible apply repLoop_kept
    | with_reducible apply nextPC_kept
    | with_reducible apply modC_kept
    | with_reducible apply coreOf_kept
    | with_reducible apply illegalIf_kept
    | with_reducible apply KeptOp.bind
    | with_reducible apply KeptOp.map
    | with_reducible apply KeptOp.modify
    | with_reducible apply KeptOp.modifyGet
    | with_reducible apply Kept.resOk
    | with_reducible apply Kept.resError
    | with_reducible apply Kept.refl
    | simp only [↓Kept.upd_eq]
    | with_reducible apply Kept.fold
    | with_reducible apply Kept.foldFst
    | refine Kept.ofOk (x := repLoop _ _ _ _ _ _) (by assumption) ?_
    | refine Kept.ofError (x := repLoop _ _ _ _ _ _) (by assumption) ?_
    | refine KeptOp.ok (m := _) ?_ (by assumption) ?_
    | refine KeptOp.error (m := _) ?_ (by assumption) ?_
    | split
    | refine KeptOp.bind ?_ (fun _ => ?_)
    | refine KeptOp.mk (fun s => ?_)

theorem execRpt_kept {r0 : State} (c : CoreId) (p : BitVec 25) (x : Option (BitVec 26)) (w : BitVec 32) (s : State) (h : Kept r0 s) : KeptOut r0 (execRpt c p x w s) := by
  unfold execRpt
  repeat' first
    | intro _
    | with_reducible assumption
    | dsimp only
    | with_reducible apply KeptOut.ite
    | with_reducible apply KeptOut.next
    | with_reducible apply KeptOut.fault
    | with_reducible apply Kept.ite
    | with_reducible apply Kept.dite
    | with_reducible apply KeptOp.pure
    | with_reducible apply KeptOp.throw
    | with_reducible apply KeptOp.get
    | with_reducible apply repeatOp_kept
    | with_reducible apply issue_kept
    | with_reducible apply KeptOp.bind
    | with_reducible apply KeptOp.map
    | with_reducible apply KeptOp.modify
    | with_reducible apply KeptOp.modifyGet
    | with_reducible apply Kept.resOk
    | with_reducible apply Kept.resError
    | with_reducible apply Kept.refl
    | simp only [↓Kept.upd_eq]
    | with_reducible apply Kept.fold
    | with_reducible apply Kept.foldFst
    | refine KeptOp.ok (m := _) ?_ (by assumption) ?_
    | refine KeptOp.error (m := _) ?_ (by assumption) ?_
    | split
    | refine KeptOp.mk (fun s => ?_)

theorem execRpti_kept {r0 : State} (c : CoreId) (p : BitVec 25) (x : Option (BitVec 26)) (w : BitVec 32) (s : State) (h : Kept r0 s) : KeptOut r0 (execRpti c p x w s) := by
  unfold execRpti
  repeat' first
    | intro _
    | with_reducible assumption
    | dsimp only
    | with_reducible apply KeptOut.ite
    | with_reducible apply KeptOut.next
    | with_reducible apply KeptOut.fault
    | with_reducible apply Kept.ite
    | with_reducible apply Kept.dite
    | with_reducible apply KeptOp.pure
    | with_reducible apply KeptOp.throw
    | with_reducible apply KeptOp.get
    | with_reducible apply repeatOp_kept
    | with_reducible apply issue_kept
    | with_reducible apply KeptOp.bind
    | with_reducible apply KeptOp.map
    | with_reducible apply KeptOp.modify
    | with_reducible apply KeptOp.modifyGet
    | with_reducible apply Kept.resOk
    | with_reducible apply Kept.resError
    | with_reducible apply Kept.refl
    | simp only [↓Kept.upd_eq]
    | with_reducible apply Kept.fold
    | with_reducible apply Kept.foldFst
    | refine KeptOp.ok (m := _) ?_ (by assumption) ?_
    | refine KeptOp.error (m := _) ?_ (by assumption) ?_
    | split
    | refine KeptOp.mk (fun s => ?_)

end Sys2Proof.Machine
end

