-- ==== Sys2Proof/Laws/KeptVectorMem.lean ====
section
/-! SUPPORT. Laws/KeptVectorMem.lean: every operation of Machine/VectorMem.lean keeps what Laws/Kept.lean names. -/

namespace Sys2Proof.Machine

set_option linter.unusedTactic false
set_option linter.unreachableTactic false

theorem vElemAddr_kept (c : CoreId) (acc : Acc) (va : U64) (n : Nat) : KeptOp ((vElemAddr c acc va n) : Op Nat) := by
  unfold vElemAddr
  repeat' first
    | intro _
    | with_reducible assumption
    | dsimp only
    | with_reducible apply KeptOp.ite
    | with_reducible apply Kept.ite
    | with_reducible apply Kept.dite
    | with_reducible apply KeptOp.pure
    | with_reducible apply KeptOp.throw
    | with_reducible apply KeptOp.get
    | with_reducible apply xlateAt_kept
    | with_reducible apply ringOf_kept
    | with_reducible apply trapIf_kept
    | with_reducible apply KeptOp.bind
    | with_reducible apply KeptOp.map
    | with_reducible apply KeptOp.modify
    | with_reducible apply KeptOp.modifyGet
    | with_reducible apply Kept.resOk
    | with_reducible apply Kept.resError
    | with_reducible apply Kept.refl
    | simp only [↓Kept.upd_eq]
    | with_reducible apply Kept.fold
    | with_reducible apply Kept.foldFst
    | refine KeptOp.ok (m := _) ?_ (by assumption) ?_
    | refine KeptOp.error (m := _) ?_ (by assumption) ?_
    | split
    | refine KeptOp.bind ?_ (fun _ => ?_)
    | refine KeptOp.mk (fun s => ?_)

theorem vLoadElem_kept (c : CoreId) (va : U64) (n : Nat) (g : Nat) (i : Nat) (first : Bool) : KeptOp ((vLoadElem c va n g i first) : Op Unit) := by
  unfold vLoadElem
  repeat' first
    | intro _
    | with_reducible assumption
    | dsimp only
    | with_reducible apply KeptOp.ite
    | with_reducible apply Kept.ite
    | with_reducible apply Kept.dite
    | with_reducible apply KeptOp.pure
    | with_reducible apply KeptOp.throw
    | with_reducible apply KeptOp.get
    | with_reducible apply vElemAddr_kept
    | with_reducible apply modV_kept
    | with_reducible apply detect_kept
    | with_reducible apply memLoad_kept
    | with_reducible apply KeptOp.bind
    | with_reducible apply KeptOp.map
    | with_reducible apply KeptOp.modify
    | with_reducible apply KeptOp.modifyGet
    | with_reducible apply Kept.resOk
    | with_reducible apply Kept.resError
    | with_reducible apply Kept.refl
    | simp only [↓Kept.upd_eq]
    | with_reducible apply Kept.fold
    | with_reducible apply Kept.foldFst
    | refine KeptOp.ok (m := _) ?_ (by assumption) ?_
    | refine KeptOp.error (m := _) ?_ (by assumption) ?_
    | split
    | refine KeptOp.bind ?_ (fun _ => ?_)
    | refine KeptOp.mk (fun s => ?_)

theorem vStoreElem_kept (c : CoreId) (va : U64) (n : Nat) (g : Nat) (i : Nat) : KeptOp ((vStoreElem c va n g i) : Op Unit) := by
  unfold vStoreElem
  repeat' first
    | intro _
    | with_reducible assumption
    | dsimp only
    | with_reducible apply KeptOp.ite
    | with_reducible apply Kept.ite
    | with_reducible apply Kept.dite
    | with_reducible apply KeptOp.pure
    | with_reducible apply KeptOp.throw
    | with_reducible apply KeptOp.get
    | with_reducible apply vElemAddr_kept
    | with_reducible apply memStore_kept
    | with_reducible apply coreOf_kept
    | with_reducible apply KeptOp.bind
    | with_reducible apply KeptOp.map
    | with_reducible apply KeptOp.modify
    | with_reducible apply KeptOp.modifyGet
    | with_reducible apply Kept.resOk
    | with_reducible apply Kept.resError
    | with_reducible apply Kept.refl
    | simp only [↓Kept.upd_eq]
    | with_reducible apply Kept.fold
    | with_reducible apply Kept.foldFst
    | refine KeptOp.ok (m := _) ?_ (by assumption) ?_
    | refine KeptOp.error (m := _) ?_ (by assumption) ?_
    | split
    | refine KeptOp.bind ?_ (fun _ => ?_)
    | refine KeptOp.mk (fun s => ?_)

theorem VMem.fields_kept (m : VMem) (c : CoreId) (i : Nat) (first : Bool) (x0 : Nat) : KeptOp ((VMem.fields m c i first x0) : Op Unit) := by
  induction x0 generalizing m c i first with
  | zero =>
    unfold VMem.fields
    repeat' first
      | intro _
      | with_reducible assumption
      | dsimp only
      | with_reducible apply KeptOp.ite
      | with_reducible apply Kept.ite
      | with_reducible apply Kept.dite
      | with_reducible apply KeptOp.pure
      | with_reducible apply KeptOp.throw
      | with_reducible apply KeptOp.get
      | with_reducible apply vStoreElem_kept
      | with_reducible apply vLoadElem_kept
      | with_reducible apply KeptOp.bind
      | with_reducible apply KeptOp.map
      | with_reducible apply KeptOp.modify
      | with_reducible apply KeptOp.modifyGet
      | with_reducible apply Kept.resOk
      | with_reducible apply Kept.resError
      | with_reducible apply Kept.refl
      | simp only [↓Kept.upd_eq]
      | with_reducible apply Kept.fold
      | with_reducible apply Kept.foldFst
      | refine KeptOp.ok (m := _) ?_ (by assumption) ?_
      | refine KeptOp.error (m := _) ?_ (by assumption) ?_
      | split
      | refine KeptOp.bind ?_ (fun _ => ?_)
      | refine KeptOp.mk (fun s => ?_)
  | succ n ih =>
    unfold VMem.fields
    repeat' first
      | with_reducible apply ih
      | intro _
      | with_reducible assumption
      | dsimp only
      | with_reducible apply KeptOp.ite
      | with_reducible apply Kept.ite
      | with_reducible apply Kept.dite
      | with_reducible apply KeptOp.pure
      | with_reducible apply KeptOp.throw
      | with_reducible apply KeptOp.get
      | with_reducible apply vStoreElem_kept
      | with_reducible apply vLoadElem_kept
      | with_reducible apply KeptOp.bind
      | with_reducible apply KeptOp.map
      | with_reducible apply KeptOp.modify
      | with_reducible apply KeptOp.modifyGet
      | with_reducible apply Kept.resOk
      | with_reducible apply Kept.resError
      | with_reducible apply Kept.refl
      | simp only [↓Kept.upd_eq]
      | with_reducible apply Kept.fold
      | with_reducible apply Kept.foldFst
      | refine KeptOp.ok (m := _) ?_ (by assumption) ?_
      | refine KeptOp.error (m := _) ?_ (by assumption) ?_
      | split
      | refine KeptOp.bind ?_ (fun _ => ?_)
      | refine KeptOp.mk (fun s => ?_)

theorem VMem.run_kept {r0 : State} (m : VMem) (c : CoreId) (x0 : Nat) (x1 : Bool) (x2 : State) (h : Kept r0 x2) : Kept r0 (resState (VMem.run m c x0 x1 x2)) := by
  induction x0 generalizing m c x1 x2 with
  | zero =>
    unfold VMem.run
    repeat' first
      | intro _
      | with_reducible assumption
      | dsimp only
      | with_reducible apply Kept.ite
      | with_reducible apply Kept.dite
      | with_reducible apply KeptOp.pure
      | with_reducible apply KeptOp.throw
      | with_reducible apply KeptOp.get
      | with_reducible apply VMem.fields_kept
      | with_reducible apply State.modCore_kept
      | with_reducible apply KeptOp.bind
      | with_reducible apply KeptOp.map
      | with_reducible apply KeptOp.modify
      | with_reducible apply KeptOp.modifyGet
      | with_reducible apply Kept.resOk
      | with_reducible apply Kept.resError
      | with_reducible apply Kept.refl
      | simp only [↓Kept.upd_eq]
      | with_reducible apply Kept.fold
      | with_reducible apply Kept.foldFst
      | refine KeptOp.ok (m := _) ?_ (by assumption) ?_
      | refine KeptOp.error (m := _) ?_ (by assumption) ?_
      | split
      | refine KeptOp.mk (fun s => ?_)
  | succ n ih =>
    unfold VMem.run
    repeat' first
      | with_reducible apply ih
      | intro _
      | with_reducible assumption
      | dsimp only
      | with_reducible apply Kept.ite
      | with_reducible apply Kept.dite
      | with_reducible apply KeptOp.pure
      | with_reducible apply KeptOp.throw
      | with_reducible apply KeptOp.get
      | with_reducible apply VMem.fields_kept
      | with_reducible apply State.modCore_kept
      | with_reducible apply KeptOp.bind
      | with_reducible apply KeptOp.map
      | with_reducible apply KeptOp.modify
      | with_reducible apply KeptOp.modifyGet
      | with_reducible apply Kept.resOk
      | with_reducible apply Kept.resError
      | with_reducible apply Kept.refl
      | simp only [↓Kept.upd_eq]
      | with_reducible apply Kept.fold
      | with_reducible apply Kept.foldFst
      | refine KeptOp.ok (m := _) ?_ (by assumption) ?_
      | refine KeptOp.error (m := _) ?_ (by assumption) ?_
      | split
      | refine KeptOp.mk (fun s => ?_)

theorem VMem.perform_kept (m : VMem) (c : CoreId) : KeptOp ((VMem.perform m c) : Op U64) := by
  unfold VMem.perform
  repeat' first
    | intro _
    | with_reducible assumption
    | dsimp only
    | with_reducible apply KeptOp.ite
    | with_reducible apply Kept.ite
    | with_reducible apply Kept.dite
    | with_reducible apply KeptOp.pure
    | with_reducible apply KeptOp.throw
    | with_reducible apply KeptOp.get
    | with_reducible apply VMem.run_kept
    | with_reducible apply modV_kept
    | with_reducible apply nextPC_kept
    | with_reducible apply coreOf_kept
    | with_reducible apply KeptOp.bind
    | with_reducible apply KeptOp.map
    | with_reducible apply KeptOp.modify
    | with_reducible apply KeptOp.modifyGet
    | with_reducible apply Kept.resOk
    | with_reducible apply Kept.resError
    | with_reducible apply Kept.refl
    | simp only [↓Kept.upd_eq]
    | with_reducible apply Kept.fold
    | with_reducible apply Kept.foldFst
    | refine Kept.ofOk (x := VMem.run _ _ _ _ _) (by assumption) ?_
    | refine Kept.ofError (x := VMem.run _ _ _ _ _) (by assumption) ?_
    | refine KeptOp.ok (m := _) ?_ (by assumption) ?_
    | refine KeptOp.error (m := _) ?_ (by assumption) ?_
    | split
    | refine KeptOp.bind ?_ (fun _ => ?_)
    | refine KeptOp.mk (fun s => ?_)

theorem vecLoadStoreBody_kept (c : CoreId) (f : BitVec 26) : KeptOp ((vecLoadStoreBody c f) : Op U64) := by
  unfold vecLoadStoreBody
  repeat' first
    | intro _
    | with_reducible assumption
    | dsimp only
    | with_reducible apply KeptOp.ite
    | with_reducible apply Kept.ite
    | with_reducible apply Kept.dite
    | with_reducible apply KeptOp.pure
    | with_reducible apply KeptOp.throw
    | with_reducible apply KeptOp.get
    | with_reducible apply VMem.perform_kept
    | with_reducible apply coreOf_kept
    | with_reducible apply illegalIf_kept
    | with_reducible apply KeptOp.bind
    | with_reducible apply KeptOp.map
    | with_reducible apply KeptOp.modify
    | with_reducible apply KeptOp.modifyGet
    | with_reducible apply Kept.resOk
    | with_reducible apply Kept.resError
    | with_reducible apply Kept.refl
    | simp only [↓Kept.upd_eq]
    | with_reducible apply Kept.fold
    | with_reducible apply Kept.foldFst
    | refine KeptOp.ok (m := _) ?_ (by assumption) ?_
    | refine KeptOp.error (m := _) ?_ (by assumption) ?_
    | split
    | refine KeptOp.bind ?_ (fun _ => ?_)
    | refine KeptOp.mk (fun s => ?_)

theorem execVectorLoadStore_kept {r0 : State} (c : CoreId) (f : BitVec 26) (s : State) (h : Kept r0 s) : KeptOut r0 (execVectorLoadStore c f s) := by
  unfold execVectorLoadStore
  repeat' first
    | intro _
    | with_reducible assumption
    | dsimp only
    | with_reducible apply KeptOut.ite
    | with_reducible apply KeptOut.next
    | with_reducible apply KeptOut.fault
    | with_reducible apply Kept.ite
    | with_reducible apply Kept.dite
    | with_reducible apply KeptOp.pure
    | with_reducible apply KeptOp.throw
    | with_reducible apply KeptOp.get
    | with_reducible apply vecLoadStoreBody_kept
    | with_reducible apply issue_kept
    | with_reducible apply KeptOp.bind
    | with_reducible apply KeptOp.map
    | with_reducible apply KeptOp.modify
    | with_reducible apply KeptOp.modifyGet
    | with_reducible apply Kept.resOk
    | with_reducible apply Kept.resError
    | with_reducible apply Kept.refl
    | simp only [↓Kept.upd_eq]
    | with_reducible apply Kept.fold
    | with_reducible apply Kept.foldFst
    | refine KeptOp.ok (m := _) ?_ (by assumption) ?_
    | refine KeptOp.error (m := _) ?_ (by assumption) ?_
    | split
    | refine KeptOp.mk (fun s => ?_)

theorem vecGatherBody_kept (c : CoreId) (f : BitVec 26) : KeptOp ((vecGatherBody c f) : Op U64) := by
  unfold vecGatherBody
  repeat' first
    | intro _
    | with_reducible assumption
    | dsimp only
    | with_reducible apply KeptOp.ite
    | with_reducible apply Kept.ite
    | with_reducible apply Kept.dite
    | with_reducible apply KeptOp.pure
    | with_reducible apply KeptOp.throw
    | with_reducible apply KeptOp.get
    | with_reducible apply VMem.perform_kept
    | with_reducible apply coreOf_kept
    | with_reducible apply illegalIf_kept
    | with_reducible apply KeptOp.bind
    | with_reducible apply KeptOp.map
    | with_reducible apply KeptOp.modify
    | with_reducible apply KeptOp.modifyGet
    | with_reducible apply Kept.resOk
    | with_reducible apply Kept.resError
    | with_reducible apply Kept.refl
    | simp only [↓Kept.upd_eq]
    | with_reducible apply Kept.fold
    | with_reducible apply Kept.foldFst
    | refine KeptOp.ok (m := _) ?_ (by assumption) ?_
    | refine KeptOp.error (m := _) ?_ (by assumption) ?_
    | split
    | refine KeptOp.bind ?_ (fun _ => ?_)
    | refine KeptOp.mk (fun s => ?_)

theorem execVectorGatherScatter_kept {r0 : State} (c : CoreId) (f : BitVec 26) (s : State) (h : Kept r0 s) : KeptOut r0 (execVectorGatherScatter c f s) := by
  unfold execVectorGatherScatter
  repeat' first
    | intro _
    | with_reducible assumption
    | dsimp only
    | with_reducible apply KeptOut.ite
    | with_reducible apply KeptOut.next
    | with_reducible apply KeptOut.fault
    | with_reducible apply Kept.ite
    | with_reducible apply Kept.dite
    | with_reducible apply KeptOp.pure
    | with_reducible apply KeptOp.throw
    | with_reducible apply KeptOp.get
    | with_reducible apply vecGatherBody_kept
    | with_reducible apply issue_kept
    | with_reducible apply KeptOp.bind
    | with_reducible apply KeptOp.map
    | with_reducible apply KeptOp.modify
    | with_reducible apply KeptOp.modifyGet
    | with_reducible apply Kept.resOk
    | with_reducible apply Kept.resError
    | with_reducible apply Kept.refl
    | simp only [↓Kept.upd_eq]
    | with_reducible apply Kept.fold
    | with_reducible apply Kept.foldFst
    | refine KeptOp.ok (m := _) ?_ (by assumption) ?_
    | refine KeptOp.error (m := _) ?_ (by assumption) ?_
    | split
    | refine KeptOp.mk (fun s => ?_)

theorem vecStructBody_kept (c : CoreId) (f : BitVec 26) : KeptOp ((vecStructBody c f) : Op U64) := by
  unfold vecStructBody
  repeat' first
    | intro _
    | with_reducible assumption
    | dsimp only
    | with_reducible apply KeptOp.ite
    | with_reducible apply Kept.ite
    | with_reducible apply Kept.dite
    | with_reducible apply KeptOp.pure
    | with_reducible apply KeptOp.throw
    | with_reducible apply KeptOp.get
    | with_reducible apply VMem.perform_kept
    | with_reducible apply coreOf_kept
    | with_reducible apply illegalIf_kept
    | with_reducible apply KeptOp.bind
    | with_reducible apply KeptOp.map
    | with_reducible apply KeptOp.modify
    | with_reducible apply KeptOp.modifyGet
    | with_reducible apply Kept.resOk
    | with_reducible apply Kept.resError
    | with_reducible apply Kept.refl
    | simp only [↓Kept.upd_eq]
    | with_reducible apply Kept.fold
    | with_reducible apply Kept.foldFst
    | refine KeptOp.ok (m := _) ?_ (by assumption) ?_
    | refine KeptOp.error (m := _) ?_ (by assumption) ?_
    | split
    | refine KeptOp.bind ?_ (fun _ => ?_)
    | refine KeptOp.mk (fun s => ?_)

theorem execVectorStructureLoadStore_kept {r0 : State} (c : CoreId) (f : BitVec 26) (s : State) (h : Kept r0 s) : KeptOut r0 (execVectorStructureLoadStore c f s) := by
  unfold execVectorStructureLoadStore
  repeat' first
    | intro _
    | with_reducible assumption
    | dsimp only
    | with_reducible apply KeptOut.ite
    | with_reducible apply KeptOut.next
    | with_reducible apply KeptOut.fault
    | with_reducible apply Kept.ite
    | with_reducible apply Kept.dite
    | with_reducible apply KeptOp.pure
    | with_reducible apply KeptOp.throw
    | with_reducible apply KeptOp.get
    | with_reducible apply vecStructBody_kept
    | with_reducible apply issue_kept
    | with_reducible apply KeptOp.bind
    | with_reducible apply KeptOp.map
    | with_reducible apply KeptOp.modify
    | with_reducible apply KeptOp.modifyGet
    | with_reducible apply Kept.resOk
    | with_reducible apply Kept.resError
    | with_reducible apply Kept.refl
    | simp only [↓Kept.upd_eq]
    | with_reducible apply Kept.fold
    | with_reducible apply Kept.foldFst
    | refine KeptOp.ok (m := _) ?_ (by assumption) ?_
    | refine KeptOp.error (m := _) ?_ (by assumption) ?_
    | split
    | refine KeptOp.mk (fun s => ?_)

end Sys2Proof.Machine
end

