-- ==== Sys2Proof/Laws/Op.lean ====
section
/-! SUPPORT. Laws/Op.lean: how a computation over the state runs, and what issuing one instruction comes to. -/

namespace Sys2Proof.Machine

/-! ### Running a computation -/

@[simp] theorem op_bind {α β : Type} (x : Op α) (f : α → Op β) (s : State) :
    (x >>= f) s = match x s with
      | .ok a t => f a t
      | .error e t => .error e t := by
  show EStateM.bind x f s = _
  unfold EStateM.bind
  cases x s <;> rfl
@[simp] theorem op_pure {α : Type} (a : α) (s : State) : (pure a : Op α) s = .ok a s := rfl
@[simp] theorem op_get (s : State) : (get : Op State) s = .ok s s := rfl
@[simp] theorem op_set (t s : State) : (set t : Op PUnit) s = .ok ⟨⟩ t := rfl
@[simp] theorem op_modify (f : State → State) (s : State) : (modify f : Op PUnit) s = .ok ⟨⟩ (f s) := rfl
@[simp] theorem op_throw {α : Type} (e : Stop) (s : State) : (throw e : Op α) s = .error e s := rfl
@[simp] theorem op_ite {α : Type} (b : Prop) [Decidable b] (x y : Op α) (s : State) : (if b then x else y) s = if b then x s else y s := by
  split <;> rfl
@[simp] theorem trap_run {α : Type} (cause : Nat) (info : U64) (subc : Nat) (s : State) :
    (trap cause info subc : Op α) s = .error (.trap cause subc info false) s := rfl
@[simp] theorem illegal_run {α : Type} (s : State) : (illegal : Op α) s = .error (.trap 0x01 0 0 false) s := rfl
@[simp] theorem illegalIf_false (s : State) : illegalIf false s = .ok () s := rfl
@[simp] theorem illegalIf_true (s : State) : illegalIf true s = .error (.trap 0x01 0 0 false) s := rfl
@[simp] theorem trapIf_false (cause : Nat) (info : U64) (subc : Nat) (s : State) : trapIf false cause info subc s = .ok () s := rfl
@[simp] theorem trapIf_true (cause : Nat) (info : U64) (subc : Nat) (s : State) :
    trapIf true cause info subc s = .error (.trap cause subc info false) s := rfl
@[simp] theorem waitIf_false (s : State) : waitIf false s = .ok () s := rfl
@[simp] theorem waitIf_true (s : State) : waitIf true s = .error .wait s := rfl
@[simp] theorem coreOf_run (c : CoreId) (s : State) : coreOf c s = .ok (s.core c) s := rfl
@[simp] theorem rdA_run (c : CoreId) (i : Nat) (s : State) : rdA c i s = .ok ((s.core c).readA i) s := rfl
@[simp] theorem rdD_run (c : CoreId) (i : Nat) (s : State) : rdD c i s = .ok ((s.core c).readD i) s := rfl
@[simp] theorem wrD_run (c : CoreId) (i : Nat) (v : U64) (s : State) : wrD c i v s = .ok () (s.modCore c (fun k => k.writeD i v)) := rfl
@[simp] theorem modC_run (c : CoreId) (f : Core → Core) (s : State) : modC c f s = .ok () (s.modCore c f) := rfl
@[simp] theorem pcOf_run (c : CoreId) (s : State) : pcOf c s = .ok (s.core c).pc s := rfl
@[simp] theorem ringOf_run (c : CoreId) (s : State) : ringOf c s = .ok (s.core c).ring s := rfl
@[simp] theorem nextPC_run (c : CoreId) (n : Nat) (s : State) : nextPC c n s = .ok ((s.core c).pc + n64 n) s := rfl
theorem chkA_run (c : CoreId) (i : Nat) (v : U64) (s : State) : chkA c i v s = trapIf ((s.core c).slimFault i v) 0x20 v 0 s := rfl
@[simp] theorem chkA_ok {c : CoreId} {i : Nat} {v : U64} {s : State} (h : (s.core c).slimFault i v = false) : chkA c i v s = .ok () s := by
  rw [chkA_run, h]; rfl
@[simp] theorem wrA_ok {c : CoreId} {i : Nat} {v : U64} {s : State} (h : (s.core c).slimFault i v = false) :
    wrA c i v s = .ok () (s.modCore c (fun k => k.writeA i v)) := by
  simp [wrA, h]
@[simp] theorem needRing_ok {c : CoreId} {m : Nat} {info : U64} {s : State} (h : (s.core c).ring ≤ m) : needRing c m info s = .ok () s := by
  have : decide (m < (s.core c).ring) = false := by simp; omega
  simp [needRing, this]

/-- A computation whose first part completes goes on with its answer. -/
theorem bind_ok {α β : Type} {x : Op α} {f : α → Op β} {s t : State} {a : α} (h : x s = .ok a t) : (x >>= f) s = f a t := by
  rw [op_bind, h]
/-- A computation whose first part stops stops. -/
theorem bind_error {α β : Type} {x : Op α} {f : α → Op β} {s t : State} {e : Stop} (h : x s = .error e t) : (x >>= f) s = .error e t := by
  rw [op_bind, h]
theorem illegalIf_ok {b : Bool} (h : b = false) (s : State) : illegalIf b s = .ok () s := by subst h; rfl
theorem trapIf_ok {b : Bool} (h : b = false) (cause : Nat) (info : U64) (subc : Nat) (s : State) : trapIf b cause info subc s = .ok () s := by
  subst h; rfl
theorem waitIf_ok {b : Bool} (h : b = false) (s : State) : waitIf b s = .ok () s := by subst h; rfl

/-! ### Issuing -/

/-- An instruction that issues comes to what its body makes of the state after the fetch. -/
theorem issue_eq {s u : State} {c : CoreId} {kind : IKind} (h : s.issued c kind = some u) (w : U64) (body : Op U64) :
    issue c w kind body s = finish u c w kind (body u) := by
  unfold State.issued at h
  unfold issue
  generalize ready s c = s at h ⊢
  dsimp only at h ⊢
  split at h
  case isFalse => cases h
  case isTrue hi =>
    rw [Bool.and_eq_true] at hi
    obtain ⟨hi, hm⟩ := hi
    split at h
    case h_2 => cases h
    case h_1 pa s1 hf =>
      simp only [Core.issues, Bool.and_eq_true, beq_iff_eq] at hi
      obtain ⟨⟨⟨⟨⟨h1, h2⟩, h3⟩, h4⟩, h5⟩, h6⟩ := hi
      rw [Option.isNone_iff_eq_none] at h2 h3
      rw [Option.isNone_iff_eq_none] at h4
      have e0 : ¬ (vget s.cur.fns (coreFn c) .enabled ≠ .enabled ∧ (s.core c).ex.hlog.isEmpty = true) := by
        unfold State.mayIssue at hm
        intro hh
        simp [hh.1, hh.2] at hm
      have e2 : ((s.core c).bpMatch && !(s.core c).ex.bpSkip) = false := by
        revert h5; cases (s.core c).bpMatch <;> cases (s.core c).ex.bpSkip <;> simp
      have e3 : (!(s.core c).tile.queue.isEmpty && (kind != .tile || (s.core c).ex.dbgStep || (s.core c).bpMatch)) = false := by
        revert h6; cases (s.core c).tile.queue.isEmpty <;> cases (s.core c).ex.dbgStep <;> cases (s.core c).bpMatch <;> simp
      simp only [h1, h2, h3, h4, e0, e2, e3, hf]
      simp only [Option.isSome_none, Bool.false_eq_true, or_self, ne_eq, not_true_eq_false, ite_false]
      cases h
      rfl

/-- A body that completes retires. -/
theorem issue_ok {s u t : State} {c : CoreId} {kind : IKind} {body : Op U64} {npc : U64} (h : s.issued c kind = some u)
    (hb : body u = .ok npc t) (w : U64) : issue c w kind body s = retire t c npc (kind == .rte) := by
  rw [issue_eq h, hb]; rfl

/-- A body that raises a cause without effect takes the exception, when no tile instruction is unretired. -/
theorem issue_trap {s u t : State} {c : CoreId} {kind : IKind} {body : Op U64} {cause subc : Nat} {info : U64}
    (h : s.issued c kind = some u) (hb : body u = .error (.trap cause subc info false) t) (hq : (u.core c).tile.queue = [])
    (h1 : cause ≠ 0x01) (h4 : cause ≠ 0x04) (h15 : cause ≠ 0x15) (w : U64) :
    issue c w kind body s = raiseSync u c cause subc info (u.core c).pc := by
  rw [issue_eq h, hb]
  simp [finish, hq, h1, h4, h15]

/-- An illegal word raises cause 0x01 with the word as EINFO. -/
theorem issue_illegal {s u t : State} {c : CoreId} {kind : IKind} {body : Op U64} {info : U64}
    (h : s.issued c kind = some u) (hb : body u = .error (.trap 0x01 0 info false) t) (hq : (u.core c).tile.queue = []) (w : U64) :
    issue c w kind body s = raiseSync u c 0x01 0 w (u.core c).pc := by
  rw [issue_eq h, hb]
  simp [finish, hq]

/-- A body that waits leaves the state after the fetch. -/
theorem issue_wait {s u t : State} {c : CoreId} {kind : IKind} {body : Op U64}
    (h : s.issued c kind = some u) (hb : body u = .error .wait t) (w : U64) : issue c w kind body s = u := by
  rw [issue_eq h, hb]; rfl

/-! ### Effective addresses and immediates -/

theorem immVal_signed (c : CoreId) (x : Option (BitVec 26)) (n v : Nat) : (Ctx.of c x).immVal n v true = signedImm x n v := by
  cases x <;> rfl
theorem immVal_plain (c : CoreId) (x : Option (BitVec 26)) (n v : Nat) : (Ctx.of c x).immVal n v false = plainImm x n v := by
  cases x <;> rfl
theorem checkEA_ok {u : State} {c : CoreId} {ab n : Nat} {ea : EA} (h : (u.core c).eaOk ab ea n = true) : checkEA c ab ea n u = .ok () u := by
  unfold Core.eaOk at h
  rw [Bool.and_eq_true, beq_iff_eq] at h
  unfold checkEA
  rw [bind_ok (trapIf_ok (by simp [h.1]) _ _ _ _)]
  have h2 := h.2
  cases hu : ea.upd with
  | none => rfl
  | some v =>
    rw [hu] at h2
    exact chkA_ok (by simpa using h2)
theorem writeBack_run (c : CoreId) (ab : Nat) (ea : EA) (s : State) : writeBack c ab ea s = .ok () (s.incremented c ab ea) := by
  unfold writeBack State.incremented
  cases ea.upd <;> rfl
theorem noGlobal_run {x : Ctx} (h : x.gloss = false) (a : U64) (s : State) : noGlobal x a s = .ok () s := by
  unfold noGlobal
  exact trapIf_ok (by simp [h]) _ _ _ _

/-! ### Scalar words -/

/-- A word put together of a major and its low bits gives both back. -/
theorem wordOf_parts (m : Nat) (hm : m < 64) (f : BitVec 26) :
    (BitVec.ofNat 32 (wordOf m f).toNat).extractLsb' 0 26 = f ∧ fld (BitVec.ofNat 32 (wordOf m f).toNat) 26 6 = m := by
  have h1 := f.isLt
  have e : m <<< 26 = m * 67108864 := by rw [Nat.shiftLeft_eq]
  have e2 : (wordOf m f).toNat = m * 67108864 + f.toNat := by
    unfold wordOf n64; rw [e]; rw [BitVec.toNat_ofNat]; apply Nat.mod_eq_of_lt; omega
  rw [e2]
  constructor
  · apply BitVec.eq_of_toNat_eq
    rw [BitVec.extractLsb'_toNat, BitVec.toNat_ofNat]
    simp only [Nat.shiftRight_zero]
    omega
  · show ((BitVec.ofNat 32 _).toNat >>> 26) % 2 ^ 6 = m
    rw [BitVec.toNat_ofNat, Nat.shiftRight_eq_div_pow]; omega

theorem scalarWord_intReg (x : Ctx) (f : BitVec 26) : scalarWord x (BitVec.ofNat 32 (wordOf 0x0 f).toNat) = intReg x f := by
  unfold scalarWord
  rw [(wordOf_parts 0x0 (by decide) f).1, (wordOf_parts 0x0 (by decide) f).2]
  rfl

theorem scalarWord_intImm (x : Ctx) (f : BitVec 26) : scalarWord x (BitVec.ofNat 32 (wordOf 0x1 f).toNat) = intImm x f := by
  unfold scalarWord
  rw [(wordOf_parts 0x1 (by decide) f).1, (wordOf_parts 0x1 (by decide) f).2]
  rfl

theorem scalarWord_addrReg (x : Ctx) (f : BitVec 26) : scalarWord x (BitVec.ofNat 32 (wordOf 0x2 f).toNat) = addrReg x f := by
  unfold scalarWord
  rw [(wordOf_parts 0x2 (by decide) f).1, (wordOf_parts 0x2 (by decide) f).2]
  rfl

theorem scalarWord_addrImm (x : Ctx) (f : BitVec 26) : scalarWord x (BitVec.ofNat 32 (wordOf 0x3 f).toNat) = addrImm x f := by
  unfold scalarWord
  rw [(wordOf_parts 0x3 (by decide) f).1, (wordOf_parts 0x3 (by decide) f).2]
  rfl

theorem scalarWord_addrMove (x : Ctx) (f : BitVec 26) : scalarWord x (BitVec.ofNat 32 (wordOf 0x4 f).toNat) = addrMove x f := by
  unfold scalarWord
  rw [(wordOf_parts 0x4 (by decide) f).1, (wordOf_parts 0x4 (by decide) f).2]
  rfl

theorem scalarWord_loadD (x : Ctx) (f : BitVec 26) : scalarWord x (BitVec.ofNat 32 (wordOf 0x5 f).toNat) = loadD x f := by
  unfold scalarWord
  rw [(wordOf_parts 0x5 (by decide) f).1, (wordOf_parts 0x5 (by decide) f).2]
  rfl

theorem scalarWord_storeD (x : Ctx) (f : BitVec 26) : scalarWord x (BitVec.ofNat 32 (wordOf 0x6 f).toNat) = storeD x f := by
  unfold scalarWord
  rw [(wordOf_parts 0x6 (by decide) f).1, (wordOf_parts 0x6 (by decide) f).2]
  rfl

theorem scalarWord_loadStoreA (x : Ctx) (f : BitVec 26) : scalarWord x (BitVec.ofNat 32 (wordOf 0x7 f).toNat) = loadStoreA x f := by
  unfold scalarWord
  rw [(wordOf_parts 0x7 (by decide) f).1, (wordOf_parts 0x7 (by decide) f).2]
  rfl

theorem scalarWord_selectD (x : Ctx) (f : BitVec 26) : scalarWord x (BitVec.ofNat 32 (wordOf 0xf f).toNat) = selectD x f := by
  unfold scalarWord
  rw [(wordOf_parts 0xf (by decide) f).1, (wordOf_parts 0xf (by decide) f).2]
  rfl

theorem scalarWord_fixedMac (x : Ctx) (f : BitVec 26) : scalarWord x (BitVec.ofNat 32 (wordOf 0x10 f).toNat) = fixedMac x f := by
  unfold scalarWord
  rw [(wordOf_parts 0x10 (by decide) f).1, (wordOf_parts 0x10 (by decide) f).2]
  rfl

theorem scalarWord_accArith (x : Ctx) (f : BitVec 26) : scalarWord x (BitVec.ofNat 32 (wordOf 0x11 f).toNat) = accArith x f := by
  unfold scalarWord
  rw [(wordOf_parts 0x11 (by decide) f).1, (wordOf_parts 0x11 (by decide) f).2]
  rfl

theorem scalarWord_accMove (x : Ctx) (f : BitVec 26) : scalarWord x (BitVec.ofNat 32 (wordOf 0x12 f).toNat) = accMove x f := by
  unfold scalarWord
  rw [(wordOf_parts 0x12 (by decide) f).1, (wordOf_parts 0x12 (by decide) f).2]
  rfl

theorem scalarWord_fpOp (x : Ctx) (f : BitVec 26) : scalarWord x (BitVec.ofNat 32 (wordOf 0x14 f).toNat) = fpOp x f := by
  unfold scalarWord
  rw [(wordOf_parts 0x14 (by decide) f).1, (wordOf_parts 0x14 (by decide) f).2]
  rfl

theorem scalarWord_fpLoadStore (x : Ctx) (f : BitVec 26) : scalarWord x (BitVec.ofNat 32 (wordOf 0x15 f).toNat) = fpLoadStore x f := by
  unfold scalarWord
  rw [(wordOf_parts 0x15 (by decide) f).1, (wordOf_parts 0x15 (by decide) f).2]
  rfl

theorem scalarWord_fpMove (x : Ctx) (f : BitVec 26) : scalarWord x (BitVec.ofNat 32 (wordOf 0x16 f).toNat) = fpMove x f := by
  unfold scalarWord
  rw [(wordOf_parts 0x16 (by decide) f).1, (wordOf_parts 0x16 (by decide) f).2]
  rfl

/-- A scalar instruction without a prefix that completes retires. -/
theorem issueScalar_none {s u t : State} {c : CoreId} {m : Nat} {f : BitVec 26} (h : s.issued c .plain = some u)
    (hb : scalarWord (Ctx.of c none) (BitVec.ofNat 32 (wordOf m f).toNat) u = .ok () t) : issueScalar c m none f s = t.done c 4 := by
  unfold issueScalar
  rw [issue_ok h (npc := (t.core c).pc + n64 4) (t := t) (by simp [-BitVec.ofNat_toNat, hb])]
  rfl

/-- A scalar instruction with or without an IMX prefix that completes retires. -/
theorem issueScalar_imx {s u t : State} {c : CoreId} {m : Nat} {x : Option (BitVec 26)} {f : BitVec 26} (h : s.issued c .plain = some u)
    (hm : m = 1 ∨ m = 3 ∨ m = 5 ∨ m = 6 ∨ m = 7)
    (hb : scalarWord (Ctx.of c x) (BitVec.ofNat 32 (wordOf m f).toNat) u = .ok () t) :
    issueScalar c m x f s = t.done c (if x.isSome then 8 else 4) := by
  have e : (x.isSome && !(m == 1 || m == 3 || decide (5 ≤ m ∧ m ≤ 7))) = false := by
    rcases hm with rfl | rfl | rfl | rfl | rfl <;> simp
  unfold issueScalar
  rw [issue_ok h (npc := (t.core c).pc + n64 (if x.isSome then 8 else 4)) (t := t) (by rw [e]; simp [-BitVec.ofNat_toNat, hb])]
  rfl

end Sys2Proof.Machine
end

