-- ==== Sys2Proof/Laws/State.lean ====
section
/-! SUPPORT. Laws/State.lean: what each update of the state leaves alone, and what it writes. -/

namespace Sys2Proof.Machine

/-! ### setCore -/

@[simp] theorem State.setCore_mem (s : State) (c : CoreId) (k : Core) : (s.setCore c k).mem = s.mem := rfl
@[simp] theorem State.setCore_poison (s : State) (c : CoreId) (k : Core) : (s.setCore c k).poison = s.poison := rfl
@[simp] theorem State.setCore_l2 (s : State) (c : CoreId) (k : Core) : (s.setCore c k).l2 = s.l2 := rfl
@[simp] theorem State.setCore_barriers (s : State) (c : CoreId) (k : Core) : (s.setCore c k).barriers = s.barriers := rfl
@[simp] theorem State.setCore_gather (s : State) (c : CoreId) (k : Core) : (s.setCore c k).gather = s.gather := rfl
@[simp] theorem State.setCore_fab (s : State) (c : CoreId) (k : Core) : (s.setCore c k).fab = s.fab := rfl
@[simp] theorem State.setCore_hall (s : State) (c : CoreId) (k : Core) : (s.setCore c k).hall = s.hall := rfl
@[simp] theorem State.setCore_led (s : State) (c : CoreId) (k : Core) : (s.setCore c k).led = s.led := rfl
@[simp] theorem State.setCore_pow (s : State) (c : CoreId) (k : Core) : (s.setCore c k).pow = s.pow := rfl
@[simp] theorem State.setCore_cur (s : State) (c : CoreId) (k : Core) : (s.setCore c k).cur = s.cur := rfl
@[simp] theorem State.setCore_plat (s : State) (c : CoreId) (k : Core) : (s.setCore c k).plat = s.plat := rfl
@[simp] theorem State.setCore_now (s : State) (c : CoreId) (k : Core) : (s.setCore c k).now = s.now := rfl
@[simp] theorem State.setCore_clk (s : State) (c : CoreId) (k : Core) : (s.setCore c k).clk = s.clk := rfl
@[simp] theorem State.setCore_free (s : State) (c : CoreId) (k : Core) : (s.setCore c k).free = s.free := rfl
@[simp] theorem State.setCore_pending (s : State) (c : CoreId) (k : Core) : (s.setCore c k).pending = s.pending := rfl

/-! ### modCore -/

@[simp] theorem State.modCore_mem (s : State) (c : CoreId) (f : Core → Core) : (s.modCore c f).mem = s.mem := rfl
@[simp] theorem State.modCore_poison (s : State) (c : CoreId) (f : Core → Core) : (s.modCore c f).poison = s.poison := rfl
@[simp] theorem State.modCore_l2 (s : State) (c : CoreId) (f : Core → Core) : (s.modCore c f).l2 = s.l2 := rfl
@[simp] theorem State.modCore_barriers (s : State) (c : CoreId) (f : Core → Core) : (s.modCore c f).barriers = s.barriers := rfl
@[simp] theorem State.modCore_gather (s : State) (c : CoreId) (f : Core → Core) : (s.modCore c f).gather = s.gather := rfl
@[simp] theorem State.modCore_fab (s : State) (c : CoreId) (f : Core → Core) : (s.modCore c f).fab = s.fab := rfl
@[simp] theorem State.modCore_hall (s : State) (c : CoreId) (f : Core → Core) : (s.modCore c f).hall = s.hall := rfl
@[simp] theorem State.modCore_led (s : State) (c : CoreId) (f : Core → Core) : (s.modCore c f).led = s.led := rfl
@[simp] theorem State.modCore_pow (s : State) (c : CoreId) (f : Core → Core) : (s.modCore c f).pow = s.pow := rfl
@[simp] theorem State.modCore_cur (s : State) (c : CoreId) (f : Core → Core) : (s.modCore c f).cur = s.cur := rfl
@[simp] theorem State.modCore_plat (s : State) (c : CoreId) (f : Core → Core) : (s.modCore c f).plat = s.plat := rfl
@[simp] theorem State.modCore_now (s : State) (c : CoreId) (f : Core → Core) : (s.modCore c f).now = s.now := rfl
@[simp] theorem State.modCore_clk (s : State) (c : CoreId) (f : Core → Core) : (s.modCore c f).clk = s.clk := rfl
@[simp] theorem State.modCore_free (s : State) (c : CoreId) (f : Core → Core) : (s.modCore c f).free = s.free := rfl
@[simp] theorem State.modCore_pending (s : State) (c : CoreId) (f : Core → Core) : (s.modCore c f).pending = s.pending := rfl

/-! ### modBox -/

@[simp] theorem State.modBox_cores (s : State) (mb : Nat) (f : Mailbox → Mailbox) : (s.modBox mb f).cores = s.cores := rfl
@[simp] theorem State.modBox_mem (s : State) (mb : Nat) (f : Mailbox → Mailbox) : (s.modBox mb f).mem = s.mem := rfl
@[simp] theorem State.modBox_poison (s : State) (mb : Nat) (f : Mailbox → Mailbox) : (s.modBox mb f).poison = s.poison := rfl
@[simp] theorem State.modBox_l2 (s : State) (mb : Nat) (f : Mailbox → Mailbox) : (s.modBox mb f).l2 = s.l2 := rfl
@[simp] theorem State.modBox_barriers (s : State) (mb : Nat) (f : Mailbox → Mailbox) : (s.modBox mb f).barriers = s.barriers := rfl
@[simp] theorem State.modBox_gather (s : State) (mb : Nat) (f : Mailbox → Mailbox) : (s.modBox mb f).gather = s.gather := rfl
@[simp] theorem State.modBox_fab (s : State) (mb : Nat) (f : Mailbox → Mailbox) : (s.modBox mb f).fab = s.fab := rfl
@[simp] theorem State.modBox_hall (s : State) (mb : Nat) (f : Mailbox → Mailbox) : (s.modBox mb f).hall = s.hall := rfl
@[simp] theorem State.modBox_led (s : State) (mb : Nat) (f : Mailbox → Mailbox) : (s.modBox mb f).led = s.led := rfl
@[simp] theorem State.modBox_pow (s : State) (mb : Nat) (f : Mailbox → Mailbox) : (s.modBox mb f).pow = s.pow := rfl
@[simp] theorem State.modBox_plat (s : State) (mb : Nat) (f : Mailbox → Mailbox) : (s.modBox mb f).plat = s.plat := rfl
@[simp] theorem State.modBox_now (s : State) (mb : Nat) (f : Mailbox → Mailbox) : (s.modBox mb f).now = s.now := rfl
@[simp] theorem State.modBox_clk (s : State) (mb : Nat) (f : Mailbox → Mailbox) : (s.modBox mb f).clk = s.clk := rfl
@[simp] theorem State.modBox_free (s : State) (mb : Nat) (f : Mailbox → Mailbox) : (s.modBox mb f).free = s.free := rfl
@[simp] theorem State.modBox_pending (s : State) (mb : Nat) (f : Mailbox → Mailbox) : (s.modBox mb f).pending = s.pending := rfl
@[simp] theorem State.modBox_core (s : State) (mb : Nat) (f : Mailbox → Mailbox) (c : CoreId) : (s.modBox mb f).core c = s.core c := rfl

/-! ### modLed -/

@[simp] theorem State.modLed_cores (s : State) (f : LedState → LedState) : (s.modLed f).cores = s.cores := rfl
@[simp] theorem State.modLed_mem (s : State) (f : LedState → LedState) : (s.modLed f).mem = s.mem := rfl
@[simp] theorem State.modLed_poison (s : State) (f : LedState → LedState) : (s.modLed f).poison = s.poison := rfl
@[simp] theorem State.modLed_l2 (s : State) (f : LedState → LedState) : (s.modLed f).l2 = s.l2 := rfl
@[simp] theorem State.modLed_barriers (s : State) (f : LedState → LedState) : (s.modLed f).barriers = s.barriers := rfl
@[simp] theorem State.modLed_gather (s : State) (f : LedState → LedState) : (s.modLed f).gather = s.gather := rfl
@[simp] theorem State.modLed_fab (s : State) (f : LedState → LedState) : (s.modLed f).fab = s.fab := rfl
@[simp] theorem State.modLed_hall (s : State) (f : LedState → LedState) : (s.modLed f).hall = s.hall := rfl
@[simp] theorem State.modLed_pow (s : State) (f : LedState → LedState) : (s.modLed f).pow = s.pow := rfl
@[simp] theorem State.modLed_cur (s : State) (f : LedState → LedState) : (s.modLed f).cur = s.cur := rfl
@[simp] theorem State.modLed_plat (s : State) (f : LedState → LedState) : (s.modLed f).plat = s.plat := rfl
@[simp] theorem State.modLed_now (s : State) (f : LedState → LedState) : (s.modLed f).now = s.now := rfl
@[simp] theorem State.modLed_clk (s : State) (f : LedState → LedState) : (s.modLed f).clk = s.clk := rfl
@[simp] theorem State.modLed_free (s : State) (f : LedState → LedState) : (s.modLed f).free = s.free := rfl
@[simp] theorem State.modLed_pending (s : State) (f : LedState → LedState) : (s.modLed f).pending = s.pending := rfl
@[simp] theorem State.modLed_led (s : State) (f : LedState → LedState) : (s.modLed f).led = f s.led := rfl
@[simp] theorem State.modLed_core (s : State) (f : LedState → LedState) (c : CoreId) : (s.modLed f).core c = s.core c := rfl

/-! ### modPow -/

@[simp] theorem State.modPow_cores (s : State) (f : PowState → PowState) : (s.modPow f).cores = s.cores := rfl
@[simp] theorem State.modPow_mem (s : State) (f : PowState → PowState) : (s.modPow f).mem = s.mem := rfl
@[simp] theorem State.modPow_poison (s : State) (f : PowState → PowState) : (s.modPow f).poison = s.poison := rfl
@[simp] theorem State.modPow_l2 (s : State) (f : PowState → PowState) : (s.modPow f).l2 = s.l2 := rfl
@[simp] theorem State.modPow_barriers (s : State) (f : PowState → PowState) : (s.modPow f).barriers = s.barriers := rfl
@[simp] theorem State.modPow_gather (s : State) (f : PowState → PowState) : (s.modPow f).gather = s.gather := rfl
@[simp] theorem State.modPow_fab (s : State) (f : PowState → PowState) : (s.modPow f).fab = s.fab := rfl
@[simp] theorem State.modPow_hall (s : State) (f : PowState → PowState) : (s.modPow f).hall = s.hall := rfl
@[simp] theorem State.modPow_led (s : State) (f : PowState → PowState) : (s.modPow f).led = s.led := rfl
@[simp] theorem State.modPow_cur (s : State) (f : PowState → PowState) : (s.modPow f).cur = s.cur := rfl
@[simp] theorem State.modPow_plat (s : State) (f : PowState → PowState) : (s.modPow f).plat = s.plat := rfl
@[simp] theorem State.modPow_now (s : State) (f : PowState → PowState) : (s.modPow f).now = s.now := rfl
@[simp] theorem State.modPow_clk (s : State) (f : PowState → PowState) : (s.modPow f).clk = s.clk := rfl
@[simp] theorem State.modPow_free (s : State) (f : PowState → PowState) : (s.modPow f).free = s.free := rfl
@[simp] theorem State.modPow_pending (s : State) (f : PowState → PowState) : (s.modPow f).pending = s.pending := rfl
@[simp] theorem State.modPow_pow (s : State) (f : PowState → PowState) : (s.modPow f).pow = f s.pow := rfl
@[simp] theorem State.modPow_core (s : State) (f : PowState → PowState) (c : CoreId) : (s.modPow f).core c = s.core c := rfl

/-! ### modPlat -/

@[simp] theorem State.modPlat_cores (s : State) (f : PlatState → PlatState) : (s.modPlat f).cores = s.cores := rfl
@[simp] theorem State.modPlat_mem (s : State) (f : PlatState → PlatState) : (s.modPlat f).mem = s.mem := rfl
@[simp] theorem State.modPlat_poison (s : State) (f : PlatState → PlatState) : (s.modPlat f).poison = s.poison := rfl
@[simp] theorem State.modPlat_l2 (s : State) (f : PlatState → PlatState) : (s.modPlat f).l2 = s.l2 := rfl
@[simp] theorem State.modPlat_barriers (s : State) (f : PlatState → PlatState) : (s.modPlat f).barriers = s.barriers := rfl
@[simp] theorem State.modPlat_gather (s : State) (f : PlatState → PlatState) : (s.modPlat f).gather = s.gather := rfl
@[simp] theorem State.modPlat_fab (s : State) (f : PlatState → PlatState) : (s.modPlat f).fab = s.fab := rfl
@[simp] theorem State.modPlat_hall (s : State) (f : PlatState → PlatState) : (s.modPlat f).hall = s.hall := rfl
@[simp] theorem State.modPlat_led (s : State) (f : PlatState → PlatState) : (s.modPlat f).led = s.led := rfl
@[simp] theorem State.modPlat_pow (s : State) (f : PlatState → PlatState) : (s.modPlat f).pow = s.pow := rfl
@[simp] theorem State.modPlat_cur (s : State) (f : PlatState → PlatState) : (s.modPlat f).cur = s.cur := rfl
@[simp] theorem State.modPlat_now (s : State) (f : PlatState → PlatState) : (s.modPlat f).now = s.now := rfl
@[simp] theorem State.modPlat_clk (s : State) (f : PlatState → PlatState) : (s.modPlat f).clk = s.clk := rfl
@[simp] theorem State.modPlat_free (s : State) (f : PlatState → PlatState) : (s.modPlat f).free = s.free := rfl
@[simp] theorem State.modPlat_pending (s : State) (f : PlatState → PlatState) : (s.modPlat f).pending = s.pending := rfl
@[simp] theorem State.modPlat_plat (s : State) (f : PlatState → PlatState) : (s.modPlat f).plat = f s.plat := rfl
@[simp] theorem State.modPlat_core (s : State) (f : PlatState → PlatState) (c : CoreId) : (s.modPlat f).core c = s.core c := rfl

/-! ### modHall -/

@[simp] theorem State.modHall_cores (s : State) (f : HallClock → HallClock) : (s.modHall f).cores = s.cores := rfl
@[simp] theorem State.modHall_mem (s : State) (f : HallClock → HallClock) : (s.modHall f).mem = s.mem := rfl
@[simp] theorem State.modHall_poison (s : State) (f : HallClock → HallClock) : (s.modHall f).poison = s.poison := rfl
@[simp] theorem State.modHall_l2 (s : State) (f : HallClock → HallClock) : (s.modHall f).l2 = s.l2 := rfl
@[simp] theorem State.modHall_barriers (s : State) (f : HallClock → HallClock) : (s.modHall f).barriers = s.barriers := rfl
@[simp] theorem State.modHall_gather (s : State) (f : HallClock → HallClock) : (s.modHall f).gather = s.gather := rfl
@[simp] theorem State.modHall_fab (s : State) (f : HallClock → HallClock) : (s.modHall f).fab = s.fab := rfl
@[simp] theorem State.modHall_led (s : State) (f : HallClock → HallClock) : (s.modHall f).led = s.led := rfl
@[simp] theorem State.modHall_pow (s : State) (f : HallClock → HallClock) : (s.modHall f).pow = s.pow := rfl
@[simp] theorem State.modHall_cur (s : State) (f : HallClock → HallClock) : (s.modHall f).cur = s.cur := rfl
@[simp] theorem State.modHall_plat (s : State) (f : HallClock → HallClock) : (s.modHall f).plat = s.plat := rfl
@[simp] theorem State.modHall_now (s : State) (f : HallClock → HallClock) : (s.modHall f).now = s.now := rfl
@[simp] theorem State.modHall_clk (s : State) (f : HallClock → HallClock) : (s.modHall f).clk = s.clk := rfl
@[simp] theorem State.modHall_free (s : State) (f : HallClock → HallClock) : (s.modHall f).free = s.free := rfl
@[simp] theorem State.modHall_pending (s : State) (f : HallClock → HallClock) : (s.modHall f).pending = s.pending := rfl
@[simp] theorem State.modHall_hall (s : State) (f : HallClock → HallClock) : (s.modHall f).hall = f s.hall := rfl
@[simp] theorem State.modHall_core (s : State) (f : HallClock → HallClock) (c : CoreId) : (s.modHall f).core c = s.core c := rfl

/-! ### setPort -/

@[simp] theorem State.setPort_cores (s : State) (p : PortId) (f : PortSt → PortSt) : (s.setPort p f).cores = s.cores := rfl
@[simp] theorem State.setPort_mem (s : State) (p : PortId) (f : PortSt → PortSt) : (s.setPort p f).mem = s.mem := rfl
@[simp] theorem State.setPort_poison (s : State) (p : PortId) (f : PortSt → PortSt) : (s.setPort p f).poison = s.poison := rfl
@[simp] theorem State.setPort_l2 (s : State) (p : PortId) (f : PortSt → PortSt) : (s.setPort p f).l2 = s.l2 := rfl
@[simp] theorem State.setPort_barriers (s : State) (p : PortId) (f : PortSt → PortSt) : (s.setPort p f).barriers = s.barriers := rfl
@[simp] theorem State.setPort_gather (s : State) (p : PortId) (f : PortSt → PortSt) : (s.setPort p f).gather = s.gather := rfl
@[simp] theorem State.setPort_hall (s : State) (p : PortId) (f : PortSt → PortSt) : (s.setPort p f).hall = s.hall := rfl
@[simp] theorem State.setPort_led (s : State) (p : PortId) (f : PortSt → PortSt) : (s.setPort p f).led = s.led := rfl
@[simp] theorem State.setPort_pow (s : State) (p : PortId) (f : PortSt → PortSt) : (s.setPort p f).pow = s.pow := rfl
@[simp] theorem State.setPort_cur (s : State) (p : PortId) (f : PortSt → PortSt) : (s.setPort p f).cur = s.cur := rfl
@[simp] theorem State.setPort_plat (s : State) (p : PortId) (f : PortSt → PortSt) : (s.setPort p f).plat = s.plat := rfl
@[simp] theorem State.setPort_now (s : State) (p : PortId) (f : PortSt → PortSt) : (s.setPort p f).now = s.now := rfl
@[simp] theorem State.setPort_clk (s : State) (p : PortId) (f : PortSt → PortSt) : (s.setPort p f).clk = s.clk := rfl
@[simp] theorem State.setPort_free (s : State) (p : PortId) (f : PortSt → PortSt) : (s.setPort p f).free = s.free := rfl
@[simp] theorem State.setPort_pending (s : State) (p : PortId) (f : PortSt → PortSt) : (s.setPort p f).pending = s.pending := rfl
@[simp] theorem State.setPort_core (s : State) (p : PortId) (f : PortSt → PortSt) (c : CoreId) : (s.setPort p f).core c = s.core c := rfl

/-! ### modRun -/

@[simp] theorem State.modRun_cores (s : State) (p : Nat) (f : PlanRun → PlanRun) : (s.modRun p f).cores = s.cores := rfl
@[simp] theorem State.modRun_mem (s : State) (p : Nat) (f : PlanRun → PlanRun) : (s.modRun p f).mem = s.mem := rfl
@[simp] theorem State.modRun_poison (s : State) (p : Nat) (f : PlanRun → PlanRun) : (s.modRun p f).poison = s.poison := rfl
@[simp] theorem State.modRun_l2 (s : State) (p : Nat) (f : PlanRun → PlanRun) : (s.modRun p f).l2 = s.l2 := rfl
@[simp] theorem State.modRun_barriers (s : State) (p : Nat) (f : PlanRun → PlanRun) : (s.modRun p f).barriers = s.barriers := rfl
@[simp] theorem State.modRun_gather (s : State) (p : Nat) (f : PlanRun → PlanRun) : (s.modRun p f).gather = s.gather := rfl
@[simp] theorem State.modRun_hall (s : State) (p : Nat) (f : PlanRun → PlanRun) : (s.modRun p f).hall = s.hall := rfl
@[simp] theorem State.modRun_led (s : State) (p : Nat) (f : PlanRun → PlanRun) : (s.modRun p f).led = s.led := rfl
@[simp] theorem State.modRun_pow (s : State) (p : Nat) (f : PlanRun → PlanRun) : (s.modRun p f).pow = s.pow := rfl
@[simp] theorem State.modRun_cur (s : State) (p : Nat) (f : PlanRun → PlanRun) : (s.modRun p f).cur = s.cur := rfl
@[simp] theorem State.modRun_plat (s : State) (p : Nat) (f : PlanRun → PlanRun) : (s.modRun p f).plat = s.plat := rfl
@[simp] theorem State.modRun_now (s : State) (p : Nat) (f : PlanRun → PlanRun) : (s.modRun p f).now = s.now := rfl
@[simp] theorem State.modRun_clk (s : State) (p : Nat) (f : PlanRun → PlanRun) : (s.modRun p f).clk = s.clk := rfl
@[simp] theorem State.modRun_free (s : State) (p : Nat) (f : PlanRun → PlanRun) : (s.modRun p f).free = s.free := rfl
@[simp] theorem State.modRun_pending (s : State) (p : Nat) (f : PlanRun → PlanRun) : (s.modRun p f).pending = s.pending := rfl
@[simp] theorem State.modRun_core (s : State) (p : Nat) (f : PlanRun → PlanRun) (c : CoreId) : (s.modRun p f).core c = s.core c := rfl

/-! ### setFn -/

@[simp] theorem State.setFn_cores (s : State) (fn : Nat) (x : FnSt) : (s.setFn fn x).cores = s.cores := rfl
@[simp] theorem State.setFn_mem (s : State) (fn : Nat) (x : FnSt) : (s.setFn fn x).mem = s.mem := rfl
@[simp] theorem State.setFn_poison (s : State) (fn : Nat) (x : FnSt) : (s.setFn fn x).poison = s.poison := rfl
@[simp] theorem State.setFn_l2 (s : State) (fn : Nat) (x : FnSt) : (s.setFn fn x).l2 = s.l2 := rfl
@[simp] theorem State.setFn_barriers (s : State) (fn : Nat) (x : FnSt) : (s.setFn fn x).barriers = s.barriers := rfl
@[simp] theorem State.setFn_gather (s : State) (fn : Nat) (x : FnSt) : (s.setFn fn x).gather = s.gather := rfl
@[simp] theorem State.setFn_fab (s : State) (fn : Nat) (x : FnSt) : (s.setFn fn x).fab = s.fab := rfl
@[simp] theorem State.setFn_hall (s : State) (fn : Nat) (x : FnSt) : (s.setFn fn x).hall = s.hall := rfl
@[simp] theorem State.setFn_led (s : State) (fn : Nat) (x : FnSt) : (s.setFn fn x).led = s.led := rfl
@[simp] theorem State.setFn_pow (s : State) (fn : Nat) (x : FnSt) : (s.setFn fn x).pow = s.pow := rfl
@[simp] theorem State.setFn_plat (s : State) (fn : Nat) (x : FnSt) : (s.setFn fn x).plat = s.plat := rfl
@[simp] theorem State.setFn_now (s : State) (fn : Nat) (x : FnSt) : (s.setFn fn x).now = s.now := rfl
@[simp] theorem State.setFn_clk (s : State) (fn : Nat) (x : FnSt) : (s.setFn fn x).clk = s.clk := rfl
@[simp] theorem State.setFn_free (s : State) (fn : Nat) (x : FnSt) : (s.setFn fn x).free = s.free := rfl
@[simp] theorem State.setFn_pending (s : State) (fn : Nat) (x : FnSt) : (s.setFn fn x).pending = s.pending := rfl
@[simp] theorem State.setFn_core (s : State) (fn : Nat) (x : FnSt) (c : CoreId) : (s.setFn fn x).core c = s.core c := rfl

/-! ### setWork -/

@[simp] theorem State.setWork_cores (s : State) (fn : Nat) (w : Option FnWork) : (s.setWork fn w).cores = s.cores := rfl
@[simp] theorem State.setWork_mem (s : State) (fn : Nat) (w : Option FnWork) : (s.setWork fn w).mem = s.mem := rfl
@[simp] theorem State.setWork_poison (s : State) (fn : Nat) (w : Option FnWork) : (s.setWork fn w).poison = s.poison := rfl
@[simp] theorem State.setWork_l2 (s : State) (fn : Nat) (w : Option FnWork) : (s.setWork fn w).l2 = s.l2 := rfl
@[simp] theorem State.setWork_barriers (s : State) (fn : Nat) (w : Option FnWork) : (s.setWork fn w).barriers = s.barriers := rfl
@[simp] theorem State.setWork_gather (s : State) (fn : Nat) (w : Option FnWork) : (s.setWork fn w).gather = s.gather := rfl
@[simp] theorem State.setWork_fab (s : State) (fn : Nat) (w : Option FnWork) : (s.setWork fn w).fab = s.fab := rfl
@[simp] theorem State.setWork_hall (s : State) (fn : Nat) (w : Option FnWork) : (s.setWork fn w).hall = s.hall := rfl
@[simp] theorem State.setWork_led (s : State) (fn : Nat) (w : Option FnWork) : (s.setWork fn w).led = s.led := rfl
@[simp] theorem State.setWork_pow (s : State) (fn : Nat) (w : Option FnWork) : (s.setWork fn w).pow = s.pow := rfl
@[simp] theorem State.setWork_plat (s : State) (fn : Nat) (w : Option FnWork) : (s.setWork fn w).plat = s.plat := rfl
@[simp] theorem State.setWork_now (s : State) (fn : Nat) (w : Option FnWork) : (s.setWork fn w).now = s.now := rfl
@[simp] theorem State.setWork_clk (s : State) (fn : Nat) (w : Option FnWork) : (s.setWork fn w).clk = s.clk := rfl
@[simp] theorem State.setWork_free (s : State) (fn : Nat) (w : Option FnWork) : (s.setWork fn w).free = s.free := rfl
@[simp] theorem State.setWork_pending (s : State) (fn : Nat) (w : Option FnWork) : (s.setWork fn w).pending = s.pending := rfl
@[simp] theorem State.setWork_core (s : State) (fn : Nat) (w : Option FnWork) (c : CoreId) : (s.setWork fn w).core c = s.core c := rfl

/-! ### advance -/

@[simp] theorem State.advance_cores (s : State) (n : Nat) : (s.advance n).cores = s.cores := rfl
@[simp] theorem State.advance_mem (s : State) (n : Nat) : (s.advance n).mem = s.mem := rfl
@[simp] theorem State.advance_poison (s : State) (n : Nat) : (s.advance n).poison = s.poison := rfl
@[simp] theorem State.advance_l2 (s : State) (n : Nat) : (s.advance n).l2 = s.l2 := rfl
@[simp] theorem State.advance_barriers (s : State) (n : Nat) : (s.advance n).barriers = s.barriers := rfl
@[simp] theorem State.advance_gather (s : State) (n : Nat) : (s.advance n).gather = s.gather := rfl
@[simp] theorem State.advance_fab (s : State) (n : Nat) : (s.advance n).fab = s.fab := rfl
@[simp] theorem State.advance_led (s : State) (n : Nat) : (s.advance n).led = s.led := rfl
@[simp] theorem State.advance_pow (s : State) (n : Nat) : (s.advance n).pow = s.pow := rfl
@[simp] theorem State.advance_cur (s : State) (n : Nat) : (s.advance n).cur = s.cur := rfl
@[simp] theorem State.advance_plat (s : State) (n : Nat) : (s.advance n).plat = s.plat := rfl
@[simp] theorem State.advance_free (s : State) (n : Nat) : (s.advance n).free = if s.hall.slew = 0 then s.free else s.free + 1 := rfl
@[simp] theorem State.advance_pending (s : State) (n : Nat) : (s.advance n).pending = s.pending := rfl
@[simp] theorem State.advance_core (s : State) (n : Nat) (c : CoreId) : (s.advance n).core c = s.core c := rfl

@[simp] theorem State.advance_now (s : State) (n : Nat) : (s.advance n).now = s.now + n := rfl
@[simp] theorem State.advance_hall (s : State) (n : Nat) : (s.advance n).hall = s.hall.advance n (Config.freeNat s.free) := rfl

/-! ### modSlice -/

@[simp] theorem State.modSlice_cores (s : State) (l : Nat) (f : L2Slice → L2Slice) : (s.modSlice l f).cores = s.cores := rfl
@[simp] theorem State.modSlice_mem (s : State) (l : Nat) (f : L2Slice → L2Slice) : (s.modSlice l f).mem = s.mem := rfl
@[simp] theorem State.modSlice_poison (s : State) (l : Nat) (f : L2Slice → L2Slice) : (s.modSlice l f).poison = s.poison := rfl
@[simp] theorem State.modSlice_barriers (s : State) (l : Nat) (f : L2Slice → L2Slice) : (s.modSlice l f).barriers = s.barriers := rfl
@[simp] theorem State.modSlice_gather (s : State) (l : Nat) (f : L2Slice → L2Slice) : (s.modSlice l f).gather = s.gather := rfl
@[simp] theorem State.modSlice_fab (s : State) (l : Nat) (f : L2Slice → L2Slice) : (s.modSlice l f).fab = s.fab := rfl
@[simp] theorem State.modSlice_hall (s : State) (l : Nat) (f : L2Slice → L2Slice) : (s.modSlice l f).hall = s.hall := rfl
@[simp] theorem State.modSlice_led (s : State) (l : Nat) (f : L2Slice → L2Slice) : (s.modSlice l f).led = s.led := rfl
@[simp] theorem State.modSlice_pow (s : State) (l : Nat) (f : L2Slice → L2Slice) : (s.modSlice l f).pow = s.pow := rfl
@[simp] theorem State.modSlice_cur (s : State) (l : Nat) (f : L2Slice → L2Slice) : (s.modSlice l f).cur = s.cur := rfl
@[simp] theorem State.modSlice_plat (s : State) (l : Nat) (f : L2Slice → L2Slice) : (s.modSlice l f).plat = s.plat := rfl
@[simp] theorem State.modSlice_now (s : State) (l : Nat) (f : L2Slice → L2Slice) : (s.modSlice l f).now = s.now := rfl
@[simp] theorem State.modSlice_clk (s : State) (l : Nat) (f : L2Slice → L2Slice) : (s.modSlice l f).clk = s.clk := rfl
@[simp] theorem State.modSlice_free (s : State) (l : Nat) (f : L2Slice → L2Slice) : (s.modSlice l f).free = s.free := rfl
@[simp] theorem State.modSlice_pending (s : State) (l : Nat) (f : L2Slice → L2Slice) : (s.modSlice l f).pending = s.pending := rfl
@[simp] theorem State.modSlice_core (s : State) (l : Nat) (f : L2Slice → L2Slice) (c : CoreId) : (s.modSlice l f).core c = s.core c := rfl

/-! ### poke -/

@[simp] theorem State.poke_cores (s : State) (pa : Nat) (bs : List Byte) : (s.poke pa bs).cores = s.cores := rfl
@[simp] theorem State.poke_l2 (s : State) (pa : Nat) (bs : List Byte) : (s.poke pa bs).l2 = s.l2 := rfl
@[simp] theorem State.poke_barriers (s : State) (pa : Nat) (bs : List Byte) : (s.poke pa bs).barriers = s.barriers := rfl
@[simp] theorem State.poke_gather (s : State) (pa : Nat) (bs : List Byte) : (s.poke pa bs).gather = s.gather := rfl
@[simp] theorem State.poke_fab (s : State) (pa : Nat) (bs : List Byte) : (s.poke pa bs).fab = s.fab := rfl
@[simp] theorem State.poke_hall (s : State) (pa : Nat) (bs : List Byte) : (s.poke pa bs).hall = s.hall := rfl
@[simp] theorem State.poke_led (s : State) (pa : Nat) (bs : List Byte) : (s.poke pa bs).led = s.led := rfl
@[simp] theorem State.poke_pow (s : State) (pa : Nat) (bs : List Byte) : (s.poke pa bs).pow = s.pow := rfl
@[simp] theorem State.poke_cur (s : State) (pa : Nat) (bs : List Byte) : (s.poke pa bs).cur = s.cur := rfl
@[simp] theorem State.poke_plat (s : State) (pa : Nat) (bs : List Byte) : (s.poke pa bs).plat = s.plat := rfl
@[simp] theorem State.poke_now (s : State) (pa : Nat) (bs : List Byte) : (s.poke pa bs).now = s.now := rfl
@[simp] theorem State.poke_clk (s : State) (pa : Nat) (bs : List Byte) : (s.poke pa bs).clk = s.clk := rfl
@[simp] theorem State.poke_free (s : State) (pa : Nat) (bs : List Byte) : (s.poke pa bs).free = s.free := rfl
@[simp] theorem State.poke_pending (s : State) (pa : Nat) (bs : List Byte) : (s.poke pa bs).pending = s.pending := rfl
@[simp] theorem State.poke_core (s : State) (pa : Nat) (bs : List Byte) (c : CoreId) : (s.poke pa bs).core c = s.core c := rfl

/-! ### Cores -/

/-- A core just written reads back. -/
@[simp] theorem State.core_setCore (s : State) (c : CoreId) (k : Core) : (s.setCore c k).core c = k := by
  show (s.cores.set c.val k)[c.val] = k
  simp
/-- Writing one core leaves another alone. -/
theorem State.core_setCore_ne (s : State) {c d : CoreId} (k : Core) (h : d ≠ c) : (s.setCore c k).core d = s.core d := by
  show (s.cores.set c.val k)[d.val] = s.cores[d.val]
  rw [Vector.getElem_set_ne]
  intro e
  exact h (Fin.ext e.symm)
@[simp] theorem State.core_modCore (s : State) (c : CoreId) (f : Core → Core) : (s.modCore c f).core c = f (s.core c) := by
  simp [State.modCore]
theorem State.core_modCore_ne (s : State) {c d : CoreId} (f : Core → Core) (h : d ≠ c) : (s.modCore c f).core d = s.core d :=
  State.core_setCore_ne s _ h
/-- Two changes of one core are one. -/
@[simp] theorem State.modCore_modCore (s : State) (c : CoreId) (f g : Core → Core) :
    (s.modCore c f).modCore c g = s.modCore c (fun k => g (f k)) := by
  show State.setCore _ c (g ((s.setCore c (f (s.core c))).core c)) = _
  rw [State.core_setCore]
  show State.mk ((s.cores.set c.val _).set c.val _) _ _ _ _ _ _ _ _ _ _ _ _ _ _ _ = State.mk (s.cores.set c.val _) _ _ _ _ _ _ _ _ _ _ _ _ _ _ _
  rw [Vector.set_set]
  rfl
/-- A core changed to itself leaves the state alone. -/
theorem State.modCore_same (s : State) (c : CoreId) {f : Core → Core} (h : f (s.core c) = s.core c) : s.modCore c f = s := by
  show State.mk (s.cores.set c.val (f (s.core c))) _ _ _ _ _ _ _ _ _ _ _ _ _ _ _ = s
  rw [h]
  show State.mk (s.cores.set c.val (s.cores[c.val])) _ _ _ _ _ _ _ _ _ _ _ _ _ _ _ = s
  rw [Vector.set_getElem_self]

/-! ### Vectors -/

theorem vget_vput {α : Type} {n : Nat} (v : Vector α n) (i : Nat) (x d : α) (h : i < n) : vget (vput v i x) i d = x := by
  simp [vget, vput, h]
theorem vget_vput_ne {α : Type} {n : Nat} (v : Vector α n) {i j : Nat} (x d : α) (h : i ≠ j) : vget (vput v i x) j d = vget v j d := by
  unfold vget vput
  by_cases hi : i < n <;> by_cases hj : j < n <;> simp [hi, hj, h]

/-! ### Registers of a core -/

@[simp] theorem Core.bank_setBank (k : Core) (f : Bank → Bank) : (k.setBank f).bank = f k.bank := by
  show (k.rr.banks.set k.rr.cur.toNat (f k.bank) k.rr.cur.isLt)[k.rr.cur.toNat] = _
  simp
@[simp] theorem Core.setBank_ex (k : Core) (f : Bank → Bank) : (k.setBank f).ex = k.ex := rfl
@[simp] theorem Core.setBank_vec (k : Core) (f : Bank → Bank) : (k.setBank f).vec = k.vec := rfl
@[simp] theorem Core.setBank_num (k : Core) (f : Bank → Bank) : (k.setBank f).num = k.num := rfl
@[simp] theorem Core.setBank_mm (k : Core) (f : Bank → Bank) : (k.setBank f).mm = k.mm := rfl
@[simp] theorem Core.setBank_tile (k : Core) (f : Bank → Bank) : (k.setBank f).tile = k.tile := rfl
@[simp] theorem Core.setBank_str (k : Core) (f : Bank → Bank) : (k.setBank f).str = k.str := rfl
@[simp] theorem Core.writeA_vec (k : Core) (i : Nat) (v : U64) : (k.writeA i v).vec = k.vec := by
  unfold Core.writeA; repeat' split
  all_goals rfl
@[simp] theorem Core.writeD_vec (k : Core) (i : Nat) (v : U64) : (k.writeD i v).vec = k.vec := by
  unfold Core.writeD; repeat' split
  all_goals rfl
@[simp] theorem Core.writeA_num (k : Core) (i : Nat) (v : U64) : (k.writeA i v).num = k.num := by
  unfold Core.writeA; repeat' split
  all_goals rfl
@[simp] theorem Core.writeD_num (k : Core) (i : Nat) (v : U64) : (k.writeD i v).num = k.num := by
  unfold Core.writeD; repeat' split
  all_goals rfl
@[simp] theorem Core.writeA_mm (k : Core) (i : Nat) (v : U64) : (k.writeA i v).mm = k.mm := by
  unfold Core.writeA; repeat' split
  all_goals rfl
@[simp] theorem Core.writeD_mm (k : Core) (i : Nat) (v : U64) : (k.writeD i v).mm = k.mm := by
  unfold Core.writeD; repeat' split
  all_goals rfl
@[simp] theorem Core.writeA_tile (k : Core) (i : Nat) (v : U64) : (k.writeA i v).tile = k.tile := by
  unfold Core.writeA; repeat' split
  all_goals rfl
@[simp] theorem Core.writeD_tile (k : Core) (i : Nat) (v : U64) : (k.writeD i v).tile = k.tile := by
  unfold Core.writeD; repeat' split
  all_goals rfl
@[simp] theorem Core.writeA_str (k : Core) (i : Nat) (v : U64) : (k.writeA i v).str = k.str := by
  unfold Core.writeA; repeat' split
  all_goals rfl
@[simp] theorem Core.writeD_str (k : Core) (i : Nat) (v : U64) : (k.writeD i v).str = k.str := by
  unfold Core.writeD; repeat' split
  all_goals rfl
@[simp] theorem Core.writeF_rr (k : Core) (n v : Nat) : (k.writeF n v).rr = k.rr := rfl
@[simp] theorem Core.writeF_ex (k : Core) (n v : Nat) : (k.writeF n v).ex = k.ex := rfl
@[simp] theorem Core.writeF_num (k : Core) (n v : Nat) : (k.writeF n v).num = k.num := rfl
@[simp] theorem Core.writeF_mm (k : Core) (n v : Nat) : (k.writeF n v).mm = k.mm := rfl
@[simp] theorem Core.writeF_tile (k : Core) (n v : Nat) : (k.writeF n v).tile = k.tile := rfl
@[simp] theorem Core.writeF_str (k : Core) (n v : Nat) : (k.writeF n v).str = k.str := rfl

/-- A D register written reads back. -/
theorem Core.readD_writeD (k : Core) (i : Nat) (v : U64) (h : i < 16) : (k.writeD i v).readD i = v := by
  simp [Core.writeD, Core.readD, h, vget_vput]
/-- Writing a D register leaves the other D registers alone. -/
theorem Core.readD_writeD_ne (k : Core) {i j : Nat} (v : U64) (h : i ≠ j) : (k.writeD i v).readD j = k.readD j := by
  unfold Core.writeD Core.readD
  by_cases hi : i < 16 <;> by_cases hj : j < 16 <;> simp [hi, hj, vget_vput_ne _ _ _ h]
  · rfl
  · exact vget_vput_ne _ _ _ (by omega)

end Sys2Proof.Machine
end

