-- ==== Sys2Proof/WellFormed.lean ====
section
/-! DEFINITION. WellFormed.lean: which operands a command's row of the opcode table allows. A command that breaks a condition stands for nothing
that can happen at the module's edge or in its sequencers; the machine is total on it all the same. -/

namespace Sys2Proof

/-- The payload flits of a body: whole flits of 64 bytes, from lo to hi of them (11 R391). -/
def Body.flitCount (b : Body) (lo hi : Nat) : Bool :=
  match b with
  | .flits bs => bs.length % 64 == 0 && decide (64 * lo ≤ bs.length) && decide (bs.length ≤ 64 * hi)
  | .hello .. | .claim .. | .update .. | .port .. | .words .. => false

/-- A packet of one TYPE with plain payload flits and no reserved bit set (11 R391, R395). -/
def Packet.plain (k : Packet) (ty : BitVec 5) (lo hi : Nat) : Bool := k.ty == ty && !k.rsv && k.body.flitCount lo hi

/-- A LEDGER packet of one KIND (11 R391; 12 R462). -/
def Packet.ledger (k : Packet) (kind : Nat) : Bool := k.plain 0x1D 0 4 && k.plan.toNat == kind

/-- A HELLO packet (11 R401). -/
def Packet.isHello (k : Packet) : Bool :=
  k.ty == 0x18 && (match k.body with
    | .hello .. => true
    | .flits _ | .claim .. | .update .. | .port .. | .words .. => false)

/-- A MGMT packet with a claim (11 R402). -/
def Packet.isClaim (k : Packet) : Bool :=
  k.ty == 0x1C && (match k.body with
    | .claim .. => true
    | .flits _ | .hello .. | .update .. | .port .. | .words .. => false)

/-- A call number is never 0xF_FFFF, which names the module at the other end of a link (11 R398). -/
def CatUpdate.callsOk (u : CatUpdate) : Bool := u.entries.all (fun e => e.call != 0xFFFFF)

/-- A MGMT packet with a catalogue update (11 R400). -/
def Packet.isUpdate (k : Packet) : Bool :=
  k.ty == 0x1C && (match k.body with
    | .update u => u.callsOk
    | .flits _ | .hello .. | .claim .. | .port .. | .words .. => false)

/-- A MGMT packet with words of the Curators (14 R519). -/
def Packet.isWords (k : Packet) : Bool :=
  k.ty == 0x1C && (match k.body with
    | .words .. => true
    | .flits _ | .hello .. | .claim .. | .update .. | .port .. => false)

/-- An ECC error lies in its memory: a carrel's in the carrels, every other in HBM (08 R284, R293, R294). -/
def memErrOk (e : MemErr) : Bool :=
  match e.unit with
  | .carrel => decide (0xC000000000 ≤ 8 * e.word) && decide (8 * e.word < 0xC00C000000)
  | .hbm | .l2 | .l1d => decide (8 * e.word < 0x9000000000)

/-- A command's operands are ones its row allows; the widths of the operands' types say the rest. -/
def Instr.wf : Instr → Bool
  | .tcfg _ _ => true
  | .tld _ _ _ _ => true
  | .tst _ _ _ _ => true
  | .zld _ _ _ => true
  | .zst _ _ _ => true
  | .tlw _ _ => true
  | .tlwDelivery _ => true
  | .tmma4 _ _ _ => true
  | .tmma4Complete _ => true
  | .tstz _ _ _ => true
  | .tzeroT _ _ => true
  | .tzeroZ _ _ => true
  | .tmov _ _ => true
  | .zmov _ _ => true
  | .nchAmaxclr _ _ => true
  | .setvl _ _ => true
  | .plog _ _ => true
  | .vectorIntegerOp _ _ => true
  | .vectorFpOp _ _ => true
  | .vectorTranscendental _ _ _ _ => true
  | .vectorReduction _ _ => true
  | .vectorPermute _ _ => true
  | .vcvt _ _ _ => true
  | .vectorLoadStore _ _ => true
  | .vectorGatherScatter _ _ => true
  | .vectorStructureLoadStore _ _ => true
  | .integerRegisterOp _ _ => true
  | .integerImmediateOp _ _ _ => true
  | .addressOp _ _ _ _ => true
  | .ld c _ _ => c.errs.all memErrOk
  | .st _ _ _ => true
  | .ldaSta _ _ _ => true
  | .branch _ _ => true
  | .branchOnZero _ _ => true
  | .jmp _ _ => true
  | .jmpr _ _ => true
  | .call _ _ => true
  | .callr _ _ => true
  | .ret _ _ => true
  | .scalarAtomic _ _ => true
  | .afadd _ _ _ => true
  | .csel _ _ => true
  | .nop _ => true
  | .mtc _ _ => true
  | .deviceRegisterWrite _ off wide _ => off.toNat % (if wide then 8 else 4) == 0
  | .fixedPointMac _ _ => true
  | .accumulatorArithmetic _ _ => true
  | .accumulatorMove _ _ => true
  | .scalarFpOp _ _ => true
  | .fldFst _ _ => true
  | .fpMoveConvert _ _ => true
  | .rpt _ _ _ _ => true
  | .rpti _ _ _ _ => true
  | .gloss _ _ => true
  | .glWord _ _ => true
  | .glCtlCommit _ _ => true
  | .glLock _ _ => true
  | .breakpointHalt _ => true
  | .callg _ _ => true
  | .retg _ _ => true
  | .rte _ _ => true
  | .mfb _ _ => true
  | .mtb _ _ => true
  | .gms _ _ => true
  | .gmc _ _ => true
  | .wait _ _ => true
  | .elinkWrite _ _ => true
  | .stWrite _ _ => true
  | .xsend _ _ => true
  | .xtimerWrite _ _ => true
  | .timerEvent _ => true
  | .takeAsyncEvent _ => true
  | .watchdog _ => true
  | .fence _ _ => true
  | .dczl _ _ => true
  | .pref _ _ => true
  | .icsync _ _ => true
  | .tlbi _ _ => true
  | .tspecBegin _ _ => true
  | .tspecCommit _ _ => true
  | .tspecAbort _ _ => true
  | .tspecWait _ _ => true
  | .taskAbortRedirect _ => true
  | .sstart _ _ => true
  | .sresume _ _ => true
  | .scancel _ _ => true
  | .swait _ _ => true
  | .swaitb _ _ => true
  | .streamBlockIssue _ _ => true
  | .granuleLands _ _ _ _ => true
  | .streamBlockComplete _ _ => true
  | .streamHalt _ _ => true
  | .semsig _ _ => true
  | .semwait _ _ => true
  | .semPairWrite _ _ _ => true
  | .bara _ _ => true
  | .barw _ _ => true
  | .barcfg _ _ => true
  | .bargen _ _ => true
  | .gsubmit _ _ => true
  | .gcancel _ _ => true
  | .gatherPosition _ => true
  | .gatherJobComplete _ => true
  | .gatherJobRefused _ => true
  | .portTrained _ => true
  | .portTrainingRetry _ => true
  | .portDown _ => true
  | .linkReplay _ => true
  | .linkAck _ => true
  | .live _ k => k.plain 0x19 0 0
  | .liveSend _ => true
  | .htHoldover => true
  | .htSyncLost => true
  | .hello _ k => k.isHello
  | .catalogueClaim _ k => k.isClaim
  | .cataloguerElected u => u.gen == 1 && u.callsOk
  | .catalogueUpdate _ k => k.isUpdate
  | .catalogueUpdateApply => true
  | .moduleSuspect cn => cn != 0xFFFFF
  | .moduleWithdrawn cn u => u.callsOk && u.entries.any (fun e => e.call == cn)
  | .probe _ k => k.plain 0x1A 0 0
  | .proberesp _ k => k.plain 0x1B 0 0
  | .packetForward _ _ => true
  | .rdreq _ k => k.plain 0x01 0 0
  | .wrreq _ k => k.plain 0x03 1 4
  | .atomreq _ k => k.plain 0x05 0 0
  | .rdresp _ k => k.plain 0x02 1 4
  | .wrack _ k => k.plain 0x04 0 0
  | .atomresp _ k => k.plain 0x06 0 0
  | .refuse _ k => k.plain 0x07 0 0
  | .watchrel _ k => k.plain 0x08 0 0
  | .watchbreak _ k => k.plain 0x09 0 0
  | .requestTimeout _ => true
  | .planGo _ _ => true
  | .planTrigger => true
  | .reduce _ k => k.plain 0x10 4 4
  | .mcast _ k => k.plain 0x11 1 4
  | .harrive _ k => k.plain 0x12 0 0
  | .hrelease _ k => k.plain 0x13 0 0
  | .hallBarrierArrive _ => true
  | .lgStart _ _ => true
  | .lgSealGo _ _ => true
  | .voteSend => true
  | .vote _ k => k.ledger 1
  | .outcome _ k => k.ledger 2
  | .sealedOutcomeApply => true
  | .replayOutcomeApply => true
  | .replayQuietFlush => true
  | .lgPostUwr _ => true
  | .lgPostRootdone _ => true
  | .lgPostRecvdone _ => true
  | .lgPostTwin _ _ _ => true
  | .digup _ k => k.ledger 3
  | .digdown _ k => k.ledger 4
  | .uwrup _ k => k.ledger 5
  | .ratiodn _ k => k.ledger 6
  | .svCmdBuild _ => true
  | .svCmdBuilt _ => true
  | .svCmdHeld _ => true
  | .svCmdAbandon _ => true
  | .svCmdDeposited _ => true
  | .svRewind _ _ => true
  | .fieldTestWindowEnd => true
  | .reserveTestCycle => true
  | .phase _ _ => true
  | .phaseTakesEffect => true
  | .frequencyLoopTick _ => true
  | .pllRelocked => true
  | .voltageRampDone => true
  | .frequencySwitch => true
  | .frequencyIncreaseAbandoned => true
  | .droopTrip _ _ => true
  | .droopClear _ => true
  | .powerMeasurement _ => true
  | .averageLimiterTick _ => true
  | .capStretchTick _ => true
  | .thermalRead _ => true
  | .brokerMeanTimeout => true
  | .arrayGateOpen _ => true
  | .rampStep _ => true
  | .pwJobtag _ _ => true
  | .undervoltageLockout _ => true
  | .overvoltageShutdown _ => true
  | .thermtrip _ => true
  | .mbDoor _ _ _ => true
  | .mbNpop _ _ _ => true
  | .managementFrame bs => decide (bs.length ≤ 4232)
  | .slipAnswered _ => true
  | .ownQuery _ => true
  | .ownClaim _ => true
  | .ownershipContestClose => true
  | .ownRenew _ => true
  | .leaseExpiry => true
  | .ownRelease _ => true
  | .ownGrant _ => true
  | .ownForce _ => true
  | .ownKeyset _ => true
  | .info _ => true
  | .arrayMap _ => true
  | .bookplate _ => true
  | .quote _ => true
  | .fnQuery _ => true
  | .fnDisable _ => true
  | .fnDrainEnd _ => true
  | .fnEnable _ => true
  | .fnReset _ => true
  | .fnResetDone _ => true
  | .devReset _ => true
  | .deviceReset => true
  | .coreStoprec _ => true
  | .coreRestart _ => true
  | .coreStop _ => true
  | .wdog _ => true
  | .dbgHalt _ => true
  | .dbgResume _ => true
  | .pwMode _ => true
  | .pwOpp _ => true
  | .pwGroup _ => true
  | .pwShareset _ => true
  | .pwRead _ => true
  | .fabShelf _ => true
  | .fabLayout _ => true
  | .planWrite _ => true
  | .planRead _ => true
  | .catRead _ => true
  | .withdraw _ => true
  | .mbBind _ => true
  | .mailboxBindingExpiry _ => true
  | .weedRead _ => true
  | .weedClear _ => true
  | .ftest _ => true
  | .standbySet _ => true
  | .hbmMode _ => true
  | .telemRead _ => true
  | .telemLatch _ => true
  | .telemetryLatchTaken => true
  | .ledgerRead _ => true
  | .fwUpdateBegin _ => true
  | .fwUpdateData _ => true
  | .fwUpdateEnd _ => true
  | .powerGood _ _ => true
  | .modResetN _ => true
  | .pwrEnDeassert => true
  | .inputRemoved => true
  | .firmwareVerify => true
  | .curatorBoot _ => true
  | .calibration _ => true
  | .hbmTraining _ => true
  | .carrelZeroing _ => true
  | .selfTest _ tests => tests.all (fun t => decide (t.1.val < 128)) && decide ((tests.map (fun t => t.1)).Nodup)
  | .linkTrainingStage _ => true
  | .ready => true
  | .recoveryLoader => true
  | .hubBootFetch _ => true
  | .hubBootRetry _ => true
  | .hallRefEdge _ => true
  | .hallRefTimeCode bs => bs.length == 16
  | .hallRefLoss => true
  | .clearFaults => true
  | .capability => true
  | .otFaultLimit => true
  | .vinOvFaultLimit => true
  | .vinOvWarnLimit => true
  | .vinUvWarnLimit => true
  | .vinUvFaultLimit => true
  | .statusWord => true
  | .statusInput => true
  | .statusTemperature => true
  | .readVin _ => true
  | .readIin _ => true
  | .readTemperature1 => true
  | .readTemperature2 _ => true
  | .readTemperature3 _ => true
  | .readPin _ => true
  | .pmbusRevision => true
  | .mfrId => true
  | .mfrModel => true
  | .mfrSerial => true
  | .extest _ => true
  | .samplePreload _ => true
  | .idcode => true
  | .bypass code => !([0x00, 0x01, 0x02, 0x30].contains code)
  | .mbx _ => true
  | .tapReset => true
  | .illegalInstruction _ _ => true
  | .tldComplete _ => true
  | .meanSlack _ k => k.isWords
  | .undervoltageLockoutClear _ => true
  | .inputPresent _ => true
  | .vinWarning _ => true
  | .imageSlotVerified => true

end Sys2Proof
end

