-- ==== Sys2Proof/Tests/Slice0.lean ====
section
/-! SUPPORT. Tests/Slice0.lean: the author's own tests: states and operands that meet the hypotheses of each statement, ill-formed terms that
WellFormed refuses, and small results worked out from the manual. -/

namespace Sys2Proof.Tests
set_option Elab.async false
open Sys2Proof Sys2Proof.Machine

/-! ### Helpers -/

/-- A word from its fields: the lowest bit of each, and its value. -/
def fields {n : Nat} (fs : List (Nat × Nat)) : BitVec n := BitVec.ofNat n (fs.map (fun x => x.2 <<< x.1)).sum
/-- Core 0 just started at 0x1000. -/
def run0 : State := startCore State.reset 0 0x1000#64
/-- run0 with registers of core 0 written: D first, then A. -/
def regs (ds as : List (Nat × U64)) : State :=
  run0.modCore 0 (fun k => as.foldl (fun k x => k.writeA x.1 x.2) (ds.foldl (fun k x => k.writeD x.1 x.2) k))
/-- Core c issues in s, and p holds after the fetch. -/
def issuing (s : State) (c : CoreId) (k : IKind) (p : State → Bool) : Bool :=
  match s.issued c k with
  | some u => p u
  | none => false
/-- An operation completes, and p holds of its answer and the state it leaves. -/
def completes {α : Type} (x : Op α) (s : State) (p : α → State → Bool) : Bool :=
  match x s with
  | .ok a t => p a t
  | .error _ _ => false
/-- A computation stops with an exception, and p holds of its cause and the state it leaves. -/
def traps {α : Type} (x : Op α) (s : State) (p : Nat → State → Bool) : Bool :=
  match x s with
  | .error (.trap cause _ _ _) t => p cause t
  | .error _ _ => false
  | .ok _ _ => false
/-- A command answers a next state of which p holds. -/
def nextIs (x : Host.Outcome State Fault Refusal) (p : State → Bool) : Bool :=
  match x with
  | .next t => p t
  | .fault _ => false
  | .refused _ => false

/-! ### Cores: hypotheses that can be met -/

theorem test_step_front_met : ({ State.reset with pending := [.nop 0] } : State).pending = .nop 0 :: [] ∧ State.reset.pending = [] := by decide
theorem test_step_safe_met : State.reset.safe = true ∧ nextIs (step State.reset) (fun _ => true) = true := by decide
theorem test_issue_retire_met : issuing run0 0 .plain (fun u => (u.core 0).ex.dbgStep == false) = true := by decide
theorem test_csel_met : issuing run0 0 .plain (fun _ => fld (fields (n := 26) [(22, 15), (18, 1), (14, 2), (10, 3)]) 0 10 == 0) = true := by decide
theorem test_integer_met : issuing (regs [(1, 5), (2, 3)] []) 0 .plain (fun u =>
    let f : BitVec 26 := fields [(22, 3), (18, 1), (14, 2)]
    let g : BitVec 26 := fields [(22, 3), (18, 1), (8, 0x16)]
    let ok (f : BitVec 26) : Bool := fld f 0 8 == 0 && (decide (fld f 8 6 < 0x16) || fld f 14 4 == 0) &&
      (intOp (fld f 8 6) ((u.core 0).readD (fld f 18 4)) ((u.core 0).readD (fld f 14 4))).isSome
    ok f && ok g) = true := by decide
theorem test_immediate_met : issuing (regs [(1, 5)] []) 0 .plain (fun u =>
    let ok (x : Option (BitVec 26)) (f : BitVec 26) : Bool :=
      (!(decide (4 ≤ fld f 14 4) && decide (fld f 14 4 ≤ 6)) || fld (plainImm x 14 (fld f 0 14)) 6 58 == 0) &&
      (fld f 14 4 != 7 || fld f 18 4 == 0) &&
      (immOp (fld f 14 4) ((u.core 0).readD (fld f 18 4)) (signedImm x 14 (fld f 0 14)) (plainImm x 14 (fld f 0 14))).isSome
    ok none (fields [(18, 1), (0, 0x3FFF)]) && ok (some 1) (fields [(14, 4), (18, 1), (0, 63)]) == false &&
      ok none (fields [(14, 4), (18, 1), (0, 63)]) && ok none (fields [(14, 6), (18, 1), (0, 63)]) && ok (some 1) (fields [(14, 7), (0, 1)])) = true := by decide
theorem test_division_met : (issuing (regs [(1, 7)] []) 0 .plain (fun u =>
      let f : BitVec 26 := fields [(8, 0x0E), (18, 1), (14, 2)]
      fld f 0 8 == 0 && (u.core 0).readD (fld f 14 4) == 0) &&
    issuing (regs [(1, 0x8000000000000000), (2, 0xFFFFFFFFFFFFFFFF)] []) 0 .plain (fun u =>
      let f : BitVec 26 := fields [(8, 0x0B), (18, 1), (14, 2)]
      fld f 0 8 == 0 && ((u.core 0).readD (fld f 18 4)).toInt == -(2 ^ 63) && ((u.core 0).readD (fld f 14 4)).toInt == -1)) = true := by decide
theorem test_address_met : issuing (regs [(2, 8)] [(1, 0x2000), (3, 0x2000)]) 0 .plain (fun u =>
    let k := u.core 0
    let f (i : Nat) : BitVec 26 := fields [(22, 15), (18, 1), (14, 2), (8, i)]
    [0x00, 0x01, 0x08, 0x10, 0x11, 0x12].all (fun i => fld (f i) 0 8 == 0 && fld (f i) 8 6 == i) && !k.slimFault 15 (k.readA 1 + k.readD 2) &&
    [0, 1, 2].all (fun i => let g : BitVec 26 := fields [(22, 15), (18, 1), (14, i), (0, 0x3FFF)]
      fld g 14 4 == i && !k.slimFault 15 0x1FFF && !k.slimFault 15 0x8000000000000000) &&
    fld (fields (n := 26) [(22, 15), (14, 3), (0, 4)]) 18 4 == 0 && !k.slimFault 15 (k.pc + 4) &&
    [0, 1, 2].all (fun i => let g : BitVec 26 := fields [(22, 15), (14, 2), (8, i)]
      fld g 0 8 == 0 && fld g 18 4 == 0 && fld g 8 6 == i) && !k.slimFault 15 (k.readA 2)) = true := by decide
/-- A1 at 0x2000, D1 filled. -/
def mem1 : State := regs [(1, 0x1122334455667788), (2, 8)] [(1, 0x2000)]
theorem test_load_store_met : issuing mem1 0 .plain (fun u =>
    let k := u.core 0
    let ok (f : BitVec 26) : Bool :=
      let n := 2 ^ fld f 14 2
      let ea := formEA (fld f 16 2) (k.readA (fld f 18 4)) (signedImm none 13 (fld f 0 13)) (k.readD (fld f 9 4)) (fld f 7 2)
      (fld f 16 2 != 1 || fld f 0 7 == 0) && k.eaOk (fld f 18 4) ea n && (bit f 13 == false || n != 8) &&
      completes (scalarLoad 0 ea.addr n) u (fun bs u1 => bs.length == n && !(u1.core 0).slimFault (fld f 22 4) (n64 (leNat bs))) &&
      completes (scalarStore 0 ea.addr (leBytes n (k.readD (fld f 22 4)).toNat)) u (fun _ _ => true) &&
      (decide (fld f 16 2 < 2) || fld f 22 4 != fld f 18 4)
    ok (fields [(22, 1), (18, 1), (14, 0), (13, 1), (0, 0x1FFF)]) && ok (fields [(22, 1), (18, 1), (14, 3), (16, 1), (9, 2), (7, 3)]) &&
    ok (fields [(22, 1), (18, 1), (14, 3), (16, 2), (0, 8)] ||| fields [(22, 2)]) &&
    ok (fields [(22, 3), (18, 1), (14, 3), (16, 3), (0, 8)])) = true := by decide
theorem test_float_memory_met : issuing mem1 0 .plain (fun u =>
    let k := u.core 0
    let ok (f : BitVec 26) : Bool :=
      let n := 2 ^ fld f 13 2
      let ea := formEA (fld f 15 2) (k.readA (fld f 17 4)) (w64 (sx 12 (fld f 0 12))) (k.readD (fld f 8 4)) (fld f 6 2)
      (fld f 15 2 != 1 || fld f 0 6 == 0) && n != 1 && k.eaOk (fld f 17 4) ea n &&
      completes (scalarLoad 0 ea.addr n) u (fun _ _ => true) && completes (scalarStore 0 ea.addr (leBytes n (k.readF (fld f 21 5) (8 * n)))) u (fun _ _ => true)
    ok (fields [(21, 31), (17, 1), (13, 1)]) && ok (fields [(21, 31), (17, 1), (13, 3), (12, 1), (15, 3), (0, 8)])) = true := by decide
theorem test_memory_met : issuing mem1 0 .plain (fun u =>
    let k := u.core 0
    let f : BitVec 26 := fields [(22, 1), (18, 1), (14, 3)]
    let n := 2 ^ fld f 14 2
    let ea := formEA (fld f 16 2) (k.readA (fld f 18 4)) (w64 (sx 13 (fld f 0 13))) (k.readD (fld f 9 4)) (fld f 7 2)
    let a := ea.addr.toNat
    k.ring == 0 && k.accTask.isNone && fld f 16 2 != 1 && k.eaOk (fld f 18 4) ea n && memRange a n && !u.carrelShut 0 a && !u.poisoned a n &&
      bit f 13 == false && !hitsLedger a n) = true := by decide
theorem test_branch_met : issuing (regs [(1, 0xFFFFFFFFFFFFFFFF)] [(1, 0x2000)]) 0 .plain (fun u =>
    [0, 1, 2, 3, 4, 5].all (fun i => fld (fields (n := 26) [(22, 1), (18, 2), (15, i), (0, 0x7FFF)]) 15 3 == i) &&
    [0, 1, 2, 3].all (fun i => fld (fields (n := 26) [(22, 1), (20, i), (0, 0xFFFFF)]) 20 2 == i) &&
    fld (fields (n := 23) [(19, 1)]) 0 19 == 0 && ((u.core 0).readA 1).toNat % 4 == 0) = true := by decide
theorem test_call_met : issuing (regs [] [(15, 0x3000), (1, 0x2000)]) 0 .plain (fun u =>
    let new := (u.core 0).readA 15 - 8
    let t := (u.core 0).pc + w64 (4 * sx 26 (fields (n := 26) [(0, 1)]).toNat)
    t.toNat % 4 == 0 && ((u.core 0).readA 1).toNat % 4 == 0 && new.toNat % 8 == 0 && !(u.core 0).slimFault 15 new &&
    completes (scalarStore 0 new (leBytes 8 ((u.core 0).pc + 4).toNat)) u (fun _ _ => true) &&
    completes (scalarLoad 0 ((u.core 0).readA 15) 8) u (fun bs _ => (n64 (leNat bs)).toNat % 4 == 0)) = true := by decide
theorem test_atomic_met : issuing (regs [(1, 5)] [(1, 0x2000)]) 0 .plain (fun u =>
    let ok (f : BitVec 26) : Bool :=
      let n := 2 ^ fld f 4 2
      let va := (u.core 0).readA (fld f 18 4)
      fld f 0 4 == 0 && decide (fld f 6 4 ≤ 9) && decide (2 ≤ fld f 4 2) && va.toNat % n == 0 && bit va 63 == false &&
      completes (xlateAt 0 (u.core 0).ring .store va) u (fun pa u1 => !isDevice pa && memRange pa n && !hitsLedger pa n && !u1.carrelShut 0 pa &&
        (u1.core 0).accTask.isNone && !u1.poisoned pa n && (atomicNew (fld f 6 4) n 0 5 0).isSome &&
        completes (localAtomic 0 (fld f 6 4) n pa 5 0 va) u1 (fun _ _ => true))
    ok (fields [(22, 3), (18, 1), (14, 1), (4, 3), (6, 0)]) && ok (fields [(22, 3), (18, 1), (14, 1), (4, 2), (6, 9)]) &&
      ok (afaddBits (fields [(12, 3), (8, 1), (4, 1)]) (fields [(4, 3)]))) = true := by decide
theorem test_csr_met : issuing (regs [(1, 0x40)] []) 0 .plain (fun u =>
    let f (d : Nat) : BitVec 26 := fields [(22, 1), (12, 0x010), (8, d)]
    fld (f 1) 0 8 == 0 && fld (f 1) 8 4 == 1 && fld (f 2) 8 4 == 2 && (csrRead u 0 0x010).isSome && csrMayWrite (u.core 0).ring 0x010 0x40 &&
    (u.core 0).ring == 0 && decide (fld ((u.core 0).readD 1) 0 8 < 144)) = true ∧
  issuing (regs [(1, 144)] []) 0 .plain (fun u => decide (144 ≤ fld ((u.core 0).readD 1) 0 8)) = true := by decide

/-! ### Fixed point, floating point, repeats, gates and exceptions: hypotheses that can be met -/

theorem test_fixed_point_met : issuing (regs [(1, 0x7FFF), (2, 0x8000)] [(1, 0x2000), (2, 0x2100)]) 0 .plain (fun u =>
    let k := u.core 0
    let mac (op : Nat) : BitVec 26 := fields [(23, 7), (19, 1), (15, 2), (13, 2), (10, op)]
    let ari (op qf sh : Nat) : BitVec 26 := fields [(23, 7), (12, op), (10, qf), (1, sh)]
    let mv (op : Nat) : BitVec 26 := fields [(22, 3), (19, 7), (10, op)]
    [0, 1, 2, 3, 4].all (fun i => let f := mac i
      fld f 10 3 == i && fld f 0 6 == 0 && decide (fld f 13 2 < 3) && decide (fld f 8 2 < 3) && fld f 19 4 != fld f 15 4) &&
    (k.readA 1).toNat % 8 == 0 && (k.readA 2).toNat % 8 == 0 && !k.slimFault 1 (k.readA 1 + n64 8) && !k.slimFault 2 (k.readA 2 + n64 8) &&
    completes (scalarLoad 0 (k.readA 1) 8) u (fun _ u1 => completes (scalarLoad 0 (k.readA 2) 8) u1 (fun _ _ => true)) &&
    [0, 1, 2, 3, 4, 5, 6, 7].all (fun i =>
      let f := ari i (if i = 7 then 2 else 0) (if i = 5 ∨ i = 6 then 79 else 0)
      fld f 12 4 == i && bit f 0 == false && decide (fld f 8 2 < 3) && decide (fld f 10 2 < 3) && fld f 20 3 == 0 && fld f 16 4 == 0 &&
      (i == 7 || fld f 10 2 == 0) && (i == 5 || i == 6 || fld f 1 7 == 0) && decide (fld f 1 7 ≤ 79)) &&
    [0, 1, 2, 3, 4].all (fun i => let f := mv i
      fld f 10 3 == i && fld f 0 10 == 0 && decide (fld f 17 2 < 3) && decide (fld f 15 2 < 3) && fld f 13 6 == 0)) = true := by decide +kernel
theorem test_float_met : issuing run0 0 .plain (fun u =>
    let op (i : Nat) : BitVec 26 := fields [(21, 3), (16, 1), (11, 2), (6, i), (4, 1)]
    let mc (i : Nat) : BitVec 26 := fields [(21, 3), (16, 1), (12, 0x1), (8, 0x0), (4, i)]
    (u.core 0).ring == 0 && fld (op 0x10) 0 4 == 0 && fld (op 0x12) 6 5 == 0x12 && decide (fld (op 0x12) 21 5 < 16) && fld (op 0x14) 6 5 == 0x14 &&
    fld (op 0x09) 6 5 == 0x09 && fld (op 0x0F) 4 2 == 1 &&
    [0, 1, 2, 3, 4].all (fun i => fld (mc i) 4 4 == i && fld (mc i) 0 4 == 0 && fmtOk16 (fld (mc i) 12 4) && fmtOk16 (fld (mc i) 8 4))) = true := by decide +kernel
/-- D1 := D1 + D2 as a whole word. -/
def addWord : BitVec 32 := fields [(22, 1), (18, 1), (14, 2)]
theorem test_repeat_met : issuing (regs [(1, 5), (2, 3)] []) 0 (.rep true) (fun u =>
    let p : BitVec 25 := fields [(0, 2)]
    let s0 := u.modCore 0 (fun k => { k with ex := { k.ex with rcnt := 2 } })
    fld p 7 13 == 0 && bit p 24 == false && fld p 20 4 == 0 && repAllowed none addWord && !(u.core 0).ex.afterRte && fld p 0 7 == 2 &&
    completes (repBody 0 none addWord) s0 (fun _ r0 =>
      let s1 := r0.modCore 0 (fun k => { k with ex := { k.ex with instret := k.ex.instret + 1, rcnt := 1 } })
      (s1.core 0).eligible.isNone && !(s1.core 0).ex.dbgStep && completes (repBody 0 none addWord) s1 (fun _ _ => true))) = true ∧
  issuing (regs [(1, 5), (2, 3)] []) 0 (.rep false) (fun u =>
    let p : BitVec 25 := fields [(0, 1)]
    fld p 7 13 == 0 && bit p 24 == false && fld p 20 4 == 0 && decide (fld p 0 7 ≤ 64) && repAllowed none addWord && !(u.core 0).ex.afterRte &&
    completes (repBody 0 none addWord) u (fun _ _ => true)) = true := by decide +kernel
/-- Gloss entry 0 holds one micro-op, D1 := D1 + D2. -/
def gloss1 : State := (regs [(1, 5), (2, 3)] []).modCore 0 (fun k => { k with ex := { k.ex with
  glTab := vput (vput k.ex.glTab 0 0x10) 1 (n64 addWord.toNat) } })
theorem test_gloss_met : issuing gloss1 0 .plain (fun u =>
    let h := vget (u.core 0).ex.glTab 0 0
    bit h 4 && fld h 0 4 == 0 && completes (microOp 0 0 (vget (u.core 0).ex.glTab 1 0))
      (u.modCore 0 (fun k => { k with ex := { k.ex with gtmp := Vector.replicate 8 0 } })) (fun _ _ => true)) = true := by decide +kernel
/-- Gate 1 of a table at 0x4000: entry 0x5000, ring 0, callable from ring 0, stack pointer 0x6000 of its own. -/
def gate1 : State :=
  let s := (regs [] [(15, 0x3000)]).modCore 0 (fun k => { k with rr := { k.rr with gatebase := 0x4000 } })
  { s with mem := [(0x4011, 0x50), (0x4018, 0x03), (0x4019, 0x60)] }
theorem test_gate_met : issuing gate1 0 .plain (fun u =>
    let k := u.core 0
    let f : BitVec 22 := fields [(9, 1)]
    let at' := fld k.rr.gatebase 12 36 <<< 12 + 16 * fld f 9 8
    let e0 := n64 (leNat (u.bytes at' 8))
    let e1 := n64 (leNat (u.bytes (at' + 8) 8))
    let new := (if bit e1 1 then n64 (fld e1 4 60 <<< 4) else vget k.rr.sp (fld e0 0 2) 0) - 16
    let u1 := u.modCore 0 (fun k => k.setBank (fun b => { b with ring := BitVec.ofNat 2 (fld e0 0 2) }))
    fld f 0 9 == 0 && bit f 21 == false && memRange at' 16 && !u.poisoned at' 16 && bit e1 0 && decide (k.ring ≤ fld e1 2 2) &&
    decide (fld e0 0 2 ≤ k.ring) && new == 0x5FF0 && new.toNat % 8 == 0 && decide ((vget k.rr.slim (fld e0 0 2) 0).toNat ≤ new.toNat) &&
    completes (scalarStore 0 new (leBytes 8 (k.pc + 4).toNat)) u1 (fun _ u2 =>
      completes (scalarStore 0 (new + 8) (leBytes 8 (k.ring + 1 <<< 2))) u2 (fun _ _ => true))) = true := by decide +kernel
theorem test_gate_return_met : issuing { gate1 with mem := [(0x3000, 0x40), (0x3008, 0x03)] } 0 .plain (fun u =>
    completes (scalarLoad 0 ((u.core 0).readA 15) 8) u (fun b0 u1 => (n64 (leNat b0)).toNat % 4 == 0 &&
      completes (scalarLoad 0 ((u.core 0).readA 15 + 8) 8) u1 (fun b1 _ => decide ((u.core 0).ring ≤ leNat b1 % 4)))) = true := by decide +kernel
/-- Core 0 unmasked in ring 2, in bank B3. -/
def user0 : State := run0.modCore 0 (fun k => { k with rr := { k.rr with
  cur := 3, banks := vput k.rr.banks 3 { Bank.reset with ring := 2, gm := false, pc := 0x1000 }, busy := 0 } })
theorem test_exception_met : issuing user0 0 .plain (fun u =>
    wordIllegal 0 0xFBFFFFFF && (u.core 0).tile.queue.isEmpty && !(u.core 0).bank.gm) = true ∧
  (bit (user0.core 0).rr.busy 0 = false ∧ (0 : Nat) ≠ (user0.core 0).rr.cur.toNat) ∧
  (let s := run0.modCore 0 (fun k => { k with rr := { k.rr with ssp := vput k.rr.ssp 0 0x8000 } })
   bit (s.core 0).rr.busy 0 = true ∧ 512 + (vget (s.core 0).rr.sslim 0 0).toNat ≤ (vget (s.core 0).rr.ssp 0 0).toNat ∧
    memRange 0x7E00 512 = true ∧ hitsLedger 0x7E00 512 = false) := by decide +kernel
/-- Core 0 in ring 0 and bank B0, linked to bank B3 in ring 2. -/
def entered0 : State := enterRing user0 0 0 0x01 0 false 0 0x1000#64
theorem test_context_met : issuing entered0 0 .plain (fun u =>
    let k := u.core 0
    let lin : BitVec 22 := fields [(18, 1), (12, 36)]
    let nam : BitVec 22 := fields [(18, 1), (12, 36), (11, 1), (9, 3)]
    decide (k.ring ≤ 2) && fld lin 0 9 == 0 && fld lin 9 2 == 0 && bit lin 11 == false && bit k.bank.elink 5 && k.linked == .bank 3 &&
    ((vget k.rr.banks 3 Bank.reset).sel 3 36).isSome && bit nam 11 && fld nam 0 9 == 0 && fld nam 9 2 == 3 && k.rr.cur.toNat != 3 && k.ring == 0) = true ∧
  issuing run0 0 .plain (fun u => !bit (u.core 0).bank.elink 5) = true := by decide +kernel
/-- Core 0 in ring 0 and bank B0 with a spilled frame at 0x7E00. -/
def spilled0 : State := enterRing (run0.modCore 0 (fun k => { k with rr := { k.rr with ssp := vput k.rr.ssp 0 0x8000 } })) 0 0 0x01 0 false 0 0x1000#64
theorem test_frame_met : issuing spilled0 0 .plain (fun u =>
    let k := u.core 0
    let a := 0x7E00 + frameOff 33
    decide (k.ring ≤ 2) && bit k.bank.elink 5 && k.linked == .frame 0x7E00 && memRange a 8 &&
    completes (memLoad 0 a 8 (n64 a)) u (fun _ _ => true) &&
    completes (memStore 0 a (leBytes 8 (frameMtb (n64 (leNat (u.bytes a 8))) (k.readD 1) 33 k.ring).toNat) (n64 a)) u (fun _ _ => true)) = true := by decide +kernel
theorem test_return_met : issuing entered0 0 .rte (fun u =>
    let k := u.core 0
    let e := k.bank.elink
    let b := fld e 0 2
    decide (k.ring ≤ 2) && bit e 5 && bit e 4 == false && b != k.rr.cur.toNat && decide (k.ring ≤ (vget k.rr.banks b Bank.reset).ring.toNat) &&
    decide (fld e 2 2 ≤ (vget k.rr.banks b Bank.reset).ring.toNat)) = true ∧
  issuing spilled0 0 .rte (fun u =>
    let k := u.core 0
    let e := k.bank.elink
    let pa := (vget k.rr.ssp 0 0).toNat
    let fb := bankOfFrame (fun i => n64 (leNat (u.bytes (pa + 8 * i) 8)))
    decide (k.ring ≤ 2) && bit e 5 && bit e 4 && fld e 0 2 == 0 && decide (k.ring ≤ fb.ring.toNat) && decide (fld e 2 2 ≤ fb.ring.toNat) &&
    decide ((vget k.rr.sslim 0 0).toNat ≤ pa) && memRange pa 512 && !u.poisoned pa 512) = true := by decide +kernel
theorem test_entry_return_met : (0 : Nat) ≤ (user0.core 0).ring ∧ bit (user0.core 0).rr.busy 0 = false ∧ (0 : Nat) ≠ (user0.core 0).rr.cur.toNat ∧
    (entered0.issued 0 .rte).isSome = true := by decide +kernel

/-! ### Core events, tasks, vectors and tiles: hypotheses that can be met -/

/-- The state a command leaves. -/
def after (i : Instr) (s : State) : State :=
  match exec i s with
  | .next t => t
  | .fault _ => s
  | .refused _ => s
theorem test_core_events_met : issuing (run0.modCore 0 (fun k => { k with rr := { k.rr with xpend := 1 } })) 0 .plain (fun u => (u.core 0).rr.xpend != 0) = true ∧
  (let k := (run0.modCore 0 (fun k => { k with ex := { k.ex with dbgBp := vput k.ex.dbgBp 0 0x1001 } })).core 0
   k.atBoundary = true ∧ k.redirectNow = none ∧ k.eligible = none ∧ k.bpMatch = true ∧ k.ex.bpSkip = false) ∧
  (let k := (user0.modCore 0 (fun k => { k with rr := { k.rr with xpend := 2 } })).core 0
   k.atBoundary = true ∧ k.redirectNow = none ∧ k.eligible.isSome = true ∧ k.held = false ∧ k.ex.afterRte = false) ∧
  (let s : State := { run0.modCore 0 (fun k => { k with rr := { k.rr with xtimer := 5 } }) with hall := { run0.hall with once := true } }
   s.hall.once = true ∧ (s.core 0).rr.xtimer ≠ 0) ∧
  ((run0.core 0).ex.run = .running ∧ (run0.core 0).ex.wdPosted = false ∧ (run0.core 0).ex.maskFrom.isSome = true) ∧
  (let k := (run0.modCore 0 (fun k => { k with mm := { k.mm with redirect := some (0, 0x2000) } })).core 0
   k.ex.run = .running ∧ k.ex.hwait = none ∧ k.redirectNow.isSome = true) := by decide +kernel
theorem test_cache_met : issuing (regs [] [(1, 0x2000)]) 0 .plain (fun u =>
    let f : BitVec 22 := fields [(18, 1)]
    let g : BitVec 22 := fields [(20, 3)]
    fld g 0 20 == 0 && fld g 20 2 != 0 && fld f 0 18 == 0 && ((u.core 0).readA 1).toNat % 128 == 0 && (u.core 0).ring == 0 &&
    completes (xlateAt 0 0 .store ((u.core 0).readA 1)) u (fun pa u1 => !isDevice pa && !u1.carrelShut 0 pa &&
      completes (memStore 0 pa (List.replicate 128 0) 0x2000) u1 (fun _ _ => true)) &&
    fld (fields (n := 22) [(21, 1)]) 0 17 == 0 && fld (fields (n := 22) [(21, 1)]) 17 4 == 0) = true := by decide +kernel
/-- Core 0 with a task open for step 7. -/
def task0 : State := after (.tspecBegin 0 (fields [(18, 1), (14, 2), (10, 1)])) (regs [(2, 7)] [(1, 0x2000)])
theorem test_task_met : issuing (regs [(2, 7)] [(1, 0x2000)]) 0 .plain (fun u =>
    let f : BitVec 22 := fields [(18, 1), (14, 2), (10, 1)]
    fld f 0 10 == 0 && ((u.core 0).readA (fld f 10 4)).toNat % 4 == 0 && ((List.range 4).find? (fun t => ((u.core 0).task t).st == .free)).isSome &&
    (u.core 0).openTask.isNone && fld (fields (n := 22) [(18, 1), (14, 2)]) 0 14 == 0 && ((u.core 0).task 3).st == .free) = true ∧
  issuing task0 0 .plain (fun u => (u.core 0).openTask.isSome) = true := by decide +kernel
/-- Core 0 with VL 2 and 32-bit elements, or VL 0. -/
def vec0 (vl : Nat) : State := after (.setvl 0 (fields [(19, 1), (15, 2), (13, 2)])) (regs [(2, n64 vl)] [(1, 0x2000)])
theorem test_vector_setup_met : issuing run0 0 .plain (fun _ =>
    let f : BitVec 23 := fields [(19, 1), (15, 2), (13, 1), (11, 3), (10, 1)]
    fld f 0 10 == 0 && bit f 10 && fld f 13 2 == 1 &&
    [0, 1, 2, 3].all (fun i => let g : BitVec 23 := fields [(20, 1), (17, 2), (14, 3), (12, i)]
      fld g 0 12 == 0 && fld g 12 2 == i)) = true ∧
  issuing (vec0 2) 0 .plain (fun u =>
    let f (i : Nat) : BitVec 26 := fields [(21, 3), (16, 4), (11, 5), (6, i)]
    let x := (u.core 0).vctxOf (f 0)
    [0, 2, 5].all (fun i => vFunct (f i) == i && x.operandsOk 0 0 (vVS1 (f i)) x.sew 0 0) && x.fmt.isSome && x.vl == 2 &&
    [6, 7, 8, 9, 10, 11].all (fun i => vFunct (f i) == i && x.operandsOk (vVD (f i)) (if i = 11 then 0 else x.sew) (vVS1 (f i))
      (if 10 ≤ i then 0 else x.sew) (vVS2 (f i)) (if i = 8 then x.sew else 0))) = true ∧
  issuing (vec0 0) 0 .plain (fun u => ((u.core 0).vctxOf 0).vl == 0) = true := by decide +kernel
theorem test_vector_arithmetic_met : issuing (vec0 2) 0 .plain (fun u =>
    let f (i : Nat) : BitVec 26 := fields [(21, 2), (16, 4), (11, 6), (6, i)]
    let x := (u.core 0).vctxOf (f 0)
    let w := x.sew
    let ok (i wd w1 w2 : Nat) : Bool := vFunct (f i) == i && x.operandsOk (vVD (f i)) wd (vVS1 (f i)) w1 (vVS2 (f i)) w2
    x.vl == 2 && ok 0x00 w w w && ok 0x11 0 w w && x.predDestOk (f 0x11) && ok 0x14 w w 0 && ok 0x15 (2 * w) w 0 && ok 0x16 (w / 2) w 0 &&
    x.fmt.isSome && ok 0x10 0 w w && ok 0x14 w w w && transBits (fields [(10, 2), (5, 4)]) 0 0 == fields [(21, 2), (16, 4), (9, 1)]) = true ∧
  issuing (vec0 2) 0 .plain (fun u =>
    let f : BitVec 26 := fields [(21, 2), (16, 4), (12, 0), (8, 0xC), (0, 1)]
    let x := (u.core 0).vctxOf f
    x.vl == 2 && fld f 8 4 == 0xC && x.operandsOk 0 0 (vVS1 f) (cvtSrcWidth x.sew 0xC) 0 0 && x.cvtDestOk (vVD f) 0 && !isMX 0) = true := by decide +kernel
theorem test_vector_memory_met : issuing (vec0 2) 0 .vmem (fun u =>
    let k := u.core 0
    let f : BitVec 26 := fields [(21, 2), (17, 1)]
    let g : BitVec 26 := fields [(21, 2), (17, 1), (12, 4)]
    let h : BitVec 26 := fields [(21, 2), (17, 1), (10, 1)]
    let x := k.vctxOf f
    let m1 : VMem := { ctx := x, store := bit f 12, nf := 1, vr := fld f 21 5, watch := true, addr := fun i _ => k.readA 1 + n64 i * n64 (x.sew / 8) }
    let m2 : VMem := { ctx := x, store := bit g 11, nf := 1, vr := fld g 21 5, watch := false,
                       addr := fun i _ => k.readA 1 + w64 (sx 32 (vElem k.vec.v (fld g 12 5) 32 i)) <<< fld g 9 2 }
    let m3 : VMem := { ctx := x, store := bit h 12, nf := 2, vr := fld h 21 5, watch := false, addr := fun i j => k.readA 1 + n64 ((i * 2 + j) * (x.sew / 8)) }
    let ok (m : VMem) : Bool := m.ok && completes (fun s => m.run 0 x.vl false s) u (fun _ _ => true)
    !k.ex.afterRte && x.vl == 2 && ok m1 && ok m2 && ok m3 && bit f 0 == false && fld f 6 5 == 0 && fld g 6 2 == 0 && x.groupOk (fld g 12 5) 32 &&
    !groupsMeet (fld g 21 5) x.lmul (fld g 12 5) (x.group 32) && fld h 6 4 == 0 && fld h 13 4 == 0 && fld h 10 2 == 1) = true := by decide +kernel
/-- Core 0 with T0 and Z0 of one row, pair 0 with one unit of FILL. -/
def tile0 : State := (regs [] [(1, 0x2000)]).modCore 0 (fun k => { k with
  tile := { k.tile with t := vput k.tile.t 0 { TileReg.reset with shape := 0x40001 }, z := vput k.tile.z 0 { ZTile.reset with shape := 0x4000001 } }
  str := { k.str with sem := vput k.str.sem 0 1 } })
theorem test_tile_memory_met : issuing tile0 0 .tile (fun u =>
    let hi : BitVec 17 := fields [(10, 1), (2, 1)]
    let f : BitVec 26 := tileMemBits hi 0 0
    let k := u.core 0
    let t := vget k.tile.t 0 TileReg.reset
    completes (tileMemOf 0 none true f) u (fun m _ => fld f 0 7 == 0 && m.reg == 0 && m.semen && m.conv == 0 && decide (k.tile.queue.length < 16) &&
      !isMX t.code && completes m.aligned u (fun _ _ => true) && !k.tile.unfed m.reg (u.clkOf 0) && bit (vget k.str.sem m.sem 0) 32 == false &&
      decide (vget k.str.resv m.sem 0 < fld (vget k.str.sem m.sem 0) 0 16) &&
      completes (tldRead 0 m t) u (fun _ u1 => completes (semReserve 0 true m.sem) u1 (fun _ _ => true)))) = true ∧
  issuing tile0 0 .wait (fun u =>
    let hi : BitVec 17 := fields [(10, 1)]
    let k := u.core 0
    let t := vget k.tile.t 0 TileReg.reset
    let z := vget k.tile.z 0 ZTile.reset
    completes (tileMemOf 0 none false (tileMemBits hi 1 0)) u (fun m _ => !isMX t.code && completes m.aligned u (fun _ _ => true) &&
      completes (storeRows 0 ((List.range t.nrows).map (fun r => (rowAddr m.base m.stride r, spRead 0 t.rows (128 * r) t.rbytes)))) (eccError 0 u true) (fun _ _ => true)) &&
    completes (tileMemOf 0 none false (tileMemBits hi 3 0)) u (fun m _ =>
      completes (storeRows 0 ((List.range z.nrows).map (fun r => (rowAddr m.base m.stride r, z.rowBytes r)))) u (fun _ _ => true))) = true ∧
  issuing tile0 0 .tile (fun u =>
    let k := u.core 0
    let z := vget k.tile.z 0 ZTile.reset
    completes (tileMemOf 0 none false (tileMemBits (fields [(10, 1)]) 2 0)) u (fun m _ => decide (k.tile.queue.length < 16) &&
      completes m.aligned u (fun _ _ => true) && !k.tile.adding none && !k.tile.pool.isEmpty &&
      completes (readRows 0 ((List.range z.nrows).map (fun r => (rowAddr m.base m.stride r, 64 * z.ebytes)))) u (fun _ _ => true))) = true ∧
  (((tileSync (after (.tld 0 none (fields [(10, 1), (2, 1)]) 0) tile0) 0).core 0).tile.queue.map (fun e => (e.sem, e.op matches .tld _ _))) = [(some 0, true)] := by
  decide +kernel
/-- Core 0 with one tile instruction at work. -/
def queue0 (op : TileOp) : State := run0.modCore 0 (fun k => { k with tile := { k.tile with queue := [{ pc := 0x1000, op := op, sem := none, cnt := 0 }] } })
/-- A TMMA4 without a live row, fed at clk 0. -/
def tmma0 (rep : Bool) : Tmma :=
  { tg := false, zg := false, rows := [], src := [], w := TileRegs.reset.w, us := [], at' := 0, rep := rep,
    feeds := List.replicate 4 { arr := 0, clk := some 0, phys := none, done := false } }
theorem test_tile_compute_met : issuing tile0 0 .wait (fun _ =>
    let f : BitVec 26 := fields [(25, 1), (22, 7), (18, 1)]
    fld f 0 18 == 0 && bit f 25 && zShapeOk 0x100 && tShapeOk 0x040100) = true ∧
  issuing tile0 0 .tile (fun u =>
    let k := u.core 0
    let f : BitVec 26 := fields [(22, 1), (18, 1), (10, 2)]
    fld f 0 6 == 0 && fld f 10 2 != 3 && decide (k.tile.queue.length < 16) && k.tile.inuse != 0 && fld f 12 4 == 0 && (k.readA 1).toNat % 128 == 0 &&
    ((List.range 2).find? (fun b => (vget k.tile.bufs b none).isNone)) == some 0 &&
    completes (semReserve 0 (bit f 6) (fld f 7 3)) u (fun _ u1 => completes (tileRead 0 (k.readA 1) 2048) u1 (fun _ u2 =>
      completes (tileRead 0 (k.readA 1) (tlwSide 2 0)) u2 (fun _ _ => true)))) = true ∧
  issuing run0 0 .tile (fun u => tmmaOk (u.core 0).tile (u.core 0).tile.weights true true && (u.core 0).tile.inuse != 0 &&
    decide ((u.core 0).tile.queue.length < 16)) = true ∧
  (let v := tileSync (queue0 (.tlw 0 false)) 0
   (deliverFirst (v.core 0).tile.queue).isSome = true ∧ v.gateOpen 0 = true ∧ (v.core 0).ex.run = .running) := by decide +kernel
/-- A repeat of a TMMA4 with one live row, whose residue check fails on every tile. -/
def tmma1 : Tmma := { tmma0 true with rows := [0], w := { TileRegs.reset.w with live := 0 }, us := (List.range 4).map (fun q => .residue true (BitVec.ofNat 2 q) 0) }
/-- What TMMA4_COMPLETE finds: whether the TMMA4 is fed, whether the first failing row exists, TRAP, the arrays in use and the queue's length after it. -/
def found (s : State) : List Nat :=
  let v := toDone (toDone (tileSync s 0) 0) 0
  match (v.core 0).headTmma with
  | some (e, x, rest) =>
    let fs := if x.rep then x.fails (fld (v.core 0).tile.mgctl 0 5) true else []
    let y := firstFail fs v.free
    let t1 := (feedArrays v 0).modCore 0 (fun k => Core.settle { k with tile := k.tile.complete x e.pc rest fs y })
    [b01 (x.fed && (v.core 0).ex.run != .halted), b01 y.isSome, b01 (bit (t1.core 0).tile.mgctl 8), (t1.core 0).tile.inuse.toNat, (t1.core 0).tile.queue.length]
  | none => []
/-- queue0 with every array fused off since, and n TLDs behind. -/
def spent0 (n : Nat) : State := (queue0 (.tmma (tmma0 false))).modCore 0 (fun k => { k with tile := { k.tile with
  fused := 15, queue := k.tile.queue ++ List.replicate n { pc := 0x1004, op := .tld 0 TileReg.reset, sem := some 0, cnt := 0 } } })
theorem test_tile_complete_met : found (queue0 (.tmma (tmma0 false))) = [1, 0, 1, 15, 0] ∧ found (spent0 0) = [1, 0, 1, 0, 0] ∧
  found (spent0 1) = [1, 0, 1, 0, 1] := by decide +kernel
/-- tmma1 with its fresh tiles claimed. -/
def tmma2 : Tmma := { tmma1 with feeds := (List.range 4).map (fun q => { arr := 0, clk := some 0, phys := some (8 + q), done := false }) }
theorem test_tile_failed_met :
  (let v := toDone (toDone (tileSync (queue0 (.tmma tmma1)) 0) 0) 0
   (v.core 0).headTmma.map (fun h => h.2.1) = some tmma2 ∧ (v.core 0).tile.mgctl = 270 ∧ (v.core 0).ex.run ≠ .halted) ∧ tmma2.fed = true ∧
  (∀ n, firstFail (tmma2.fails (fld (270 : U64) 0 5) true) n ≠ none) ∧
  bit (TileRegs.reset.complete tmma2 0x1000 [] [] (some (0, { array := 0, row := 0, tile := 0, int := false }))).mgctl 8 = true := by
  refine ⟨by decide +kernel, by decide +kernel, fun n => ?_, by decide +kernel⟩
  have h : (tmma2.fails (fld (270 : U64) 0 5) true).isEmpty = false := by decide +kernel
  generalize tmma2.fails (fld (270 : U64) 0 5) true = l at h ⊢
  cases l <;> simp [firstFail] at h ⊢
theorem test_tstz_met : issuing tile0 0 .wait (fun u =>
    let k := u.core 0
    let f : BitVec 26 := fields [(19, 1), (15, 2), (13, 1)]
    let z := vget k.tile.z (fld f 23 3) ZTile.reset
    let out := classOut k.num.mode k.num.prof (fld f 13 2) (zcode z.zfmt)
    let x : Tstz := { src := zcode z.zfmt, fmt := out.1, sr := out.2, nonsat := k.nonsat, step := k.num.srStep, base := k.num.srBase, chan := 0,
                      scale := none, split := 0 }
    let o := x.line ((List.range 64).map (fun n => (0, n, decodeCode (zcode z.zfmt) (z.get 0 n).toNat)))
    let rows := tstzPlace 0 (k.readA 1) (k.readA 2) 0 (packElems (codeBits out.1) u.free (o.2.map (fun e => e.1)))
    z.nrows == 1 && fld f 0 11 == 0 && fld f 11 2 == 0 && canProduce (zcode z.zfmt) out.1 && !isMX out.1 && (k.readA 1).toNat % 4 == 0 &&
    (k.readA 2).toNat % 4 == 0 && codeBits out.1 == 32 && completes (storeRows 0 rows) { u with free := u.free + 64 } (fun _ _ => true)) = true := by decide +kernel
theorem test_tile_moves_met : issuing run0 0 .tile (fun u =>
    let f : BitVec 23 := fields [(20, 7), (17, 1)]
    let k := u.core 0
    fld f 0 17 == 0 && fld (fields (n := 23) [(20, 7)]) 17 3 == 0 && decide (k.tile.queue.length < 16) && !k.tile.unfed 7 (u.clkOf 0) &&
    !k.tile.loading 1 && !k.tile.adding none && !k.tile.adding (some true) && !k.tile.pool.isEmpty && (vget k.tile.t 1 TileReg.reset).shape == (vget k.tile.t 7 TileReg.reset).shape &&
    (vget k.tile.z 1 ZTile.reset).nrows == (vget k.tile.z 7 ZTile.reset).nrows && (vget k.tile.z 1 ZTile.reset).zfmt == (vget k.tile.z 7 ZTile.reset).zfmt) = true := by decide +kernel

/-! ### Streams, gathers and the hall: hypotheses that can be met -/

/-- An answer is there, and p holds of it. -/
def holds {α : Type} (o : Option α) (p : α → Bool) : Bool :=
  match o with
  | some a => p a
  | none => false
/-- Nonzero bytes of words at rising addresses. -/
def cells (ws : List (Nat × U64)) : List (Nat × Byte) :=
  ws.flatMap (fun x => ((List.range 8).map (fun i => (x.1 + i, BitVec.ofNat 8 (x.2.toNat >>> (8 * i))))).filter (fun c => c.2 != 0))
/-- A list of one block at 0x10000: 128 bytes of BF16 copied from 0x20000 to 0x30000; A1 names it. -/
def list0 : State := { regs [] [(1, 0x10000)] with mem := cells [(0x10000, 1), (0x10040, 0x20000), (0x10048, 0x30000), (0x10050, 128),
  (0x10058, 0x0001000100010001), (0x100A0, 0x40000)] }
/-- SSTART of engine 0. -/
def start0 : BitVec 22 := fields [(17, 1), (13, 2)]
/-- list0 after SSTART. -/
def started0 : State := after (.sstart 0 start0) list0
theorem test_stream_met : issuing list0 0 .plain (fun u =>
    let x := (u.core 0).eng 0
    let u1 := u.modCore 0 (fun k => k.modEng 0 (fun x => captured k x 0x10000))
    fld x.stat 0 2 == 0 && fld start0 0 13 == 0 && fld start0 21 1 == 0 && completes (startChecks 0 0 0x10000) u1 (fun r _ => match r with
      | .ok _ => true
      | .error _ => false) &&
    completes (startChecks 0 0 0x10008) u1 (fun r _ => match r with
      | .ok _ => false
      | .error _ => true) &&
    fld (fields (n := 22) [(17, 1)]) 0 17 == 0 && fld x.stat 0 2 != 1 && decide (x.nblk ≤ 0)) = true ∧
  issuing started0 0 .plain (fun u => fld ((u.core 0).eng 0).stat 0 2 == 1 && decide ((u.core 0).ring ≤ fld ((u.core 0).eng 0).stat 2 2)) = true := by decide +kernel
theorem test_stream_issue_met :
  (let x := (started0.core 0).eng 0
   fld x.stat 0 2 = 1 ∧ x.cancelled = false ∧ x.ending = none ∧ vget started0.cur.fns (coreFn 0) .enabled = .enabled ∧ x.poisoned = false ∧ x.faults = [] ∧
   x.nextBlk < x.nblk ∧ x.blocks = [] ∧ completes (readDesc 0 0 x.list 0) started0 (fun d s1 => x.cmode == false &&
     (Desc.reason d (Desc.out d x.cmod x.cprof).1 (engPhys s1 x .load)).isNone && !Desc.badOverlap d (Desc.out d x.cmod x.cprof).1) = true) := by decide +kernel
/-- Core 0 whose engine 0 runs a stream of one issued block: one BF16 element of 1.0 copied from 0x20000 to 0x30000. -/
def landing0 : State := { run0.modCore 0 (fun k => k.modEng 0 (fun x => { x with
  stat := 1, list := 0x10000, cmod := 1, nblk := 1, nextBlk := 1,
  blocks := [BlockProg.fresh 0 ([0x20000, 0x30000, 2, 0x0001000100010001] ++ List.replicate 8 0 ++ [0x40000, 0, 0, 0]) true false] })) with
  mem := [(0x20000, 0x80), (0x20001, 0x3F)] }
/-- Its granule landed. -/
def landed0 : State := after (.granuleLands 0 0 0 0) landing0
theorem test_stream_land_met :
  (let x := (landing0.core 0).eng 0
   let w := landing0.worker 0 0
   holds (x.block 0) (fun b => b.ok && decide (0 < (Desc.granules b.ws).length) && !b.has 0 && !x.faulted b.blk 0 && (inFlight landing0 x).contains (b.blk, 0) &&
     !b.isRead (x.conv b.ws) 0 && !mustWait landing0 x b 0 && !(x.conv b.ws).square &&
     completes (readOnce w b 0) landing0 (fun y s1 => completes (finishGran w ((((s1.core 0).eng 0).block 0).getD b) 0 y) s1 (fun _ _ => true))) = true) ∧
  holds ((landed0.core 0).eng 0).blocks.head? (fun b => b.full) = true := by decide +kernel
/-- The engine of started0 with a block that could not be read and a fault at it. -/
def faulted0 : State := { started0 with mem := [] }.modCore 0 (fun k => k.modEng 0 (fun x => { x with
  nextBlk := 1, faults := [{ blk := 0, gran := 0, subc := 7, addr := 0x10040 }],
  blocks := [BlockProg.fresh 0 [] false false] }))
theorem test_stream_halt_met :
  (let x := (faulted0.core 0).eng 0
   fld x.stat 0 2 = 1 ∧ x.cancelled = false ∧ x.ending = none ∧ x.firstFault.isSome = true ∧ x.blocks.map (fun b => (b.blk, b.full)) = [(0, false)] ∧
   (inFlight faulted0 x).all (stuckGran faulted0 x) = true ∧ faulted0.fab.reqs = []) ∧
  fld ((after (.streamHalt 0 0) faulted0).core 0 |>.eng 0).stat 0 2 = 2 := by decide +kernel
theorem test_semaphore_met : issuing (tile0.modCore 0 (fun k => k.writeD 1 4095)) 0 .plain (fun u =>
    let f : BitVec 22 := fields [(19, 0), (18, 0), (14, 1)]
    isCompute 0 && fld f 0 14 == 0 && bit (vget (u.core 0).str.sem 0 0) 32 == false && fld (vget (u.core 0).str.sem 0 0) 0 16 != 0 &&
    fld (fields (n := 22) [(19, 7), (18, 1)]) 0 18 == 0 && ((u.core 0).readD 1).toNat == 4095 && (u.core 0).ring == 0 &&
    vget (u.core 0).str.bara 15 none != some (vget u.barriers 15 Barrier.reset).gen) = true := by decide +kernel
/-- A gather descriptor at 0x4000: one index at 0x5000, one 64-byte row from a table of two at 0x6000 to 0x7000, engine 0; A1 names it. -/
def gather0 : State := { regs [] [(1, 0x4000)] with mem := cells [(0x4000, 0x5000), (0x4008, 0x6000), (0x4010, 0x7000), (0x4018, 0x100000001),
  (0x4020, 0x4000000040), (0x4028, 2), (0x4030, 1), (0x5000, 1)] }
/-- GSUBMIT. -/
def submit0 : BitVec 22 := fields [(18, 1), (14, 2)]
/-- gather0 after GSUBMIT. -/
def queued0 : State := after (.gsubmit 0 submit0) gather0
/-- Its position taken. -/
def gathered0 : State := after (.gatherPosition 0) queued0
theorem test_gather_met : issuing gather0 0 .plain (fun u => fld submit0 0 14 == 0 && ((u.core 0).readA 1).toNat % 64 == 0 &&
    completes (tileRead 0 ((u.core 0).readA 1) 64) u (fun _ _ => true)) = true ∧
  issuing queued0 0 .plain (fun u => u.gather.jobs.length == 1 && u.gather.jobs.all (fun j => j.core == 0 && j.addr == 0x4000 && !(j.fail.isNone && j.done))) = true ∧
  holds (queued0.jobAt 0) (fun j => completes (gPosition j (j.liveTask queued0) (j.rank 0) (nth 0 j.next (j.rank 0))) queued0 (fun _ _ => true)) = true ∧
  holds (gathered0.job 0) (fun j => j.done && j.fail.isNone) = true := by decide +kernel

/-- A module at stage 8 with call number 5, edition 1, port 0 up; module 6 beyond it; a seal tree whose parent and voting child is module 6. -/
def hall0 : State := { State.reset with
  plat := { State.reset.plat with main := true, stage := 8, pwrEn := true, present := true, vin := 40000 },
  fab := { State.reset.fab with
    id := 0x1000100005, ports := State.reset.fab.ports.set 0 { PortSt.reset with up := true, credit := Vector.replicate 8 64 },
    cat := [{ call := 6, shelf := 0x200, edition := 1, state := .active, minPorts := 1, nonMin := 0, det := 0, dist := 1 }] },
  led := { State.reset.led with
    ctl := 0xC1, stat := 2, step := 3, post := some 2, tree := 0x200006, kids := vput State.reset.led.kids 0 6, sealed := true } }
/-- A packet from module 6 to this module, with its CRCs. -/
def from6 (k : Packet) : Packet :=
  let k := { k with dcall := 5, ded := 1, scall := 6, sed := 1 }
  let k := { k with pcrc := pktP k }
  { k with lcrc := pktL k }
/-- A link-local packet from module 6. -/
def near6 (k : Packet) : Packet :=
  let k := { k with dcall := 0xFFFFF, scall := 6, sed := 1 }
  let k := { k with pcrc := pktP k }
  { k with lcrc := pktL k }
/-- Port 0 delivers a packet. -/
def takes (s : State) (k : Packet) : Bool := (receive s 0 k).2
/-- A packet of a type with n flits. -/
def msg (ty : BitVec 5) (vc : BitVec 3) (n : Nat) : Packet := { pktEmpty with ty := ty, vc := vc, body := .flits (List.replicate (64 * n) 0) }
theorem test_ports_met : (State.reset.port 3).up = false ∧ (hall0.port 3).up = false ∧ (hall0.port 0).up = true ∧ hall0.plat.main = true ∧ 6 ≤ hall0.plat.stage ∧
  hall0.plat.halted = false ∧ hall0.plat.recovery = false ∧ ((after (.liveSend 0) hall0).port 0).retry ≠ [] := by decide +kernel
/-- hall0 with port 0 its time parent, a LIVE sent that echoed one received, and holdover. -/
def timed0 : State := { (hall0.setPort 0 (fun p => { p with liveTx := [{ txs := 9, at' := 9, echo := some (4, 5) }] })) with
  hall := { hall0.hall with stat := 0, once := true } }
theorem test_hall_time_met : takes hall0 (near6 (msg tyLIVE 4 0)) = true ∧
  (let k := near6 { msg tyLIVE 4 0 with tag := 1, w2 := 9 }
   takes timed0 k = true ∧ bit k.tag 0 = true ∧ (receive timed0 0 k).1.parentPort = some 0 ∧
   ((receive timed0 0 k).1.port 0).liveTx.find? (fun l => l.txs == k.w2) = some { txs := 9, at' := 9, echo := some (4, 5) }) ∧
  (bit timed0.hall.stat 2 = false ∧ timed0.hall.once = true ∧ bit timed0.hall.stat 1 = false) ∧ bit (holdover timed0).hall.stat 1 = true ∧
  takes hall0 (near6 { msg tyHELLO 4 1 with body := .hello 0x200 6 1 0 0 true }) = true := by decide +kernel
/-- A first catalogue update. -/
def upd0 : CatUpdate := { gen := 1, tact := 50, entries := [{ call := 1, shelf := 0x100, edition := 1, state := .active, minPorts := 0, nonMin := 0, det := 0, dist := 0 }],
                          root := some 0x100, more := false }
/-- hall0 as the module of mark 0x100, the cataloguer, with a link between 0x300 and 0x200 that is down. -/
def cat0 : State := { hall0 with fab := { hall0.fab with shelf := 0x100000100, isCat := true, links := [(0x300, 0, some 0x200, false)] } }
theorem test_catalogue_met : takes hall0 (near6 { msg tyMGMT 5 0 with body := .claim 0 0x200 }) = true ∧
  takes hall0 (near6 { msg tyMGMT 5 0 with body := .update upd0 }) = true ∧
  (cat0.fab.isCat = true ∧ cat0.updateOk upd0 = true ∧ cat0.fab.suspects = [] ∧ (cat0.catOf 6).isSome = true) ∧
  (let s : State := { cat0 with fab := { cat0.fab with isCat := false, links := [], rank := 0, claim := some (0, 0x100, 0), claims := [claimKey 0 0x100] } }
   s.mark = some 0x100 ∧ s.fab.claim = some (s.fab.rank, 0x100, 0) ∧ s.fab.rank ≠ 7 ∧ s.fab.isCat = false ∧ s.fab.gen = 0 ∧ firstOk s upd0 = true) ∧
  (({ hall0 with fab := { hall0.fab with pend := [upd0] } } : State).nextUpdate = some upd0) ∧
  (cat0.fab.links.any (fun l => l.2.2.1 == some 0x200) = true ∧ cat0.fab.links.all (fun l => l.2.2.1 != some 0x200 || l.2.2.2 == false) = true) ∧
  (let u : CatUpdate := { upd0 with entries := [{ call := 6, shelf := 0x200, edition := 1, state := .withdrawn, minPorts := 0, nonMin := 0, det := 0, dist := 0 }] }
   let s : State := { cat0 with fab := { cat0.fab with suspects := [{ call := 6, since := 0, answered := false }] } }
   withdraws s 6 u = true ∧ (s.fab.suspects.find? (fun x => x.call == 6 && !x.answered)).isSome = true) ∧
  (let u : CatUpdate := { upd0 with entries := [{ call := 6, shelf := 0x300, edition := 2, state := .active, minPorts := 0, nonMin := 0, det := 0, dist := 0 }] }
   let s : State := { cat0 with fab := { cat0.fab with wants := [6] } }
   withdraws s 6 u = true ∧ s.fab.suspects = [] ∧ s.fab.wants.contains 6 = true) := by decide +kernel
theorem test_device_met : issuing run0 0 .plain (fun u =>
    (u.core 0).ring == 0 && (u.core 0).accTask.isNone && vget u.cur.fns 6 .enabled == .enabled && u.fab.planQ.isEmpty && u.led.st == 0 && !u.led.sealed &&
    completes (deviceWrite 0 0 0x300010 8 1 (n64 0xE000300010)) u (fun _ _ => true) && boxServes 6 0 0) = true ∧
  issuing (run0.modLed (fun l => { l with quiet := some 9 })) 0 .plain (fun u => u.led.quiet == some 9 && (u.core 0).ring == 0) = true := by decide +kernel
theorem test_requests_met : takes hall0 (from6 { msg tyRDREQ 0 0 with ngran := 1 }) = true ∧ takes hall0 (from6 (msg tyWRREQ 0 1)) = true ∧
  takes hall0 (from6 { msg tyATOMREQ 0 0 with asz := 3 }) = true ∧ takes hall0 (from6 (msg tyPROBE 4 0)) = true ∧
  (let k := { msg tyRDREQ 0 0 with ngran := 1, dcall := 7, scall := 6, sed := 1, hops := 1 }
   let k := { k with pcrc := pktP k }
   let k := { k with lcrc := pktL k }
   (linkIn hall0 0 k).2 = true ∧ formOk k = true ∧ forHere hall0 k = false ∧ hall0.overtaken 6 1 = false ∧ k.ty ≠ tyLEDGER) := by decide +kernel
/-- hall0 with one request of core 0 to module 6 pending under TAG 1. -/
def asked0 (op : HallOp) : State := { hall0 with fab := { hall0.fab with
  reqs := [{ tag := 1, who := .core 0, req := { addr := n64 (6 <<< 40 + 1 <<< 63), op := op }, deadline := 1000, noRoute := true }] } }
theorem test_answers_met :
  (let k := from6 { msg tyRDRESP 1 1 with tag := 1 }
   takes (asked0 (.read 8 false)) k = true ∧ ((receive (asked0 (.read 8 false)) 0 k).1.asked k).isSome = true) ∧
  (let k := from6 { msg tyWRACK 1 0 with tag := 1 }
   takes (asked0 (.write [0] 0)) k = true ∧ ((receive (asked0 (.write [0] 0)) 0 k).1.asked k).isSome = true) ∧
  (let k := from6 { msg tyATOMRESP 1 0 with tag := 1 }
   takes (asked0 (.atomic 0 3 0 0)) k = true ∧ ((receive (asked0 (.atomic 0 3 0 0)) 0 k).1.asked k).isSome = true) ∧
  (takes hall0 (from6 (msg tyREFUSE 1 0)) && takes hall0 (from6 (msg tyPROBERESP 4 0)) && takes hall0 (from6 (msg tyWATCHREL 0 0)) &&
    takes hall0 (from6 (msg tyWATCHBREAK 1 0))) = true ∧ ((asked0 (.read 8 false)).reqOf 1).isSome = true := by decide +kernel
/-- hall0 with a plan 1 of a kind: LOCAL, parent 6, child 6, LIMIT 4, and a trigger for its unit 0. -/
def plan0 (w0 : U64) : State := { hall0 with fab := { hall0.fab with
  plans := [(1, [w0 + n64 (8 + 1 <<< 4 + 6 <<< 32), 6, 0, 0, 0, 0x10000, 0x20000, 4])], planQ := [n64 (1 + 1 <<< 44)] } }
theorem test_plans_met : ((hall0.plan 1).isNone && (plan0 1).led.quiet.isNone && !(plan0 1).fab.broken.contains 1) = true ∧
  holds ((plan0 1).plan 1) (fun e => planKind e == 1 && planLocal e && planKid e 6 == some 0 && planLimit e == 4) = true ∧
  holds ((plan0 6).plan 1) (fun e => planKind e == 2 && planRoot e && planLocal e) = true ∧
  holds ((plan0 2).plan 1) (fun e => planKind e == 2 && !planRoot e && planParent e == 6) = true ∧
  holds ((plan0 3).plan 1) (fun e => planKind e == 3 && planLocal e && !((plan0 3).run 1).waiting) = true ∧
  (takes (plan0 1) (from6 { msg tyREDUCE 2 4 with plan := 1 }) && takes (plan0 3) (from6 { msg tyHARRIVE 2 0 with plan := 1 }) &&
    takes (plan0 2) (from6 { msg tyMCAST 3 4 with plan := 1 }) && takes (plan0 3) (from6 { msg tyHRELEASE 3 0 with plan := 1 })) = true ∧
  (((plan0 3).modRun 1 (fun r => { r with relAt := some 9 })).run 1).relAt = some 9 := by decide +kernel
theorem test_seal_met :
  (let s := hall0.modLed (fun l => { l with post := none, kidVotes := [(6, { word := 0, loss := 0, tokens := 0, members := 1 })] })
   s.voteOpen = true ∧ s.led.voted = false ∧ s.led.st = 2 ∧ s.led.post = none ∧ s.led.voting = [6] ∧ s.led.kidVotes.map (fun v => v.1) = [6]) ∧
  ([1, 2, 3, 4, 5, 6].all (fun i =>
     let k := from6 { msg tyLEDGER 7 0 with plan := BitVec.ofNat 12 i, tag := if i ≤ 2 then 3 else 2 }
     takes hall0 k && ledAdmits (receive hall0 0 k).1 k && ledActs ((receive hall0 0 k).1.owe (some 0) k) k && vget (receive hall0 0 k).1.cur.fns 7 .enabled == .enabled)) = true ∧
  (let k := from6 { msg tyLEDGER 7 0 with plan := 1, tag := 9 }
   takes hall0 k = true ∧ ledAdmits (receive hall0 0 k).1 k = false) ∧
  hall0.ledWorks = true ∧ ({ hall0 with fab := { hall0.fab with id := 0x2000100005 } } : State).feState = 2 ∧ hall0.cur.ftest = none := by decide +kernel

/-! ### Power, the Curator, bring-up and the pins: hypotheses that can be met -/

theorem test_source_key_met :
  (let s := hall0.modBox 2 (fun m => { m with bind := some (0xFFFFE, 0, 1) })
   (s.box 2).bind = some (0xFFFFE, 0, 1)) ∧ (hall0.box 5).bind = none ∧ (1 : Nat) < 2 ∧ 5 < (6 : Nat) := by decide +kernel
theorem test_frequency_met :
  (let s := hall0.modPow (fun p => { p with cap := p.cap, target := 1100, freq := 1100, ctl := 0 })
   s.pow.fixed = false ∧ s.plat.main = true ∧ s.plat.stage = 8 ∧ s.pow.target = 1100) ∧
  (let s := hall0.modPow (fun p => { p with freq := 1100, change := some { target := 1125, relocked := true, readyAt := some 5, counted := false } })
   s.pow.change.isSome = true ∧ s.pow.clear = true ∧ s.pow.freq < 1125 ∧ max (max 5 (s.pow.clearAt + 10000)) s.now ≤ 5 + 1000000) ∧
  (let s := hall0.modPow (fun p => { p with freq := 1100, change := some { target := 1125, relocked := true, readyAt := some 5, counted := false },
                                            droop := Vector.replicate 5 { tripped := true, depth := 3 } })
   s.pow.freq < 1125 ∧ s.pow.droopAllows (max s.now (5 + 1000000)) = false) ∧
  (hall0.modPow (fun p => { p with ramping := true })).pow.ramping = true ∧
  issuing (run0.modPow (fun p => { p with ctl := 0 })) 0 .plain (fun u => fld (fields (n := 22) [(18, 15), (17, 1), (13, 1)]) 0 13 == 0 && fld u.pow.ctl 8 8 == 0) = true ∧
  issuing (run0.modPow (fun p => { p with ctl := 0x8F00 })) 0 .plain (fun u => fld u.pow.ctl 8 8 != 0) = true ∧
  (hall0.modPow (fun p => { p with phaseReq := some (15, some 9) })).pow.phaseReq = some (15, some 9) := by decide +kernel
theorem test_power_met :
  (hall0.modPow (fun p => { p with ctl := 1 })).pow.fixed = true ∧ (40 < (41 : BitVec 8).toNat ∧ (100 : BitVec 8).toNat ≤ 100) ∧
  ((hall0.modPow (fun p => { p with droop := Vector.replicate 5 { tripped := true, depth := 3 } })).pow.droop.get 4).tripped = true ∧ hall0.plat.main = true ∧
  hall0.pow.throt.toNat < (255 : BitVec 8).toNat ∧
  ((hall0.modPow (fun p => { p with gates := Vector.replicate 4 { (p.gates.get 0) with opens := some 9 } })).pow.gates.get 3).opens = some 9 ∧
  (let s := hall0.modPow (fun p => { p with gates := Vector.replicate 4 { (p.gates.get 0) with step := 8, opens := none } })
   (s.pow.gates.get 3).step ≠ 0 ∧ (s.pow.gates.get 3).opens = none) ∧
  (hall0.modPow (fun p => { p with broker := some (0, []) })).pow.broker = some (0, []) ∧
  takes hall0 (near6 { msg tyMGMT 5 0 with body := .words 1 [5, 6] }) = true := by decide +kernel
theorem test_input_met : hall0.plat.present = true ∧ (35999 : BitVec 16).toNat < 36000 ∧ 44000 < (44001 : BitVec 16).toNat ∧
  (hall0.modPlat (fun p => { p with uvTrip := true })).plat.uvTrip = true ∧ 37000 < (37001 : BitVec 16).toNat ∧ (State.reset.modPlat (fun p => { p with present := false })).plat.present = false ∧
  20000 < (20001 : BitVec 16).toNat ∧ hall0.plat.main = true ∧ 110 < (111 : BitVec 8).toNat ∧ hall0.plat.pwrEn = true := by decide +kernel
/-- hall0 with a slip of a command from the owner, in a mailbox. -/
def slipped (mb cmd : Nat) (args : List U64) (pay : List Byte) : State :=
  { hall0 with cur := { hall0.cur with owner := some { key := n64 mb, standing := 1, lease := 1000000 } } }.modBox mb (fun m => { m with slip := some {
    cmd := cmd, more := false, crcen := true, plen := pay.length, seq := 1, args := args, scrc := 0, crc := 0, rsv := false, payload := pay, key := n64 mb,
    own := true, groups := 0x3F, taken := false, ord := 0, at' := 0, rival := none } })
/-- The command's slip is taken up with these arguments and this payload. -/
def heeds (s : State) (mb cmd : Nat) (args : List U64) (pay : List Byte) : Bool :=
  holds (s.slipFor mb cmd) (fun x => x.1.args == args && x.2 == pay && x.1.key == n64 mb)
theorem test_mailbox_met : hall0.portLive = true ∧ leNat ([1#8].take 1) = 1 ∧ [1#8].length ≤ 4232 ∧ bit (hall0.box 1).stat 0 = false ∧
  bit ((hall0.modBox 1 (fun m => { m with stat := 1 })).box 1).stat 0 = true ∧
  (let s := reply (slipped 1 0x10 [] []) 1 stOK [] []
   (s.box 1).slip.isSome = true ∧ (s.box 1).reply.isSome = true) ∧
  holds ((slipped 1 0x99 [] []).box 1).slip (fun sl => (slipped 1 0x99 [] []).judge 1 sl == .refuse stBADCMD false && !sl.taken) = true ∧
  (let s := (slipped 1 0x42 [] []).modBox 1 (fun m => { m with slip := m.slip.map (fun sl => { sl with more := true }) })
   holds (s.box 1).slip (fun sl => s.judge 1 sl == .part) = true ∧ (s.box 1).reply = none) ∧
  (heeds (slipped 1 0x46 [5, 0xFFFFF, 0] []) 1 0x46 [5, 0xFFFFF, 0] [] && heeds (slipped 1 0x46 [2, 0xFFFFE, 0xFFFF] []) 1 0x46 [2, 0xFFFFE, 0xFFFF] []) = true ∧
  ((hall0.modBox 5 (fun m => { m with bind := some (6, 0, 1) })).box 5).bind ≠ none := by decide +kernel
theorem test_ownership_met : (heeds (slipped 1 0x01 [] []) 1 0x01 [] [] && heeds (slipped 1 0x02 [7] []) 1 0x02 [7] [] && (slipped 1 0x02 [7] []).isOwner 1 &&
    heeds (slipped 1 0x03 [] []) 1 0x03 [] [] && heeds (slipped 1 0x04 [] []) 1 0x04 [] [] && heeds (slipped 1 0x05 [7, 63] []) 1 0x05 [7, 63] [] &&
    heeds (slipped 1 0x05 [2, 63] []) 1 0x05 [2, 63] [] && ((slipped 1 0x05 [2, 63] []).box 2).bind.isNone && heeds (slipped 1 0x06 [] []) 1 0x06 [] [] &&
    (slipped 1 0x06 [] []).plat.forceKey.isNone && heeds (slipped 1 0x07 [] (List.replicate 32 0)) 1 0x07 [] (List.replicate 32 0)) = true ∧
  (let s : State := { slipped 1 0x02 [7] [] with cur := { (slipped 1 0x02 [7] []).cur with owner := none } }
   heeds s 1 0x02 [7] [] = true ∧ s.cur.owner = none ∧ s.isOwner 1 = false ∧ s.cur.contest = none ∧
   holds (s.box 1).slip (fun sl => sl.rival.isNone && decide (sl.at' < 5)) = true) ∧
  (let s := (slipped 1 0x02 [7] []).modBox 1 (fun m => { m with slip := m.slip.map (fun sl => { sl with own := false, rival := some { key := 0, standing := 1, lease := 9 } }) })
   let s : State := { s with cur := { s.cur with owner := none } }
   heeds s 1 0x02 [7] [] = true ∧ s.isOwner 1 = false) ∧
  (let s : State := { slipped 1 0x02 [7] [] with cur := { (slipped 1 0x02 [7] []).cur with owner := some { key := 0, standing := 1, lease := 9 } } }
   heeds s 1 0x02 [7] [] = true ∧ s.isOwner 1 = false ∧ s.cur.owner.isSome = true) ∧
  (let s : State := { slipped 1 0x02 [7] [] with cur := { (slipped 1 0x02 [7] []).cur with owner := none, contest := some (5, [(1, 1, 7)]) } }
   s.claimants ≠ [] ∧ heeds s 1 0x02 [7] [] = true ∧ s.isOwner 1 = false) ∧
  (let s : State := { hall0 with cur := { hall0.cur with contest := some (5, [(1, 1, 7)]) } }
   s.claimants = []) ∧ (slipped 1 0x01 [] []).renewing 1 = false := by decide +kernel
/-- hall0 in slot 0. -/
def slot0 : State := { hall0 with fab := { hall0.fab with shelf := 0 } }
/-- A token for slot0 under a key is valid where its signature verifies. -/
theorem test_token_met (key : List Byte) (h : Config.tokenVerify key (List.replicate 0x40 0) (List.replicate (tokenLen - 0x40) 0) = true) :
    slot0.tokenOk key (List.replicate tokenLen 0) = true := by
  have r (n m : Nat) (e : n = m) : List.replicate n (0 : Byte) = List.replicate m 0 := by rw [e]
  have e1 : (List.replicate tokenLen (0 : Byte)).take 0x40 = List.replicate 0x40 0 := by rw [List.take_replicate]; exact r _ _ (by decide)
  have e2 : (List.replicate tokenLen (0 : Byte)).drop 0x40 = List.replicate (tokenLen - 0x40) 0 := by rw [List.drop_replicate]
  have e4 : ((List.replicate tokenLen (0 : Byte)).drop 0x20).take 0x20 = List.replicate 32 0 := by
    rw [List.drop_replicate, List.take_replicate]; exact r _ _ (by decide)
  have e3 (o : Nat) (ho : min 8 (tokenLen - o) = 8) : tokWord (List.replicate tokenLen 0) o = 0 := by
    unfold tokWord
    rw [List.drop_replicate, List.take_replicate, r _ _ ho]
    decide
  unfold State.tokenOk
  rw [e1, e2, e4, h, e3 0 (by decide), e3 8 (by decide), e3 0x18 (by decide), List.length_replicate]
  decide +kernel
theorem test_reads_met : ([0x10, 0x11, 0x34, 0x50, 0x70].all (fun c => heeds (slipped 1 c [] []) 1 c [] []) && heeds (slipped 1 0x12 [4096] []) 1 0x12 [4096] [] &&
    heeds (slipped 1 0x13 [0] (List.replicate 32 0)) 1 0x13 [0] (List.replicate 32 0) &&
    heeds ((slipped 1 0x13 [4096] []).modBox 1 (fun m => { m with quote := some [] })) 1 0x13 [4096] [] && decide (4096 < quoteLen) &&
    heeds (slipped 1 0x43 [4032, 64] []) 1 0x43 [4032, 64] [] && heeds (slipped 1 0x44 [0xFFF00, 256] []) 1 0x44 [0xFFF00, 256] [] &&
    heeds (slipped 1 0x72 [0, 0xF000, 4096] []) 1 0x72 [0, 0xF000, 4096] [] && hall0.ledWord 0 0 == 0 && fld (hall0.ledWord 0 8) 0 2 == 0) = true ∧
  (let s : State := { hall0 with mem := cells [(0x8FFC000008, 1)] }
   s.ledWord 0 0 = 0 ∧ fld (s.ledWord 0 8) 0 2 ≠ 0) := by decide +kernel
theorem test_functions_met : (heeds (slipped 1 0x20 [] []) 1 0x20 [] [] && heeds (slipped 1 0x21 [9, 100000] []) 1 0x21 [9, 100000] [] && hall0.fnState 9 == .enabled &&
    heeds (slipped 1 0x22 [1] []) 1 0x22 [1] [] && (hall0.setFn 1 .disabled).fnState 1 == .disabled && (hall0.setFn 1 .resetting).fnState 1 == .resetting &&
    heeds (slipped 1 0x23 [9, 100000, 1] []) 1 0x23 [9, 100000, 1] [] && heeds (slipped 1 0x24 [] []) 1 0x24 [] [] && hall0.plat.fw.isNone &&
    heeds (slipped 1 0x28 [100000] []) 1 0x28 [100000] [] && heeds (slipped 1 0x25 [143] []) 1 0x25 [143] [] && !(hall0.core 143).ex.stop.valid &&
    (let s := (slipped 1 0x26 [143, 4] []).modCore 143 (fun k => { k with ex := { k.ex with stop := { k.ex.stop with valid := true } } })
     heeds s 1 0x26 [143, 4] [] && (s.core 143).ex.stop.valid && (s.core 143).ex.run != .parked && s.fnState (coreFn 143) == .enabled) &&
    heeds (slipped 1 0x27 [0] []) 1 0x27 [0] [] && heeds (slipped 7 0x29 [0] []) 7 0x29 [0] [] && (run0.core 0).ex.run == .running &&
    heeds (slipped 7 0x2A [0] []) 7 0x2A [0] [] && ((haltCore run0 0).core 0).ex.run == .halted) = true ∧
  (let w : FnWork := { drain := 5, limit := 5, aborts := 0, reset := true, stay := false, waits := [(1, true)] }
   let s (x : FnSt) : State := (hall0.setFn 2 x).setWork 2 (some w)
   (s .draining).fnWork 2 = some w ∧ (s .draining).fnState 2 = .draining ∧ (s .resetting).fnWork 2 = some w ∧ (s .resetting).fnState 2 = .resetting ∧
   coreFn 31 = 2) := by decide +kernel
theorem test_settings_met : (heeds (slipped 1 0x30 [0x8F05] []) 1 0x30 [0x8F05] [] && heeds (slipped 1 0x31 [15, 1350, 64] []) 1 0x31 [15, 1350, 64] [] &&
    heeds (slipped 1 0x32 [65535, 1, 2400] []) 1 0x32 [65535, 1, 2400] [] && heeds (slipped 1 0x33 [0xFFFFFFFF] []) 1 0x33 [0xFFFFFFFF] [] &&
    heeds (slipped 1 0x40 [0xFFFFFF, 0x107] []) 1 0x40 [0xFFFFFF, 0x107] [] && heeds (slipped 1 0x41 [] (List.replicate 8 0)) 1 0x41 [] (List.replicate 8 0) &&
    hall0.catCall.isNone && heeds (slipped 1 0x42 [4095, 1] (List.replicate 64 0)) 1 0x42 [4095, 1] (List.replicate 64 0) && planEntryOk (List.replicate 8 0) &&
    !hall0.planBusy 4095 && heeds (slipped 1 0x45 [] []) 1 0x45 [] [] && heeds (slipped 1 0x51 [127] []) 1 0x51 [127] [] &&
    heeds (slipped 1 0x52 [] []) 1 0x52 [] [] && hall0.cur.ftest.isNone && heeds (slipped 1 0x53 [0x2000] []) 1 0x53 [0x2000] [] && isMem 0x2000 &&
    heeds (slipped 1 0x60 [1] []) 1 0x60 [1] [] && heeds (slipped 1 0x71 [5, 6] []) 1 0x71 [5, 6] [] && timed0.hall.once) = true ∧
  ({ hall0 with cur := { hall0.cur with tmNext := 5 } } : State).cur.tmNext ≠ 0 := by decide +kernel
theorem test_firmware_met : heeds (slipped 1 0x80 [0, n64 stagingSize] []) 1 0x80 [0, n64 stagingSize] [] = true ∧
  (let sl : Slip := { cmd := 0x80, more := false, crcen := true, plen := 0, seq := 1, args := [0, 1], scrc := 0, crc := 0, rsv := false, payload := [], key := 1,
                      own := true, groups := 0, taken := false, ord := 0, at' := 0, rival := none }
   (slipped 1 0x80 [0, 1] []).fwMay sl [] = stOK) ∧
  (let s (x : Option (Nat × Nat × Bool)) (args : List U64) : State := (slipped 1 0x80 args []).modPlat (fun p => { p with fw := some { len := 4096, ending := x } })
   (heeds (s none [1, 0]) 1 0x80 [1, 0] [] && heeds (s none [2, 1]) 1 0x80 [2, 1] []) = true ∧ (s none [1, 0]).plat.fw = some { len := 4096, ending := none } ∧
   (s (some (1, 1, true)) []).plat.fw = some { len := 4096, ending := some (1, 1, true) }) ∧
  (hall0.modPlat (fun p => { p with recovery := true })).plat.recovery = true := by decide +kernel
theorem test_bringup_met :
  (let s := State.reset.modPlat (fun p => { p with present := true, vin := 30000 })
   s.plat.present = true ∧ s.plat.uvTrip = false ∧ s.plat.ovTrip = false ∧ s.plat.thermTrip = false ∧ s.plat.vin < 38000) ∧
  (hall0.plat.main = true ∧ hall0.plat.modReset = false ∧ 1000 ≤ (1000 : BitVec 32).toNat) ∧
  ([0, 1, 2, 3, 4, 5, 6, 7, 8].all (fun n => (hall0.modPlat (fun p => { p with stage := n })).atStage n)) = true ∧
  (hall0.plat.hubEntry = none ∧ hall0.plat.hubTry = none ∧ bit (0 : BitVec 24) 0 = false ∧ bit (2 : BitVec 24) 1 = true ∧ (hall0.port 1).up = false) := by decide +kernel
theorem test_hall_ref_met :
  (let s : State := { hall0 with hall := { hall0.hall with refEdge := some 0, refNew := true, refSec := some 7, refSeq := true } }
   s.plat.main = true ∧ s.hall.refEdge = some 0 ∧ 0 + 999999000 ≤ s.now + (1000001000 : BitVec 32).toNat ∧
   s.now + (1000001000 : BitVec 32).toNat ≤ 0 + 1000001000 ∧ s.hall.refNew = true ∧ s.hall.refSec ≠ none ∧ s.hall.refSeq = true) ∧
  hall0.hall.refNew = false ∧ timeCode [] = none := by decide +kernel
theorem test_pins_met : hall0.plat.present = true ∧
  (let s := hall0.modPlat (fun p => { p with jlive := true })
   s.jtagLive = true ∧ s.plat.modReset = false ∧ (s.modPlat (fun p => { p with modReset := true })).plat.modReset = true ∧ s.portLive = true) ∧
  fld (fields (n := 82) [(64, 1)]) 64 16 % 8 ≠ 0 ∧ fld (fields (n := 82) [(64, 8), (80, 1)]) 64 16 % 8 = 0 ∧ bit (fields (n := 82) [(64, 8), (80, 1)]) 80 = true := by decide +kernel
theorem test_accumulator_met : -(2 ^ 79) ≤ (2 ^ 79 - 1 : Int) ∧ (-(2 ^ 79) - 1 : Int) < -(2 ^ 79) ∧ (2 ^ 79 - 1 : Int) < 2 ^ 79 ∧ (7 : Nat) < 8 ∧
  bit ((run0.modCore 0 (fun k => { k with num := { k.num with fxctl := 1 } })).core 0).num.fxctl 0 = true ∧
  bit ((run0.modCore 0 (fun k => { k with num := { k.num with fxctl := 0 } })).core 0).num.fxctl 0 = false := by decide +kernel

/-! ### Ill-formed terms that WellFormed refuses -/

theorem test_wf_refuses : ([.deviceRegisterWrite 0 4 true 0, .deviceRegisterWrite 0 2 false 0, .live 0 (msg 0x1A 4 0), .live 0 (msg 0x19 4 1), .hello 0 (msg 0x18 4 1),
    .catalogueClaim 0 (msg 0x1C 5 0), .cataloguerElected { upd0 with gen := 2 }, .catalogueUpdate none (msg 0x1C 5 0),
    .catalogueUpdate none { msg 0x1C 5 0 with body := .update { upd0 with entries := upd0.entries.map (fun e => { e with call := 0xFFFFF }) } },
    .moduleSuspect 0xFFFFF, .moduleWithdrawn 6 upd0, .probe 0 (msg 0x1A 4 1), .proberesp 0 (msg 0x1A 4 0), .rdreq 0 (msg 0x01 0 1),
    .wrreq 0 (msg 0x03 0 0), .wrreq 0 (msg 0x03 0 5), .wrreq 0 { msg 0x03 0 1 with rsv := true }, .atomreq 0 (msg 0x05 0 1), .rdresp 0 (msg 0x02 1 0),
    .wrack 0 (msg 0x04 1 1), .atomresp 0 (msg 0x06 1 1), .refuse none (msg 0x07 1 1), .watchrel 0 (msg 0x08 0 1), .watchbreak 0 (msg 0x09 1 1),
    .reduce 0 (msg 0x10 2 3), .mcast 0 (msg 0x11 3 0), .harrive 0 (msg 0x12 2 1), .hrelease 0 (msg 0x13 3 1)] : List Instr).all (fun i => !i.wf) = true := by decide +kernel
theorem test_wf_refuses_more : ([.vote 0 { msg 0x1D 7 1 with plan := 2 }, .outcome 0 { msg 0x1D 7 5 with plan := 2 }, .digup 0 (msg 0x1D 7 4), .digdown 0 (msg 0x1D 7 4),
    .uwrup 0 (msg 0x1D 7 4), .ratiodn 0 (msg 0x1D 7 4), .managementFrame (List.replicate 4233 0), .selfTest none [(128, 1)], .selfTest none [(3, 1), (3, 2)],
    .hallRefTimeCode [], .bypass 0x30, .meanSlack 0 (msg 0x1C 5 0)] : List Instr).all (fun i => !i.wf) = true := by decide +kernel
theorem test_wf_accepts : ([.deviceRegisterWrite 0 8 true 0, .live 0 (msg 0x19 4 0), .rdreq 0 (msg 0x01 0 0), .wrreq 0 (msg 0x03 0 4), .reduce 0 (msg 0x10 2 4),
    .vote 0 { msg 0x1D 7 1 with plan := 1 }, .cataloguerElected upd0, .moduleWithdrawn 1 upd0, .selfTest none [(3, 1), (4, 2)], .bypass 0x03, .nop 0] : List Instr).all
    (fun i => i.wf) = true := by decide +kernel

/-! ### Small results worked out from the manual -/

/-- 11 R396: CRC-32C; the check value of the polynomial's usual parameters. -/
theorem test_crc32c : crc32c ([0x31, 0x32, 0x33, 0x34, 0x35, 0x36, 0x37, 0x38, 0x39] : List Byte) = 0xE3069283 := by decide +kernel
/-- 06 R217: CSEL with D[RC] zero writes D[RB]. -/
theorem test_csel_result : nextIs (exec (.csel 0 (fields [(22, 3), (18, 1), (14, 2), (10, 4)])) (regs [(1, 5), (2, 9)] []))
    (fun t => (t.core 0).readD 3 == 9 && (t.core 0).pc == 0x1004) = true := by decide +kernel
/-- 06 R212: the dividend by 0. -/
theorem test_div_zero_result : nextIs (exec (.integerRegisterOp 0 (fields [(22, 3), (18, 1), (14, 2), (8, 0x0B)])) (regs [(1, 7)] []))
    (fun t => (t.core 0).readD 3 == 0xFFFFFFFFFFFFFFFF) = true := by decide +kernel
/-- 06 R212: the remainder of -7 by 2 is -1. -/
theorem test_rem_sign_result : nextIs (exec (.integerRegisterOp 0 (fields [(22, 3), (18, 1), (14, 2), (8, 0x0D)])) (regs [(1, 0xFFFFFFFFFFFFFFF9), (2, 2)] []))
    (fun t => (t.core 0).readD 3 == 0xFFFFFFFFFFFFFFFF) = true := by decide +kernel
/-- 00 R4: least significant byte at the lowest address. -/
theorem test_store_result : nextIs (exec (.st 0 none (fields [(22, 1), (18, 1), (14, 3)])) mem1) (fun t => t.byte 0x2000 == 0x88 && t.byte 0x2007 == 0x11) = true := by decide +kernel
/-- 06 R228: CALL stores the next address below A15. -/
theorem test_call_result : nextIs (exec (.call 0 (fields [(0, 4)])) (regs [] [(15, 0x3000)]))
    (fun t => (t.core 0).pc == 0x1010 && (t.core 0).readA 15 == 0x2FF8 && leNat (t.bytes 0x2FF8 8) == 0x1004) = true := by decide +kernel
/-- 06 R219: a Q15 product of -1 and -1 fills the accumulator with 1.0. -/
theorem test_mac_result : nextIs (exec (.fixedPointMac 0 (fields [(23, 1), (19, 1), (15, 1), (10, 2)])) (regs [(1, 0x8000)] []))
    (fun t => (vget (t.core 0).ex.acc 1 0).toNat == 2 ^ 63) = true := by decide +kernel
/-- 07 R265, R267: an illegal word in ring 2 enters the ring its route gives, with the word as EINFO. -/
theorem test_illegal_result : nextIs (exec (.illegalInstruction 0 0xFBFFFFFF) user0)
    (fun t => (t.core 0).bank.ecause == 1 && (t.core 0).bank.einfo == 0xFBFFFFFF && (vget (t.core 0).rr.banks 3 Bank.reset).pc == 0x1000) = true := by decide +kernel
/-- 06 R234: ADD repeated twice. -/
theorem test_repeat_result : nextIs (exec (.rpt 0 (fields [(0, 2)]) none addWord) (regs [(1, 5), (2, 3)] [])) (fun t => (t.core 0).readD 1 == 11) = true := by decide +kernel
/-- 09 R326: the copied block holds the source's bytes. -/
theorem test_stream_result : landed0.mem = [(0x20000, 0x80), (0x20001, 0x3F), (0x30000, 0x80), (0x30001, 0x3F)] := by decide +kernel
/-- 10 R376: the gathered row comes from row 1 of the table. -/
theorem test_gather_result : ((after (.gatherPosition 0) { queued0 with mem := queued0.mem ++ [(0x6040, 0x77)] }).byte 0x7000) = 0x77 := by decide +kernel
/-- 17 R596: the maker's name. -/
theorem test_maker_result : (after .mfrId hall0).plat.pmb = [0x43, 0x48, 0x45, 0x52, 0x55, 0x4B, 0x45, 0x4C] := by decide +kernel
/-- An empty queue: nothing but time. -/
theorem test_idle : nextIs (step State.reset) (fun t => t.now == 1 && t.mem == [] && t.pending == []) = true := by decide +kernel
/-- The front of the queue runs, and leaves it. -/
theorem test_front : nextIs (step { regs [] [] with pending := [.nop 0, .nop 1] }) (fun t => t.pending == [.nop 1] && (t.core 0).pc == 0x1004) = true := by decide +kernel

end Sys2Proof.Tests
end

section
/-! SUPPORT and CERTIFICATE. Accumulators: what `accFit` and `Core.accPut` do with an exact result inside and outside the 80-bit range (04 R148). -/

namespace Sys2Proof.Machine

/-- Setting a bit of a 64-bit word sets it. -/
theorem bit_setBit_true (x : U64) {i : Nat} (h : i < 64) : bit (setBit x i true) i = true := by
  have hset : (BitVec.ofNat 64 (1 <<< i)).getLsbD i = true := by simp [BitVec.getLsbD_ofNat, h, -BitVec.getLsbD_eq_getElem]
  simp only [bit, setBit, setFld, BitVec.getLsbD_or, cond_true, pow_one, Nat.one_mod, hset, Bool.or_true]

/-- An override of 0 leaves saturation to FXCTL.SAT (06 R219). -/
@[simp] theorem Core.satMode_zero (k : Core) : k.satMode 0 = bit k.num.fxctl 0 := rfl

/-! ### The 80-bit reading of an integer -/

theorem toInt_ofInt80_of_mem_range {x : Int} (lo : -(2 ^ 79) ≤ x) (hi : x ≤ 2 ^ 79 - 1) : (BitVec.ofInt 80 x).toInt = x :=
  BitVec.toInt_ofInt_eq_self (by decide) lo (by omega)

theorem toInt_ofInt80_sub_emod (x : Int) : ((BitVec.ofInt 80 x).toInt - x) % 2 ^ 80 = 0 := by
  have same : (BitVec.ofInt 80 x).toInt % 2 ^ 80 = x % 2 ^ 80 := by
    rw [BitVec.toInt_ofInt]
    exact Int.bmod_emod
  exact Int.emod_eq_emod_iff_emod_sub_eq_zero.mp same

/-! ### accFit, by where the exact result lies -/

/-- The end of the 80-bit range nearer to a result outside it. -/
def accEnd (x : Int) : Int := if x < 0 then -(2 ^ 79) else 2 ^ 79 - 1

theorem toInt_ofInt80_accEnd (x : Int) : (BitVec.ofInt 80 (accEnd x)).toInt = accEnd x := by
  unfold accEnd
  split
  · exact toInt_ofInt80_of_mem_range (by decide) (by decide)
  · exact toInt_ofInt80_of_mem_range (by decide) (by decide)

theorem accFit_of_mem_range (sat : Bool) {x : Int} (lo : -(2 ^ 79) ≤ x) (hi : x ≤ 2 ^ 79 - 1) : accFit sat x = (BitVec.ofInt 80 x, false) :=
  if_neg (by omega)

theorem accFit_of_overflow (sat : Bool) {x : Int} (h : x < -(2 ^ 79) ∨ 2 ^ 79 - 1 < x) :
    accFit sat x = (BitVec.ofInt 80 (if sat then accEnd x else x), true) :=
  if_pos h

/-! ### accPut, by what accFit answers -/

theorem Core.accPut_acc (k : Core) {i : Nat} (sato : Nat) (x : Int) (h : i < 8) :
    vget (k.accPut i sato x).ex.acc i 0 = (accFit (k.satMode sato) x).1 := by
  unfold Core.accPut
  dsimp only
  split
  · exact vget_vput _ _ _ _ h
  · exact vget_vput _ _ _ _ h

theorem Core.accPut_num (k : Core) (i sato : Nat) (x : Int) :
    (k.accPut i sato x).num = if (accFit (k.satMode sato) x).2 then k.raiseFxov.num else k.num := by
  unfold Core.accPut
  dsimp only
  split
  · rfl
  · rfl

/-- FXOV stands once set (04 R148). -/
theorem Core.raiseFxov_fxov (k : Core) : bit k.raiseFxov.num.fxctl 3 = true := bit_setBit_true _ (by decide)

/-- A result within 80 bits is kept, and the numeric state with it (04 R148). -/
theorem Core.accPut_of_mem_range (k : Core) {i : Nat} (sato : Nat) {x : Int} (h : i < 8) (lo : -(2 ^ 79) ≤ x) (hi : x ≤ 2 ^ 79 - 1) :
    (vget (k.accPut i sato x).ex.acc i 0).toInt = x ∧ (k.accPut i sato x).num = k.num := by
  rw [Core.accPut_acc k sato x h, Core.accPut_num, accFit_of_mem_range _ lo hi]
  exact ⟨toInt_ofInt80_of_mem_range lo hi, rfl⟩

/-- A result outside 80 bits raises FXOV under either mode (04 R148). -/
theorem Core.accPut_fxov_of_overflow (k : Core) (i sato : Nat) {x : Int} (out : x < -(2 ^ 79) ∨ 2 ^ 79 - 1 < x) :
    bit (k.accPut i sato x).num.fxctl 3 = true := by
  rw [Core.accPut_num, accFit_of_overflow _ out]
  exact k.raiseFxov_fxov

/-- A saturating mode clamps a result outside 80 bits to the nearer end (04 R148). -/
theorem Core.accPut_of_overflow_sat (k : Core) {i : Nat} (sato : Nat) {x : Int} (h : i < 8) (out : x < -(2 ^ 79) ∨ 2 ^ 79 - 1 < x)
    (sat : k.satMode sato = true) : (vget (k.accPut i sato x).ex.acc i 0).toInt = accEnd x := by
  rw [Core.accPut_acc k sato x h, accFit_of_overflow _ out, sat]
  exact toInt_ofInt80_accEnd x

/-- A wrapping mode keeps a result outside 80 bits modulo 2^80 (04 R148). -/
theorem Core.accPut_of_overflow_wrap (k : Core) {i : Nat} (sato : Nat) {x : Int} (h : i < 8) (out : x < -(2 ^ 79) ∨ 2 ^ 79 - 1 < x)
    (wrap : k.satMode sato = false) : ((vget (k.accPut i sato x).ex.acc i 0).toInt - x) % 2 ^ 80 = 0 := by
  rw [Core.accPut_acc k sato x h, accFit_of_overflow _ out, wrap]
  exact toInt_ofInt80_sub_emod x

/-- Settles O60: an accumulator takes what `accFit` answers, by whether the exact result lies within 80 bits and, outside, by FXCTL.SAT. -/
theorem accumulatorRange : Obligations.AccumulatorRange := by
  intro k i x hi
  refine ⟨fun lo up => k.accPut_of_mem_range 0 hi lo up, fun out => ⟨k.accPut_fxov_of_overflow i 0 out, fun sat => ?_, fun wrap => ?_⟩⟩
  · exact k.accPut_of_overflow_sat 0 hi out (k.satMode_zero.trans sat)
  · exact k.accPut_of_overflow_wrap 0 hi out (k.satMode_zero.trans wrap)

end Sys2Proof.Machine
end

section
/-! SUPPORT. Retirement: the registers of a core stand from an instruction's effect to the state after it (06 R253, R254), whether or not the
core halts after a step and posts its notice. -/

namespace Sys2Proof.Machine

/-! ### sameRegs -/

theorem Core.sameRegs.refl (k : Core) : k.sameRegs k := ⟨rfl, rfl, rfl, rfl, rfl, rfl, rfl⟩

theorem Core.sameRegs.trans {k k' k'' : Core} (h : k.sameRegs k') (g : k'.sameRegs k'') : k.sameRegs k'' :=
  ⟨g.d.trans h.d, g.a.trans h.a, g.sp.trans h.sp, g.v.trans h.v, g.acc.trans h.acc, g.num.trans h.num, g.tile.trans h.tile⟩

theorem Core.sameRegs.readD {k k' : Core} (h : k.sameRegs k') {i : Nat} (hi : i < 16) : k'.readD i = k.readD i := by
  rw [Core.readD, Core.readD, if_pos hi, if_pos hi, h.d]

/-- A change of one core that keeps its registers keeps every core's. -/
theorem State.modCore_sameRegs (s : State) (c d : CoreId) {f : Core → Core} (hf : ∀ k : Core, k.sameRegs (f k)) :
    (s.core d).sameRegs ((s.modCore c f).core d) := by
  by_cases e : d = c
  · subst e
    rw [State.core_modCore]
    exact hf _
  · rw [State.core_modCore_ne s f e]
    exact .refl _

/-! ### From the effect to the retired instruction -/

theorem Core.syncMask_sameRegs (k : Core) (now : Nat) : k.sameRegs (k.syncMask now) := by
  unfold Core.syncMask
  split
  · split
    · exact ⟨rfl, rfl, rfl, rfl, rfl, rfl, rfl⟩
    · exact .refl k
  · exact ⟨rfl, rfl, rfl, rfl, rfl, rfl, rfl⟩

/-- The PC is no register of `sameRegs`. -/
theorem Core.setPc_sameRegs (k : Core) (npc : U64) : k.sameRegs (k.setBank (fun b => { b with pc := npc })) :=
  ⟨by rw [Core.bank_setBank], by rw [Core.bank_setBank], rfl, rfl, rfl, rfl, rfl⟩

theorem raiseCN_sameRegs (s : State) (n : Nat) (c : CoreId) : (s.core c).sameRegs ((raiseCN s n).core c) := by
  unfold raiseCN
  split
  · exact s.modCore_sameRegs _ c (fun _ => ⟨rfl, rfl, rfl, rfl, rfl, rfl, rfl⟩)
  · exact .refl _

theorem queueNotice_sameRegs (s : State) (mb : Nat) (n : Notice) (c : CoreId) : (s.core c).sameRegs ((queueNotice s mb n).core c) := by
  unfold queueNotice
  dsimp only
  split
  · split
    · exact raiseCN_sameRegs (s.modBox mb _) _ c
    · exact .refl _
  · exact .refl _

theorem haltCore_sameRegs (s : State) (c d : CoreId) : (s.core d).sameRegs ((haltCore s c).core d) := by
  unfold haltCore
  dsimp only
  refine .trans ?_ (queueNotice_sameRegs _ _ _ d)
  exact s.modCore_sameRegs c d (fun _ => ⟨rfl, rfl, rfl, rfl, rfl, rfl, rfl⟩)

theorem stepDone_sameRegs (s : State) (c d : CoreId) : (s.core d).sameRegs ((stepDone s c).core d) := by
  unfold stepDone
  split
  · exact haltCore_sameRegs s c d
  · exact .refl _

/-- Retiring keeps the registers of every core (06 R253, R254). -/
theorem retire_sameRegs (s : State) (c d : CoreId) (npc : U64) (isRte : Bool) : (s.core d).sameRegs ((retire s c npc isRte).core d) := by
  refine (s.modCore_sameRegs c d (fun k => ?_)).trans (stepDone_sameRegs _ c d)
  refine Core.sameRegs.trans ?_ (Core.syncMask_sameRegs _ _)
  cases isRte with
  | true => exact ⟨rfl, rfl, rfl, rfl, rfl, rfl, rfl⟩
  | false =>
    rw [if_neg Bool.false_ne_true]
    refine .trans ?_ (Core.setPc_sameRegs _ npc)
    exact ⟨rfl, rfl, rfl, rfl, rfl, rfl, rfl⟩

theorem State.readD_done (u : State) (c d : CoreId) (n : Nat) {i : Nat} (hi : i < 16) : ((u.done c n).core d).readD i = (u.core d).readD i :=
  (retire_sameRegs u c d _ false).readD hi

/-- A D register read after an instruction that wrote D[rd]: the written value there, the old value elsewhere. -/
theorem State.readD_writeD_done (u : State) (c : CoreId) (rd : Nat) (v : U64) (n : Nat) {i : Nat} (hi : i < 16) :
    (((u.modCore c (fun k => k.writeD rd v)).done c n).core c).readD i = if i = rd then v else (u.core c).readD i := by
  rw [State.readD_done _ c c n hi, State.core_modCore]
  split
  next e =>
    subst e
    exact Core.readD_writeD _ _ v hi
  next ne => exact Core.readD_writeD_ne _ v (Ne.symm ne)

theorem fld_lt {w : Nat} (x : BitVec w) (lo n : Nat) : fld x lo n < 2 ^ n := Nat.mod_lt _ (Nat.two_pow_pos n)

end Sys2Proof.Machine
end

section
/-! CERTIFICATE. Select: CSEL (06 R217). -/

namespace Sys2Proof.Machine

/-- The register CSEL writes: D[RA] when D[RC] is non-zero, and D[RB] otherwise (06 R217). -/
def Core.selected (k : Core) (f : BitVec 26) : U64 :=
  if k.readD (fld f 18 4) ≠ 0 then k.readD (fld f 14 4) else k.readD (fld f 10 4)

theorem selectD_run {u : State} (c : CoreId) {f : BitVec 26} (h0 : fld f 0 10 = 0) :
    selectD (Ctx.of c none) f u = .ok () (u.modCore c (fun k => k.writeD (fld f 22 4) ((u.core c).selected f))) := by
  unfold selectD
  rw [bind_ok (illegalIf_ok (by simp [h0]) u), bind_ok (rdD_run ..), bind_ok (rdD_run ..), bind_ok (rdD_run ..)]
  rfl

theorem exec_csel {s u : State} {c : CoreId} {f : BitVec 26} (h : s.issued c .plain = some u) (h0 : fld f 0 10 = 0) :
    exec (.csel c f) s = .next ((u.modCore c (fun k => k.writeD (fld f 22 4) ((u.core c).selected f))).done c 4) :=
  congrArg Host.Outcome.next (issueScalar_none h ((congrFun (scalarWord_selectD _ f) u).trans (selectD_run c h0)))

/-- Settles O6: CSEL completes with the selected register in D[RD], and retiring keeps what it wrote. -/
theorem cselSelects : Obligations.CselSelects := by
  intro s u c f h h0
  refine ⟨exec_csel h h0, ?_, fun i hi ne => ?_⟩
  · exact (u.readD_writeD_done c _ _ 4 (fld_lt f 22 4)).trans (if_pos rfl)
  · exact (u.readD_writeD_done c _ _ 4 hi).trans (if_neg ne)

end Sys2Proof.Machine
end

section
/-! SUPPORT and CERTIFICATE. Integer register instructions: what major 0x00 completes with (06 R211), and its divisions, which are the bit-vector
divisions of the library but for a divisor of 0 (06 R212). -/

namespace Sys2Proof.Machine

/-! ### Major 0x00 -/

@[simp] theorem reg_false (n : Nat) : reg false n = n := rfl

theorem intReg_run {u : State} (c : CoreId) {f : BitVec 26} {v : U64} (h0 : fld f 0 8 = 0) (hb : 0x16 ≤ fld f 8 6 → fld f 14 4 = 0)
    (hv : intOp (fld f 8 6) ((u.core c).readD (fld f 18 4)) ((u.core c).readD (fld f 14 4)) = some v) :
    intReg (Ctx.of c none) f u = .ok () (u.modCore c (fun k => k.writeD (fld f 22 4) v)) := by
  have legal : (fld f 0 8 != 0 || (decide (0x16 ≤ fld f 8 6) && (fld f 14 4 != 0 || (Ctx.of c none).t3))) = false := by
    by_cases hs : 0x16 ≤ fld f 8 6
    · simp [h0, hb hs, Ctx.of]
    · simp [h0, hs]
  unfold intReg
  rw [bind_ok (illegalIf_ok legal u), bind_ok (rdD_run ..), bind_ok (rdD_run ..)]
  dsimp only [Ctx.of, reg_false]
  rw [hv]
  rfl

theorem exec_integerRegisterOp {s u : State} {c : CoreId} {f : BitVec 26} {v : U64} (h : s.issued c .plain = some u) (h0 : fld f 0 8 = 0)
    (hb : 0x16 ≤ fld f 8 6 → fld f 14 4 = 0)
    (hv : intOp (fld f 8 6) ((u.core c).readD (fld f 18 4)) ((u.core c).readD (fld f 14 4)) = some v) :
    exec (.integerRegisterOp c f) s = .next ((u.modCore c (fun k => k.writeD (fld f 22 4) v)).done c 4) :=
  congrArg Host.Outcome.next (issueScalar_none h ((congrFun (scalarWord_intReg _ f) u).trans (intReg_run c h0 hb hv)))

/-! ### The divisions -/

theorem divS_zero (a : U64) : divS a 0 = -1#64 := rfl

theorem divS_of_ne_zero (a : U64) {b : U64} (hb : b ≠ 0) : divS a b = a.sdiv b := by
  apply BitVec.eq_of_toInt_eq
  rw [divS, if_neg hb, w64, BitVec.toInt_ofInt, BitVec.toInt_sdiv]

theorem remS_eq_srem (a b : U64) : remS a b = a.srem b := by
  unfold remS
  split
  next hb => rw [hb]; exact BitVec.srem_zero.symm
  next => rw [w64, ← BitVec.toInt_srem, BitVec.ofInt_toInt]

theorem divU_zero (a : U64) : divU a 0 = -1#64 := rfl

theorem divU_of_ne_zero (a : U64) {b : U64} (hb : b ≠ 0) : divU a b = a / b := by
  rw [divU, if_neg hb, n64, ← BitVec.toNat_udiv, BitVec.ofNat_toNat, BitVec.setWidth_eq]

theorem remU_eq_umod (a b : U64) : remU a b = a % b := by
  unfold remU
  split
  next hb => rw [hb]; exact BitVec.umod_zero.symm
  next => rw [n64, ← BitVec.toNat_umod, BitVec.ofNat_toNat, BitVec.setWidth_eq]

/-! ### Their corner cases and their rounding -/

theorem eq_intMin_of_toInt {a : U64} (h : a.toInt = -(2 ^ 63)) : a = BitVec.intMin 64 := BitVec.eq_of_toInt_eq h

theorem eq_neg_one_of_toInt {b : U64} (h : b.toInt = -1) : b = -1#64 := BitVec.eq_of_toInt_eq h

/-- The only signed quotient that does not fit 64 bits wraps to the dividend. -/
theorem toInt_divS_overflow {a b : U64} (ha : a.toInt = -(2 ^ 63)) (hb : b.toInt = -1) : (divS a b).toInt = -(2 ^ 63) := by
  rw [eq_intMin_of_toInt ha, eq_neg_one_of_toInt hb, divS_of_ne_zero _ (by decide), BitVec.intMin_sdiv_neg_one]
  rfl

theorem toInt_divS {a b : U64} (hb : b ≠ 0) (fits : ¬(a.toInt = -(2 ^ 63) ∧ b.toInt = -1)) : (divS a b).toInt = Int.tdiv a.toInt b.toInt := by
  rw [divS_of_ne_zero a hb]
  apply BitVec.toInt_sdiv_of_ne_or_ne
  by_contra! both
  obtain ⟨rfl, rfl⟩ := both
  exact fits ⟨rfl, rfl⟩

theorem toInt_remS (a b : U64) : (remS a b).toInt = Int.tmod a.toInt b.toInt := by
  rw [remS_eq_srem, BitVec.toInt_srem]

/-- A remainder that is not 0 has the sign of the dividend. -/
theorem tmod_neg_iff {x y : Int} (h : Int.tmod x y ≠ 0) : Int.tmod x y < 0 ↔ x < 0 := by
  have same : (Int.tmod x y).sign = x.sign := by
    rw [Int.sign_tmod, if_neg (fun dvd => h (Int.tmod_eq_zero_of_dvd dvd))]
  rw [← Int.sign_eq_neg_one_iff_neg, same, Int.sign_eq_neg_one_iff_neg]

/-- What the quotient and remainder of R212 are, for the result q of FUNCT code `funct` on a and b. -/
def DivisionResult (funct : Nat) (a b q : U64) : Prop :=
  (b = 0 → (funct = 0x0B → q.toInt = -1) ∧ (funct = 0x0C → q.toNat = 2 ^ 64 - 1) ∧ (0x0D ≤ funct → q = a)) ∧
  (a.toInt = -(2 ^ 63) → b.toInt = -1 → (funct = 0x0B → q.toInt = -(2 ^ 63)) ∧ (funct = 0x0D → q.toInt = 0)) ∧
  (b ≠ 0 →
    (funct = 0x0B → ¬(a.toInt = -(2 ^ 63) ∧ b.toInt = -1) → q.toInt = Int.tdiv a.toInt b.toInt) ∧
    (funct = 0x0C → q.toNat = a.toNat / b.toNat) ∧
    (funct = 0x0D → q.toInt = a.toInt - b.toInt * Int.tdiv a.toInt b.toInt ∧ (q.toInt ≠ 0 → (q.toInt < 0 ↔ a.toInt < 0))) ∧
    (funct = 0x0E → q.toNat = a.toNat % b.toNat))

theorem divisionResult_divS (a b : U64) : DivisionResult 0x0B a b (divS a b) := by
  refine ⟨?_, fun ha hb => ⟨fun _ => toInt_divS_overflow ha hb, by simp⟩, fun hb => ⟨fun _ => toInt_divS hb, by simp⟩⟩
  rintro rfl
  exact ⟨fun _ => congrArg BitVec.toInt (divS_zero a), by simp⟩

theorem divisionResult_divU (a b : U64) : DivisionResult 0x0C a b (divU a b) := by
  refine ⟨?_, by simp, fun hb => ⟨by simp, fun _ => ?_, by simp⟩⟩
  · rintro rfl
    exact ⟨by simp, fun _ => congrArg BitVec.toNat (divU_zero a), by simp⟩
  · rw [divU_of_ne_zero a hb, BitVec.toNat_udiv]

theorem divisionResult_remS (a b : U64) : DivisionResult 0x0D a b (remS a b) := by
  refine ⟨?_, fun _ hb => ⟨by simp, fun _ => ?_⟩, fun _ => ⟨by simp, by simp, fun _ => ⟨?_, ?_⟩, by simp⟩⟩
  · rintro rfl
    exact ⟨by simp, by simp, fun _ => (remS_eq_srem a 0).trans BitVec.srem_zero⟩
  · rw [toInt_remS, hb, Int.tmod_neg, Int.tmod_one]
  · rw [toInt_remS, Int.tmod_def]
  · rw [toInt_remS]
    exact tmod_neg_iff

theorem divisionResult_remU (a b : U64) : DivisionResult 0x0E a b (remU a b) := by
  refine ⟨?_, by simp, fun _ => ⟨by simp, by simp, by simp, fun _ => ?_⟩⟩
  · rintro rfl
    exact ⟨by simp, by simp, fun _ => (remU_eq_umod a 0).trans BitVec.umod_zero⟩
  · rw [remU_eq_umod, BitVec.toNat_umod]

/-- Each of the four division codes answers with its result of R212. -/
theorem intOp_division {funct : Nat} (lo : 0x0B ≤ funct) (hi : funct ≤ 0x0E) (a b : U64) :
    ∃ q, intOp funct a b = some q ∧ DivisionResult funct a b q := by
  obtain rfl | rfl | rfl | rfl : funct = 0x0B ∨ funct = 0x0C ∨ funct = 0x0D ∨ funct = 0x0E := by omega
  · exact ⟨_, rfl, divisionResult_divS a b⟩
  · exact ⟨_, rfl, divisionResult_divU a b⟩
  · exact ⟨_, rfl, divisionResult_remS a b⟩
  · exact ⟨_, rfl, divisionResult_remU a b⟩

/-- Settles O8: a division code has a result of R212 for every pair of operands, and the instruction completes with it. -/
theorem divisionCases : Obligations.DivisionCases := by
  intro s u c f h h0 lo hi a b
  obtain ⟨q, hq, result⟩ := intOp_division lo hi a b
  exact ⟨q, exec_integerRegisterOp h h0 (fun two => absurd two (by omega)) hq, result⟩

end Sys2Proof.Machine
end

section
/-! SUPPORT. Packets leave the cores alone: what the fabric does when a packet is sent changes ports and counts only (11 R392 to R404). -/

namespace Sys2Proof.Machine

@[simp] theorem State.owe_cores (s : State) (p : Option PortId) (k : Packet) : (s.owe p k).cores = s.cores := by
  cases p with
  | none => rfl
  | some p => rfl

@[simp] theorem State.notePlan_cores (s : State) (p : PortId) (k : Packet) : (s.notePlan p k).cores = s.cores := by
  unfold State.notePlan
  split
  · rfl
  · rfl

@[simp] theorem State.transmit_cores (s : State) (p : PortId) (x : TxEnt) : (s.transmit p x).cores = s.cores :=
  (State.notePlan_cores _ p x.pkt).trans (s.owe_cores x.from' x.pkt)

@[simp] theorem drainSome_cores (p : PortId) (n : Nat) (s : State) : (drainSome p n s).cores = s.cores := by
  induction n generalizing s with
  | zero => rfl
  | succ n ih =>
    unfold drainSome
    split
    · rfl
    · rw [ih, State.transmit_cores, State.setPort_cores]

@[simp] theorem State.sendFrom_cores (s : State) (from' : Option PortId) (p : PortId) (k : Packet) : (s.sendFrom from' p k).cores = s.cores := by
  unfold State.sendFrom
  split
  · exact (drainSome_cores p _ _).trans (s.setPort_cores p _)
  · exact s.owe_cores from' k

/-- A route's only effect on the state is the free number an adaptive choice uses up. -/
theorem State.route_state (s : State) (k : Packet) : (s.route k).2 = s ∨ (s.route k).2 = s.freeNext.2 := by
  unfold State.route
  dsimp only
  split
  · exact .inl rfl
  · split
    · exact .inl rfl
    · split
      · split
        · exact .inl rfl
        · exact .inl rfl
        · exact .inr rfl
      · exact .inl rfl

@[simp] theorem State.route_cores (s : State) (k : Packet) : (s.route k).2.cores = s.cores := by
  obtain same | drawn := s.route_state k
  · rw [same]
  · rw [drawn]; rfl

@[simp] theorem State.emit_cores (s : State) (k : Packet) : (s.emit k).cores = s.cores := by
  unfold State.emit
  dsimp only
  split
  · rfl
  · have routed := s.route_cores (s.stamp k)
    split
    next e =>
      rw [e] at routed
      exact (State.sendFrom_cores _ none _ _).trans routed
    next e =>
      rw [e] at routed
      split
      · exact routed
      · exact routed

@[simp] theorem State.send_cores (s : State) (k : Packet) : (s.send k).cores = s.cores := by
  unfold State.send
  split
  · rfl
  · exact s.emit_cores k

@[simp] theorem relWatches_cores (s : State) (ws : List (Nat × Nat × Nat)) : (relWatches s ws).cores = s.cores := by
  induction ws generalizing s with
  | nil => rfl
  | cons w ws ih => exact (ih _).trans (s.send_cores _)

/-- What each step of a fold leaves alone, the fold does. -/
theorem foldl_keeps {α β γ : Type} (g : β → γ) {f : β → α → β} (hf : ∀ b x, g (f b x) = g b) (l : List α) (b : β) :
    g (l.foldl f b) = g b := by
  induction l generalizing b with
  | nil => rfl
  | cons x l ih => exact (ih _).trans (hf b x)

@[simp] theorem breakWatches_cores (s : State) (ls : List Nat) : (breakWatches s ls).cores = s.cores :=
  foldl_keeps State.cores (fun s _ => s.send_cores _) _ _

/-- The core read depends on the cores alone. -/
theorem State.core_congr {s t : State} (h : t.cores = s.cores) (c : CoreId) : t.core c = s.core c := by
  rw [State.core, State.core, h]

end Sys2Proof.Machine
end

section
/-! SUPPORT. Operations that leave the ring registers of every core alone: the abort of tasks, the zeroing of memory and the loading of glosses
(06 R247; 08 R312, R314; 16 R571). -/

namespace Sys2Proof.Machine

/-- A change of one core that keeps its ring registers keeps every core's. -/
theorem State.modCore_rr (s : State) (c d : CoreId) {f : Core → Core} (hf : ∀ k : Core, (f k).rr = k.rr) :
    ((s.modCore c f).core d).rr = (s.core d).rr := by
  by_cases e : d = c
  · subst e
    rw [State.core_modCore, hf]
  · rw [State.core_modCore_ne s f e]

/-! ### Aborted tasks -/

@[simp] theorem reapReqs_cores (s : State) (c : CoreId) : (reapReqs s c).cores = s.cores := rfl

@[simp] theorem dropTaskJobs_cores (s : State) (c : CoreId) (t : Nat) : (dropTaskJobs s c t).cores = s.cores := by
  unfold dropTaskJobs
  dsimp only

@[simp] theorem giveBack_rr (bs : List BlockProg) (k : Core) : (giveBack bs k).rr = k.rr := by
  refine foldl_keeps Core.rr (fun k b => ?_) bs k
  split
  · rfl
  · rfl

@[simp] theorem Core.modEng_rr (k : Core) (e : Nat) (f : StreamEng → StreamEng) : (k.modEng e f).rr = k.rr := rfl

@[simp] theorem Core.setTask_rr (k : Core) (t : Nat) (f : Task → Task) : (k.setTask t f).rr = k.rr := rfl

@[simp] theorem cancelTaskStreams_rr (t : Nat) (k : Core) : (cancelTaskStreams t k).rr = k.rr := by
  unfold cancelTaskStreams
  refine foldl_keeps Core.rr (fun k e => ?_) _ k
  split
  · rw [Core.modEng_rr, giveBack_rr]
  · rfl

@[simp] theorem abortTask_rr (s : State) (c : CoreId) (t reason : Nat) (d : CoreId) : ((abortTask s c t reason).core d).rr = (s.core d).rr := by
  unfold abortTask
  dsimp only
  split
  · rfl
  · rw [State.core_congr (reapReqs_cores _ c) d]
    refine (State.modCore_rr _ c d (fun k => ?_)).trans ?_
    · rw [cancelTaskStreams_rr, Core.setTask_rr]
    · rw [State.core_congr (dropTaskJobs_cores _ c t) d, State.core_congr (relWatches_cores s _) d]

@[simp] theorem abortTasks_rr (s : State) (reason : Nat) (xs : List (CoreId × Nat)) (d : CoreId) :
    ((abortTasks s reason xs).core d).rr = (s.core d).rr := by
  induction xs generalizing s with
  | nil => rfl
  | cons x xs ih => exact (ih _).trans (abortTask_rr s x.1 x.2 reason d)

@[simp] theorem zeroRange_rr (s : State) (lo hi : Nat) (d : CoreId) : ((zeroRange s lo hi).core d).rr = (s.core d).rr := by
  unfold zeroRange
  rw [State.core_congr (breakWatches_cores _ _) d, abortTasks_rr]
  rfl

/-! ### Glosses -/

@[simp] theorem glCommit_rr (s : State) (c d : CoreId) : ((glCommit s c).core d).rr = (s.core d).rr := s.modCore_rr c d (fun _ => rfl)

@[simp] theorem loadGloss_rr (s : State) (c : CoreId) (g : Nat × List U64) (d : CoreId) : ((loadGloss s c g).core d).rr = (s.core d).rr := by
  unfold loadGloss
  dsimp only
  split
  · rfl
  · refine (State.modCore_rr _ c d ?_).trans ((glCommit_rr _ c d).trans (State.modCore_rr s c d ?_))
    · exact fun _ => rfl
    · exact fun _ => rfl

@[simp] theorem loadGlosses_rr (s : State) (c d : CoreId) : ((loadGlosses s c).core d).rr = (s.core d).rr :=
  foldl_keeps (fun t : State => (t.core d).rr) (fun s g => loadGloss_rr s c g d) _ s

/-! ### Cores reset -/

theorem resetCore_rr (s : State) (c : CoreId) : ((resetCore s c).core c).rr = RingRegs.reset := by
  unfold resetCore
  rw [loadGlosses_rr, State.core_setCore]
  rfl

theorem resetCore_rr_ne (s : State) {c d : CoreId} (h : d ≠ c) : ((resetCore s c).core d).rr = (s.core d).rr := by
  unfold resetCore
  rw [loadGlosses_rr, State.core_setCore_ne s _ h]

theorem foldl_resetCore_rr_of_reset {d : CoreId} (l : List CoreId) {s : State} (h : (s.core d).rr = RingRegs.reset) :
    ((l.foldl resetCore s).core d).rr = RingRegs.reset := by
  induction l generalizing s with
  | nil => exact h
  | cons c l ih =>
    apply ih
    by_cases e : d = c
    · rw [e]
      exact resetCore_rr s c
    · exact (resetCore_rr_ne s e).trans h

/-- Every core of a list has its ring registers reset once the whole list has been, the later resets included. -/
theorem foldl_resetCore_rr {d : CoreId} {l : List CoreId} (h : d ∈ l) (s : State) : ((l.foldl resetCore s).core d).rr = RingRegs.reset := by
  induction h generalizing s with
  | head l => exact foldl_resetCore_rr_of_reset l (resetCore_rr s d)
  | tail c _ ih => exact ih (resetCore s c)

end Sys2Proof.Machine
end

section
/-! SUPPORT and CERTIFICATE. The registers of a core after a reset of its function (06 R199; 07 R260): they stand through everything the reset
does after it, notices to hub cores and the start of hub core 128 included. -/

namespace Sys2Proof.Machine

/-- Ring registers whose banks, bank marks and stack pointers are as a reset leaves them, but for the PC of B0, where a start puts its entry. -/
structure RingRegs.Fresh (r : RingRegs) : Prop where
  cur : r.cur = 0
  busy : r.busy = 1
  sp : r.sp = RingRegs.reset.sp
  banks : ∃ pc, r.banks = RingRegs.reset.banks.set 0 { Bank.reset with pc := pc }

theorem RingRegs.Fresh.reset : RingRegs.reset.Fresh := ⟨rfl, rfl, rfl, 0, rfl⟩

/-- What R260 says of a core, read off its ring registers. -/
theorem RingRegs.Fresh.core {k : Core} (h : k.rr.Fresh) : k.ring = 0 ∧ k.bank.gm = true ∧ bit k.bank.elink 5 = false := by
  obtain ⟨cur, -, -, pc, banks⟩ := h
  have current : k.bank = { Bank.reset with pc := pc } := by
    rw [Core.bank, cur, banks]
    rfl
  rw [Core.ring, current]
  have free : bit Bank.reset.elink 5 = false := by decide
  exact ⟨rfl, rfl, free⟩

theorem RingRegs.Fresh.sp_zero {r : RingRegs} (h : r.Fresh) (j : Nat) : vget r.sp j 0 = 0 := by
  rw [h.sp]
  simp [RingRegs.reset, vget]

theorem RingRegs.Fresh.registers_zero {r : RingRegs} (h : r.Fresh) {i : Nat} (hi : i < 4) (j : Nat) :
    vget (vget r.banks i Bank.reset).d j 0 = 0 ∧ vget (vget r.banks i Bank.reset).a j 0 = 0 := by
  obtain ⟨-, -, -, pc, banks⟩ := h
  have regs : (vget r.banks i Bank.reset).d = Bank.reset.d ∧ (vget r.banks i Bank.reset).a = Bank.reset.a := by
    rw [banks, vget, dif_pos hi, Vector.getElem_set]
    split
    · exact ⟨rfl, rfl⟩
    · simp [RingRegs.reset]
  rw [regs.1, regs.2]
  simp [Bank.reset, vget]

/-! ### What keeps fresh registers -/

/-- A pending event is none of the registers of R260. -/
theorem raiseCN_fresh {s : State} {c : CoreId} (n : Nat) (h : (s.core c).rr.Fresh) : ((raiseCN s n).core c).rr.Fresh := by
  unfold raiseCN
  split
  next hn =>
    by_cases e : c = ⟨n, hn⟩
    · subst e
      rw [State.core_modCore]
      exact ⟨h.cur, h.busy, h.sp, h.banks⟩
    · rw [State.core_modCore_ne s _ e]
      exact h
  next => exact h

theorem queueNotice_fresh {s : State} {c : CoreId} (mb : Nat) (n : Notice) (h : (s.core c).rr.Fresh) :
    ((queueNotice s mb n).core c).rr.Fresh := by
  unfold queueNotice
  dsimp only
  split
  · split
    · exact raiseCN_fresh (s := s.modBox mb _) _ h
    · exact h
  · exact h

theorem releaseOwner_fresh {s : State} {c : CoreId} (h : (s.core c).rr.Fresh) : ((releaseOwner s).core c).rr.Fresh := by
  unfold releaseOwner
  dsimp only
  exact List.foldlRecOn (motive := fun t : State => (t.core c).rr.Fresh) (List.range 8) _ h (fun _ ht mb _ => queueNotice_fresh mb _ ht)

@[simp] theorem Core.syncMask_rr (k : Core) (now : Nat) : (k.syncMask now).rr = k.rr := by
  unfold Core.syncMask
  split
  · split
    · rfl
    · rfl
  · rfl

/-- A start of a freshly reset core only moves the PC of B0. -/
theorem startCore_fresh {s : State} {c : CoreId} (d : CoreId) (entry : U64) (h : (s.core c).rr.Fresh) :
    ((startCore s d entry).core c).rr.Fresh := by
  unfold startCore
  by_cases e : c = d
  · subst e
    obtain ⟨-, busy, sp, pc, banks⟩ := h
    rw [State.core_modCore]
    dsimp only
    rw [Core.syncMask_rr]
    refine ⟨rfl, ?_, sp, entry, ?_⟩
    · dsimp only
      rw [busy]
      rfl
    · dsimp only
      rw [banks]
      rfl
  · rw [State.core_modCore_ne s _ e]
    exact h

theorem startHub_fresh {s : State} {c : CoreId} (h : (s.core c).rr.Fresh) : ((startHub s).core c).rr.Fresh := by
  unfold startHub
  split
  next entry _ =>
    split
    · exact startCore_fresh 128 entry h
    · exact h
  next => exact h

@[simp] theorem reply_cores (s : State) (mb status : Nat) (rets : List U64) (payload : List Byte) :
    (reply s mb status rets payload).cores = s.cores := rfl

@[simp] theorem answerWaits_cores (s : State) (ws : List (Nat × Bool)) (n : Nat) : (answerWaits s ws n).cores = s.cores :=
  foldl_keeps State.cores (fun s (w : Nat × Bool) => reply_cores s w.1 stOK [n64 n] []) ws s

/-! ### The reset -/

/-- Cores are held by FN1 to FN5 (15 R554). -/
theorem coreFn_range (c : CoreId) : 1 ≤ coreFn c ∧ coreFn c ≤ 5 := by
  unfold coreFn isCompute coreQuad
  split
  next h =>
    have := of_decide_eq_true h
    omega
  next => omega

theorem mem_fnCores (c : CoreId) : c ∈ fnCores (coreFn c) := by
  simp [fnCores]

theorem clearFn_fresh (s : State) (c : CoreId) : ((clearFn s (coreFn c)).core c).rr.Fresh := by
  unfold clearFn
  rw [if_pos (coreFn_range c)]
  dsimp only
  have reset : ∀ u : State, (((fnCores (coreFn c)).foldl resetCore u).core c).rr.Fresh := fun u => by
    rw [foldl_resetCore_rr (mem_fnCores c) u]
    exact .reset
  split
  · split
    · exact releaseOwner_fresh (reset _)
    · exact reset _
  · rw [zeroRange_rr]
    exact reset _

/-- A function cleared, in the state its reset leaves it in, with no work (15 R554). -/
def finishReset (s : State) (fn : Nat) (w : FnWork) : State :=
  ((clearFn s fn).setFn fn (if w.stay then .disabled else .enabled)).setWork fn none

/-- What the end of a reset completes with, for a function without ledger pairs (15 R554, R556; 16 R572). -/
theorem exec_fnResetDone {s : State} {fn : Fin 10} {w : FnWork} (work : s.fnWork fn.val = some w) (resetting : s.fnState fn.val = .resetting)
    (pairs : ¬(fn.val = 6 ∨ fn.val = 7)) :
    exec (.fnResetDone fn) s =
      .next (answerWaits (if fn.val = 1 ∧ !w.stay then startHub (finishReset s fn.val w) else finishReset s fn.val w) w.waits w.aborts) := by
  show execFnResetDone fn s = _
  unfold execFnResetDone
  rw [work]
  dsimp only
  rw [if_neg (not_not.mpr resetting), if_neg pairs]
  rfl

/-- Settles O59: the reset leaves the core's ring registers fresh, and the start of hub core 128 and the answers to the waiting slips keep
them so. -/
theorem resetRegisters : Obligations.ResetRegisters := by
  intro s fn w c work resetting held
  have pairs : ¬(fn.val = 6 ∨ fn.val = 7) := by
    have := coreFn_range c
    omega
  have cleared : ((finishReset s fn.val w).core c).rr.Fresh := held ▸ clearFn_fresh s c
  refine ⟨_, exec_fnResetDone work resetting pairs, ?_⟩
  rw [State.core_congr (answerWaits_cores _ _ _) c]
  have fresh : ((if fn.val = 1 ∧ !w.stay then startHub (finishReset s fn.val w) else finishReset s fn.val w).core c).rr.Fresh := by
    split
    · exact startHub_fresh cleared
    · exact cleared
  obtain ⟨ring, gm, elink⟩ := fresh.core
  exact ⟨ring, fresh.cur, gm, fresh.busy, elink, fresh.sp_zero, fun i hi j => fresh.registers_zero hi j⟩

end Sys2Proof.Machine
end

section
/-! CERTIFICATE. Source keys: the mailbox number below, the bound call number above it (15 R546). -/

namespace Sys2Proof.Machine

/-- The call number the key of a mailbox names: the one MB2 to MB5 are bound to, and 0 for every other mailbox (15 R546). -/
def State.boundCall (s : State) (mb : Nat) : Nat :=
  ((if 2 ≤ mb ∧ mb ≤ 5 then (s.box mb).bind else none).map (·.1.toNat)).getD 0

theorem State.boundCall_lt (s : State) (mb : Nat) : s.boundCall mb < 2 ^ 20 := by
  unfold State.boundCall
  cases (if 2 ≤ mb ∧ mb ≤ 5 then (s.box mb).bind else none) with
  | none => exact Nat.two_pow_pos 20
  | some b => exact b.1.isLt

theorem State.boundCall_of_bind {s : State} {mb : Nat} {b : BitVec 20 × BitVec 16 × BitVec 16} (lo : 2 ≤ mb) (hi : mb ≤ 5)
    (bound : (s.box mb).bind = some b) : s.boundCall mb = b.1.toNat := by
  simp [State.boundCall, lo, hi, bound]

theorem State.boundCall_of_outside (s : State) {mb : Nat} (outside : mb < 2 ∨ 5 < mb) : s.boundCall mb = 0 := by
  have unbindable : ¬(2 ≤ mb ∧ mb ≤ 5) := by omega
  simp [State.boundCall, unbindable]

/-- The two parts of a source key do not overlap and none of it is lost to the word's width (15 R546). -/
theorem State.sourceKey_toNat (s : State) {mb : Nat} (h : mb < 8) : (s.sourceKey mb).toNat = mb + 8 * s.boundCall mb := by
  have small := s.boundCall_lt mb
  unfold State.sourceKey
  unfold State.boundCall at small ⊢
  generalize (if 2 ≤ mb ∧ mb ≤ 5 then (s.box mb).bind else none) = bind at small ⊢
  cases bind with
  | none =>
    show mb % 2 ^ 64 = mb
    omega
  | some b =>
    have : b.1.toNat < 2 ^ 20 := small
    show (mb + b.1.toNat <<< 3) % 2 ^ 64 = mb + 8 * b.1.toNat
    omega

theorem fld_eq_div {w : Nat} (x : BitVec w) (lo n : Nat) : fld x lo n = x.toNat / 2 ^ lo % 2 ^ n := by
  rw [fld, Nat.shiftRight_eq_div_pow]

/-- Settles O45: the key is the mailbox number and 8 times a call number of 20 bits, so its fields are the two and the rest is 0. -/
theorem sourceKeys : Obligations.SourceKeys := by
  intro s mb req key
  have key_eq : key.toNat = mb.val + 8 * s.boundCall mb.val := s.sourceKey_toNat mb.isLt
  have number : mb.val < 8 := mb.isLt
  have call : s.boundCall mb.val < 2 ^ 20 := s.boundCall_lt mb.val
  have callField : fld key 3 20 = s.boundCall mb.val := by
    rw [fld_eq_div, key_eq]
    omega
  refine ⟨rfl, ?_, fun b lo hi bound => ?_, fun outside => ?_, ?_, ?_⟩
  · rw [fld_eq_div, key_eq]
    omega
  · exact callField.trans (State.boundCall_of_bind lo hi bound)
  · exact callField.trans (s.boundCall_of_outside outside)
  · rw [fld_eq_div, key_eq]
    omega
  · rw [s.sourceKey_toNat (mb := 0) (by omega), s.boundCall_of_outside (.inl (by omega))]
    exact Nat.zero_le _

end Sys2Proof.Machine
end

section
/-! CERTIFICATE. Steps: a step runs the front of the queue (log 2), and what every command keeps, `Kept`, every step keeps: memory in its canonical
form (08 R294; log 3), the rest of the queue, and a time that does not go back. -/

namespace Sys2Proof.Machine

/-- Every command that goes on keeps what operations keep: its arm does. -/
theorem exec_kept (i : Instr) (s : State) : KeptOut s (exec i s) :=
  match i with
  | .tcfg c f => execTcfg_kept c f s (Kept.refl s)
  | .tld c p hi lo => execTld_kept c p hi lo s (Kept.refl s)
  | .tst c p hi lo => execTst_kept c p hi lo s (Kept.refl s)
  | .zld c hi lo => execZld_kept c hi lo s (Kept.refl s)
  | .zst c hi lo => execZst_kept c hi lo s (Kept.refl s)
  | .tlw c f => execTlw_kept c f s (Kept.refl s)
  | .tlwDelivery c => execTlwDelivery_kept c s (Kept.refl s)
  | .tmma4 c f us => execTmma4_kept c f us s (Kept.refl s)
  | .tmma4Complete c => execTmma4Complete_kept c s (Kept.refl s)
  | .tstz c p f => execTstz_kept c p f s (Kept.refl s)
  | .tzeroT c f => execTzeroT_kept c f s (Kept.refl s)
  | .tzeroZ c f => execTzeroZ_kept c f s (Kept.refl s)
  | .tmov c f => execTmov_kept c f s (Kept.refl s)
  | .zmov c f => execZmov_kept c f s (Kept.refl s)
  | .nchAmaxclr c rd => execNchAmaxclr_kept c rd s (Kept.refl s)
  | .setvl c f => execSetvl_kept c f s (Kept.refl s)
  | .plog c f => execPlog_kept c f s (Kept.refl s)
  | .vectorIntegerOp c f => execVectorIntegerOp_kept c f s (Kept.refl s)
  | .vectorFpOp c f => execVectorFpOp_kept c f s (Kept.refl s)
  | .vectorTranscendental c hi fn lo => execVectorTranscendental_kept c hi fn lo s (Kept.refl s)
  | .vectorReduction c f => execVectorReduction_kept c f s (Kept.refl s)
  | .vectorPermute c f => execVectorPermute_kept c f s (Kept.refl s)
  | .vcvt c p f => execVcvt_kept c p f s (Kept.refl s)
  | .vectorLoadStore c f => execVectorLoadStore_kept c f s (Kept.refl s)
  | .vectorGatherScatter c f => execVectorGatherScatter_kept c f s (Kept.refl s)
  | .vectorStructureLoadStore c f => execVectorStructureLoadStore_kept c f s (Kept.refl s)
  | .integerRegisterOp c f => execIntegerRegisterOp_kept c f s (Kept.refl s)
  | .integerImmediateOp c x f => execIntegerImmediateOp_kept c x f s (Kept.refl s)
  | .addressOp c m x f => execAddressOp_kept c m x f s (Kept.refl s)
  | .ld c x f => execLd_kept c x f s (Kept.refl s)
  | .st c x f => execSt_kept c x f s (Kept.refl s)
  | .ldaSta c x f => execLdaSta_kept c x f s (Kept.refl s)
  | .branch c f => execBranch_kept c f s (Kept.refl s)
  | .branchOnZero c f => execBranchOnZero_kept c f s (Kept.refl s)
  | .jmp c f => execJmp_kept c f s (Kept.refl s)
  | .jmpr c f => execJmpr_kept c f s (Kept.refl s)
  | .call c f => execCall_kept c f s (Kept.refl s)
  | .callr c f => execCallr_kept c f s (Kept.refl s)
  | .ret c f => execRet_kept c f s (Kept.refl s)
  | .scalarAtomic c f => execScalarAtomic_kept c f s (Kept.refl s)
  | .afadd c hi lo => execAfadd_kept c hi lo s (Kept.refl s)
  | .csel c f => execCsel_kept c f s (Kept.refl s)
  | .nop c => execNop_kept c s (Kept.refl s)
  | .mtc c f => execMtc_kept c f s (Kept.refl s)
  | .deviceRegisterWrite c off wide v => execDeviceRegisterWrite_kept c off wide v s (Kept.refl s)
  | .fixedPointMac c f => execFixedPointMac_kept c f s (Kept.refl s)
  | .accumulatorArithmetic c f => execAccumulatorArithmetic_kept c f s (Kept.refl s)
  | .accumulatorMove c f => execAccumulatorMove_kept c f s (Kept.refl s)
  | .scalarFpOp c f => execScalarFpOp_kept c f s (Kept.refl s)
  | .fldFst c f => execFldFst_kept c f s (Kept.refl s)
  | .fpMoveConvert c f => execFpMoveConvert_kept c f s (Kept.refl s)
  | .rpt c p x w => execRpt_kept c p x w s (Kept.refl s)
  | .rpti c p x w => execRpti_kept c p x w s (Kept.refl s)
  | .gloss c f => execGloss_kept c f s (Kept.refl s)
  | .glWord c rd => execGlWord_kept c rd s (Kept.refl s)
  | .glCtlCommit c rd => execGlCtlCommit_kept c rd s (Kept.refl s)
  | .glLock c rd => execGlLock_kept c rd s (Kept.refl s)
  | .breakpointHalt c => execBreakpointHalt_kept c s (Kept.refl s)
  | .callg c f => execCallg_kept c f s (Kept.refl s)
  | .retg c f => execRetg_kept c f s (Kept.refl s)
  | .rte c f => execRte_kept c f s (Kept.refl s)
  | .mfb c f => execMfb_kept c f s (Kept.refl s)
  | .mtb c f => execMtb_kept c f s (Kept.refl s)
  | .gms c f => execGms_kept c f s (Kept.refl s)
  | .gmc c f => execGmc_kept c f s (Kept.refl s)
  | .wait c f => execWait_kept c f s (Kept.refl s)
  | .elinkWrite c rd => execElinkWrite_kept c rd s (Kept.refl s)
  | .stWrite c rd => execStWrite_kept c rd s (Kept.refl s)
  | .xsend c rd => execXsend_kept c rd s (Kept.refl s)
  | .xtimerWrite c rd => execXtimerWrite_kept c rd s (Kept.refl s)
  | .timerEvent c => execTimerEvent_kept c s (Kept.refl s)
  | .takeAsyncEvent c => execTakeAsyncEvent_kept c s (Kept.refl s)
  | .watchdog c => execWatchdog_kept c s (Kept.refl s)
  | .fence c f => execFence_kept c f s (Kept.refl s)
  | .dczl c f => execDczl_kept c f s (Kept.refl s)
  | .pref c f => execPref_kept c f s (Kept.refl s)
  | .icsync c f => execIcsync_kept c f s (Kept.refl s)
  | .tlbi c f => execTlbi_kept c f s (Kept.refl s)
  | .tspecBegin c f => execTspecBegin_kept c f s (Kept.refl s)
  | .tspecCommit c f => execTspecCommit_kept c f s (Kept.refl s)
  | .tspecAbort c f => execTspecAbort_kept c f s (Kept.refl s)
  | .tspecWait c f => execTspecWait_kept c f s (Kept.refl s)
  | .taskAbortRedirect c => execTaskAbortRedirect_kept c s (Kept.refl s)
  | .sstart c f => execSstart_kept c f s (Kept.refl s)
  | .sresume c f => execSresume_kept c f s (Kept.refl s)
  | .scancel c f => execScancel_kept c f s (Kept.refl s)
  | .swait c f => execSwait_kept c f s (Kept.refl s)
  | .swaitb c f => execSwaitb_kept c f s (Kept.refl s)
  | .streamBlockIssue c e => execStreamBlockIssue_kept c e s (Kept.refl s)
  | .granuleLands c e blk g => execGranuleLands_kept c e blk g s (Kept.refl s)
  | .streamBlockComplete c e => execStreamBlockComplete_kept c e s (Kept.refl s)
  | .streamHalt c e => execStreamHalt_kept c e s (Kept.refl s)
  | .semsig c f => execSemsig_kept c f s (Kept.refl s)
  | .semwait c f => execSemwait_kept c f s (Kept.refl s)
  | .semPairWrite c n rd => execSemPairWrite_kept c n rd s (Kept.refl s)
  | .bara c f => execBara_kept c f s (Kept.refl s)
  | .barw c f => execBarw_kept c f s (Kept.refl s)
  | .barcfg c f => execBarcfg_kept c f s (Kept.refl s)
  | .bargen c f => execBargen_kept c f s (Kept.refl s)
  | .gsubmit c f => execGsubmit_kept c f s (Kept.refl s)
  | .gcancel c f => execGcancel_kept c f s (Kept.refl s)
  | .gatherPosition e => execGatherPosition_kept e s (Kept.refl s)
  | .gatherJobComplete id => execGatherJobComplete_kept id s (Kept.refl s)
  | .gatherJobRefused id => execGatherJobRefused_kept id s (Kept.refl s)
  | .portTrained p => execPortTrained_kept p s (Kept.refl s)
  | .portTrainingRetry p => execPortTrainingRetry_kept p s (Kept.refl s)
  | .portDown p => execPortDown_kept p s (Kept.refl s)
  | .linkReplay p => execLinkReplay_kept p s (Kept.refl s)
  | .linkAck p => execLinkAck_kept p s (Kept.refl s)
  | .live p k => execLive_kept p k s (Kept.refl s)
  | .liveSend p => execLiveSend_kept p s (Kept.refl s)
  | .htHoldover => execHtHoldover_kept s (Kept.refl s)
  | .htSyncLost => execHtSyncLost_kept s (Kept.refl s)
  | .hello p k => execHello_kept p k s (Kept.refl s)
  | .catalogueClaim p k => execCatalogueClaim_kept p k s (Kept.refl s)
  | .cataloguerElected u => execCataloguerElected_kept u s (Kept.refl s)
  | .catalogueUpdate p k => execCatalogueUpdate_kept p k s (Kept.refl s)
  | .catalogueUpdateApply => execCatalogueUpdateApply_kept s (Kept.refl s)
  | .moduleSuspect call => execModuleSuspect_kept call s (Kept.refl s)
  | .moduleWithdrawn call u => execModuleWithdrawn_kept call u s (Kept.refl s)
  | .probe p k => execProbe_kept p k s (Kept.refl s)
  | .proberesp p k => execProberesp_kept p k s (Kept.refl s)
  | .packetForward p k => execPacketForward_kept p k s (Kept.refl s)
  | .rdreq p k => execRdreq_kept p k s (Kept.refl s)
  | .wrreq p k => execWrreq_kept p k s (Kept.refl s)
  | .atomreq p k => execAtomreq_kept p k s (Kept.refl s)
  | .rdresp p k => execRdresp_kept p k s (Kept.refl s)
  | .wrack p k => execWrack_kept p k s (Kept.refl s)
  | .atomresp p k => execAtomresp_kept p k s (Kept.refl s)
  | .refuse p k => execRefuse_kept p k s (Kept.refl s)
  | .watchrel p k => execWatchrel_kept p k s (Kept.refl s)
  | .watchbreak p k => execWatchbreak_kept p k s (Kept.refl s)
  | .requestTimeout tag => execRequestTimeout_kept tag s (Kept.refl s)
  | .planGo c v => execPlanGo_kept c v s (Kept.refl s)
  | .planTrigger => execPlanTrigger_kept s (Kept.refl s)
  | .reduce p k => execReduce_kept p k s (Kept.refl s)
  | .mcast p k => execMcast_kept p k s (Kept.refl s)
  | .harrive p k => execHarrive_kept p k s (Kept.refl s)
  | .hrelease p k => execHrelease_kept p k s (Kept.refl s)
  | .hallBarrierArrive p => execHallBarrierArrive_kept p s (Kept.refl s)
  | .lgStart c k => execLgStart_kept c k s (Kept.refl s)
  | .lgSealGo c dirty => execLgSealGo_kept c dirty s (Kept.refl s)
  | .voteSend => execVoteSend_kept s (Kept.refl s)
  | .vote p k => execVote_kept p k s (Kept.refl s)
  | .outcome p k => execOutcome_kept p k s (Kept.refl s)
  | .sealedOutcomeApply => execSealedOutcomeApply_kept s (Kept.refl s)
  | .replayOutcomeApply => execReplayOutcomeApply_kept s (Kept.refl s)
  | .replayQuietFlush => execReplayQuietFlush_kept s (Kept.refl s)
  | .lgPostUwr c => execLgPostUwr_kept c s (Kept.refl s)
  | .lgPostRootdone c => execLgPostRootdone_kept c s (Kept.refl s)
  | .lgPostRecvdone c => execLgPostRecvdone_kept c s (Kept.refl s)
  | .lgPostTwin c t3 tx => execLgPostTwin_kept c t3 tx s (Kept.refl s)
  | .digup p k => execDigup_kept p k s (Kept.refl s)
  | .digdown p k => execDigdown_kept p k s (Kept.refl s)
  | .uwrup p k => execUwrup_kept p k s (Kept.refl s)
  | .ratiodn p k => execRatiodn_kept p k s (Kept.refl s)
  | .svCmdBuild c => execSvCmdBuild_kept c s (Kept.refl s)
  | .svCmdBuilt c => execSvCmdBuilt_kept c s (Kept.refl s)
  | .svCmdHeld c => execSvCmdHeld_kept c s (Kept.refl s)
  | .svCmdAbandon c => execSvCmdAbandon_kept c s (Kept.refl s)
  | .svCmdDeposited c => execSvCmdDeposited_kept c s (Kept.refl s)
  | .svRewind c k => execSvRewind_kept c k s (Kept.refl s)
  | .fieldTestWindowEnd => execFieldTestWindowEnd_kept s (Kept.refl s)
  | .reserveTestCycle => execReserveTestCycle_kept s (Kept.refl s)
  | .phase c f => execPhase_kept c f s (Kept.refl s)
  | .phaseTakesEffect => execPhaseTakesEffect_kept s (Kept.refl s)
  | .frequencyLoopTick w => execFrequencyLoopTick_kept w s (Kept.refl s)
  | .pllRelocked => execPllRelocked_kept s (Kept.refl s)
  | .voltageRampDone => execVoltageRampDone_kept s (Kept.refl s)
  | .frequencySwitch => execFrequencySwitch_kept s (Kept.refl s)
  | .frequencyIncreaseAbandoned => execFrequencyIncreaseAbandoned_kept s (Kept.refl s)
  | .droopTrip q d => execDroopTrip_kept q d s (Kept.refl s)
  | .droopClear q => execDroopClear_kept q s (Kept.refl s)
  | .powerMeasurement w => execPowerMeasurement_kept w s (Kept.refl s)
  | .averageLimiterTick w => execAverageLimiterTick_kept w s (Kept.refl s)
  | .capStretchTick w => execCapStretchTick_kept w s (Kept.refl s)
  | .thermalRead t => execThermalRead_kept t s (Kept.refl s)
  | .brokerMeanTimeout => execBrokerMeanTimeout_kept s (Kept.refl s)
  | .arrayGateOpen q => execArrayGateOpen_kept q s (Kept.refl s)
  | .rampStep q => execRampStep_kept q s (Kept.refl s)
  | .pwJobtag c v => execPwJobtag_kept c v s (Kept.refl s)
  | .undervoltageLockout mv => execUndervoltageLockout_kept mv s (Kept.refl s)
  | .overvoltageShutdown mv => execOvervoltageShutdown_kept mv s (Kept.refl s)
  | .thermtrip t => execThermtrip_kept t s (Kept.refl s)
  | .mbDoor c mb v => execMbDoor_kept c mb v s (Kept.refl s)
  | .mbNpop c mb v => execMbNpop_kept c mb v s (Kept.refl s)
  | .managementFrame bs => execManagementFrame_kept bs s (Kept.refl s)
  | .slipAnswered mb => execSlipAnswered_kept mb s (Kept.refl s)
  | .ownQuery mb => execOwnQuery_kept mb s (Kept.refl s)
  | .ownClaim mb => execOwnClaim_kept mb s (Kept.refl s)
  | .ownershipContestClose => execOwnershipContestClose_kept s (Kept.refl s)
  | .ownRenew mb => execOwnRenew_kept mb s (Kept.refl s)
  | .leaseExpiry => execLeaseExpiry_kept s (Kept.refl s)
  | .ownRelease mb => execOwnRelease_kept mb s (Kept.refl s)
  | .ownGrant mb => execOwnGrant_kept mb s (Kept.refl s)
  | .ownForce mb => execOwnForce_kept mb s (Kept.refl s)
  | .ownKeyset mb => execOwnKeyset_kept mb s (Kept.refl s)
  | .info mb => execInfo_kept mb s (Kept.refl s)
  | .arrayMap mb => execArrayMap_kept mb s (Kept.refl s)
  | .bookplate mb => execBookplate_kept mb s (Kept.refl s)
  | .quote mb => execQuote_kept mb s (Kept.refl s)
  | .fnQuery mb => execFnQuery_kept mb s (Kept.refl s)
  | .fnDisable mb => execFnDisable_kept mb s (Kept.refl s)
  | .fnDrainEnd fn => execFnDrainEnd_kept fn s (Kept.refl s)
  | .fnEnable mb => execFnEnable_kept mb s (Kept.refl s)
  | .fnReset mb => execFnReset_kept mb s (Kept.refl s)
  | .fnResetDone fn => execFnResetDone_kept fn s (Kept.refl s)
  | .devReset mb => execDevReset_kept mb s (Kept.refl s)
  | .deviceReset => execDeviceReset_kept s (Kept.refl s)
  | .coreStoprec mb => execCoreStoprec_kept mb s (Kept.refl s)
  | .coreRestart mb => execCoreRestart_kept mb s (Kept.refl s)
  | .coreStop mb => execCoreStop_kept mb s (Kept.refl s)
  | .wdog mb => execWdog_kept mb s (Kept.refl s)
  | .dbgHalt mb => execDbgHalt_kept mb s (Kept.refl s)
  | .dbgResume mb => execDbgResume_kept mb s (Kept.refl s)
  | .pwMode mb => execPwMode_kept mb s (Kept.refl s)
  | .pwOpp mb => execPwOpp_kept mb s (Kept.refl s)
  | .pwGroup mb => execPwGroup_kept mb s (Kept.refl s)
  | .pwShareset mb => execPwShareset_kept mb s (Kept.refl s)
  | .pwRead mb => execPwRead_kept mb s (Kept.refl s)
  | .fabShelf mb => execFabShelf_kept mb s (Kept.refl s)
  | .fabLayout mb => execFabLayout_kept mb s (Kept.refl s)
  | .planWrite mb => execPlanWrite_kept mb s (Kept.refl s)
  | .planRead mb => execPlanRead_kept mb s (Kept.refl s)
  | .catRead mb => execCatRead_kept mb s (Kept.refl s)
  | .withdraw mb => execWithdraw_kept mb s (Kept.refl s)
  | .mbBind mb => execMbBind_kept mb s (Kept.refl s)
  | .mailboxBindingExpiry mb => execMailboxBindingExpiry_kept mb s (Kept.refl s)
  | .weedRead mb => execWeedRead_kept mb s (Kept.refl s)
  | .weedClear mb => execWeedClear_kept mb s (Kept.refl s)
  | .ftest mb => execFtest_kept mb s (Kept.refl s)
  | .standbySet mb => execStandbySet_kept mb s (Kept.refl s)
  | .hbmMode mb => execHbmMode_kept mb s (Kept.refl s)
  | .telemRead mb => execTelemRead_kept mb s (Kept.refl s)
  | .telemLatch mb => execTelemLatch_kept mb s (Kept.refl s)
  | .telemetryLatchTaken => execTelemetryLatchTaken_kept s (Kept.refl s)
  | .ledgerRead mb => execLedgerRead_kept mb s (Kept.refl s)
  | .fwUpdateBegin mb => execFwUpdateBegin_kept mb s (Kept.refl s)
  | .fwUpdateData mb => execFwUpdateData_kept mb s (Kept.refl s)
  | .fwUpdateEnd mb => execFwUpdateEnd_kept mb s (Kept.refl s)
  | .powerGood mv straps => execPowerGood_kept mv straps s (Kept.refl s)
  | .modResetN ns => execModResetN_kept ns s (Kept.refl s)
  | .pwrEnDeassert => execPwrEnDeassert_kept s (Kept.refl s)
  | .inputRemoved => execInputRemoved_kept s (Kept.refl s)
  | .firmwareVerify => execFirmwareVerify_kept s (Kept.refl s)
  | .curatorBoot ok => execCuratorBoot_kept ok s (Kept.refl s)
  | .calibration ok => execCalibration_kept ok s (Kept.refl s)
  | .hbmTraining bad => execHbmTraining_kept bad s (Kept.refl s)
  | .carrelZeroing bad => execCarrelZeroing_kept bad s (Kept.refl s)
  | .selfTest bad tests => execSelfTest_kept bad tests s (Kept.refl s)
  | .linkTrainingStage partners => execLinkTrainingStage_kept partners s (Kept.refl s)
  | .ready => execReady_kept s (Kept.refl s)
  | .recoveryLoader => execRecoveryLoader_kept s (Kept.refl s)
  | .hubBootFetch img => execHubBootFetch_kept img s (Kept.refl s)
  | .hubBootRetry img => execHubBootRetry_kept img s (Kept.refl s)
  | .hallRefEdge n => execHallRefEdge_kept n s (Kept.refl s)
  | .hallRefTimeCode bs => execHallRefTimeCode_kept bs s (Kept.refl s)
  | .hallRefLoss => execHallRefLoss_kept s (Kept.refl s)
  | .clearFaults => execClearFaults_kept s (Kept.refl s)
  | .capability => execCapability_kept s (Kept.refl s)
  | .otFaultLimit => execOtFaultLimit_kept s (Kept.refl s)
  | .vinOvFaultLimit => execVinOvFaultLimit_kept s (Kept.refl s)
  | .vinOvWarnLimit => execVinOvWarnLimit_kept s (Kept.refl s)
  | .vinUvWarnLimit => execVinUvWarnLimit_kept s (Kept.refl s)
  | .vinUvFaultLimit => execVinUvFaultLimit_kept s (Kept.refl s)
  | .statusWord => execStatusWord_kept s (Kept.refl s)
  | .statusInput => execStatusInput_kept s (Kept.refl s)
  | .statusTemperature => execStatusTemperature_kept s (Kept.refl s)
  | .readVin mv => execReadVin_kept mv s (Kept.refl s)
  | .readIin ma => execReadIin_kept ma s (Kept.refl s)
  | .readTemperature1 => execReadTemperature1_kept s (Kept.refl s)
  | .readTemperature2 t => execReadTemperature2_kept t s (Kept.refl s)
  | .readTemperature3 t => execReadTemperature3_kept t s (Kept.refl s)
  | .readPin mw => execReadPin_kept mw s (Kept.refl s)
  | .pmbusRevision => execPmbusRevision_kept s (Kept.refl s)
  | .mfrId => execMfrId_kept s (Kept.refl s)
  | .mfrModel => execMfrModel_kept s (Kept.refl s)
  | .mfrSerial => execMfrSerial_kept s (Kept.refl s)
  | .extest cells => execExtest_kept cells s (Kept.refl s)
  | .samplePreload ext => execSamplePreload_kept ext s (Kept.refl s)
  | .idcode => execIdcode_kept s (Kept.refl s)
  | .bypass code => execBypass_kept code s (Kept.refl s)
  | .mbx dr => execMbx_kept dr s (Kept.refl s)
  | .tapReset => execTapReset_kept s (Kept.refl s)
  | .illegalInstruction c w => execIllegalInstruction_kept c w s (Kept.refl s)
  | .tldComplete c => execTldComplete_kept c s (Kept.refl s)
  | .meanSlack p k => execMeanSlack_kept p k s (Kept.refl s)
  | .undervoltageLockoutClear mv => execUndervoltageLockoutClear_kept mv s (Kept.refl s)
  | .inputPresent mv => execInputPresent_kept mv s (Kept.refl s)
  | .vinWarning mv => execVinWarning_kept mv s (Kept.refl s)
  | .imageSlotVerified => execImageSlotVerified_kept s (Kept.refl s)

theorem step_of_front {s : State} {i : Instr} {rest : List Instr} (h : s.pending = i :: rest) : step s = exec i { s with pending := rest } := by
  rw [step, h]

theorem step_of_idle {s : State} (h : s.pending = []) : step s = .next (s.advance 1) := by
  rw [step, h]

/-- A step that goes on keeps what operations keep, from the state with the front of the queue taken. -/
theorem step_kept {s t : State} (h : step s = .next t) : Kept { s with pending := s.pending.tail } t := by
  cases front : s.pending with
  | cons i rest =>
    rw [step_of_front front] at h
    exact (exec_kept i _).keep t h
  | nil =>
    rw [step_of_idle front] at h
    cases h
    exact ⟨id, front, Nat.le_add_right s.now 1⟩

/-- Settles O1: the two equations of `step`. -/
theorem stepRunsFront : Obligations.StepRunsFront :=
  ⟨fun _ _ _ => step_of_front, fun _ => step_of_idle⟩

/-- Settles O2: every command keeps the canonical form, and so does the idle tick. -/
theorem stepKeepsMemory : Obligations.StepKeepsMemory := fun _ _ safe h => (step_kept h).mem safe

/-- Settles O4: no command touches the queue behind it, and none turns time back. -/
theorem stepKeepsQueueAndTime : Obligations.StepKeepsQueueAndTime := fun _ _ h => ⟨(step_kept h).queue, (step_kept h).time⟩

end Sys2Proof.Machine
end

section
/-! SUPPORT. What a packet sent and a vote cast can change: the fabric, the ledger engine and the count of free values, and nothing else of the module
(11 R392 to R404, R433; 12 R449, R450). -/

namespace Sys2Proof.Machine

/-- Nothing but the fabric and the count of free values differs. -/
def State.FabOnly (s t : State) : Prop := ∃ fab free, t = { s with fab := fab, free := free }

/-- Nothing but the fabric, the ledger engine and the count of free values differs. -/
def State.LedOnly (s t : State) : Prop := ∃ fab led free, t = { s with fab := fab, led := led, free := free }

namespace State

theorem FabOnly.refl (s : State) : s.FabOnly s := ⟨_, _, rfl⟩

theorem FabOnly.trans {s t u : State} (h : s.FabOnly t) (g : t.FabOnly u) : s.FabOnly u := by
  obtain ⟨_, _, rfl⟩ := h
  obtain ⟨_, _, rfl⟩ := g
  exact ⟨_, _, rfl⟩

theorem LedOnly.refl (s : State) : s.LedOnly s := ⟨_, _, _, rfl⟩

theorem LedOnly.trans {s t u : State} (h : s.LedOnly t) (g : t.LedOnly u) : s.LedOnly u := by
  obtain ⟨_, _, _, rfl⟩ := h
  obtain ⟨_, _, _, rfl⟩ := g
  exact ⟨_, _, _, rfl⟩

theorem FabOnly.led {s t : State} (h : s.FabOnly t) : s.LedOnly t := by
  obtain ⟨_, _, rfl⟩ := h
  exact ⟨_, _, _, rfl⟩

/-- What a relation that composes holds of every element's step, it holds of the fold. -/
theorem foldl_rel {α β : Type} {R : β → β → Prop} (refl : ∀ b, R b b) (trans : ∀ {a b c}, R a b → R b c → R a c) {f : β → α → β}
    (step : ∀ b x, R b (f b x)) (l : List α) (b : β) : R b (l.foldl f b) := by
  induction l generalizing b with
  | nil => exact refl b
  | cons x l ih => exact trans (step b x) (ih _)

/-! ### Packets -/

theorem setPort_fabOnly (s : State) (p : PortId) (f : PortSt → PortSt) : s.FabOnly (s.setPort p f) := ⟨_, _, rfl⟩

theorem owe_fabOnly (s : State) (from' : Option PortId) (k : Packet) : s.FabOnly (s.owe from' k) := by
  cases from' with
  | none => exact .refl s
  | some p => exact ⟨_, _, rfl⟩

theorem notePlan_fabOnly (s : State) (p : PortId) (k : Packet) : s.FabOnly (s.notePlan p k) := by
  unfold notePlan
  split
  · exact ⟨_, _, rfl⟩
  · exact .refl s

theorem transmit_fabOnly (s : State) (p : PortId) (x : TxEnt) : s.FabOnly (s.transmit p x) :=
  ((s.owe_fabOnly x.from' x.pkt).trans (notePlan_fabOnly _ p x.pkt)).trans ⟨_, _, rfl⟩

theorem drainSome_fabOnly (p : PortId) (n : Nat) (s : State) : s.FabOnly (drainSome p n s) := by
  induction n generalizing s with
  | zero => exact .refl s
  | succ n ih =>
    unfold drainSome
    split
    · exact .refl s
    · exact ((s.setPort_fabOnly p _).trans (transmit_fabOnly _ p _)).trans (ih _)

theorem drainTx_fabOnly (s : State) (p : PortId) : s.FabOnly (drainTx s p) := drainSome_fabOnly p _ s

theorem sendFrom_fabOnly (s : State) (from' : Option PortId) (p : PortId) (k : Packet) : s.FabOnly (s.sendFrom from' p k) := by
  unfold sendFrom
  split
  · exact (s.setPort_fabOnly p _).trans (drainTx_fabOnly _ p)
  · exact s.owe_fabOnly from' k

theorem feCount_fabOnly (s : State) (lo : Nat) : s.FabOnly (s.feCount lo) := ⟨_, _, rfl⟩

theorem route_fabOnly (s : State) (k : Packet) : s.FabOnly (s.route k).2 := by
  obtain same | drawn := s.route_state k
  · rw [same]
    exact .refl s
  · rw [drawn]
    exact ⟨_, _, rfl⟩

theorem emit_fabOnly (s : State) (k : Packet) : s.FabOnly (s.emit k) := by
  unfold emit
  dsimp only
  split
  · exact s.feCount_fabOnly _
  · have routed := s.route_fabOnly (s.stamp k)
    split
    next p s1 e =>
      rw [e] at routed
      exact routed.trans (s1.sendFrom_fabOnly none p _)
    next s1 e =>
      rw [e] at routed
      split
      · exact routed
      · exact routed.trans (s1.feCount_fabOnly _)

theorem send_fabOnly (s : State) (k : Packet) : s.FabOnly (s.send k) := by
  unfold send
  split
  · exact .refl s
  · exact s.emit_fabOnly k

theorem relWatches_fabOnly (s : State) (ws : List (Nat × Nat × Nat)) : s.FabOnly (relWatches s ws) := by
  induction ws generalizing s with
  | nil => exact .refl s
  | cons w ws ih => exact (s.send_fabOnly _).trans (ih _)

theorem breakWatches_fabOnly (s : State) (ls : List Nat) : s.FabOnly (breakWatches s ls) := by
  unfold breakWatches
  dsimp only
  exact FabOnly.trans ⟨_, _, rfl⟩ (foldl_rel FabOnly.refl FabOnly.trans (fun t _ => t.send_fabOnly _) _ _)

/-! ### Votes -/

theorem sendLed_fabOnly (s : State) (kind call : Nat) (step : U64) (first : Nat) (bs : List Byte) :
    s.FabOnly (sendLed s kind call step first bs) := s.send_fabOnly _

theorem sendLeds_fabOnly (s : State) (kind : Nat) (step : U64) (first : Nat) (bs : List Byte) (calls : List Nat) :
    s.FabOnly (sendLeds s kind step first bs calls) :=
  foldl_rel FabOnly.refl FabOnly.trans (fun t _ => t.sendLed_fabOnly ..) calls s

theorem modLed_ledOnly (s : State) (f : LedState → LedState) : s.LedOnly (s.modLed f) := ⟨_, _, _, rfl⟩

theorem takeOutcome_ledOnly (s : State) (v : VoteVal) (t : U64) : s.LedOnly (takeOutcome s v t) := by
  unfold takeOutcome
  exact LedOnly.trans ⟨_, _, _, rfl⟩ (sendLeds_fabOnly _ _ _ _ _ _).led

theorem castVote_ledOnly (s : State) : s.LedOnly (castVote s) := by
  unfold castVote
  dsimp only
  split
  · exact takeOutcome_ledOnly ..
  · exact LedOnly.trans ⟨_, _, _, rfl⟩ (sendLed_fabOnly ..).led

theorem earlyVote_ledOnly (s : State) : s.LedOnly (earlyVote s) := by
  unfold earlyVote
  split
  · exact castVote_ledOnly s
  · exact .refl s

theorem lateVote_ledOnly (s : State) : s.LedOnly (lateVote s) := by
  unfold lateVote
  split
  · exact castVote_ledOnly s
  · split
    · exact earlyVote_ledOnly s
    · exact .refl s

end State
end Sys2Proof.Machine
end

section
/-! SUPPORT and CERTIFICATE. The frame of issuing and of retiring an instruction (06 R200, R253, R254; 08 R293). -/

namespace Sys2Proof.Machine

/-! ### Coming to an instruction -/

theorem tileSync_of_no_tiles {s : State} {c : CoreId} (h : (s.core c).tile.queue = []) : tileSync s c = s := by
  rw [tileSync, tileSyncAt, h]
  rfl

theorem settleDue_of_none_due {s : State} {c : CoreId} (h : s.dueTasks c = []) : settleDue s c = s := by
  rw [settleDue, h]
  rfl

theorem ready_of_idle {s : State} {c : CoreId} (tiles : (s.core c).tile.queue = []) (tasks : s.dueTasks c = []) : ready s c = s := by
  rw [ready, tileSync_of_no_tiles tiles, settleDue_of_none_due tasks]

/-! ### The fetch -/

/-- What a fetch by core c leaves of a state: all but the clocks of chance, the L2, the core's translation and caches, and what poison does. -/
structure FetchFrame (c : CoreId) (v u : State) : Prop where
  mem : u.mem = v.mem
  poison : u.poison = v.poison
  barriers : u.barriers = v.barriers
  gather : u.gather = v.gather
  hall : u.hall = v.hall
  pow : u.pow = v.pow
  cur : u.cur = v.cur
  plat : u.plat = v.plat
  now : u.now = v.now
  pending : u.pending = v.pending
  regs : (v.core c).sameRegs (u.core c)
  str : (u.core c).str = (v.core c).str
  others : v.othersSame u c
  unpoisoned : v.poison = [] → u.fab = v.fab ∧ u.led = v.led ∧ (u.core c).rr = (v.core c).rr

namespace FetchFrame

theorem refl (c : CoreId) (s : State) : FetchFrame c s s :=
  ⟨rfl, rfl, rfl, rfl, rfl, rfl, rfl, rfl, rfl, rfl, .refl _, rfl, fun _ _ => rfl, fun _ => ⟨rfl, rfl, rfl⟩⟩

theorem trans {c : CoreId} {s t u : State} (h : FetchFrame c s t) (g : FetchFrame c t u) : FetchFrame c s u where
  mem := g.mem.trans h.mem
  poison := g.poison.trans h.poison
  barriers := g.barriers.trans h.barriers
  gather := g.gather.trans h.gather
  hall := g.hall.trans h.hall
  pow := g.pow.trans h.pow
  cur := g.cur.trans h.cur
  plat := g.plat.trans h.plat
  now := g.now.trans h.now
  pending := g.pending.trans h.pending
  regs := h.regs.trans g.regs
  str := g.str.trans h.str
  others := fun d hd => (g.others d hd).trans (h.others d hd)
  unpoisoned := fun clean => by
    obtain ⟨fab, led, rr⟩ := h.unpoisoned clean
    obtain ⟨fab', led', rr'⟩ := g.unpoisoned (h.poison.trans clean)
    exact ⟨fab'.trans fab, led'.trans led, rr'.trans rr⟩

theorem ofL2 (c : CoreId) (s : State) (l2 : Vector L2Slice 64) (free : Nat) : FetchFrame c s { s with l2 := l2, free := free } :=
  ⟨rfl, rfl, rfl, rfl, rfl, rfl, rfl, rfl, rfl, rfl, .refl _, rfl, fun _ _ => rfl, fun _ => ⟨rfl, rfl, rfl⟩⟩

/-- A change of the fetching core beside its registers and its streams; its ring registers change only where there is poison. -/
theorem ofModCore {c : CoreId} {s : State} {f : Core → Core} (regs : ∀ k : Core, k.sameRegs (f k)) (str : ∀ k : Core, (f k).str = k.str)
    (rr : s.poison = [] → ∀ k : Core, (f k).rr = k.rr) : FetchFrame c s (s.modCore c f) where
  mem := rfl
  poison := rfl
  barriers := rfl
  gather := rfl
  hall := rfl
  pow := rfl
  cur := rfl
  plat := rfl
  now := rfl
  pending := rfl
  regs := s.modCore_sameRegs c c regs
  str := by rw [State.core_modCore, str]
  others := fun _ hd => s.core_modCore_ne f hd
  unpoisoned := fun clean => ⟨rfl, rfl, by rw [State.core_modCore, rr clean]⟩

/-- A vote is no effect of a fetch without poison. -/
theorem ofLedOnly {c : CoreId} {s t : State} (poisoned : s.poison ≠ []) (h : s.LedOnly t) : FetchFrame c s t := by
  obtain ⟨_, _, _, rfl⟩ := h
  exact ⟨rfl, rfl, rfl, rfl, rfl, rfl, rfl, rfl, rfl, rfl, .refl _, rfl, fun _ _ => rfl, fun clean => absurd clean poisoned⟩

end FetchFrame

theorem l2Line_fetchFrame (c : CoreId) (s : State) (l : Nat) (valid : BitVec 4) (written : Bool) :
    FetchFrame c s (l2Line s l valid written) := by
  unfold l2Line
  split
  · exact .refl c s
  · exact .ofL2 c s _ _

theorem l2Touch_fetchFrame (c : CoreId) (s : State) (pa n : Nat) (written : Bool) : FetchFrame c s (l2Touch s pa n written) := by
  unfold l2Touch
  split
  · exact State.foldl_rel (.refl c) .trans (fun t l => l2Line_fetchFrame c t l _ written) _ s
  · exact .refl c s

/-- A machine check is an effect of poison. -/
theorem machineCheck_fetchFrame {c : CoreId} {s : State} (poisoned : s.poison ≠ []) (source addr : Nat) :
    FetchFrame c s (machineCheck s c source addr) := by
  have pends : FetchFrame c s (s.modCore c (fun k => { k with rr := { k.rr with
      xpend := setBit k.rr.xpend 4 true, mcInfo := n64 (source + addr % 2 ^ 56 * 256) } })) :=
    .ofModCore (fun _ => ⟨rfl, rfl, rfl, rfl, rfl, rfl, rfl⟩) (fun _ => rfl) (fun clean => absurd clean poisoned)
  exact pends.trans (.ofLedOnly poisoned ((State.modLed_ledOnly _ (fun l => { l with voteMc := true })).trans (State.earlyVote_ledOnly _)))

theorem poison_ne_nil_of_poisoned {s : State} {pa n : Nat} (h : s.poisoned pa n = true) : s.poison ≠ [] := by
  intro clean
  simp [State.poisoned, clean] at h

theorem walked_fetchFrame (c : CoreId) (s : State) (reads : List Nat) : FetchFrame c s (walked s c reads) := by
  refine State.foldl_rel (.refl c) .trans (fun t a => ?_) reads s
  dsimp only
  split
  next h => exact (l2Touch_fetchFrame c t a 8 false).trans (machineCheck_fetchFrame (poison_ne_nil_of_poisoned h) 2 a)
  next => exact l2Touch_fetchFrame c t a 8 false

theorem fillL1I_fetchFrame (c : CoreId) (s : State) (l : Nat) : FetchFrame c s (fillL1I s c l) := by
  unfold fillL1I
  split
  · exact .refl c s
  · refine ((l2Line_fetchFrame c s l 0xF false).trans ?_).trans (.ofL2 c _ _ _)
    exact .ofModCore (fun _ => ⟨rfl, rfl, rfl, rfl, rfl, rfl, rfl⟩) (fun _ => rfl) (fun _ _ => rfl)

theorem fetchLines_fetchFrame (c : CoreId) (s : State) (pa : Nat) : FetchFrame c s (fetchLines s c pa) := by
  unfold fetchLines
  dsimp only
  split
  · exact (fillL1I_fetchFrame c s _).trans (fillL1I_fetchFrame c _ _)
  · exact fillL1I_fetchFrame c s _

/-- A state with an entry, where there is one, filled into the TLBs of a core (08 R290). -/
def State.fillTlb (s : State) (c : CoreId) (e : Option TlbEntry) (va pick : Nat) : State :=
  match e with
  | some e => s.modCore c (fun k => { k with mm := k.mm.fillTlb e va pick })
  | none => s

theorem State.fillTlb_fetchFrame (s : State) (c : CoreId) (e : Option TlbEntry) (va pick : Nat) : FetchFrame c s (s.fillTlb c e va pick) := by
  cases e with
  | some e =>
    exact .ofModCore (f := fun k => { k with mm := k.mm.fillTlb e va pick }) (fun _ => ⟨rfl, rfl, rfl, rfl, rfl, rfl, rfl⟩)
      (fun _ => rfl) (fun _ _ => rfl)
  | none => exact .refl c s

/-- The state a translation leaves, whether or not it permits the access (08 R287 to R290). -/
def State.translated (s : State) (c : CoreId) (r : Xlat) (va : U64) : State :=
  let t := (walked s c r.reads).fillTlb c r.fill va.toNat (Config.freeNat (s.free + 1))
  { t with free := t.free + 2 }

theorem State.translated_fetchFrame (s : State) (c : CoreId) (r : Xlat) (va : U64) : FetchFrame c s (s.translated c r va) := by
  exact ((walked_fetchFrame c s r.reads).trans (State.fillTlb_fetchFrame _ c _ _ _)).trans (.ofL2 c _ _ _)

/-- A translation that permits an access leaves the state of the walk, or the state as it was where the core is not translated. -/
theorem xlateAt_ok {c : CoreId} {ring : Nat} {acc : Acc} {va : U64} {s t : State} {pa : Nat} (h : xlateAt c ring acc va s = .ok pa t) :
    t = s ∨ ∃ r, t = s.translated c r va := by
  unfold xlateAt at h
  rw [bind_ok (op_get s)] at h
  dsimp only at h
  rw [op_ite] at h
  split at h
  · refine .inr ⟨translate s (s.core c).mm.entries (s.core c).mm.root (s.core c).mm.xctl ring acc va.toNat, ?_⟩
    generalize translate s (s.core c).mm.entries (s.core c).mm.root (s.core c).mm.xctl ring acc va.toNat = r at h ⊢
    rw [bind_ok (op_set _ s)] at h
    obtain ⟨permitted, fill, reads⟩ := r
    cases permitted with
    | some pa =>
      cases h
      rfl
    | none => cases h
  · cases h
    exact .inl rfl

theorem xlateAt_fetchFrame {c : CoreId} {ring : Nat} {acc : Acc} {va : U64} {s t : State} {pa : Nat}
    (h : xlateAt c ring acc va s = .ok pa t) : FetchFrame c s t := by
  obtain rfl | ⟨r, rfl⟩ := xlateAt_ok h
  · exact .refl c _
  · exact s.translated_fetchFrame c r va

/-- The state after the lines of a fetch have come in: poison in the word raises machine check (08 R293, R300). -/
def State.fetched (s : State) (c : CoreId) (pa : Nat) : State :=
  if s.poisoned pa 4 then machineCheck (fetchLines s c pa) c 2 pa else fetchLines s c pa

theorem State.fetched_fetchFrame (s : State) (c : CoreId) (pa : Nat) : FetchFrame c s (s.fetched c pa) := by
  have lines := fetchLines_fetchFrame c s pa
  unfold State.fetched
  split
  next h =>
    have poisoned := poison_ne_nil_of_poisoned h
    exact lines.trans (machineCheck_fetchFrame (lines.poison ▸ poisoned) 2 pa)
  next => exact lines

/-- A fetch that raises nothing translates the PC and brings its lines in. -/
theorem fetchAt_ok {c : CoreId} {s t : State} {pa : Nat} (h : fetchAt s c = .ok pa t) :
    ∃ u, xlateAt c (s.core c).ring .fetch (s.core c).pc s = .ok pa u ∧ t = u.fetched c pa := by
  unfold fetchAt at h
  change (coreOf c >>= _) s = _ at h
  rw [bind_ok (coreOf_run c s)] at h
  cases far : bit (s.core c).pc 63 with
  | true =>
    rw [bind_error (e := .trap 0x0A 0 (s.core c).pc false) (t := s) (by rw [far]; rfl)] at h
    cases h
  | false =>
    rw [bind_ok (trapIf_ok far ..)] at h
    cases xl : xlateAt c (s.core c).ring .fetch (s.core c).pc s with
    | error e u =>
      rw [bind_error xl] at h
      cases h
    | ok p u =>
      rw [bind_ok xl] at h
      cases hbm : isHbm p with
      | false =>
        rw [bind_error (e := .trap 0x08 0 (s.core c).pc false) (t := u) (by rw [hbm]; rfl)] at h
        cases h
      | true =>
        rw [bind_ok (trapIf_ok (by rw [hbm]; rfl) ..), bind_ok (op_get u)] at h
        cases h
        exact ⟨u, rfl, rfl⟩

theorem fetchAt_fetchFrame {c : CoreId} {s t : State} {pa : Nat} (h : fetchAt s c = .ok pa t) : FetchFrame c s t := by
  obtain ⟨u, xl, rfl⟩ := fetchAt_ok h
  exact (xlateAt_fetchFrame xl).trans (u.fetched_fetchFrame c pa)

theorem Core.dropRecords_sameRegs (k : Core) (kind : IKind) : k.sameRegs (k.dropRecords kind) := by
  unfold Core.dropRecords
  split
  · exact ⟨rfl, rfl, rfl, rfl, rfl, rfl, rfl⟩
  · exact .refl k

@[simp] theorem Core.dropRecords_str (k : Core) (kind : IKind) : (k.dropRecords kind).str = k.str := by
  unfold Core.dropRecords
  split
  · rfl
  · rfl

@[simp] theorem Core.dropRecords_rr (k : Core) (kind : IKind) : (k.dropRecords kind).rr = k.rr := by
  unfold Core.dropRecords
  split
  · rfl
  · rfl

/-- The state an instruction's effect starts from comes of a fetch, after which the records of R190 and R240 may be dropped. -/
theorem issued_fetchFrame {s u : State} {c : CoreId} {kind : IKind} (h : s.issued c kind = some u) : FetchFrame c (ready s c) u := by
  unfold State.issued at h
  dsimp only at h
  split at h
  · split at h
    next fetch =>
      cases h
      exact (fetchAt_fetchFrame fetch).trans
        (.ofModCore (fun k => k.dropRecords_sameRegs kind) (fun k => k.dropRecords_str kind) (fun _ k => k.dropRecords_rr kind))
    next => cases h
  · cases h

/-! ### Retirement -/

/-- A core after its instruction retires with the PC moved on (06 R253). -/
def Core.retired (k : Core) (npc : U64) (now : Nat) : Core :=
  Core.syncMask (Core.setBank { k with ex := { k.ex with instret := k.ex.instret + 1, afterRte := false, bpSkip := false, hlog := [] } }
    (fun b => { b with pc := npc })) now

theorem retire_eq (s : State) (c : CoreId) (npc : U64) : retire s c npc false = stepDone (s.modCore c (fun k => k.retired npc s.now)) c := rfl

@[simp] theorem Core.syncMask_bank (k : Core) (now : Nat) : (k.syncMask now).bank = k.bank := by
  rw [Core.bank, Core.syncMask_rr]
  rfl

@[simp] theorem Core.syncMask_str (k : Core) (now : Nat) : (k.syncMask now).str = k.str := by
  unfold Core.syncMask
  split
  · split
    · rfl
    · rfl
  · rfl

@[simp] theorem Core.syncMask_mm (k : Core) (now : Nat) : (k.syncMask now).mm = k.mm := by
  unfold Core.syncMask
  split
  · split
    · rfl
    · rfl
  · rfl

@[simp] theorem Core.syncMask_tile (k : Core) (now : Nat) : (k.syncMask now).tile = k.tile := (k.syncMask_sameRegs now).tile

/-- The mask's bookkeeping is all that changes of the execution registers. -/
theorem Core.syncMask_ex (k : Core) (now : Nat) : ∃ from' posted, (k.syncMask now).ex = { k.ex with maskFrom := from', wdPosted := posted } := by
  unfold Core.syncMask
  split
  · split
    · exact ⟨_, _, rfl⟩
    · exact ⟨_, _, rfl⟩
  · exact ⟨_, _, rfl⟩

namespace Core

theorem retired_bank (k : Core) (npc : U64) (now : Nat) : (k.retired npc now).bank = { k.bank with pc := npc } := by
  rw [retired, syncMask_bank, bank_setBank]
  rfl

theorem retired_pc (k : Core) (npc : U64) (now : Nat) : (k.retired npc now).pc = npc := by
  rw [pc, retired_bank]

theorem retired_ring (k : Core) (npc : U64) (now : Nat) : (k.retired npc now).ring = k.ring := by
  rw [ring, retired_bank]
  rfl

theorem retired_gm (k : Core) (npc : U64) (now : Nat) : (k.retired npc now).bank.gm = k.bank.gm := by
  rw [retired_bank]

theorem retired_cur (k : Core) (npc : U64) (now : Nat) : (k.retired npc now).rr.cur = k.rr.cur := by
  rw [retired, syncMask_rr]
  rfl

theorem retired_sp (k : Core) (npc : U64) (now : Nat) : (k.retired npc now).rr.sp = k.rr.sp := by
  rw [retired, syncMask_rr]
  rfl

theorem retired_mm (k : Core) (npc : U64) (now : Nat) : (k.retired npc now).mm = k.mm := by
  rw [retired, syncMask_mm]
  rfl

theorem retired_str (k : Core) (npc : U64) (now : Nat) : (k.retired npc now).str = k.str := by
  rw [retired, syncMask_str]
  rfl

theorem retired_sameRegs (k : Core) (npc : U64) (now : Nat) : k.sameRegs (k.retired npc now) := by
  unfold retired
  refine .trans ?_ (syncMask_sameRegs _ now)
  refine .trans ?_ (setPc_sameRegs _ npc)
  exact ⟨rfl, rfl, rfl, rfl, rfl, rfl, rfl⟩

/-- The execution registers after retirement: the count and the marks of one instruction. -/
theorem retired_ex (k : Core) (npc : U64) (now : Nat) : ∃ from' posted, (k.retired npc now).ex =
    { k.ex with instret := k.ex.instret + 1, afterRte := false, bpSkip := false, hlog := [], maskFrom := from', wdPosted := posted } := by
  obtain ⟨from', posted, e⟩ := syncMask_ex (Core.setBank { k with ex := { k.ex with
    instret := k.ex.instret + 1, afterRte := false, bpSkip := false, hlog := [] } } (fun b => { b with pc := npc })) now
  exact ⟨from', posted, e⟩

theorem retired_instret (k : Core) (npc : U64) (now : Nat) : (k.retired npc now).ex.instret = k.ex.instret + 1 := by
  obtain ⟨_, _, e⟩ := k.retired_ex npc now
  rw [e]

theorem retired_run (k : Core) (npc : U64) (now : Nat) : (k.retired npc now).ex.run = k.ex.run := by
  obtain ⟨_, _, e⟩ := k.retired_ex npc now
  rw [e]

theorem retired_dbgStep (k : Core) (npc : U64) (now : Nat) : (k.retired npc now).ex.dbgStep = k.ex.dbgStep := by
  obtain ⟨_, _, e⟩ := k.retired_ex npc now
  rw [e]

end Core

/-- A core that does not step goes on after its instruction. -/
theorem stepDone_of_not_stepping {s : State} {c : CoreId} (h : (s.core c).ex.dbgStep = false) : stepDone s c = s := by
  rw [stepDone, h]
  rfl

theorem done_of_not_stepping {u : State} {c : CoreId} (n : Nat) (h : (u.core c).ex.dbgStep = false) :
    u.done c n = u.modCore c (fun k => k.retired ((u.core c).pc + n64 n) u.now) := by
  rw [State.done, retire_eq, stepDone_of_not_stepping]
  rw [State.core_modCore, Core.retired_dbgStep, h]

@[simp] theorem raiseCN_ex (s : State) (n : Nat) (c : CoreId) : ((raiseCN s n).core c).ex = (s.core c).ex := by
  unfold raiseCN
  split
  next hn =>
    by_cases e : c = ⟨n, hn⟩
    · subst e
      rw [State.core_modCore]
    · rw [State.core_modCore_ne s _ e]
  next => rfl

@[simp] theorem queueNotice_ex (s : State) (mb : Nat) (n : Notice) (c : CoreId) : ((queueNotice s mb n).core c).ex = (s.core c).ex := by
  unfold queueNotice
  dsimp only
  split
  · split
    · exact raiseCN_ex (s.modBox mb _) _ c
    · rfl
  · rfl

theorem haltCore_run (s : State) (c : CoreId) : ((haltCore s c).core c).ex.run = .halted := by
  unfold haltCore
  dsimp only
  rw [queueNotice_ex, State.core_modCore]

/-- A core that steps halts after its instruction (06 R254). -/
theorem done_run_of_stepping {u : State} {c : CoreId} (n : Nat) (step : (u.core c).ex.dbgStep = true) (run : (u.core c).ex.run = .running)
    (tiles : (u.core c).tile.queue = []) : ((u.done c n).core c).ex.run = .halted := by
  have stepping : (((u.modCore c (fun k => k.retired ((u.core c).pc + n64 n) u.now)).core c).ex.dbgStep &&
      ((u.modCore c (fun k => k.retired ((u.core c).pc + n64 n) u.now)).core c).ex.run == .running &&
      ((u.modCore c (fun k => k.retired ((u.core c).pc + n64 n) u.now)).core c).tile.queue.isEmpty) = true := by
    rw [State.core_modCore, Core.retired_dbgStep, Core.retired_run, (Core.retired_sameRegs _ _ _).tile, step, run, tiles]
    rfl
  rw [State.done, retire_eq, stepDone, if_pos stepping]
  exact haltCore_run _ c

/-- Settles O5: an idle core comes to its instruction as it is, the fetch is framed by `FetchFrame`, and retirement changes only what
`Core.retired` writes, but that a stepping core halts. -/
theorem issueAndRetireFrame : Obligations.IssueAndRetireFrame := by
  refine ⟨fun s c => ready_of_idle, fun s u c kind h => ?_, fun u c n h => ?_, fun u c n => done_run_of_stepping n⟩
  · have f := issued_fetchFrame h
    exact ⟨f.mem, f.poison, f.barriers, f.gather, f.hall, f.pow, f.cur, f.plat, f.now, f.pending, f.regs, f.str, f.others, f.unpoisoned⟩
  · dsimp only
    rw [done_of_not_stepping n h, State.core_modCore]
    exact ⟨rfl, rfl, rfl, rfl, rfl, rfl, rfl, rfl, rfl, rfl, rfl, rfl, Core.retired_sameRegs _ _ _, Core.retired_pc _ _ _,
      Core.retired_ring _ _ _, Core.retired_cur _ _ _, Core.retired_gm _ _ _, Core.retired_instret _ _ _, Core.retired_mm _ _ _,
      Core.retired_str _ _ _, fun d hd => u.core_modCore_ne _ hd⟩

end Sys2Proof.Machine
end

section
/-! SUPPORT and CERTIFICATE. Immediate, address and move instructions (06 R205, R206, R211, R213, R214). -/

namespace Sys2Proof.Machine

/-! ### Completion -/

/-- An instruction whose body goes to the next word completes there. -/
theorem issue_done {s u t : State} {c : CoreId} {kind : IKind} {body : Op U64} {n : Nat} (h : s.issued c kind = some u)
    (plain : (kind == .rte) = false) (hb : body u = .ok ((t.core c).pc + n64 n) t) (w : U64) : issue c w kind body s = t.done c n := by
  rw [issue_ok h hb, plain]
  rfl

/-- What a computation comes to whose first part completes, from what its rest comes to. -/
theorem ok_then {α β : Type} {x : Op α} {f : α → Op β} {s t : State} {a : α} {r : EStateM.Result Stop State β} (h : x s = .ok a t)
    (g : f a t = r) : (x >>= f) s = r := (bind_ok h).trans g

/-- A body whose first part completes and which then goes to the next word. -/
theorem then_nextPC {c : CoreId} {x : Op Unit} {u t : State} {n : Nat} (h : x u = .ok () t) :
    (x >>= fun _ => nextPC c n) u = .ok ((t.core c).pc + n64 n) t := by
  rw [bind_ok h, nextPC_run]

theorem exec_nop {s u : State} {c : CoreId} (h : s.issued c .plain = some u) : exec (.nop c) s = .next (u.done c 4) :=
  congrArg Host.Outcome.next (issue_done h rfl (nextPC_run c 4 u) _)

/-- The read of an A register of the context without temporaries. -/
theorem Ctx.of_rdA (c : CoreId) (x : Option (BitVec 26)) (n : Nat) (u : State) :
    rdA (Ctx.of c x).c (reg (Ctx.of c x).t2 n) u = .ok ((u.core c).readA n) u := rfl

/-! ### Major 0x01 -/

theorem intImm_run {u : State} (c : CoreId) {x : Option (BitVec 26)} {f : BitVec 26} {v : U64}
    (shift : 4 ≤ fld f 14 4 → fld f 14 4 ≤ 6 → fld (plainImm x 14 (fld f 0 14)) 6 58 = 0) (move : fld f 14 4 = 7 → fld f 18 4 = 0)
    (hv : immOp (fld f 14 4) ((u.core c).readD (fld f 18 4)) (signedImm x 14 (fld f 0 14)) (plainImm x 14 (fld f 0 14)) = some v) :
    intImm (Ctx.of c x) f u = .ok () (u.modCore c (fun k => k.writeD (fld f 22 4) v)) := by
  have legal : ((decide (4 ≤ fld f 14 4 ∧ fld f 14 4 ≤ 6) && fld (plainImm x 14 (fld f 0 14)) 6 58 != 0) ||
      (fld f 14 4 == 7 && (fld f 18 4 != 0 || (Ctx.of c x).t2))) = false := by
    rw [Bool.or_eq_false_iff]
    constructor
    · by_cases hs : 4 ≤ fld f 14 4 ∧ fld f 14 4 ≤ 6
      · simp [shift hs.1 hs.2]
      · simp [hs]
    · by_cases hm : fld f 14 4 = 7
      · simp [move hm, Ctx.of]
      · simp [hm]
  unfold intImm
  rw [immVal_signed, immVal_plain, bind_ok (illegalIf_ok legal u), bind_ok (rdD_run ..)]
  dsimp only [Ctx.of, reg_false]
  rw [hv]
  rfl

theorem exec_integerImmediateOp {s u : State} {c : CoreId} {x : Option (BitVec 26)} {f : BitVec 26} {v : U64} (h : s.issued c .plain = some u)
    (shift : 4 ≤ fld f 14 4 → fld f 14 4 ≤ 6 → fld (plainImm x 14 (fld f 0 14)) 6 58 = 0) (move : fld f 14 4 = 7 → fld f 18 4 = 0)
    (hv : immOp (fld f 14 4) ((u.core c).readD (fld f 18 4)) (signedImm x 14 (fld f 0 14)) (plainImm x 14 (fld f 0 14)) = some v) :
    exec (.integerImmediateOp c x f) s = .next ((u.modCore c (fun k => k.writeD (fld f 22 4) v)).done c (codeBytes x)) :=
  congrArg Host.Outcome.next (issueScalar_imx h (.inl rfl) ((congrFun (scalarWord_intImm _ f) u).trans (intImm_run c shift move hv)))

/-- Settles O7: the three bodies complete with the operation's result. -/
theorem integerInstructionsComplete : Obligations.IntegerInstructionsComplete :=
  ⟨fun _ _ _ _ _ => exec_integerRegisterOp, fun _ _ _ _ _ _ => exec_integerImmediateOp, fun _ _ _ => exec_nop⟩

/-! ### Majors 0x02, 0x03 and 0x04 -/

theorem exec_addressReg {s u t : State} {c : CoreId} {f : BitVec 26} (h : s.issued c .plain = some u) (hb : addrReg (Ctx.of c none) f u = .ok () t) :
    exec (.addressOp c .reg none f) s = .next (t.done c 4) :=
  congrArg Host.Outcome.next (issueScalar_none h ((congrFun (scalarWord_addrReg _ f) u).trans hb))

theorem exec_addressImm {s u t : State} {c : CoreId} {x : Option (BitVec 26)} {f : BitVec 26} (h : s.issued c .plain = some u)
    (hb : addrImm (Ctx.of c x) f u = .ok () t) : exec (.addressOp c .imm x f) s = .next (t.done c (codeBytes x)) :=
  congrArg Host.Outcome.next (issueScalar_imx h (.inr (.inl rfl)) ((congrFun (scalarWord_addrImm _ f) u).trans hb))

theorem exec_addressMove {s u t : State} {c : CoreId} {f : BitVec 26} (h : s.issued c .plain = some u)
    (hb : addrMove (Ctx.of c none) f u = .ok () t) : exec (.addressOp c .move none f) s = .next (t.done c 4) :=
  congrArg Host.Outcome.next (issueScalar_none h ((congrFun (scalarWord_addrMove _ f) u).trans hb))

/-- A compare's answer as a word (06 R214). -/
theorem n64_b01_decide (p : Prop) [Decidable p] : n64 (b01 (decide p)) = if p then 1 else 0 := by
  by_cases h : p
  · simp [h, b01, n64]
  · simp [h, b01, n64]

theorem n64_b01_beq (a b : U64) : n64 (b01 (a == b)) = if a = b then 1 else 0 := by
  rw [← n64_b01_decide]
  rfl

theorem addrReg_writesA {u : State} {c : CoreId} {f : BitVec 26} {v : U64} (h0 : fld f 0 8 = 0)
    (hv : (fld f 8 6 = 0x00 ∧ v = (u.core c).readA (fld f 18 4) + (u.core c).readD (fld f 14 4)) ∨
      (fld f 8 6 = 0x01 ∧ v = (u.core c).readA (fld f 18 4) - (u.core c).readD (fld f 14 4)))
    (slim : (u.core c).slimFault (fld f 22 4) v = false) :
    addrReg (Ctx.of c none) f u = .ok () (u.modCore c (fun k => k.writeA (fld f 22 4) v)) := by
  unfold addrReg
  rw [bind_ok (illegalIf_ok (by simp [h0]) u), bind_ok (rdA_run ..), bind_ok (rdD_run ..), bind_ok (rdA_run ..)]
  dsimp only [Ctx.of, reg_false]
  obtain ⟨op, rfl⟩ | ⟨op, rfl⟩ := hv
  · rw [op]
    exact wrA_ok slim
  · rw [op]
    exact wrA_ok slim

theorem addrReg_writesD {u : State} {c : CoreId} {f : BitVec 26} {v : U64} (h0 : fld f 0 8 = 0)
    (hv : (fld f 8 6 = 0x08 ∧ v = (u.core c).readA (fld f 18 4) - (u.core c).readA (fld f 14 4)) ∨
      (fld f 8 6 = 0x10 ∧ v = (if (u.core c).readA (fld f 18 4) = (u.core c).readA (fld f 14 4) then 1 else 0)) ∨
      (fld f 8 6 = 0x11 ∧ v = (if ((u.core c).readA (fld f 18 4)).toNat < ((u.core c).readA (fld f 14 4)).toNat then 1 else 0)) ∨
      (fld f 8 6 = 0x12 ∧ v = (if ((u.core c).readA (fld f 18 4)).toNat ≤ ((u.core c).readA (fld f 14 4)).toNat then 1 else 0))) :
    addrReg (Ctx.of c none) f u = .ok () (u.modCore c (fun k => k.writeD (fld f 22 4) v)) := by
  unfold addrReg
  rw [bind_ok (illegalIf_ok (by simp [h0]) u), bind_ok (rdA_run ..), bind_ok (rdD_run ..), bind_ok (rdA_run ..)]
  dsimp only [Ctx.of, reg_false]
  obtain ⟨op, rfl⟩ | ⟨op, rfl⟩ | ⟨op, rfl⟩ | ⟨op, rfl⟩ := hv
  · rw [op]
    rfl
  · rw [op, ← n64_b01_beq]
    rfl
  · rw [op, ← n64_b01_decide]
    rfl
  · rw [op, ← n64_b01_decide]
    rfl

theorem addrImm_writesA {u : State} {c : CoreId} {x : Option (BitVec 26)} {f : BitVec 26} {v : U64}
    (hv : (fld f 14 4 = 0 ∧ v = (u.core c).readA (fld f 18 4) + signedImm x 14 (fld f 0 14)) ∨
      (fld f 14 4 = 1 ∧ v = (u.core c).readA (fld f 18 4) <<< fld (signedImm x 14 (fld f 0 14)) 0 6) ∨
      (fld f 14 4 = 2 ∧ v = (u.core c).readA (fld f 18 4) >>> fld (signedImm x 14 (fld f 0 14)) 0 6) ∨
      (fld f 14 4 = 3 ∧ fld f 18 4 = 0 ∧ v = (u.core c).pc + signedImm x 14 (fld f 0 14)))
    (slim : (u.core c).slimFault (fld f 22 4) v = false) :
    addrImm (Ctx.of c x) f u = .ok () (u.modCore c (fun k => k.writeA (fld f 22 4) v)) := by
  unfold addrImm
  dsimp only
  rw [bind_ok (Ctx.of_rdA ..), immVal_signed]
  obtain ⟨op, rfl⟩ | ⟨op, rfl⟩ | ⟨op, rfl⟩ | ⟨op, base, rfl⟩ := hv
  · rw [op]
    exact wrA_ok slim
  · rw [op]
    exact wrA_ok slim
  · rw [op]
    exact wrA_ok slim
  · rw [op]
    refine (bind_ok (illegalIf_ok (by simp [base, Ctx.of]) u)).trans ?_
    exact (bind_ok (pcOf_run ..)).trans (wrA_ok slim)

theorem addrMove_legal {c : CoreId} {f : BitVec 26} (h0 : fld f 0 8 = 0) (ra : fld f 18 4 = 0) :
    (fld f 0 8 != 0 || fld f 18 4 != 0 || (Ctx.of c none).t2) = false := by
  simp [h0, ra, Ctx.of]

theorem addrMove_writesA {u : State} {c : CoreId} {f : BitVec 26} {v : U64} (h0 : fld f 0 8 = 0) (ra : fld f 18 4 = 0)
    (hv : (fld f 8 6 = 0x00 ∧ v = (u.core c).readD (fld f 14 4)) ∨ (fld f 8 6 = 0x02 ∧ v = (u.core c).readA (fld f 14 4)))
    (slim : (u.core c).slimFault (fld f 22 4) v = false) :
    addrMove (Ctx.of c none) f u = .ok () (u.modCore c (fun k => k.writeA (fld f 22 4) v)) := by
  unfold addrMove
  rw [bind_ok (illegalIf_ok (addrMove_legal h0 ra) u)]
  dsimp only [Ctx.of, reg_false]
  obtain ⟨op, rfl⟩ | ⟨op, rfl⟩ := hv
  · rw [op]
    exact (bind_ok (rdD_run ..)).trans (wrA_ok slim)
  · rw [op]
    exact (bind_ok (rdA_run ..)).trans (wrA_ok slim)

theorem addrMove_writesD {u : State} {c : CoreId} {f : BitVec 26} (h0 : fld f 0 8 = 0) (ra : fld f 18 4 = 0) (op : fld f 8 6 = 0x01) :
    addrMove (Ctx.of c none) f u = .ok () (u.modCore c (fun k => k.writeD (fld f 22 4) (k.readA (fld f 14 4)))) := by
  unfold addrMove
  rw [bind_ok (illegalIf_ok (addrMove_legal h0 ra) u)]
  dsimp only [Ctx.of, reg_false]
  rw [op]
  rfl

/-- Settles O9: each FUNCT writes its result, an address result where the stack check passes it. -/
theorem addressInstructionsComplete : Obligations.AddressInstructionsComplete := by
  refine ⟨fun s u c f h h0 => ⟨fun v hv slim => ?_, fun v hv => ?_⟩, fun s u c x f v h hv slim => ?_,
    fun s u c f h h0 ra => ⟨fun v hv slim => ?_, fun op => ?_⟩⟩
  · exact exec_addressReg h (addrReg_writesA h0 hv slim)
  · exact exec_addressReg h (addrReg_writesD h0 hv)
  · exact exec_addressImm h (addrImm_writesA hv slim)
  · exact exec_addressMove h (addrMove_writesA h0 ra hv slim)
  · exact exec_addressMove h (addrMove_writesD h0 ra op)

end Sys2Proof.Machine
end

section
/-! CERTIFICATE. Scalar, address and floating-point loads and stores complete at the effective address of their mode (06 R205 to R209, R225). -/

namespace Sys2Proof.Machine

theorem two_pow_eq_eight {z : Nat} (h : 2 ^ z = 8) : z = 3 := Nat.pow_right_injective (Nat.le_refl 2) (show 2 ^ z = 2 ^ 3 from h)

/-! ### The effective address -/

/-- The effective address of a format M word (06 R205, R207). -/
def Core.eaOfM (k : Core) (x : Option (BitVec 26)) (f : BitVec 26) : EA :=
  formEA (fld f 16 2) (k.readA (fld f 18 4)) (signedImm x 13 (fld f 0 13)) (k.readD (fld f 9 4)) (fld f 7 2)

theorem eaM_run {u : State} (c : CoreId) {x : Option (BitVec 26)} {f : BitVec 26} (indexed : fld f 16 2 = 1 → x = none ∧ fld f 0 7 = 0) :
    eaM (Ctx.of c x) f u = .ok ((u.core c).eaOfM x f) u := by
  have legal : (fld f 16 2 == 1 && ((Ctx.of c x).imm != .plain || fld f 0 7 != 0)) = false := by
    by_cases hm : fld f 16 2 = 1
    · obtain ⟨rfl, low⟩ := indexed hm
      simp [low, Ctx.of]
    · simp [hm]
  unfold eaM
  rw [bind_ok (illegalIf_ok legal u), bind_ok (rdA_run ..), bind_ok (rdD_run ..), immVal_signed]
  rfl

/-! ### Major 0x05 -/

theorem loadD_run {u u1 : State} {c : CoreId} {x : Option (BitVec 26)} {f : BitVec 26} {bs : List Byte}
    (indexed : fld f 16 2 = 1 → x = none ∧ fld f 0 7 = 0) (ea : (u.core c).eaOk (fld f 18 4) ((u.core c).eaOfM x f) (2 ^ fld f 14 2) = true)
    (signed : bit f 13 = true → 2 ^ fld f 14 2 ≠ 8) (load : scalarLoad c ((u.core c).eaOfM x f).addr (2 ^ fld f 14 2) u = .ok bs u1) :
    loadD (Ctx.of c x) f u = .ok () ((u1.incremented c (fld f 18 4) ((u.core c).eaOfM x f)).modCore c (fun k =>
      k.writeD (fld f 22 4) (extend (2 ^ fld f 14 2) (bit f 13) (leNat bs)))) := by
  have legal : (bit f 13 && fld f 14 2 == 3) = false := by
    by_cases hz : fld f 14 2 = 3
    · have : bit f 13 = false := by
        by_contra hs
        exact signed (by simpa using hs) (by rw [hz]; rfl)
      simp [this]
    · simp [hz]
  unfold loadD
  exact ok_then (illegalIf_ok legal u) <| ok_then (eaM_run c indexed) <| ok_then (checkEA_ok ea) <| ok_then (noGlobal_run rfl _ u) <|
    ok_then load <| ok_then (writeBack_run ..) rfl

theorem exec_ld {s0 s u u1 : State} {c : CoreId} {x : Option (BitVec 26)} {f : BitVec 26} {bs : List Byte} {errs : List MemErr}
    (h : s.issued c .plain = some u) (ecc : errs.foldl (memError c) s0 = s) (indexed : fld f 16 2 = 1 → x = none ∧ fld f 0 7 = 0)
    (ea : (u.core c).eaOk (fld f 18 4) ((u.core c).eaOfM x f) (2 ^ fld f 14 2) = true) (signed : bit f 13 = true → 2 ^ fld f 14 2 ≠ 8)
    (load : scalarLoad c ((u.core c).eaOfM x f).addr (2 ^ fld f 14 2) u = .ok bs u1) :
    exec (.ld ⟨c, errs⟩ x f) s0 = .next (((u1.incremented c (fld f 18 4) ((u.core c).eaOfM x f)).modCore c (fun k =>
      k.writeD (fld f 22 4) (extend (2 ^ fld f 14 2) (bit f 13) (leNat bs)))).done c (codeBytes x)) := by
  show Host.Outcome.next (issueScalar c 0x05 x f (errs.foldl (memError c) s0)) = _
  rw [ecc, issueScalar_imx h (by simp) ((congrFun (scalarWord_loadD _ f) u).trans (loadD_run indexed ea signed load))]
  rfl

/-! ### Major 0x06 -/

theorem storeD_run {u u1 : State} {c : CoreId} {x : Option (BitVec 26)} {f : BitVec 26} (indexed : fld f 16 2 = 1 → x = none ∧ fld f 0 7 = 0)
    (ea : (u.core c).eaOk (fld f 18 4) ((u.core c).eaOfM x f) (2 ^ fld f 14 2) = true) (reserved : bit f 13 = false)
    (store : scalarStore c ((u.core c).eaOfM x f).addr (leBytes (2 ^ fld f 14 2) ((u.core c).readD (fld f 22 4)).toNat) u = .ok () u1) :
    storeD (Ctx.of c x) f u = .ok () (u1.incremented c (fld f 18 4) ((u.core c).eaOfM x f)) := by
  unfold storeD
  exact ok_then (illegalIf_ok reserved u) <| ok_then (eaM_run c indexed) <| ok_then (rdD_run ..) <| ok_then (checkEA_ok ea) <|
    ok_then (noGlobal_run rfl _ u) <| ok_then store (writeBack_run ..)

theorem exec_st {s u u1 : State} {c : CoreId} {x : Option (BitVec 26)} {f : BitVec 26} (h : s.issued c .plain = some u)
    (indexed : fld f 16 2 = 1 → x = none ∧ fld f 0 7 = 0)
    (ea : (u.core c).eaOk (fld f 18 4) ((u.core c).eaOfM x f) (2 ^ fld f 14 2) = true) (reserved : bit f 13 = false)
    (store : scalarStore c ((u.core c).eaOfM x f).addr (leBytes (2 ^ fld f 14 2) ((u.core c).readD (fld f 22 4)).toNat) u = .ok () u1) :
    exec (.st c x f) s = .next ((u1.incremented c (fld f 18 4) ((u.core c).eaOfM x f)).done c (codeBytes x)) :=
  congrArg Host.Outcome.next
    (issueScalar_imx h (by simp) ((congrFun (scalarWord_storeD _ f) u).trans (storeD_run indexed ea reserved store)))

/-! ### Major 0x07 -/

/-- What LDA and STA share: the checks of the word and of its address (06 R209). -/
theorem loadStoreA_run {u : State} {c : CoreId} {x : Option (BitVec 26)} {f : BitVec 26} (indexed : fld f 16 2 = 1 → x = none ∧ fld f 0 7 = 0)
    (word : 2 ^ fld f 14 2 = 8) (ea : (u.core c).eaOk (fld f 18 4) ((u.core c).eaOfM x f) (2 ^ fld f 14 2) = true)
    (base : bit f 13 = false → 2 ≤ fld f 16 2 → fld f 22 4 ≠ fld f 18 4) :
    loadStoreA (Ctx.of c x) f u =
      (if bit f 13 then do
        scalarStore c ((u.core c).eaOfM x f).addr (leBytes 8 ((u.core c).readA (fld f 22 4)).toNat)
        writeBack c (fld f 18 4) ((u.core c).eaOfM x f)
      else do
        let bs ← scalarLoad c ((u.core c).eaOfM x f).addr 8
        chkA c (fld f 22 4) (n64 (leNat bs))
        writeBack c (fld f 18 4) ((u.core c).eaOfM x f)
        modC c (fun k => k.writeA (fld f 22 4) (n64 (leNat bs))) : Op Unit) u := by
  have legal : (fld f 14 2 != 3 || (!bit f 13 && decide (2 ≤ fld f 16 2) && fld f 22 4 == fld f 18 4)) = false := by
    rw [two_pow_eq_eight word]
    by_cases hl : bit f 13 = false
    · by_cases hm : 2 ≤ fld f 16 2
      · simp [base hl hm]
      · simp [hm]
    · simp [hl]
  rw [word] at ea
  unfold loadStoreA
  exact ok_then (illegalIf_ok legal u) <| ok_then (eaM_run c indexed) <| ok_then (rdA_run ..) <| ok_then (checkEA_ok ea) <|
    ok_then (noGlobal_run rfl _ u) rfl

theorem exec_lda {s u u1 : State} {c : CoreId} {x : Option (BitVec 26)} {f : BitVec 26} {bs : List Byte} (h : s.issued c .plain = some u)
    (indexed : fld f 16 2 = 1 → x = none ∧ fld f 0 7 = 0)
    (ea : (u.core c).eaOk (fld f 18 4) ((u.core c).eaOfM x f) (2 ^ fld f 14 2) = true) (isLoad : bit f 13 = false)
    (word : 2 ^ fld f 14 2 = 8) (base : 2 ≤ fld f 16 2 → fld f 22 4 ≠ fld f 18 4)
    (load : scalarLoad c ((u.core c).eaOfM x f).addr 8 u = .ok bs u1) (slim : (u1.core c).slimFault (fld f 22 4) (n64 (leNat bs)) = false) :
    exec (.ldaSta c x f) s = .next (((u1.incremented c (fld f 18 4) ((u.core c).eaOfM x f)).modCore c (fun k =>
      k.writeA (fld f 22 4) (n64 (leNat bs)))).done c (codeBytes x)) := by
  refine congrArg Host.Outcome.next (issueScalar_imx h (by simp) ((congrFun (scalarWord_loadStoreA _ f) u).trans ?_))
  rw [loadStoreA_run indexed word ea (fun _ => base), isLoad]
  exact ok_then load <| ok_then (chkA_ok slim) <| ok_then (writeBack_run ..) rfl

theorem exec_sta {s u u1 : State} {c : CoreId} {x : Option (BitVec 26)} {f : BitVec 26} (h : s.issued c .plain = some u)
    (indexed : fld f 16 2 = 1 → x = none ∧ fld f 0 7 = 0)
    (ea : (u.core c).eaOk (fld f 18 4) ((u.core c).eaOfM x f) (2 ^ fld f 14 2) = true) (isStore : bit f 13 = true)
    (word : 2 ^ fld f 14 2 = 8)
    (store : scalarStore c ((u.core c).eaOfM x f).addr (leBytes 8 ((u.core c).readA (fld f 22 4)).toNat) u = .ok () u1) :
    exec (.ldaSta c x f) s = .next ((u1.incremented c (fld f 18 4) ((u.core c).eaOfM x f)).done c (codeBytes x)) := by
  refine congrArg Host.Outcome.next (issueScalar_imx h (by simp) ((congrFun (scalarWord_loadStoreA _ f) u).trans ?_))
  rw [loadStoreA_run indexed word ea (fun hl => absurd (hl.symm.trans isStore) Bool.false_ne_true), isStore]
  exact ok_then store (writeBack_run ..)

/-! ### Major 0x15 -/

/-- The effective address of FLD and FST (06 R225). -/
def Core.eaOfF (k : Core) (f : BitVec 26) : EA :=
  formEA (fld f 15 2) (k.readA (fld f 17 4)) (w64 (sx 12 (fld f 0 12))) (k.readD (fld f 8 4)) (fld f 6 2)

/-- What FLD and FST share: the checks of the word and of its address (06 R225). -/
theorem fpLoadStore_run {u : State} {c : CoreId} {f : BitVec 26} (indexed : fld f 15 2 = 1 → fld f 0 6 = 0) (size : 2 ^ fld f 13 2 ≠ 1)
    (ea : (u.core c).eaOk (fld f 17 4) ((u.core c).eaOfF f) (2 ^ fld f 13 2) = true) :
    fpLoadStore (Ctx.of c none) f u =
      (if bit f 12 then do
        let k ← coreOf c
        scalarStore c ((u.core c).eaOfF f).addr (leBytes (2 ^ fld f 13 2) (k.readF (fld f 21 5) (8 * 2 ^ fld f 13 2)))
        writeBack c (fld f 17 4) ((u.core c).eaOfF f)
      else do
        let bs ← scalarLoad c ((u.core c).eaOfF f).addr (2 ^ fld f 13 2)
        writeBack c (fld f 17 4) ((u.core c).eaOfF f)
        modC c (fun k => k.writeF (fld f 21 5) (leNat bs)) : Op Unit) u := by
  have sized : fld f 13 2 ≠ 0 := fun hz => size (by rw [hz]; rfl)
  have legal : (fld f 13 2 == 0 || (fld f 15 2 == 1 && fld f 0 6 != 0)) = false := by
    by_cases hm : fld f 15 2 = 1
    · simp [sized, indexed hm]
    · simp [sized, hm]
  unfold fpLoadStore
  exact ok_then (illegalIf_ok legal u) <| ok_then (rdA_run ..) <| ok_then (rdD_run ..) <| ok_then (checkEA_ok ea) <|
    ok_then (noGlobal_run rfl _ u) rfl

theorem exec_fld {s u u1 : State} {c : CoreId} {f : BitVec 26} {bs : List Byte} (h : s.issued c .plain = some u)
    (indexed : fld f 15 2 = 1 → fld f 0 6 = 0) (size : 2 ^ fld f 13 2 ≠ 1)
    (ea : (u.core c).eaOk (fld f 17 4) ((u.core c).eaOfF f) (2 ^ fld f 13 2) = true) (isLoad : bit f 12 = false)
    (load : scalarLoad c ((u.core c).eaOfF f).addr (2 ^ fld f 13 2) u = .ok bs u1) :
    exec (.fldFst c f) s = .next (((u1.incremented c (fld f 17 4) ((u.core c).eaOfF f)).modCore c (fun k =>
      k.writeF (fld f 21 5) (leNat bs))).done c 4) := by
  refine congrArg Host.Outcome.next (issueScalar_none h ((congrFun (scalarWord_fpLoadStore _ f) u).trans ?_))
  rw [fpLoadStore_run indexed size ea, isLoad]
  exact ok_then load <| ok_then (writeBack_run ..) rfl

theorem exec_fst {s u u1 : State} {c : CoreId} {f : BitVec 26} (h : s.issued c .plain = some u)
    (indexed : fld f 15 2 = 1 → fld f 0 6 = 0) (size : 2 ^ fld f 13 2 ≠ 1)
    (ea : (u.core c).eaOk (fld f 17 4) ((u.core c).eaOfF f) (2 ^ fld f 13 2) = true) (isStore : bit f 12 = true)
    (store : scalarStore c ((u.core c).eaOfF f).addr
      (leBytes (2 ^ fld f 13 2) ((u.core c).readF (fld f 21 5) (8 * 2 ^ fld f 13 2))) u = .ok () u1) :
    exec (.fldFst c f) s = .next ((u1.incremented c (fld f 17 4) ((u.core c).eaOfF f)).done c 4) := by
  refine congrArg Host.Outcome.next (issueScalar_none h ((congrFun (scalarWord_fpLoadStore _ f) u).trans ?_))
  rw [fpLoadStore_run indexed size ea, isStore]
  exact ok_then (coreOf_run c u) <| ok_then store (writeBack_run ..)

/-- Settles O10: an operand that can be read or written is, and the increment is written back after it. -/
theorem loadsAndStoresComplete : Obligations.LoadsAndStoresComplete := by
  refine ⟨fun s u u1 c x f bs h => ?_, fun s u u1 c f bs h => ?_⟩
  · intro k n ab ea indexed ok
    exact ⟨fun s0 errs ecc signed load => exec_ld h ecc indexed ok signed load, fun reserved store => exec_st h indexed ok reserved store,
      fun isLoad word base load slim => exec_lda h indexed ok isLoad word base load slim,
      fun isStore word store => exec_sta h indexed ok isStore word store⟩
  · intro k n ab ea indexed size ok
    exact ⟨fun isLoad load => exec_fld h indexed size ok isLoad load, fun isStore store => exec_fst h indexed size ok isStore store⟩

end Sys2Proof.Machine
end

section
/-! CERTIFICATE. Branches, jumps, calls and returns (06 R205, R227 to R229). -/

namespace Sys2Proof.Machine

/-! ### Branches -/

theorem branchB_run {u : State} {c : CoreId} {f : BitVec 26} {t : Bool}
    (cond : condB (fld f 15 3) ((u.core c).readD (fld f 22 4)) ((u.core c).readD (fld f 18 4)) = some t) :
    branchB c f u = .ok ((u.core c).pc + (if t then w64 (4 * sx 15 (fld f 0 15)) else 4)) u := by
  refine ok_then (rdD_run ..) <| ok_then (rdD_run ..) ?_
  rw [cond]
  cases t with
  | true => rfl
  | false => rfl

theorem condB_some {n : Nat} {a b : U64} {t : Bool}
    (h : (n = 0 ∧ t = decide (a = b)) ∨ (n = 1 ∧ t = decide (a ≠ b)) ∨ (n = 2 ∧ t = decide (a.toInt < b.toInt)) ∨
      (n = 3 ∧ t = decide (b.toInt ≤ a.toInt)) ∨ (n = 4 ∧ t = decide (a.toNat < b.toNat)) ∨ (n = 5 ∧ t = decide (b.toNat ≤ a.toNat))) :
    condB n a b = some t := by
  obtain ⟨rfl, rfl⟩ | ⟨rfl, rfl⟩ | ⟨rfl, rfl⟩ | ⟨rfl, rfl⟩ | ⟨rfl, rfl⟩ | ⟨rfl, rfl⟩ := h
  · rfl
  · exact congrArg some (by rw [Bool.eq_iff_iff, bne_iff_ne, decide_eq_true_iff])
  · rfl
  · rfl
  · rfl
  · rfl

theorem branchZ_run {u : State} {c : CoreId} {f : BitVec 26} {t : Bool} (cond : condZ (fld f 20 2) ((u.core c).readD (fld f 22 4)) = t) :
    branchZ c f u = .ok ((u.core c).pc + (if t then w64 (4 * sx 20 (fld f 0 20)) else 4)) u := by
  refine ok_then (rdD_run ..) ?_
  rw [cond]
  cases t with
  | true => rfl
  | false => rfl

theorem condZ_eq {n : Nat} {a : U64} {t : Bool}
    (h : (n = 0 ∧ t = decide (a = 0)) ∨ (n = 1 ∧ t = decide (a ≠ 0)) ∨ (n = 2 ∧ t = decide (a.toInt < 0)) ∨
      (n = 3 ∧ t = decide (0 ≤ a.toInt))) : condZ n a = t := by
  obtain ⟨rfl, rfl⟩ | ⟨rfl, rfl⟩ | ⟨rfl, rfl⟩ | ⟨rfl, rfl⟩ := h
  · rfl
  · show (a != 0) = _
    rw [Bool.eq_iff_iff, bne_iff_ne, decide_eq_true_iff]
  · rfl
  · rfl

theorem checkTarget_ok {t : U64} (aligned : t.toNat % 4 = 0) (s : State) : checkTarget t s = .ok () s :=
  trapIf_ok (bne_eq_false_iff_eq.mpr aligned) _ _ _ _

/-- Settles O12: each condition's truth decides between the target and the next word; the jumps always go. -/
theorem branchesAndJumpsComplete : Obligations.BranchesAndJumpsComplete := by
  refine ⟨fun s u c f t h cond => ?_, fun s u c f t h cond => ?_, fun s u c f h => ?_, fun s u c f h low aligned => ?_⟩
  · exact congrArg Host.Outcome.next (issue_ok h (branchB_run (condB_some cond)) _)
  · exact congrArg Host.Outcome.next (issue_ok h (branchZ_run (condZ_eq cond)) _)
  · refine congrArg Host.Outcome.next (issue_ok h ?_ _)
    exact ok_then (pcOf_run c u) rfl
  · refine congrArg Host.Outcome.next (issue_ok h ?_ _)
    exact ok_then (illegalIf_ok (bne_eq_false_iff_eq.mpr low) u) <| ok_then (rdA_run ..) <| ok_then (checkTarget_ok aligned u) rfl

/-! ### Calls and returns -/

theorem callTo_run {u u1 : State} {c : CoreId} {t : U64} (target : t.toNat % 4 = 0) (aligned : ((u.core c).readA 15 - 8).toNat % 8 = 0)
    (slim : (u.core c).slimFault 15 ((u.core c).readA 15 - 8) = false)
    (store : scalarStore c ((u.core c).readA 15 - 8) (leBytes 8 ((u.core c).pc + 4).toNat) u = .ok () u1) :
    callTo c t u = .ok t (u1.modCore c (fun k => k.writeA 15 ((u.core c).readA 15 - 8))) :=
  ok_then (checkTarget_ok target u) <| ok_then (rdA_run ..) <| ok_then (trapIf_ok (bne_eq_false_iff_eq.mpr aligned) _ _ _ _) <|
    ok_then (chkA_ok slim) <| ok_then (pcOf_run ..) <| ok_then store <| ok_then (modC_run ..) rfl

theorem retBody_run {u u1 : State} {c : CoreId} {bs : List Byte} (load : scalarLoad c ((u.core c).readA 15) 8 u = .ok bs u1)
    (target : (n64 (leNat bs)).toNat % 4 = 0) :
    retBody c 0 u = .ok (n64 (leNat bs)) (u1.modCore c (fun k => k.writeA 15 ((u.core c).readA 15 + 8))) :=
  ok_then (illegalIf_false u) <| ok_then (rdA_run ..) <| ok_then load <| ok_then (checkTarget_ok target u1) <| ok_then (modC_run ..) rfl

/-- Settles O13: both calls share `callTo`; RET is the load that undoes it. -/
theorem callsAndReturnsComplete : Obligations.CallsAndReturnsComplete := by
  refine ⟨fun s u u1 c f h => ?_, fun s u u1 c f h low => ?_, fun s u u1 c bs h => ?_⟩
  · intro t new target aligned slim store
    refine congrArg Host.Outcome.next (issue_ok h ?_ _)
    exact ok_then (pcOf_run c u) (callTo_run target aligned slim store)
  · intro t new target aligned slim store
    refine congrArg Host.Outcome.next (issue_ok h ?_ _)
    exact ok_then (illegalIf_ok (bne_eq_false_iff_eq.mpr low) u) <| ok_then (rdA_run ..) (callTo_run target aligned slim store)
  · intro sp load target
    exact congrArg Host.Outcome.next (issue_ok h (retBody_run load target) _)

end Sys2Proof.Machine
end

section
/-! CERTIFICATE. Two statements about bytes of memory that fail: they speak of every state, and in a state whose memory is not in its canonical form
(log 3) a write changes what addresses outside it read as. The model reads an address by a search that ends at the first higher one listed; a write
keeps the listed addresses below its own and takes away what stood between them (`spSetAll`), so an entry out of order comes to be found. -/

namespace Sys2Proof.Machine

/-- Memory whose entry for 0x2100 stands behind a higher address: reading 0x2100 does not find it. -/
def disorderedMem : List Host.Cell := [(0x3000, 1), (0x2100, 5)]

/-- Core 0 running at 0x1000 with A1 = 0x2800, over memory out of order. -/
def disordered : State := { (startCore State.reset 0 0x1000).modCore 0 (fun k => k.writeA 1 0x2800) with mem := disorderedMem }

/-- The state core 0 comes to its instruction in. -/
def disorderedFetched : State := (disordered.issued 0 .plain).getD disordered

/-- ST of the 8 bytes of D1 at A1: the fields of format M (06 R205). -/
def storeD1 : BitVec 26 := 1#26 <<< 22 ||| 1#26 <<< 18 ||| 3#26 <<< 14

theorem disordered_issued : disordered.issued 0 .plain = some disorderedFetched := by
  have issues : (disordered.issued 0 .plain).isSome = true := by decide +kernel
  rw [disorderedFetched]
  cases e : disordered.issued 0 .plain with
  | none => rw [e] at issues; cases issues
  | some u => rfl

theorem disordered_direct : (disorderedFetched.core 0).direct := ⟨by decide +kernel, by decide +kernel⟩

/-- The store of 0x2800 to 0x2807 runs, and changes what 0x2100 reads as. -/
theorem disordered_store : Tests.nextIs (exec (.st 0 none storeD1) disordered) (fun t =>
    t.byte 0x2100 != disorderedFetched.byte 0x2100) = true := by
  decide +kernel

/-- Refutes O11: the statement holds no memory in its canonical form, and over `disordered` the store of 0x2800 changes the byte at 0x2100. -/
theorem not_loadsAndStoresOfMemory : ¬ Obligations.LoadsAndStoresOfMemory := by
  intro h
  obtain ⟨-, store⟩ := h disordered disorderedFetched 0 storeD1 disordered_issued disordered_direct
    (by decide) (by decide +kernel) (by decide +kernel) (by decide +kernel)
  obtain ⟨t, run, -, frame⟩ := store (by decide +kernel) (by decide)
  have changed := disordered_store
  rw [run] at changed
  have same : t.byte 0x2100 = disorderedFetched.byte 0x2100 := frame 0x2100 (.inl (by decide +kernel))
  exact bne_iff_ne.mp changed same

/-- A swap (06 R215, OP 1) of the 8 bytes at 0x2800 runs over the same memory, and changes what 0x2100 reads as. -/
theorem disordered_swap : Tests.completes (localAtomic 0 1 8 0x2800 7 0 0x2800) disordered (fun _ t =>
    t.byte 0x2100 != disordered.byte 0x2100) = true := by
  decide +kernel

/-- Refutes O14: its second clause holds no memory in its canonical form either, and over `disordered` the swap at 0x2800 changes the byte at
0x2100. -/
theorem not_atomicsComplete : ¬ Obligations.AtomicsComplete := by
  rintro ⟨-, atomic⟩
  obtain ⟨t, run, -, frame⟩ := atomic disordered 0 1 8 0x2800 7 7 0 0x2800 (by decide) (by decide) (by decide +kernel) (by decide +kernel)
    (by decide +kernel) (by decide +kernel)
  have changed := disordered_swap
  unfold Tests.completes at changed
  rw [run] at changed
  exact bne_iff_ne.mp changed (frame 0x2100 (.inl (by decide)))

end Sys2Proof.Machine
end

section
/-! SUPPORT and CERTIFICATE. An exception taken and returned from at once (07 R267, R273): what a core's coming to its next instruction and its
fetch leave of the ring registers, and the round trip. -/

namespace Sys2Proof.Machine

/-! ### Ring registers in which more events pend -/

/-- The ring registers differ in nothing but what pends and the record of the last machine check. -/
def RingRegs.PendsOnly (a b : RingRegs) : Prop := ∃ xpend mcInfo, b = { a with xpend := xpend, mcInfo := mcInfo }

namespace RingRegs.PendsOnly

variable {a b : RingRegs}

theorem banks (h : a.PendsOnly b) : b.banks = a.banks := by
  obtain ⟨_, _, rfl⟩ := h
  rfl

theorem cur (h : a.PendsOnly b) : b.cur = a.cur := by
  obtain ⟨_, _, rfl⟩ := h
  rfl

theorem busy (h : a.PendsOnly b) : b.busy = a.busy := by
  obtain ⟨_, _, rfl⟩ := h
  rfl

theorem sp (h : a.PendsOnly b) : b.sp = a.sp := by
  obtain ⟨_, _, rfl⟩ := h
  rfl

end RingRegs.PendsOnly

/-- No core's ring registers differ in anything but what pends. -/
def State.RingsKept (s t : State) : Prop := ∀ d : CoreId, (s.core d).rr.PendsOnly (t.core d).rr

namespace State

theorem RingsKept.refl (s : State) : s.RingsKept s := fun _ => ⟨_, _, rfl⟩

theorem RingsKept.trans {s t u : State} (h : s.RingsKept t) (g : t.RingsKept u) : s.RingsKept u := fun d => by
  obtain ⟨_, _, e⟩ := h d
  obtain ⟨_, _, e'⟩ := g d
  exact ⟨_, _, e'.trans (by rw [e])⟩

theorem ringsKept_of_rr {s t : State} (h : ∀ d, (t.core d).rr = (s.core d).rr) : s.RingsKept t := fun d => ⟨_, _, h d⟩

theorem ringsKept_of_cores {s t : State} (h : t.cores = s.cores) : s.RingsKept t :=
  ringsKept_of_rr fun d => by rw [core_congr h d]

theorem modCore_ringsKept (s : State) (c : CoreId) {f : Core → Core} (hf : ∀ k : Core, (f k).rr = k.rr) : s.RingsKept (s.modCore c f) :=
  ringsKept_of_rr fun d => s.modCore_rr c d hf

/-- More events may come to pend on a core. -/
theorem modCore_pends_ringsKept (s : State) (c : CoreId) (pend mc : RingRegs → U64) :
    s.RingsKept (s.modCore c (fun k => { k with rr := { k.rr with xpend := pend k.rr, mcInfo := mc k.rr } })) := fun d => by
  by_cases e : d = c
  · subst e
    rw [core_modCore]
    exact ⟨_, _, rfl⟩
  · rw [core_modCore_ne s _ e]
    exact ⟨_, _, rfl⟩

theorem LedOnly.ringsKept {s t : State} (h : s.LedOnly t) : s.RingsKept t := by
  obtain ⟨_, _, _, rfl⟩ := h
  exact ringsKept_of_cores rfl

end State

open State

theorem machineCheck_ringsKept (s : State) (c : CoreId) (source addr : Nat) : s.RingsKept (machineCheck s c source addr) := by
  have pends : s.RingsKept (s.modCore c (fun k => { k with rr := { k.rr with
      xpend := setBit k.rr.xpend 4 true, mcInfo := n64 (source + addr % 2 ^ 56 * 256) } })) :=
    s.modCore_pends_ringsKept c (fun r => setBit r.xpend 4 true) (fun _ => n64 (source + addr % 2 ^ 56 * 256))
  exact pends.trans ((State.modLed_ledOnly _ (fun l => { l with voteMc := true })).trans (State.earlyVote_ledOnly _)).ringsKept

/-! ### Coming to an instruction -/

theorem l2Line_cores (s : State) (l : Nat) (valid : BitVec 4) (written : Bool) : (l2Line s l valid written).cores = s.cores := by
  unfold l2Line
  split
  · rfl
  · rfl

theorem l2Touch_cores (s : State) (pa n : Nat) (written : Bool) : (l2Touch s pa n written).cores = s.cores := by
  unfold l2Touch
  split
  · exact foldl_keeps State.cores (fun t l => l2Line_cores t l _ written) _ s
  · rfl

theorem dropLine_rr (s : State) (l : Nat) (cs : List Nat) (d : CoreId) : ((dropLine s l cs).core d).rr = (s.core d).rr := by
  refine foldl_keeps (fun t : State => (t.core d).rr) (fun t n => ?_) cs s
  split
  next h => exact t.modCore_rr ⟨n, h⟩ d (fun _ => rfl)
  next => rfl

theorem invalLine_rr (s : State) (own : Option CoreId) (pa n l : Nat) (d : CoreId) : ((invalLine s own pa n l).core d).rr = (s.core d).rr := by
  unfold invalLine
  split
  · rfl
  · cases own with
    | none => exact dropLine_rr s l _ d
    | some c =>
      dsimp only
      exact (State.modCore_rr _ c d (by exact fun _ => rfl)).trans (dropLine_rr s l _ d)

theorem invalL1D_rr (s : State) (own : Option CoreId) (pa n : Nat) (d : CoreId) : ((invalL1D s own pa n).core d).rr = (s.core d).rr := by
  unfold invalL1D
  split
  · exact foldl_keeps (fun t : State => (t.core d).rr) (fun t l => invalLine_rr t own pa n l d) _ s
  · rfl

theorem homeWrite_rr (s : State) (own except : Option CoreId) (pa : Nat) (bs : List Byte) (d : CoreId) :
    ((homeWrite s own except pa bs).core d).rr = (s.core d).rr := by
  unfold homeWrite
  rw [State.core_congr (breakWatches_cores _ _) d, abortTasks_rr, invalL1D_rr, State.core_congr (l2Touch_cores _ _ _ _) d]
  rfl

theorem homeWrites_rr (own except : Option CoreId) (ws : List (Nat × List Byte)) (d : CoreId) (s : State) :
    ((homeWrites s own except ws).core d).rr = (s.core d).rr := by
  induction ws generalizing s with
  | nil => rfl
  | cons w ws ih => exact (ih _).trans (homeWrite_rr s own except w.1 w.2 d)

theorem arriveBarrier_cores (s : State) (b : Nat) : (arriveBarrier s b).cores = s.cores := rfl

theorem doSignal_rr (s : State) (c : CoreId) (g : Signal) (d : CoreId) : ((doSignal s c g).core d).rr = (s.core d).rr := by
  cases g with
  | fill p => exact s.modCore_rr c d (fun _ => rfl)
  | barrier b => exact congrArg Core.rr (State.core_congr (arriveBarrier_cores s b) d)
  | record a bs => exact homeWrite_rr s none none a bs d

theorem landTask_rr (s : State) (c : CoreId) (x : Task) (d : CoreId) : ((landTask s c x).core d).rr = (s.core d).rr := by
  unfold landTask
  dsimp only
  rw [foldl_keeps (f := fun t g => doSignal t c g) (fun t : State => (t.core d).rr) (fun t g => doSignal_rr t c g d),
    foldl_keeps (f := fun t (q : Nat × Nat × Counts) => addCounts t c none q.1 q.2.1 q.2.2) (fun t : State => (t.core d).rr)
      (fun t q => t.modCore_rr c d (by exact fun _ => rfl))]
  refine (homeWrites_rr _ _ _ d _).trans ?_
  rw [State.core_congr (relWatches_cores s _) d]

theorem commitTasks_rr (s : State) (xs : List (CoreId × Nat)) (d : CoreId) : ((commitTasks s xs).core d).rr = (s.core d).rr := by
  unfold commitTasks
  dsimp only
  rw [foldl_keeps (f := fun t (x : CoreId × Task) => landTask t x.1 x.2) (fun t : State => (t.core d).rr)
    (fun t x => landTask_rr t x.1 x.2 d)]
  refine foldl_keeps (fun t : State => (t.core d).rr) (fun t x => ?_) xs s
  exact t.modCore_rr x.1 d (fun k => k.setTask_rr x.2 _)

theorem tileSync_rr (s : State) (c d : CoreId) : ((tileSync s c).core d).rr = (s.core d).rr := by
  unfold tileSync tileSyncAt
  split
  · rfl
  · exact s.modCore_rr c d (f := fun k => { k with tile := k.tile.sync (s.gateOpen c) (s.clkOf c) s.free }) (fun _ => rfl)

theorem ready_rr (s : State) (c d : CoreId) : ((ready s c).core d).rr = (s.core d).rr :=
  (commitTasks_rr _ _ d).trans (tileSync_rr s c d)

/-! ### The fetch -/

theorem l2Touch_ringsKept (s : State) (pa n : Nat) (written : Bool) : s.RingsKept (l2Touch s pa n written) :=
  ringsKept_of_cores (l2Touch_cores s pa n written)

theorem walked_ringsKept (c : CoreId) (s : State) (reads : List Nat) : s.RingsKept (walked s c reads) := by
  refine State.foldl_rel .refl .trans (fun t a => ?_) reads s
  dsimp only
  split
  · exact (l2Touch_ringsKept t a 8 false).trans (machineCheck_ringsKept _ c 2 a)
  · exact l2Touch_ringsKept t a 8 false

theorem State.fillTlb_ringsKept (s : State) (c : CoreId) (e : Option TlbEntry) (va pick : Nat) : s.RingsKept (s.fillTlb c e va pick) := by
  cases e with
  | some e => exact s.modCore_ringsKept c (f := fun k => { k with mm := k.mm.fillTlb e va pick }) (fun _ => rfl)
  | none => exact .refl s

theorem State.translated_ringsKept (s : State) (c : CoreId) (r : Xlat) (va : U64) : s.RingsKept (s.translated c r va) :=
  ((walked_ringsKept c s r.reads).trans (State.fillTlb_ringsKept _ c r.fill va.toNat _)).trans (ringsKept_of_cores rfl)

theorem fillL1I_ringsKept (c : CoreId) (s : State) (l : Nat) : s.RingsKept (fillL1I s c l) := by
  unfold fillL1I
  split
  · exact .refl s
  · refine (ringsKept_of_cores (l2Line_cores s l 0xF false)).trans ?_
    exact (State.modCore_ringsKept (l2Line s l 0xF false) c (f := fun k => { k with mm := { k.mm with
      l1i := cachePut 4 l1Set { line := l, valid := 0xF, dirty := 0, pois := 0 } (Config.freeNat (l2Line s l 0xF false).free) k.mm.l1i } })
      (fun _ => rfl)).trans (ringsKept_of_cores rfl)

theorem fetchLines_ringsKept (c : CoreId) (s : State) (pa : Nat) : s.RingsKept (fetchLines s c pa) := by
  unfold fetchLines
  dsimp only
  split
  · exact (fillL1I_ringsKept c s _).trans (fillL1I_ringsKept c _ _)
  · exact fillL1I_ringsKept c s _

theorem State.fetched_ringsKept (s : State) (c : CoreId) (pa : Nat) : s.RingsKept (s.fetched c pa) := by
  unfold State.fetched
  split
  · exact (fetchLines_ringsKept c s pa).trans (machineCheck_ringsKept _ c 2 pa)
  · exact fetchLines_ringsKept c s pa

theorem xlateAt_ringsKept {c : CoreId} {ring : Nat} {acc : Acc} {va : U64} {s t : State} {pa : Nat} (h : xlateAt c ring acc va s = .ok pa t) :
    s.RingsKept t := by
  obtain rfl | ⟨r, rfl⟩ := xlateAt_ok h
  · exact .refl _
  · exact s.translated_ringsKept c r va

/-- Neither coming to an instruction nor its fetch changes more of the ring registers than what pends. -/
theorem issued_ringsKept {s u : State} {c : CoreId} {kind : IKind} (h : s.issued c kind = some u) : s.RingsKept u := by
  unfold State.issued at h
  dsimp only at h
  split at h
  · split at h
    next pa t fetch =>
      cases h
      obtain ⟨v, xl, rfl⟩ := fetchAt_ok fetch
      have dropped := State.modCore_ringsKept (v.fetched c pa) c (fun k => k.dropRecords_rr kind)
      exact (ringsKept_of_rr (ready_rr s c)).trans ((xlateAt_ringsKept xl).trans ((v.fetched_ringsKept c _).trans dropped))
    next => cases h
  · cases h

/-! ### Retirement -/

theorem raiseCN_ringsKept (s : State) (n : Nat) : s.RingsKept (raiseCN s n) := by
  unfold raiseCN
  split
  · exact s.modCore_pends_ringsKept _ (fun r => setBit r.xpend 2 true) (fun r => r.mcInfo)
  · exact .refl s

theorem queueNotice_ringsKept (s : State) (mb : Nat) (n : Notice) : s.RingsKept (queueNotice s mb n) := by
  unfold queueNotice
  dsimp only
  split
  · split
    · exact (ringsKept_of_cores (s.modBox_cores mb _)).trans (raiseCN_ringsKept _ _)
    · exact ringsKept_of_cores rfl
  · exact ringsKept_of_cores rfl

theorem stepDone_ringsKept (s : State) (c : CoreId) : s.RingsKept (stepDone s c) := by
  unfold stepDone
  split
  · exact (s.modCore_ringsKept c (by exact fun _ => rfl)).trans (queueNotice_ringsKept _ _ _)
  · exact .refl s

/-- The retirement of RTE moves no PC: the context it returned to keeps its own. -/
theorem retire_rte_ringsKept (s : State) (c : CoreId) (npc : U64) : s.RingsKept (retire s c npc true) :=
  (s.modCore_ringsKept c (f := fun k => Core.syncMask { k with ex := { k.ex with
    instret := k.ex.instret + 1, afterRte := true, bpSkip := false, hlog := [] } } s.now) (fun _ => Core.syncMask_rr _ _)).trans
    (stepDone_ringsKept _ c)

/-! ### The round trip -/

/-- The ring registers with the current bank changed. -/
def RingRegs.setBank (r : RingRegs) (f : Bank → Bank) : RingRegs :=
  { r with banks := r.banks.set r.cur.toNat (f (vget r.banks r.cur.toNat Bank.reset)) r.cur.isLt }

/-- The ring registers that RTE leaves where the linked context is in a bank (07 R273). -/
def RingRegs.returned (r : RingRegs) (b : Nat) : RingRegs :=
  { r.setBank (fun x => { x with elink := setBit x.elink 5 false }) with
    busy := (r.busy &&& ~~~(BitVec.ofNat 3 (1 <<< r.cur.toNat))) ||| BitVec.ofNat 3 (1 <<< b), cur := BitVec.ofNat 2 b }

/-- The bank that becomes current as an exception is taken to it: its A and D registers stay (07 R267). -/
def Bank.entered (h : Bank) (t : Nat) (ecause einfo elink vec : U64) : Bank :=
  { h with ecause := ecause, einfo := einfo, elink := elink, ring := BitVec.ofNat 2 t, gm := true, pc := vec }

/-- The ring registers after an entry to bank t with resume address p, without a spill (07 R267). -/
def RingRegs.entered (r : RingRegs) (t : Nat) (ecause einfo elink p : U64) : RingRegs :=
  let q := r.setBank (fun x => { x with pc := p })
  { q with
    banks := vput q.banks t ((vget q.banks t Bank.reset).entered t ecause einfo elink (vget r.xvec t 0)),
    cur := BitVec.ofNat 2 t, busy := r.busy ||| BitVec.ofNat 3 (1 <<< t) }

theorem Core.bank_eq_vget (k : Core) : k.bank = vget k.rr.banks k.rr.cur.toNat Bank.reset := by
  rw [Core.bank, vget, dif_pos k.rr.cur.isLt]
  rfl

theorem Core.setBank_rr (k : Core) (f : Bank → Bank) : (k.setBank f).rr = k.rr.setBank f := by
  rw [Core.setBank, RingRegs.setBank, Core.bank_eq_vget]

theorem Core.enter_rr (k : Core) (t cause subc : Nat) (async : Bool) (info p : U64) :
    (k.enter t cause subc async info p false).rr =
      k.rr.entered t (ecauseWord cause subc async) info (elinkWord k.rr.cur.toNat k.ring false true) p := by
  rw [RingRegs.entered, ← Core.setBank_rr]
  rfl

theorem enterRing_free {s : State} {c : CoreId} {t : Nat} (h : bit (s.core c).rr.busy t = false) (cause subc : Nat) (async : Bool) (info p : U64) :
    enterRing s c t cause subc async info p = s.modCore c (fun k => (k.enter t cause subc async info p false).syncMask s.now) := by
  rw [enterRing, h]
  exact if_neg Bool.false_ne_true

theorem enterRing_rr {s : State} {c : CoreId} {t : Nat} (h : bit (s.core c).rr.busy t = false) (cause subc : Nat) (async : Bool) (info p : U64) :
    ((enterRing s c t cause subc async info p).core c).rr = (s.core c).rr.entered t (ecauseWord cause subc async) info
      (elinkWord (s.core c).rr.cur.toNat (s.core c).ring false true) p := by
  rw [enterRing_free h, State.core_modCore, Core.syncMask_rr, Core.enter_rr]

/-- A core that RTE returns from bank t to bank b (07 R273). -/
def Core.returned (k : Core) (t b : Nat) : Core :=
  let k1 := k.setBank (fun x => { x with elink := setBit x.elink 5 false })
  { k1 with rr := { k1.rr with busy := (k.rr.busy &&& ~~~(BitVec.ofNat 3 (1 <<< t))) ||| BitVec.ofNat 3 (1 <<< b), cur := BitVec.ofNat 2 b } }

theorem Core.returned_rr (k : Core) (b : Nat) : (k.returned k.rr.cur.toNat b).rr = k.rr.returned b := by
  rw [RingRegs.returned, ← Core.setBank_rr]
  rfl

/-- RTE to a bank that its ELINK names (07 R273). -/
theorem rteBody_bank {u : State} {c : CoreId} {b : Nat} (hb : fld (u.core c).bank.elink 0 2 = b) (ring : (u.core c).ring ≤ 2)
    (valid : bit (u.core c).bank.elink 5 = true) (live : bit (u.core c).bank.elink 4 = false) (other : b ≠ (u.core c).rr.cur.toNat)
    (outer : (u.core c).ring ≤ (vget (u.core c).rr.banks b Bank.reset).ring.toNat)
    (sealed : fld (u.core c).bank.elink 2 2 ≤ (vget (u.core c).rr.banks b Bank.reset).ring.toNat) :
    rteBody c 0 u = .ok (vget (u.core c).rr.banks b Bank.reset).pc (u.modCore c (fun k => k.returned (u.core c).rr.cur.toNat b)) := by
  unfold rteBody
  refine ok_then (illegalIf_ok rfl u) <| ok_then (needRing_ok ring) <| ok_then (op_get u) ?_
  refine ok_then (trapIf_ok (by rw [valid]; rfl) _ _ _ u) ?_
  have away : (fld (u.core c).bank.elink 0 2 == (u.core c).rr.cur.toNat) = false := by rw [hb]; exact beq_eq_false_iff_ne.mpr other
  refine ok_then (trapIf_ok (by rw [away]; rfl) _ _ _ u) ?_
  rw [away, live, hb]
  refine (congrFun (if_neg Bool.false_ne_true) u).trans ?_
  simp only [if_neg other]
  refine ok_then (trapIf_ok ?_ _ _ _ u) ?_
  · rw [Bool.or_eq_false_iff]
    exact ⟨decide_eq_false (Nat.not_lt.mpr outer), decide_eq_false (Nat.not_lt.mpr sealed)⟩
  refine (congrFun (if_neg Bool.false_ne_true) u).trans ?_
  exact ok_then (op_set _ u) rfl

/-- The fields of an ELINK word that names a bank (07 R283). -/
theorem elinkWord_fields (b r : BitVec 2) : fld (elinkWord b.toNat r.toNat false true) 0 2 = b.toNat ∧
    fld (elinkWord b.toNat r.toNat false true) 2 2 = r.toNat ∧ bit (elinkWord b.toNat r.toNat false true) 4 = false ∧
    bit (elinkWord b.toNat r.toNat false true) 5 = true := by
  revert b r
  decide

namespace RingRegs

variable {r : RingRegs} {t : Nat} {ecause einfo elink p : U64}

theorem setBank_banks (r : RingRegs) (f : Bank → Bank) : (r.setBank f).banks = vput r.banks r.cur.toNat (f (vget r.banks r.cur.toNat Bank.reset)) := by
  rw [vput, dif_pos r.cur.isLt]
  rfl

theorem entered_current (ht : t < 3) : vget (r.entered t ecause einfo elink p).banks (r.entered t ecause einfo elink p).cur.toNat Bank.reset =
    (vget (r.setBank (fun x => { x with pc := p })).banks t Bank.reset).entered t ecause einfo elink (vget r.xvec t 0) := by
  have cur : (BitVec.ofNat 2 t).toNat = t := by rw [BitVec.toNat_ofNat]; omega
  exact (congrArg (fun i => vget _ i Bank.reset) cur).trans (vget_vput _ _ _ _ (by omega))

/-- The interrupted bank holds the resume address. -/
theorem entered_interrupted (other : t ≠ r.cur.toNat) : vget (r.entered t ecause einfo elink p).banks r.cur.toNat Bank.reset =
    { vget r.banks r.cur.toNat Bank.reset with pc := p } := by
  refine (vget_vput_ne _ _ _ other).trans ?_
  rw [setBank_banks, vget_vput _ _ _ _ r.cur.isLt]

theorem setBank_regs (f : Bank → Bank) (hf : ∀ x, (f x).a = x.a ∧ (f x).d = x.d) (i : Nat) :
    (vget (r.setBank f).banks i Bank.reset).a = (vget r.banks i Bank.reset).a ∧
      (vget (r.setBank f).banks i Bank.reset).d = (vget r.banks i Bank.reset).d := by
  rw [setBank_banks]
  by_cases e : r.cur.toNat = i
  · subst e
    rw [vget_vput _ _ _ _ r.cur.isLt]
    exact hf _
  · rw [vget_vput_ne _ _ _ e]
    exact ⟨rfl, rfl⟩

/-- Every bank's A and D registers are as before the entry. -/
theorem entered_regs (ht : t < 3) (i : Nat) :
    (vget (r.entered t ecause einfo elink p).banks i Bank.reset).a = (vget r.banks i Bank.reset).a ∧
      (vget (r.entered t ecause einfo elink p).banks i Bank.reset).d = (vget r.banks i Bank.reset).d := by
  have kept := setBank_regs (r := r) (fun x => { x with pc := p }) (fun _ => ⟨rfl, rfl⟩) i
  by_cases e : t = i
  · subst e
    rw [entered, vget_vput _ _ _ _ (by omega)]
    exact kept
  · rw [entered, vget_vput_ne _ _ _ e]
    exact kept

theorem returned_cur (b : BitVec 2) : (r.returned b.toNat).cur = b := BitVec.ofNat_toNat 2 b |>.trans (BitVec.setWidth_eq b)

theorem returned_current {b : BitVec 2} (other : b.toNat ≠ r.cur.toNat) :
    vget (r.returned b.toNat).banks (r.returned b.toNat).cur.toNat Bank.reset = vget r.banks b.toNat Bank.reset := by
  rw [returned_cur, returned, setBank_banks, vget_vput_ne _ _ _ other.symm]

end RingRegs

/-- The bit that an entry sets and the return clears. -/
theorem busy_restored (y b : BitVec 3) {t : Nat} (ht : t < 3) (free : bit y t = false) :
    ((y ||| BitVec.ofNat 3 (1 <<< t)) &&& ~~~(BitVec.ofNat 3 (1 <<< t))) ||| b = y ||| b := by
  have all : ∀ t < 3, ∀ y b : BitVec 3, bit y t = false →
      ((y ||| BitVec.ofNat 3 (1 <<< t)) &&& ~~~(BitVec.ofNat 3 (1 <<< t))) ||| b = y ||| b := by decide
  exact all t ht y b free

/-- RTE taken at once after an entry with resume address p, whatever has come to pend since: the ring registers it leaves are those before the
entry, but for the resume address, the entered bank's context and the mark of the bank that is current again. -/
theorem RingRegs.returned_of_entered {r q v : RingRegs} {t : Nat} {ecause einfo elink p : U64} (ht : t < 3) (free : bit r.busy t = false)
    (other : t ≠ r.cur.toNat) (hq : (r.entered t ecause einfo elink p).PendsOnly q) (hv : (q.returned r.cur.toNat).PendsOnly v) :
    v.cur = r.cur ∧ vget v.banks v.cur.toNat Bank.reset = { vget r.banks r.cur.toNat Bank.reset with pc := p } ∧
      v.busy = r.busy ||| BitVec.ofNat 3 (1 <<< r.cur.toNat) ∧ v.sp = r.sp ∧
      ∀ i, (vget v.banks i Bank.reset).a = (vget r.banks i Bank.reset).a ∧ (vget v.banks i Bank.reset).d = (vget r.banks i Bank.reset).d := by
  have qcur : q.cur.toNat = t := by
    rw [hq.cur]
    exact Nat.mod_eq_of_lt (by omega)
  refine ⟨?_, ?_, ?_, ?_, fun i => ?_⟩
  · rw [hv.cur, returned_cur]
  · rw [hv.banks, hv.cur, returned_current (by rw [qcur]; exact other.symm), hq.banks, entered_interrupted other]
  · rw [hv.busy, returned, qcur, hq.busy]
    exact busy_restored _ _ ht free
  · exact hv.sp.trans hq.sp
  · have back := setBank_regs (r := q) (fun x => { x with elink := setBit x.elink 5 false }) (fun _ => ⟨rfl, rfl⟩) i
    have forth := entered_regs (r := r) (ecause := ecause) (einfo := einfo) (elink := elink) (p := p) ht i
    rw [hv.banks]
    rw [hq.banks] at back
    exact ⟨back.1.trans forth.1, back.2.trans forth.2⟩

/-- Settles O22: the entry leaves `RingRegs.entered`, coming to RTE and its fetch change only what pends, and RTE undoes the entry in
`RingRegs.returned`. -/
theorem entryThenReturnRestores : Obligations.EntryThenReturnRestores := by
  intro s u c t cause subc async info p ht inner free other h k
  have fetched := issued_ringsKept h c
  rw [enterRing_rr free] at fetched
  obtain ⟨link, sring, live, valid⟩ := elinkWord_fields k.rr.cur k.bank.ring
  have cur : (u.core c).rr.cur.toNat = t := by
    rw [fetched.cur]
    exact Nat.mod_eq_of_lt (by omega)
  have bank := Core.bank_eq_vget (u.core c)
  rw [fetched.banks, fetched.cur, RingRegs.entered_current ht] at bank
  have interrupted : vget (u.core c).rr.banks k.rr.cur.toNat Bank.reset = { k.bank with pc := p } := by
    rw [fetched.banks, RingRegs.entered_interrupted other, Core.bank_eq_vget]
  have ring : (u.core c).ring = t := by
    rw [Core.ring, bank]
    exact Nat.mod_eq_of_lt (by omega)
  have elink : (u.core c).bank.elink = elinkWord k.rr.cur.toNat k.bank.ring.toNat false true := by
    rw [bank]
    rfl
  have body := rteBody_bank (u := u) (c := c) (b := k.rr.cur.toNat) (by rw [elink, link]) (by omega) (by rw [elink, valid])
    (by rw [elink, live]) (by rw [cur]; exact other.symm) (by rw [interrupted, ring]; exact inner) (by rw [interrupted, elink, sring])
  refine ⟨_, congrArg Host.Outcome.next (issue_ok h body _), ?_⟩
  have left := retire_rte_ringsKept (u.modCore c (fun q => q.returned (u.core c).rr.cur.toNat k.rr.cur.toNat)) c
    (vget (u.core c).rr.banks k.rr.cur.toNat Bank.reset).pc c
  rw [State.core_modCore, Core.returned_rr] at left
  obtain ⟨vcur, vbank, vbusy, vsp, vregs⟩ := RingRegs.returned_of_entered ht free other fetched left
  rw [← Core.bank_eq_vget, ← Core.bank_eq_vget] at vbank
  refine ⟨vcur, ?_, ?_, ?_, vbusy, vsp, fun i _ => vregs i⟩
  · exact congrArg Bank.pc vbank
  · exact congrArg (fun b => b.ring.toNat) vbank
  · have gm := congrArg Bank.gm vbank
    exact gm

end Sys2Proof.Machine
end

section
/-! CERTIFICATE. Delivery of a packet to this module (11 R391, R394, R396, R405, R430, R432, R433; 15 R554). -/

namespace Sys2Proof.Machine

/-! ### What a link leaves of the module -/

/-- What the checks of a received packet read beside its link: the module's name, its catalogue and its functions. -/
structure State.SameChecks (s t : State) : Prop where
  id : t.fab.id = s.fab.id
  cat : t.fab.cat = s.fab.cat
  cur : t.cur = s.cur

/-- The same, and the sequence numbers the ports expect. -/
structure State.SameLinks (s t : State) : Prop extends s.SameChecks t where
  seq : ∀ p, (t.port p).rxNext = (s.port p).rxNext

namespace State

namespace SameChecks

variable {s t u : State}

theorem trans (h : s.SameChecks t) (g : t.SameChecks u) : s.SameChecks u := ⟨g.id.trans h.id, g.cat.trans h.cat, g.cur.trans h.cur⟩

theorem feState (h : s.SameChecks t) : t.feState = s.feState := by rw [State.feState, State.feState, h.id]

theorem edition (h : s.SameChecks t) : t.edition = s.edition := by rw [State.edition, State.edition, h.id]

theorem fnState (h : s.SameChecks t) (fn : Nat) : t.fnState fn = s.fnState fn := by rw [State.fnState, State.fnState, h.cur]

theorem forHere (h : s.SameChecks t) (k : Packet) : forHere t k = forHere s k := by
  rw [Machine.forHere, Machine.forHere, State.call, State.call, h.id]

theorem overtaken (h : s.SameChecks t) (call ed : Nat) : t.overtaken call ed = s.overtaken call ed := by
  rw [State.overtaken, State.overtaken, State.catOf, State.catOf, h.cat]

end SameChecks

theorem SameLinks.refl (s : State) : s.SameLinks s := ⟨⟨rfl, rfl, rfl⟩, fun _ => rfl⟩

theorem SameLinks.trans {s t u : State} (h : s.SameLinks t) (g : t.SameLinks u) : s.SameLinks u :=
  ⟨h.toSameChecks.trans g.toSameChecks, fun p => (g.seq p).trans (h.seq p)⟩

theorem port_setPort (s : State) (p : PortId) (f : PortSt → PortSt) : (s.setPort p f).port p = f (s.port p) :=
  Vector.getElem_set_self p.isLt

theorem port_setPort_ne (s : State) {p q : PortId} (f : PortSt → PortSt) (h : q ≠ p) : (s.setPort p f).port q = s.port q :=
  Vector.getElem_set_ne p.isLt q.isLt (fun e => h (Fin.ext e.symm))

theorem setPort_sameLinks (s : State) (p : PortId) {f : PortSt → PortSt} (hf : ∀ x, (f x).rxNext = x.rxNext) :
    s.SameLinks (s.setPort p f) := by
  refine ⟨⟨rfl, rfl, rfl⟩, fun q => ?_⟩
  by_cases e : q = p
  · subst e
    rw [port_setPort, hf]
  · rw [port_setPort_ne s f e]

theorem owe_sameLinks (s : State) (from' : Option PortId) (k : Packet) : s.SameLinks (s.owe from' k) := by
  cases from' with
  | none => exact .refl s
  | some p =>
    unfold owe
    exact s.setPort_sameLinks p (by exact fun _ => rfl)

theorem notePlan_sameLinks (s : State) (p : PortId) (k : Packet) : s.SameLinks (s.notePlan p k) := by
  unfold notePlan
  split
  · exact ⟨⟨rfl, rfl, rfl⟩, fun _ => rfl⟩
  · exact .refl s

theorem transmit_sameLinks (s : State) (p : PortId) (x : TxEnt) : s.SameLinks (s.transmit p x) := by
  refine ((s.owe_sameLinks x.from' x.pkt).trans (notePlan_sameLinks _ p x.pkt)).trans ?_
  unfold transmit
  exact setPort_sameLinks _ p (by exact fun _ => rfl)

theorem drainSome_sameLinks (p : PortId) (n : Nat) (s : State) : s.SameLinks (drainSome p n s) := by
  induction n generalizing s with
  | zero => exact .refl s
  | succ n ih =>
    unfold drainSome
    split
    · exact .refl s
    · exact ((s.setPort_sameLinks p (by exact fun _ => rfl)).trans (transmit_sameLinks _ p _)).trans (ih _)

end State

theorem linkControl_sameLinks (s : State) (p : PortId) (k : Packet) : s.SameLinks (linkControl s p k) := by
  refine .trans ?_ (State.drainSome_sameLinks p _ _)
  exact s.setPort_sameLinks p (by exact fun _ => rfl)

/-! ### The checks one by one -/

/-- A packet is accepted on its link (11 R394, R396). -/
theorem linkIn_accepts (s : State) (p : PortId) (k : Packet) :
    (linkIn s p k).2 = true ↔ (s.port p).up = true ∧ k.lcrc = pktL k ∧ k.ty ≠ tyIDLE ∧ k.lseq = (s.port p).rxNext := by
  have seq := (linkControl_sameLinks s p k).seq p
  unfold linkIn
  split
  next h =>
    refine iff_of_false Bool.false_ne_true (fun ⟨up, crc, _⟩ => absurd h ?_)
    simp [up, crc]
  next h =>
    obtain ⟨up, crc⟩ : (s.port p).up = true ∧ k.lcrc = pktL k := by simpa using h
    dsimp only
    rw [seq]
    split
    next h => exact iff_of_false Bool.false_ne_true (fun ⟨_, _, ty, lseq⟩ => absurd h (not_or.mpr ⟨ty, not_not.mpr lseq⟩))
    next h =>
      obtain ⟨ty, lseq⟩ := not_or.mp h
      exact iff_of_true rfl ⟨up, crc, ty, not_not.mp lseq⟩

theorem linkIn_sameChecks (s : State) (p : PortId) (k : Packet) : s.SameChecks (linkIn s p k).1 := by
  have control := (linkControl_sameLinks s p k).toSameChecks
  unfold linkIn
  split
  · exact ⟨rfl, rfl, rfl⟩
  · dsimp only
    split
    · exact control
    · exact control.trans ⟨rfl, rfl, rfl⟩

/-- The endpoint's checks of a packet (11 R396, R432, R433; 15 R554). -/
def State.admits (s : State) (k : Packet) : Prop :=
  k.pcrc = pktP k ∧ (s.feState = 3 → routerTraffic k = true) ∧
    (k.dcall ≠ 0xFFFFF#20 → newer 16 s.edition k.ded.toNat = false ∧ newer 16 k.ded.toNat s.edition = false) ∧
    (routerTraffic k = false → s.fnState 6 ≠ .disabled ∧ s.fnState 6 ≠ .resetting ∧ (s.fnState 6 = .draining → pktIsReq k = false))

theorem State.SameChecks.admits {s t : State} (h : s.SameChecks t) (k : Packet) : t.admits k ↔ s.admits k := by
  rw [State.admits, State.admits, h.feState, h.edition, h.fnState]

theorem endpointIn_accepts (s : State) (k : Packet) : (endpointIn s k).2 = true ↔ s.admits k := by
  unfold endpointIn
  split
  next h => exact iff_of_false Bool.false_ne_true (fun ⟨crc, _⟩ => h crc)
  next crc =>
  dsimp only
  split
  next h =>
    refine iff_of_false Bool.false_ne_true (fun ⟨_, fenced, _⟩ => absurd h ?_)
    simpa using fenced
  next fenced =>
  split
  next h =>
    refine iff_of_false Bool.false_ne_true (fun ⟨_, _, editions, _⟩ => absurd h ?_)
    simpa using fun away => (editions away).1
  next older =>
  split
  next h =>
    refine iff_of_false Bool.false_ne_true (fun ⟨_, _, editions, _⟩ => absurd h ?_)
    simpa using fun away => (editions away).2
  next later =>
  split
  next h =>
    refine iff_of_false Bool.false_ne_true (fun ⟨_, _, _, works⟩ => ?_)
    obtain ⟨other, stops⟩ := h
    obtain ⟨enabled, settled, drains⟩ := works (by simpa using other)
    obtain disabled | resetting | ⟨draining, request⟩ := stops
    · exact enabled disabled
    · exact settled resetting
    · exact Bool.false_ne_true ((drains draining).symm.trans request)
  next works =>
    refine iff_of_true rfl ⟨not_not.mp crc, by simpa using fenced, fun away => ⟨?_, ?_⟩, fun other => ?_⟩
    · simpa [away] using older
    · simpa [away] using later
    · simpa [other, not_or] using works

/-- Delivery is every check in turn: the link's, the form's, the source's edition, the destination's and the endpoint's. -/
theorem receive_delivers (s : State) (p : PortId) (k : Packet) : (receive s p k).2 = true ↔
    (linkIn s p k).2 = true ∧ formOk k = true ∧
      (k.dcall = 0xFFFFF#20 ∨ (((linkIn s p k).1.notePlan p k).owe (some p) k).overtaken k.scall.toNat k.sed.toNat = false) ∧
      forHere ((linkIn s p k).1.notePlan p k) k = true ∧ (endpointIn ((linkIn s p k).1.notePlan p k) k).2 = true := by
  unfold receive
  dsimp only
  split
  next h => exact iff_of_false Bool.false_ne_true (fun ⟨link, _⟩ => by simp [link] at h)
  next link =>
  split
  next h => exact iff_of_false Bool.false_ne_true (fun ⟨_, form, _⟩ => by simp [formOk] at form; simp [form] at h)
  next kind =>
  split
  next h => exact iff_of_false Bool.false_ne_true (fun ⟨_, form, _⟩ => by simp [formOk] at form; simp [form] at h)
  next bits =>
  split
  next h =>
    refine iff_of_false Bool.false_ne_true (fun ⟨_, _, current, _⟩ => ?_)
    obtain here | current := current
    · exact h.1 here
    · exact Bool.false_ne_true (current.symm.trans h.2)
  next current =>
  have source := not_and_or.mp current
  rw [not_not, Bool.not_eq_true] at source
  split
  next here =>
    have form : formOk k = true := by
      rw [formOk, Bool.and_eq_true]
      exact ⟨by simpa using kind, by simpa using bits⟩
    exact ⟨fun accepts => ⟨by simpa using link, form, source, here, accepts⟩, fun ⟨_, _, _, _, h⟩ => h⟩
  next h => exact iff_of_false Bool.false_ne_true (fun ⟨_, _, _, here, _⟩ => h here)

/-- Settles O44: the state in which the endpoint checks the packet differs from the one it arrives in by nothing the checks read. -/
theorem packetDelivery : Obligations.PacketDelivery := by
  intro s p k
  have reach : s.SameChecks ((linkIn s p k).1.notePlan p k) := (linkIn_sameChecks s p k).trans (State.notePlan_sameLinks _ p k).toSameChecks
  rw [receive_delivers, linkIn_accepts, endpointIn_accepts, reach.admits, reach.forHere,
    (reach.trans (State.owe_sameLinks _ _ k).toSameChecks).overtaken, State.admits]
  simp only [and_assoc]

end Sys2Proof.Machine
end

section
/-! CERTIFICATE. CSR reads and writes (06 R205, R232, R247, R248; 04 R159; 07 R272, R274, R278, R283; 09 R362). -/

namespace Sys2Proof.Machine

/-! ### Major 0x0E -/

theorem mtcBody_run {u : State} {c : CoreId} {rd n : Nat} {x : U64} (read : csrRead u c n = some x)
    (write : csrMayWrite (u.core c).ring n ((u.core c).readD rd) = true) :
    mtcBody c rd n u = .ok (((csrWrite u c n ((u.core c).readD rd)).core c).pc + n64 4) (csrWrite u c n ((u.core c).readD rd)) := by
  unfold mtcBody
  refine ok_then (op_get u) <| ok_then (illegalIf_ok (by rw [read]; rfl) u) <| ok_then (rdD_run ..) <| ok_then (ringOf_run ..) ?_
  exact ok_then (trapIf_ok (by rw [write]; rfl) ..) <| ok_then (op_modify ..) (nextPC_run ..)

theorem mfcBody_run {u : State} {c : CoreId} {n : Nat} {x : U64} (rd : Nat) (read : csrRead u c n = some x) :
    mfcBody c rd n u = .ok (((u.modCore c (fun k => k.writeD rd x)).core c).pc + n64 4) (u.modCore c (fun k => k.writeD rd x)) := by
  unfold mfcBody
  refine ok_then (op_get u) ?_
  rw [read]
  exact ok_then (wrD_run ..) (nextPC_run ..)

theorem exec_mfc {s u : State} {c : CoreId} {f : BitVec 26} {x : U64} (h : s.issued c .plain = some u) (zero : fld f 0 8 = 0)
    (read : csrRead u c (fld f 12 10) = some x) (sub : fld f 8 4 = 1) :
    exec (.mtc c f) s = .next ((u.modCore c (fun k => k.writeD (fld f 22 4) x)).done c 4) := by
  refine congrArg Host.Outcome.next (issue_done h rfl ?_ _)
  refine ok_then (illegalIf_ok (by rw [zero]; rfl) u) ?_
  rw [sub]
  exact mfcBody_run _ read

theorem exec_mtc {s u : State} {c : CoreId} {f : BitVec 26} {x : U64} (h : s.issued c .plain = some u) (zero : fld f 0 8 = 0)
    (read : csrRead u c (fld f 12 10) = some x) (sub : fld f 8 4 = 2)
    (write : csrMayWrite (u.core c).ring (fld f 12 10) ((u.core c).readD (fld f 22 4)) = true) :
    exec (.mtc c f) s = .next ((csrWrite u c (fld f 12 10) ((u.core c).readD (fld f 22 4))).done c 4) := by
  refine congrArg Host.Outcome.next (issue_done h rfl ?_ _)
  refine ok_then (illegalIf_ok (by rw [zero]; rfl) u) ?_
  rw [sub]
  exact mtcBody_run read write

/-! ### The writes that are rows of their own -/

/-- A write that its ring may make completes with its register's effect t. -/
theorem issueMtc_run {s u t : State} {c : CoreId} {rd : BitVec 4} {n : Nat} {x : U64} (h : s.issued c .plain = some u)
    (read : csrRead u c n = some x) (write : csrMayWrite (u.core c).ring n ((u.core c).readD rd.toNat) = true)
    (effect : csrWrite u c n ((u.core c).readD rd.toNat) = t) : issueMtc c rd n s = t.done c 4 :=
  effect ▸ issue_done h rfl (mtcBody_run read write) _

theorem csrWrite_amaxclr (u : State) (c : CoreId) (v : U64) :
    csrWrite u c 0x20E v = u.modCore c (fun k => { k with num := k.num.amaxClr (fld v 0 6) }) := by
  have prof : (((u.modCore c (fun k => { k with num := k.num.amaxClr (fld v 0 6) })).core c).num.profS != (u.core c).num.profS ||
      ((u.modCore c (fun k => { k with num := k.num.amaxClr (fld v 0 6) })).core c).num.profG != (u.core c).num.profG) = false := by
    rw [State.core_modCore]
    simp [NumRegs.amaxClr]
  unfold csrWrite
  simp only [writeNumCsr, Nat.reduceEqDiff, Nat.reduceLT, if_false, if_true, prof, Bool.false_and, Bool.false_eq_true]

/-- The pairs' numbers among the CSRs (09 R361, R362). -/
theorem csrRead_pair (u : State) {c : CoreId} (hc : c.val < 128) {n : Nat} (hn : n < 8) :
    csrRead u c (0x2A0 + n) = some (vget (u.core c).str.sem n 0) := by
  have compute : isCompute c = true := decide_eq_true hc
  interval_cases n
  all_goals
    unfold csrRead
    rw [compute]
    rfl

theorem csrMayWrite_pair (r : Nat) (v : U64) {n : Nat} (hn : n < 8) : csrMayWrite r (0x2A0 + n) v = decide (r ≤ 1) := by
  interval_cases n
  all_goals rfl

theorem csrWrite_pair (u : State) (c : CoreId) (v : U64) {n : Nat} (hn : n < 8) :
    csrWrite u c (0x2A0 + n) v = u.modCore c (fun k => { k with
      str := { k.str with sem := vput k.str.sem n (pairWrite (vget k.str.sem n 0) v) } }) := by
  interval_cases n
  all_goals rfl

/-- Settles O15: every write is one of `mtcBody`, whose register's effect is read off `csrWrite`. -/
theorem csrAccessesComplete : Obligations.CsrAccessesComplete := by
  refine ⟨fun s u c f v h zero read => ⟨exec_mfc h zero read, exec_mtc h zero read⟩, fun s u c rd h => ?_⟩
  intro v r ex
  refine ⟨?_, fun hr => ?_, fun hr => ?_, fun hr => ?_, fun hr => ?_, fun hr => ?_, fun hr n => ?_, fun hr n => ?_, fun hr => ?_, fun hr hc n => ?_⟩
  · exact congrArg Host.Outcome.next (issueMtc_run h rfl rfl (csrWrite_amaxclr u c v))
  · exact congrArg Host.Outcome.next (issueMtc_run h rfl (decide_eq_true hr) rfl)
  · exact congrArg Host.Outcome.next (issueMtc_run h rfl (decide_eq_true hr) rfl)
  · exact congrArg Host.Outcome.next (issueMtc_run h rfl (decide_eq_true hr) rfl)
  · exact congrArg Host.Outcome.next (issueMtc_run h rfl (decide_eq_true hr) rfl)
  · exact congrArg Host.Outcome.next (issueMtc_run h rfl (decide_eq_true hr) rfl)
  · exact congrArg Host.Outcome.next (issueMtc_run h rfl (decide_eq_true hr) (dif_pos n))
  · exact congrArg Host.Outcome.next (issueMtc_run h rfl (decide_eq_true hr) (dif_neg (Nat.not_lt.mpr n)))
  · exact congrArg Host.Outcome.next (issueMtc_run h rfl (decide_eq_true hr) rfl)
  · exact congrArg Host.Outcome.next (issueMtc_run h (csrRead_pair u hc n.isLt)
      ((csrMayWrite_pair r v n.isLt).trans (decide_eq_true hr)) (csrWrite_pair u c v n.isLt))

end Sys2Proof.Machine
end

section
/-! CERTIFICATE. Fixed-point and accumulator instructions (04 R146 to R149; 06 R219 to R222). -/

namespace Sys2Proof.Machine

theorem wrAcc_run (c : CoreId) (i sato : Nat) (x : Int) (u : State) : wrAcc c i sato x u = .ok () (u.modCore c (fun k => k.accPut i sato x)) := rfl

/-! ### Major 0x10 -/

/-- The form of a multiply-accumulate word (06 R220). -/
structure MacForm (f : BitVec 26) : Prop where
  zero : fld f 0 6 = 0
  qf : fld f 13 2 < 3
  sato : fld f 8 2 < 3

theorem MacForm.legal {f : BitVec 26} (form : MacForm f) (op : fld f 10 3 ≤ 4) (regs : 3 ≤ fld f 10 3 → fld f 19 4 ≠ fld f 15 4) :
    (fld f 0 6 != 0 || fld f 13 2 == 3 || fld f 8 2 == 3 || decide (4 < fld f 10 3) ||
      (decide (3 ≤ fld f 10 3) && fld f 19 4 == fld f 15 4)) = false := by
  obtain ⟨zero, qf, sato⟩ := form
  simp only [Bool.or_eq_false_iff, Bool.and_eq_false_imp, bne_eq_false_iff_eq, beq_eq_false_iff_ne, decide_eq_false_iff_not, decide_eq_true_eq]
  exact ⟨⟨⟨⟨zero, by omega⟩, by omega⟩, by omega⟩, regs⟩

theorem fixedMac_regs_run {u : State} {c : CoreId} {f : BitVec 26} {x p : Int} (form : MacForm f)
    (hp : p = fxProduct (fld f 13 2) ((u.core c).rndMode (fld f 6 2)) (sx (8 * 2 ^ (fld f 13 2 + 1)) ((u.core c).readD (fld f 19 4)).toNat)
      (sx (8 * 2 ^ (fld f 13 2 + 1)) ((u.core c).readD (fld f 15 4)).toNat))
    (op : fld f 10 3 < 3) (hx : x = if fld f 10 3 = 0 then (vget (u.core c).ex.acc (fld f 23 3) 0).toInt + p
      else if fld f 10 3 = 1 then (vget (u.core c).ex.acc (fld f 23 3) 0).toInt - p else p) :
    fixedMac (Ctx.of c none) f u = .ok () (u.modCore c (fun k => k.accPut (fld f 23 3) (fld f 8 2) x)) := by
  unfold fixedMac
  refine ok_then (illegalIf_ok (form.legal (by omega) (fun h => absurd h (by omega))) u) <| ok_then (coreOf_run c u) ?_
  refine (congrFun (if_neg (by omega)) u).trans ?_
  refine ok_then (rdD_run ..) <| ok_then (rdD_run ..) ?_
  rw [hx, hp]
  exact wrAcc_run ..

theorem fixedMac_mem_run {u u1 u2 : State} {c : CoreId} {f : BitVec 26} {x p : Int} {ba bb : List Byte} (form : MacForm f)
    (regs : fld f 19 4 ≠ fld f 15 4) (aligned : ((u.core c).readA (fld f 19 4)).toNat % 2 ^ (fld f 13 2 + 1) = 0)
    (aligned' : ((u.core c).readA (fld f 15 4)).toNat % 2 ^ (fld f 13 2 + 1) = 0)
    (above : (u.core c).slimFault (fld f 19 4) ((u.core c).readA (fld f 19 4) + n64 (2 ^ (fld f 13 2 + 1))) = false)
    (above' : (u.core c).slimFault (fld f 15 4) ((u.core c).readA (fld f 15 4) + n64 (2 ^ (fld f 13 2 + 1))) = false)
    (load : scalarLoad c ((u.core c).readA (fld f 19 4)) (2 ^ (fld f 13 2 + 1)) u = .ok ba u1)
    (load' : scalarLoad c ((u.core c).readA (fld f 15 4)) (2 ^ (fld f 13 2 + 1)) u1 = .ok bb u2)
    (hp : p = fxProduct (fld f 13 2) ((u.core c).rndMode (fld f 6 2)) (sx (8 * 2 ^ (fld f 13 2 + 1)) (leNat ba))
      (sx (8 * 2 ^ (fld f 13 2 + 1)) (leNat bb)))
    (op : fld f 10 3 = 3 ∨ fld f 10 3 = 4) (hx : x = if fld f 10 3 = 3 then (vget (u.core c).ex.acc (fld f 23 3) 0).toInt + p
      else (vget (u.core c).ex.acc (fld f 23 3) 0).toInt - p) :
    fixedMac (Ctx.of c none) f u = .ok () (u2.modCore c (fun k => ((k.accPut (fld f 23 3) (fld f 8 2) x).writeA (fld f 19 4)
      ((u.core c).readA (fld f 19 4) + n64 (2 ^ (fld f 13 2 + 1)))).writeA (fld f 15 4)
      ((u.core c).readA (fld f 15 4) + n64 (2 ^ (fld f 13 2 + 1))))) := by
  unfold fixedMac
  refine ok_then (illegalIf_ok (form.legal (by omega) (fun _ => regs)) u) <| ok_then (coreOf_run c u) ?_
  refine (congrFun (if_pos (by omega)) u).trans ?_
  refine ok_then (rdA_run ..) <| ok_then (rdA_run ..) ?_
  refine ok_then (trapIf_ok (bne_eq_false_iff_eq.mpr aligned) ..) <| ok_then (trapIf_ok (bne_eq_false_iff_eq.mpr aligned') ..) ?_
  refine ok_then (chkA_ok above) <| ok_then (chkA_ok above') ?_
  refine ok_then (noGlobal_run rfl _ u) <| ok_then load <| ok_then (noGlobal_run rfl _ u1) <| ok_then load' ?_
  refine ok_then (wrAcc_run ..) ((modC_run ..).trans ?_)
  rw [State.modCore_modCore, hx, hp]
  rfl

/-! ### Major 0x11 -/

/-- The result of an accumulator operation on accumulators a and b and a D register's value d (06 R221). -/
def accResult (op : Nat) (a b : Int) (sh qf d : Nat) : Int :=
  match op with
  | 0 => a + b
  | 1 => a - b
  | 2 => 0
  | 3 => -a
  | 4 => if a < 0 then -a else a
  | 5 => a * 2 ^ sh
  | 6 => fdiv a (2 ^ sh)
  | _ => sx (8 * qfBytes qf) d * 2 ^ qfLsb qf

theorem qfLsb_eq {qf : Nat} (h : qf < 3) : qfLsb qf = if qf = 0 then 48 else if qf = 1 then 32 else 0 := by
  interval_cases qf
  all_goals rfl

theorem accArith_run {u : State} {c : CoreId} {f : BitVec 26} {x : Int} (zero : bit f 0 = false) (sato : fld f 8 2 < 3) (qf : fld f 10 2 < 3)
    (one : 1 < fld f 12 4 → fld f 20 3 = 0) (plain : fld f 12 4 ≠ 7 → fld f 16 4 = 0 ∧ fld f 10 2 = 0)
    (still : fld f 12 4 ≠ 5 → fld f 12 4 ≠ 6 → fld f 1 7 = 0) (sh : fld f 1 7 ≤ 79) (op : fld f 12 4 ≤ 7)
    (hx : accResult (fld f 12 4) (vget (u.core c).ex.acc (fld f 23 3) 0).toInt (vget (u.core c).ex.acc (fld f 20 3) 0).toInt (fld f 1 7)
      (fld f 10 2) ((u.core c).readD (fld f 16 4)).toNat = x) :
    accArith (Ctx.of c none) f u = .ok () (u.modCore c (fun k => k.accPut (fld f 23 3) (fld f 8 2) x)) := by
  unfold accArith
  refine ok_then (illegalIf_ok ?_ u) <| ok_then (coreOf_run c u) <| ok_then (rdD_run ..) ?_
  · simp only [Bool.or_eq_false_iff, Bool.and_eq_false_imp, bne_eq_false_iff_eq, beq_eq_false_iff_ne, decide_eq_false_iff_not]
    refine ⟨⟨⟨⟨⟨⟨⟨zero, by omega⟩, by omega⟩, fun h => one ?_⟩, fun h => ?_⟩, fun h => ?_⟩, by omega⟩, by omega⟩
    · simp only [Bool.not_eq_true', Bool.or_eq_false_iff, beq_eq_false_iff_ne] at h
      omega
    · obtain ⟨ds, qf⟩ := plain (by simpa using h)
      exact ⟨⟨ds, rfl⟩, qf⟩
    · simp only [Bool.not_eq_true', Bool.or_eq_false_iff, beq_eq_false_iff_ne] at h
      exact still h.1 h.2
  · rw [← hx]
    exact wrAcc_run ..

/-! ### Major 0x12 -/

/-- The form of an accumulator move (06 R222). -/
theorem accMove_legal {f : BitVec 26} (zero : fld f 0 10 = 0) (qf : fld f 17 2 < 3) (sato : fld f 15 2 < 3) (plain : fld f 10 3 ≠ 0 → fld f 13 6 = 0)
    (op : fld f 10 3 ≤ 4) :
    (fld f 0 10 != 0 || decide (4 < fld f 10 3) || fld f 17 2 == 3 || fld f 15 2 == 3 || (fld f 10 3 != 0 && fld f 13 6 != 0)) = false := by
  simp only [Bool.or_eq_false_iff, Bool.and_eq_false_imp, bne_eq_false_iff_eq, beq_eq_false_iff_ne, decide_eq_false_iff_not]
  exact ⟨⟨⟨⟨zero, by omega⟩, by omega⟩, by omega⟩, fun h => plain (by simpa using h)⟩

/-- Settles O16: each body delivers its result through `Core.accPut`, or moves it. -/
theorem fixedPointComplete : Obligations.FixedPointComplete := by
  refine ⟨fun s u c f x h => ?_, fun s u c f x h => ?_, fun s u c f h => ?_⟩
  · intro k qf n acc zero hqf sato
    have form : MacForm f := ⟨zero, hqf, sato⟩
    have exec_mac {t : State} (run : fixedMac (Ctx.of c none) f u = .ok () t) : exec (.fixedPointMac c f) s = .next (t.done c 4) :=
      congrArg Host.Outcome.next (issueScalar_none h ((congrFun (scalarWord_fixedMac _ f) u).trans run))
    constructor
    · intro p hp sel
      refine exec_mac (fixedMac_regs_run form hp (by omega) ?_)
      obtain ⟨op, rfl⟩ | ⟨op, rfl⟩ | ⟨op, rfl⟩ := sel
      all_goals rw [op]; rfl
    · intro u1 u2 ba bb p pa pb regs aligned aligned' above above' load load' hp sel
      refine exec_mac (fixedMac_mem_run form regs aligned aligned' above above' load load' hp (by omega) ?_)
      obtain ⟨op, rfl⟩ | ⟨op, rfl⟩ := sel
      all_goals rw [op]; rfl
  · intro k op a b qf zero sato hqf one plain still sh sel
    have exec_arith {t : State} (run : accArith (Ctx.of c none) f u = .ok () t) : exec (.accumulatorArithmetic c f) s = .next (t.done c 4) :=
      congrArg Host.Outcome.next (issueScalar_none h ((congrFun (scalarWord_accArith _ f) u).trans run))
    refine exec_arith (accArith_run zero sato hqf one plain still sh (by omega) ?_)
    obtain ⟨o, rfl⟩ | ⟨o, rfl⟩ | ⟨o, rfl⟩ | ⟨o, rfl⟩ | ⟨o, rfl⟩ | ⟨o, rfl⟩ | ⟨o, rfl⟩ | ⟨o, rfl⟩ := sel
    all_goals
      change fld f 12 4 = _ at o
      rw [o]
    case inr.inr.inr.inr.inr.inr.inr => exact congrArg (fun e : Nat => sx (8 * qfBytes qf) (k.readD (fld f 16 4)).toNat * 2 ^ e) (qfLsb_eq hqf)
    all_goals rfl
  · intro k i a rd put zero qf sato plain
    have exec_move {t : State} (run : accMove (Ctx.of c none) f u = .ok () t) : exec (.accumulatorMove c f) s = .next (t.done c 4) :=
      congrArg Host.Outcome.next (issueScalar_none h ((congrFun (scalarWord_accMove _ f) u).trans run))
    have legal (op : fld f 10 3 ≤ 4) := illegalIf_ok (accMove_legal zero qf sato plain op) u
    refine ⟨fun op r hr => exec_move ?_, fun op => exec_move ?_, fun op => exec_move ?_, fun op => exec_move ?_, fun op => exec_move ?_⟩
    all_goals
      unfold accMove
      refine ok_then (legal (by omega)) <| ok_then (coreOf_run c u) <| ok_then (rdD_run ..) ?_
      rw [op]
    · subst hr
      refine ok_then (wrD_run ..) ?_
      split
      next overflow =>
        refine (modC_run ..).trans ?_
        rw [State.modCore_modCore]
        exact congrArg (EStateM.Result.ok ()) (congrArg (u.modCore c) (funext fun k => (if_pos overflow).symm))
      next fits => exact congrArg (EStateM.Result.ok ()) (congrArg (u.modCore c) (funext fun k => (if_neg fits).symm))
    · exact wrD_run ..
    · exact wrD_run ..
    · exact modC_run ..
    · exact modC_run ..

end Sys2Proof.Machine
end

section
/-! CERTIFICATE. Scalar floating point (06 R224, R226; 04 R134). -/

namespace Sys2Proof.Machine

theorem addFlags_run (c : CoreId) (x : FFlags) (u : State) : addFlags c x u = .ok () (u.modCore c (fun k => k.raiseFlags x)) := rfl

/-! ### Major 0x14 -/

/-- The form of a floating-point operation: no reserved FUNCT, D[FD] for a compare, no FP64 for a transcendental (06 R224). -/
theorem fpOp_legal {f : BitVec 26} (zero : fld f 0 4 = 0) (funct : fld f 6 5 ≤ 0x14) (gap : fld f 6 5 ≠ 0x13)
    (dst : 0x10 ≤ fld f 6 5 → fld f 6 5 ≤ 0x12 → fld f 21 5 < 16) (single : fld f 4 2 = 1 → fld f 6 5 < 0x0A ∨ 0x0F < fld f 6 5) :
    (fld f 0 4 != 0 || fld f 6 5 == 0x13 || decide (0x14 < fld f 6 5) || (decide (0x10 ≤ fld f 6 5 ∧ fld f 6 5 ≤ 0x12) && decide (16 ≤ fld f 21 5))
      || (fld f 4 2 == 1 && decide (0x0A ≤ fld f 6 5 ∧ fld f 6 5 ≤ 0x0F))) = false := by
  simp only [Bool.or_eq_false_iff, Bool.and_eq_false_imp, bne_eq_false_iff_eq, beq_eq_false_iff_ne, decide_eq_false_iff_not, decide_eq_true_eq,
    beq_iff_eq]
  exact ⟨⟨⟨⟨zero, gap⟩, by omega⟩, fun ⟨lo, hi⟩ => by have := dst lo hi; omega⟩, fun h => by have := single h; omega⟩

theorem n64_b01 (b : Bool) : n64 (b01 b) = if b then 1 else 0 := by
  cases b
  all_goals rfl

theorem fpOp_compare_run {u : State} {c : CoreId} {f : BitVec 26} (zero : fld f 0 4 = 0) (lo : 0x10 ≤ fld f 6 5) (hi : fld f 6 5 ≤ 0x12)
    (dst : fld f 21 5 < 16) {r : Bool × FFlags} (hr : fpCompare (fld f 6 5) (fmt14 (fld f 4 2)) ((u.core c).readF (fld f 16 5) (fmt14 (fld f 4 2)).width)
      ((u.core c).readF (fld f 11 5) (fmt14 (fld f 4 2)).width) = r) :
    fpOp (Ctx.of c none) f u = .ok () (u.modCore c (fun k => (k.raiseFlags r.2).writeD (fld f 21 5) (if r.1 then 1 else 0))) := by
  subst hr
  unfold fpOp
  refine ok_then (illegalIf_ok (fpOp_legal zero (by omega) (by omega) (fun _ _ => dst) (fun _ => .inr (by omega))) u) <| ok_then (coreOf_run c u) ?_
  refine (congrFun (if_pos (decide_eq_true ⟨lo, hi⟩)) u).trans ?_
  refine ok_then (addFlags_run ..) ((wrD_run ..).trans ?_)
  rw [State.modCore_modCore, n64_b01]
  rfl

theorem fpOp_arith_run {u : State} {c : CoreId} {f : BitVec 26} (zero : fld f 0 4 = 0) (funct : fld f 6 5 ≤ 0x14) (gap : fld f 6 5 ≠ 0x13)
    (single : fld f 4 2 = 1 → fld f 6 5 < 0x0A ∨ 0x0F < fld f 6 5) (arith : fld f 6 5 < 0x10 ∨ 0x12 < fld f 6 5) {r : Nat × FFlags}
    (hr : r = fpArith (fld f 6 5) (fmt14 (fld f 4 2)) (u.core c).vrm ((u.core c).readF (fld f 21 5) (fmt14 (fld f 4 2)).width)
      ((u.core c).readF (fld f 16 5) (fmt14 (fld f 4 2)).width) ((u.core c).readF (fld f 11 5) (fmt14 (fld f 4 2)).width)) :
    fpOp (Ctx.of c none) f u = .ok () (u.modCore c (fun k => (k.raiseFlags r.2).writeF (fld f 21 5) r.1)) := by
  subst hr
  unfold fpOp
  refine ok_then (illegalIf_ok (fpOp_legal zero funct gap (by omega) single) u) <| ok_then (coreOf_run c u) ?_
  refine (congrFun (if_neg (by simp only [decide_eq_true_eq]; omega)) u).trans ?_
  exact modC_run ..

/-! ### Major 0x16 -/

theorem fpMove_legal {f : BitVec 26} (zero : fld f 0 4 = 0) (dst : fmtOk16 (fld f 12 4) = true) (src : fmtOk16 (fld f 8 4) = true) (op : fld f 4 4 ≤ 4) :
    (fld f 0 4 != 0 || decide (4 < fld f 4 4) || !fmtOk16 (fld f 12 4) || !fmtOk16 (fld f 8 4)) = false := by
  rw [zero, dst, src, decide_eq_false (by omega)]
  rfl

/-- Settles O17: compares and arithmetic by `fpOp_compare_run` and `fpOp_arith_run`, and each move and conversion by its operation. -/
theorem scalarFloatComplete : Obligations.ScalarFloatComplete := by
  refine ⟨fun s u c f h => ?_, fun s u c f h => ?_⟩
  · intro k fn fm a b zero funct gap single
    have exec_op {t : State} (run : fpOp (Ctx.of c none) f u = .ok () t) : exec (.scalarFpOp c f) s = .next (t.done c 4) :=
      congrArg Host.Outcome.next (issueScalar_none h ((congrFun (scalarWord_fpOp _ f) u).trans run))
    exact ⟨fun lo hi dst => exec_op (fpOp_compare_run zero lo hi dst rfl), fun arith r hr => exec_op (fpOp_arith_run zero funct gap single arith hr)⟩
  · intro k op dst src v zero df sf
    have exec_move {t : State} (run : fpMove (Ctx.of c none) f u = .ok () t) : exec (.fpMoveConvert c f) s = .next (t.done c 4) :=
      congrArg Host.Outcome.next (issueScalar_none h ((congrFun (scalarWord_fpMove _ f) u).trans run))
    have legal (o : fld f 4 4 ≤ 4) := illegalIf_ok (fpMove_legal zero df sf o) u
    refine ⟨fun o r hr => exec_move ?_, fun o => exec_move ?_, fun o => exec_move ?_, fun o r hr => exec_move ?_, fun o r hr => exec_move ?_⟩
    all_goals
      change fld f 4 4 = _ at o
      unfold fpMove
      refine ok_then (legal (by omega)) <| ok_then (coreOf_run c u) ?_
      rw [o]
    · exact hr ▸ modC_run ..
    · exact ok_then (rdD_run ..) (modC_run ..)
    · exact wrD_run ..
    · subst hr
      refine ok_then (addFlags_run ..) ((wrD_run ..).trans ?_)
      rw [State.modCore_modCore]
      rfl
    · exact hr ▸ ok_then (rdD_run ..) (modC_run ..)

end Sys2Proof.Machine
end

section
/-! CERTIFICATE. Repeats and glosses (06 R234 to R240, R243, R245, R249). -/

namespace Sys2Proof.Machine

/-! ### Repeats -/

/-- A run of the iterations of a repeat of n: σ i is the state before iteration i, ρ i the one its body leaves (06 R236, R237). -/
structure RepRun (c : CoreId) (rpti : Bool) (body : Op Unit) (n : Nat) (σ ρ : Nat → State) : Prop where
  runs : ∀ i < n, body (σ i) = .ok () (ρ i)
  counts : ∀ i < n, σ (i + 1) = (ρ i).modCore c (fun k => k.repDone rpti (n - 1 - i))
  free : ∀ i, rpti = true → i + 1 < n → ((σ (i + 1)).core c).eligible = none ∧ ((σ (i + 1)).core c).ex.dbgStep = false

/-- One iteration of a run goes on to the rest. -/
theorem RepRun.step {c : CoreId} {rpti : Bool} {body : Op Unit} {n : Nat} {σ ρ : Nat → State} (run : RepRun c rpti body n σ ρ) (plain : Bool)
    {i m : Nat} (hm : i + (m + 1) = n) : repLoop c rpti plain body (m + 1) (σ i) = repLoop c rpti plain body m (σ (i + 1)) := by
  have next : (ρ i).modCore c (fun k => k.repDone rpti m) = σ (i + 1) := by
    rw [run.counts i (by omega), show n - 1 - i = m by omega]
  rw [repLoop, run.runs i (by omega)]
  dsimp only
  rw [next]
  by_cases between : rpti = true ∧ m ≠ 0
  · obtain ⟨none, free⟩ := run.free i between.1 (by omega)
    rw [none, free]
    simp
  · rw [if_neg (by simpa using between)]

theorem RepRun.loop {c : CoreId} {rpti : Bool} {body : Op Unit} {n : Nat} {σ ρ : Nat → State} (run : RepRun c rpti body n σ ρ) (plain : Bool)
    (m : Nat) : ∀ i, i + m = n → repLoop c rpti plain body m (σ i) = .ok () (σ n) := by
  induction m with
  | zero =>
    intro i hi
    subst hi
    rfl
  | succ m ih =>
    intro i hi
    rw [run.step plain hi]
    exact ih (i + 1) (by omega)

/-- A repeat whose record stands, if one does, whose form is legal and whose iterations all complete. -/
theorem repeatOp_run {u : State} {c : CoreId} {r : Bool} {p : BitVec 25} {x : Option (BitVec 26)} {w : BitVec 32} {n : Nat} {resumed : Bool}
    {σ ρ : Nat → State} (hr : resumed = ((u.core c).ex.afterRte && bit (u.core c).ex.rstat 0 && bit (u.core c).ex.rstat 1 == r))
    (zero : fld p 7 13 = 0) (imm : bit p 24 = false → fld p 20 4 = 0 ∧ (r = false → fld p 0 7 ≤ 64)) (allowed : repAllowed x w = true)
    (hn : n = if resumed then (u.core c).ex.rcnt.toNat else if bit p 24 then ((u.core c).readD (fld p 20 4)).toNat else fld p 0 7)
    (bound : n ≤ if r then 2 ^ 32 - 1 else 64)
    (start : σ 0 = if r = true ∧ n ≠ 0 then u.modCore c (fun k => { k with ex := { k.ex with rcnt := BitVec.ofNat 32 n } }) else u)
    (run : RepRun c r (repBody c x w) n σ ρ) :
    let t := (σ n).modCore c (fun k => { k with ex := { k.ex with
      rstat := if resumed then setBit k.ex.rstat 0 false else k.ex.rstat, instret := k.ex.instret - 1 } })
    repeatOp c r p x w u = .ok ((t.core c).pc + n64 (if x.isSome then 12 else 8)) t := by
  have legal : (fld p 7 13 != 0 || (!bit p 24 && fld p 20 4 != 0) || (!r && !bit p 24 && decide (64 < fld p 0 7)) || !repAllowed x w) = false := by
    cases src : bit p 24 with
    | true => simp [zero, allowed]
    | false =>
      obtain ⟨reg, count⟩ := imm src
      cases r with
      | true => simp [zero, allowed, reg]
      | false => simpa [zero, allowed, reg] using count rfl
  intro t
  unfold repeatOp
  refine ok_then (illegalIf_ok legal u) <| ok_then (coreOf_run c u) ?_
  dsimp only
  rw [← hr, ← hn]
  refine ok_then (illegalIf_ok (decide_eq_false (Nat.not_lt.mpr bound)) u) ?_
  have tail : ((fun s => repLoop c r (fld w 26 6 != 0x3F) (repBody c x w) n s) >>= fun _ =>
      (if resumed then modC c (fun k => { k with ex := { k.ex with rstat := setBit k.ex.rstat 0 false } }) else pure ()) >>= fun _ =>
      modC c (fun k => { k with ex := { k.ex with instret := k.ex.instret - 1 } }) >>= fun _ => nextPC c (if x.isSome then 12 else 8) : Op U64) (σ 0) =
      .ok ((t.core c).pc + n64 (if x.isSome then 12 else 8)) t := by
    refine ok_then (run.loop _ n 0 (Nat.zero_add n)) ?_
    cases resumed with
    | true =>
      refine ok_then (modC_run ..) <| ok_then (modC_run ..) ?_
      rw [State.modCore_modCore]
      exact nextPC_run ..
    | false => exact ok_then rfl <| ok_then (modC_run ..) (nextPC_run ..)
  by_cases first : r = true ∧ n ≠ 0
  · rw [if_pos first] at start
    refine (congrFun (if_pos (by simpa using first)) u).trans <| ok_then (modC_run ..) ?_
    rw [← start]
    cases resumed with
    | true => exact tail
    | false => exact tail
  · rw [if_neg first] at start
    refine (congrFun (if_neg (by simpa using first)) u).trans ?_
    rw [← start]
    cases resumed with
    | true => exact tail
    | false => exact tail

/-! ### Glosses -/

/-- The micro-ops of a gloss from one slot on, each of which completes. -/
theorem glossOps_run {c : CoreId} {f : BitVec 26} {last : Nat} {σ : Nat → State} (s0 : State)
    (run : ∀ i ≤ last, microOp c f (vget ((σ i).core c).ex.glTab (17 * fld f 21 5 + i + 1) 0) (σ i) = .ok () (σ (i + 1))) (n : Nat) :
    ∀ i, i + n = last + 1 → glossOps c f s0 last n (σ i) = .ok () (σ (last + 1)) := by
  induction n with
  | zero =>
    intro i hi
    subst hi
    rfl
  | succ n ih =>
    intro i hi
    have slot : last - n = i := by omega
    rw [glossOps, slot, run i (by omega)]
    exact ih (i + 1) (by omega)

theorem glossBody_run {u : State} {c : CoreId} {f : BitVec 26} {σ : Nat → State} (valid : bit (vget (u.core c).ex.glTab (17 * fld f 21 5) 0) 4 = true)
    (start : σ 0 = u.modCore c clearTemps)
    (run : ∀ i ≤ fld (vget (u.core c).ex.glTab (17 * fld f 21 5) 0) 0 4,
      microOp c f (vget ((σ i).core c).ex.glTab (17 * fld f 21 5 + i + 1) 0) (σ i) = .ok () (σ (i + 1))) :
    glossBody c f u = .ok () ((σ (fld (vget (u.core c).ex.glTab (17 * fld f 21 5) 0) 0 4 + 1)).modCore c clearTemps) := by
  unfold glossBody
  dsimp only
  rw [valid, if_pos rfl, ← start, glossOps_run u run _ 0 (by omega)]

/-- Settles O18: a repeat by `RepRun.loop`, a gloss by `glossOps_run`. -/
theorem repeatsAndGlossesComplete : Obligations.RepeatsAndGlossesComplete := by
  refine ⟨fun r s u c p x w n σ ρ h => ?_, fun s u c f σ h => ?_⟩
  · intro k resumed zero imm allowed hn bound start runs counts free t
    have body := repeatOp_run rfl zero imm allowed hn bound start ⟨runs, counts, free⟩
    have done := issue_done h rfl body (repWord r p)
    constructor
    · rintro rfl
      exact congrArg Host.Outcome.next done
    · rintro rfl
      exact congrArg Host.Outcome.next done
  · intro hd temps valid start run
    exact congrArg Host.Outcome.next (issue_done h rfl (then_nextPC (glossBody_run valid start run)) _)

end Sys2Proof.Machine
end

section
/-! CERTIFICATE. Gates (07 R261 to R263, R281). -/

namespace Sys2Proof.Machine

theorem poisoned_l2Touch (s : State) (pa n : Nat) (written : Bool) (a m : Nat) : (l2Touch s pa n written).poisoned a m = s.poisoned a m := by
  rw [State.poisoned, State.poisoned, (l2Touch_fetchFrame 0 s pa n written).poison]

theorem readGate_run {u : State} {c : CoreId} {pa : Nat} (inside : memRange pa 16 = true) (clean : u.poisoned pa 16 = false) :
    readGate c pa u = .ok (n64 (leNat (u.bytes pa 8)), n64 (leNat (u.bytes (pa + 8) 8))) (l2Touch u pa 16 false) := by
  unfold readGate
  refine ok_then (op_get u) <| ok_then (trapIf_ok (by rw [inside]; rfl) ..) ?_
  refine (congrArg (fun b : Bool => (set (if b then machineCheck (l2Touch u pa 16 false) c 3 pa else l2Touch u pa 16 false) >>= _ : Op (U64 × U64)) u)
    ((poisoned_l2Touch u pa 16 false pa 16).trans clean)).trans ?_
  exact ok_then (op_set ..) rfl

theorem setRing_run (c : CoreId) (r : Nat) (u : State) :
    setRing c r u = .ok () (u.modCore c (fun k => k.setBank (fun b => { b with ring := BitVec.ofNat 2 r }))) := rfl

theorem tryLoad_run {c : CoreId} {va : U64} {n : Nat} {u v : State} {bs : List Byte} (load : scalarLoad c va n u = .ok bs v) :
    tryLoad c va n u = .ok (.ok (leNat bs)) v := by
  unfold tryLoad
  rw [load]

/-- The operands of a gate call: the caller's core k and ring, the gate g and its entry e (07 R261, R262). -/
structure GateCall (k : Core) (e : U64 × U64) (new : U64) : Prop where
  present : bit e.2 0 = true
  callable : k.ring ≤ fld e.2 2 2
  inner : fld e.1 0 2 ≤ k.ring
  stack : new = (if bit e.2 1 then n64 (fld e.2 4 60 <<< 4) else vget k.rr.sp (fld e.1 0 2) 0) - 16
  aligned : new.toNat % 8 = 0
  above : (vget k.rr.slim (fld e.1 0 2) 0).toNat ≤ new.toNat

theorem callGate_run {u u1 u2 u3 : State} {c : CoreId} {g : Nat} {e : U64 × U64} {new : U64}
    (gate : readGate c (fld (u.core c).rr.gatebase 12 36 <<< 12 + 16 * g) u = .ok e u1) (call : GateCall (u.core c) e new)
    (store : scalarStore c new (leBytes 8 ((u.core c).pc + 4).toNat)
      (u1.modCore c (fun k => k.setBank (fun b => { b with ring := BitVec.ofNat 2 (fld e.1 0 2) }))) = .ok () u2)
    (store' : scalarStore c (new + 8) (leBytes 8 ((u.core c).ring + g <<< 2)) u2 = .ok () u3) :
    callGate c g u = .ok (n64 (fld e.1 2 62 <<< 2)) (u3.modCore c (fun k => k.writeA 15 new)) := by
  obtain ⟨present, callable, inner, rfl, aligned, above⟩ := call
  unfold callGate
  refine ok_then (coreOf_run c u) <| ok_then gate ?_
  refine ok_then (trapIf_ok (by rw [present]; rfl) ..) <| ok_then (trapIf_ok (decide_eq_false (Nat.not_lt.mpr callable)) ..) ?_
  refine ok_then (trapIf_ok (decide_eq_false (Nat.not_lt.mpr inner)) ..) <| ok_then (trapIf_ok (bne_eq_false_iff_eq.mpr aligned) ..) ?_
  refine ok_then (trapIf_ok (decide_eq_false (Nat.not_lt.mpr above)) ..) <| ok_then (setRing_run ..) ?_
  exact ok_then store <| ok_then store' <| ok_then (modC_run ..) rfl

theorem retGate_run {u u1 u2 : State} {c : CoreId} {b0 b1 : List Byte} (load : scalarLoad c ((u.core c).readA 15) 8 u = .ok b0 u1)
    (load' : scalarLoad c ((u.core c).readA 15 + 8) 8 u1 = .ok b1 u2) (outer : (u.core c).ring ≤ leNat b1 % 4)
    (aligned : (n64 (leNat b0)).toNat % 4 = 0) :
    retGate c u = .ok (n64 (leNat b0)) (u2.modCore c (fun k =>
      (k.writeA 15 ((u.core c).readA 15 + 16)).setBank (fun b => { b with ring := BitVec.ofNat 2 (leNat b1 % 4) }))) := by
  unfold retGate
  refine ok_then (coreOf_run c u) <| ok_then (tryLoad_run load) <| ok_then (tryLoad_run load') ?_
  refine ok_then (trapIf_ok (decide_eq_false (Nat.not_lt.mpr outer)) ..) <| ok_then (checkTarget_ok aligned _) ?_
  refine ok_then rfl <| ok_then rfl <| ok_then (modC_run ..) <| ok_then (setRing_run ..) ?_
  rw [State.modCore_modCore]
  rfl

/-- Settles O19: the gate's entry is read as it stands and lets the call through; the return takes both words from the stack. -/
theorem gateCallsComplete : Obligations.GateCallsComplete := by
  refine ⟨fun s u u2 u3 c f h => ?_, fun s u u1 u2 c b0 b1 h => ?_⟩
  · intro k r g at' e0 e1 tring new u1 zero reg inside clean present callable inner aligned above store store'
    have run := callGate_run (readGate_run inside clean) ⟨present, callable, inner, rfl, aligned, above⟩ store store'
    refine congrArg Host.Outcome.next (issue_ok h ?_ _)
    refine ok_then (illegalIf_ok ?_ u) <| ok_then (rdD_run ..) run
    rw [zero]
    cases x : bit f 21 with
    | true => simp [reg x]
    | false => rfl
  · intro sp p load load' outer aligned
    exact congrArg Host.Outcome.next (issue_ok h (ok_then (illegalIf_ok rfl u) (retGate_run load load' outer aligned)) _)

end Sys2Proof.Machine
end

section
/-! CERTIFICATE. Taking an exception (00 R11; 07 R265, R267 to R269). -/

namespace Sys2Proof.Machine

/-! ### Entry without a spill -/

theorem ecauseWord_eq (cause subc : Nat) (async : Bool) :
    ecauseWord cause subc async = n64 (cause % 256 + (subc % 256) <<< 8 + (if async then 0x10000 else 0)) := by
  cases async
  all_goals rfl

theorem elinkWord_bank (b r : BitVec 2) : elinkWord b.toNat r.toNat false true = n64 (b.toNat + r.toNat <<< 2 + 0x20) := by
  rw [elinkWord, Nat.mod_eq_of_lt b.isLt, Nat.mod_eq_of_lt r.isLt]
  rfl

theorem bit_or_self (x : BitVec 3) {t : Nat} (ht : t < 3) : bit (x ||| BitVec.ofNat 3 (1 <<< t)) t = true := by
  have all : ∀ t < 3, ∀ x : BitVec 3, bit (x ||| BitVec.ofNat 3 (1 <<< t)) t = true := by decide
  exact all t ht x

theorem Core.syncMask_vec (k : Core) (now : Nat) : (k.syncMask now).vec = k.vec := by
  unfold Core.syncMask
  split
  · split
    · rfl
    · rfl
  · rfl

/-! ### Entry with a spill -/

/-- A frame below the stack pointer that lies above the limit, in memory and outside the ledger ring, may be written (07 R269). -/
theorem frame_good {k : Core} {t : Nat} (room : 512 + (vget k.rr.sslim t 0).toNat ≤ (vget k.rr.ssp t 0).toNat)
    (inside : memRange ((vget k.rr.ssp t 0).toNat - 512) 512 = true) :
    (Int.ofNat (vget k.rr.ssp t 0).toNat - 512).toNat = (vget k.rr.ssp t 0).toNat - 512 ∧
      k.frameBad t (Int.ofNat (vget k.rr.ssp t 0).toNat - 512) = false := by
  have frame : (Int.ofNat (vget k.rr.ssp t 0).toNat - 512).toNat = (vget k.rr.ssp t 0).toNat - 512 := by
    simp only [Int.ofNat_eq_natCast]
    omega
  refine ⟨frame, ?_⟩
  have above : ¬Int.ofNat (vget k.rr.ssp t 0).toNat - 512 < Int.ofNat (vget k.rr.sslim t 0).toNat := by
    simp only [Int.ofNat_eq_natCast]
    omega
  rw [Core.frameBad, frame, inside, decide_eq_false above]
  rfl

theorem enterRing_spilled {s : State} {c : CoreId} {t : Nat} (busy : bit (s.core c).rr.busy t = true)
    (room : 512 + (vget (s.core c).rr.sslim t 0).toNat ≤ (vget (s.core c).rr.ssp t 0).toNat)
    (inside : memRange ((vget (s.core c).rr.ssp t 0).toNat - 512) 512 = true)
    (off : hitsLedger ((vget (s.core c).rr.ssp t 0).toNat - 512) 512 = false) (cause subc : Nat) (async : Bool) (info p : U64) :
    let s1 := s.setCore c ((s.core c).setBank (fun b => { b with pc := p }))
    enterRing s c t cause subc async info p = (homeWrite s1 (some c) none ((vget (s.core c).rr.ssp t 0).toNat - 512)
      (frameBytes (vget (s1.core c).rr.banks t Bank.reset) t)).modCore c (fun k =>
        ({ k with rr := { k.rr with ssp := vput k.rr.ssp t (n64 ((vget (s.core c).rr.ssp t 0).toNat - 512)) } }.enter
          t cause subc async info p true).syncMask s.now) := by
  obtain ⟨frame, good⟩ := frame_good room inside
  intro s1
  have core : s1.core c = (s.core c).setBank (fun b => { b with pc := p }) := State.core_setCore ..
  rw [enterRing, busy]
  refine (if_pos rfl).trans <| (if_neg ?_).trans ?_
  · rw [good, frame, off]
    exact Bool.false_ne_true
  · rw [core, frame, State.modCore_modCore]

/-- Settles O20: an illegal word by `issue_illegal`; an entry by `RingRegs.entered` where the bank is free and `enterRing_spilled` where it is not. -/
theorem exceptionEntry : Obligations.ExceptionEntry := by
  refine ⟨fun s u c w h illegal tiles unmasked => ?_, fun s c t cause subc async info p ht free other => ?_, fun s c t cause subc async info p busy => ?_⟩
  · refine congrArg Host.Outcome.next ((if_pos illegal).trans ?_)
    rw [issue_illegal h (illegal_run u) tiles, raiseSync, unmasked]
    exact if_neg Bool.false_ne_true
  · intro k r k' b
    have rr : k'.rr = _ := enterRing_rr free cause subc async info p
    have current : b = _ := (congrArg (fun r : RingRegs => vget r.banks t Bank.reset) rr).trans (vget_vput _ _ _ _ (by omega))
    have interrupted := RingRegs.entered_interrupted (r := k.rr) (ecause := ecauseWord cause subc async) (einfo := info)
      (elink := elinkWord k.rr.cur.toNat k.ring false true) (p := p) other
    have core : k' = (k.enter t cause subc async info p false).syncMask s.now := by
      rw [show k' = (enterRing s c t cause subc async info p).core c from rfl, enterRing_free free, State.core_modCore]
    have regs := Core.syncMask_sameRegs (k.enter t cause subc async info p false) s.now
    rw [← core] at regs
    have low : (BitVec.ofNat 2 t).toNat = t := Nat.mod_eq_of_lt (by omega)
    refine ⟨?_, ?_, ?_, ?_, ?_, ?_, ?_, ?_, ?_, fun i _ => ?_, ?_, ?_, ?_, regs.acc, regs.num, ?_, ?_⟩
    · rw [rr]
      exact low
    · rw [rr]
      exact bit_or_self _ ht
    · rw [current]
      exact low
    · rw [current]
      rfl
    · rw [current]
      rfl
    · rw [current]
      exact ecauseWord_eq cause subc async
    · rw [current]
      rfl
    · rw [current]
      exact elinkWord_bank k.rr.cur k.bank.ring
    · rw [rr, interrupted]
    · rw [rr]
      exact RingRegs.entered_regs ht i
    · rw [rr]
      rfl
    · rw [rr]
      rfl
    · rw [core, Core.syncMask_vec]
      rfl
    · rw [show r = _ from enterRing_free free cause subc async info p]
      rfl
    · intro d hd
      rw [show r = _ from enterRing_free free cause subc async info p, State.core_modCore_ne s _ hd]
  · intro k top room inside off
    exact enterRing_spilled busy room inside off cause subc async info p

end Sys2Proof.Machine
end

section
/-! CERTIFICATE. The interrupted context, the mask bit and RTE (07 R270 to R274, R281). -/

namespace Sys2Proof.Machine

/-- Two changes of a core that agree on it are one. -/
theorem State.modCore_congr (s : State) (c : CoreId) {f g : Core → Core} (h : f (s.core c) = g (s.core c)) : s.modCore c f = s.modCore c g := by
  have same : s.setCore c (f (s.core c)) = s.setCore c (g (s.core c)) := by rw [h]
  exact same

/-! ### The mask bit -/

theorem gmBody_run {u : State} {c : CoreId} (ring : (u.core c).ring ≤ 2) (v : Bool) :
    gmBody c 0 v u = .ok (((u.modCore c (fun k => k.setBank (fun b => { b with gm := v }))).core c).pc + n64 4)
      (u.modCore c (fun k => k.setBank (fun b => { b with gm := v }))) :=
  ok_then (illegalIf_ok rfl u) <| ok_then (needRing_ok ring) <| ok_then (modC_run ..) (nextPC_run ..)

/-! ### MFB and MTB -/

/-- REGSEL names a register (07 R281). -/
theorem sel_isSome {b : Bank} {n sel : Nat} (low : sel ≤ 36) (gap : sel ≠ 15) : (b.sel n sel).isNone = false := by
  unfold Bank.sel
  split
  · rfl
  · split
    · rfl
    · have above : sel = 32 ∨ sel = 33 ∨ sel = 34 ∨ sel = 35 ∨ sel = 36 := by omega
      obtain rfl | rfl | rfl | rfl | rfl := above
      all_goals rfl

/-- The form of MFB and MTB (07 R281). -/
structure MoveForm (f : BitVec 22) : Prop where
  zero : fld f 0 9 = 0
  low : fld f 12 6 ≤ 36
  gap : fld f 12 6 ≠ 15

section

variable {u : State} {c : CoreId} {f : BitVec 22}

/-- The form that names a bank, from ring 0. -/
theorem bankFields_named (form : MoveForm f) (named : bit f 11 = true) (other : fld f 9 2 ≠ (u.core c).rr.cur.toNat) (ring : (u.core c).ring = 0) :
    bankFields c f u = .ok (some (.bank (fld f 9 2))) u := by
  unfold bankFields
  refine ok_then (coreOf_run c u) <| ok_then (illegalIf_ok ?_ u) <| ok_then (illegalIf_ok ?_ u) <| ok_then (needRing_ok ?_) ?_
  · rw [form.zero, named, sel_isSome form.low form.gap]
    rfl
  · rw [named, beq_eq_false_iff_ne.mpr other]
    rfl
  · rw [named, ring]
    exact Nat.le_refl _
  · rw [named]
    rfl

/-- The form that names the linked context. -/
theorem bankFields_linked (form : MoveForm f) (linked : bit f 11 = false) (zero : fld f 9 2 = 0) (ring : (u.core c).ring ≤ 2) :
    bankFields c f u = .ok (if bit (u.core c).bank.elink 5 then some (u.core c).linked else none) u := by
  unfold bankFields
  refine ok_then (coreOf_run c u) <| ok_then (illegalIf_ok ?_ u) <| ok_then (illegalIf_ok ?_ u) <| ok_then (needRing_ok ?_) ?_
  · rw [form.zero, linked, zero, sel_isSome form.low form.gap]
    rfl
  · rw [linked]
    rfl
  · rw [linked]
    exact ring
  · rw [linked]
    rfl

theorem mfbBody_none (fields : bankFields c f u = .ok none u) :
    mfbBody c f u = .ok (((u.modCore c (fun k => k.writeD (fld f 18 4) 0)).core c).pc + n64 4) (u.modCore c (fun k => k.writeD (fld f 18 4) 0)) := by
  unfold mfbBody
  exact ok_then (coreOf_run c u) <| ok_then fields <| ok_then rfl <| ok_then (wrD_run ..) (nextPC_run ..)

theorem mfbBody_bank {b : Nat} {v : U64} (fields : bankFields c f u = .ok (some (.bank b)) u)
    (value : (vget (u.core c).rr.banks b Bank.reset).sel b (fld f 12 6) = some v) :
    mfbBody c f u = .ok (((u.modCore c (fun k => k.writeD (fld f 18 4) v)).core c).pc + n64 4) (u.modCore c (fun k => k.writeD (fld f 18 4) v)) := by
  obtain rfl : ((vget (u.core c).rr.banks b Bank.reset).sel b (fld f 12 6)).getD 0 = v := by
    rw [value]
    rfl
  unfold mfbBody
  exact ok_then (coreOf_run c u) <| ok_then fields <| ok_then rfl <| ok_then (wrD_run ..) (nextPC_run ..)

theorem mfbBody_frame {pa : Nat} {bs : List Byte} {u1 : State} (fields : bankFields c f u = .ok (some (.frame pa)) u)
    (load : memLoad c (pa + frameOff (fld f 12 6)) 8 (n64 (pa + frameOff (fld f 12 6))) u = .ok bs u1) :
    mfbBody c f u = .ok (((u1.modCore c (fun k => k.writeD (fld f 18 4) (n64 (leNat bs)))).core c).pc + n64 4)
      (u1.modCore c (fun k => k.writeD (fld f 18 4) (n64 (leNat bs)))) := by
  unfold mfbBody
  exact ok_then (coreOf_run c u) <| ok_then fields <| ok_then load <| ok_then rfl <| ok_then (wrD_run ..) (nextPC_run ..)

theorem mtbBody_none (fields : bankFields c f u = .ok none u) : mtbBody c f u = .ok ((u.core c).pc + 4) u := by
  unfold mtbBody
  exact ok_then (coreOf_run c u) <| ok_then (nextPC_run ..) <| ok_then fields <| ok_then (rdD_run ..) rfl

/-- A bank written by MTB, with the PC of the next instruction where it is the current one's (07 R271). -/
theorem mtbBody_bank {b : Nat} (fields : bankFields c f u = .ok (some (.bank b)) u) :
    mtbBody c f u = .ok (if b = (u.core c).rr.cur.toNat ∧ fld f 12 6 = 33 then setFld ((u.core c).readD (fld f 18 4)) 0 2 0 else (u.core c).pc + 4)
      (u.modCore c (fun k => { k with rr := { k.rr with banks := vput k.rr.banks b ((vget k.rr.banks b Bank.reset).mtb (fld f 12 6) k.ring
        (k.readD (fld f 18 4)) (b == k.rr.cur.toNat)) } })) := by
  have next : (if (b == (u.core c).rr.cur.toNat && fld f 12 6 == 33) = true then setFld ((u.core c).readD (fld f 18 4)) 0 2 0 else (u.core c).pc + 4) =
      if b = (u.core c).rr.cur.toNat ∧ fld f 12 6 = 33 then setFld ((u.core c).readD (fld f 18 4)) 0 2 0 else (u.core c).pc + 4 := by
    simp only [Bool.and_eq_true, beq_iff_eq]
  rw [← next]
  unfold mtbBody
  refine ok_then (coreOf_run c u) <| ok_then (nextPC_run ..) <| ok_then fields <| ok_then (rdD_run ..) <| ok_then (modC_run ..) ?_
  exact congrArg (EStateM.Result.ok _) (u.modCore_congr c rfl)

/-- A frame's word written by MTB (07 R271). -/
theorem mtbBody_frame {pa : Nat} {u1 : State} (fields : bankFields c f u = .ok (some (.frame pa)) u) (inside : memRange (pa + frameOff (fld f 12 6)) 8 = true)
    (writable : fld f 12 6 ≠ 34 ∧ fld f 12 6 ≠ 35)
    (store : memStore c (pa + frameOff (fld f 12 6)) (leBytes 8 (frameMtb (n64 (leNat (u.bytes (pa + frameOff (fld f 12 6)) 8)))
      ((u.core c).readD (fld f 18 4)) (fld f 12 6) (u.core c).ring).toNat) (n64 (pa + frameOff (fld f 12 6)))
      (l2Touch u (pa + frameOff (fld f 12 6)) 8 false) = .ok () u1) :
    mtbBody c f u = .ok ((u.core c).pc + 4) u1 := by
  unfold mtbBody
  refine ok_then (coreOf_run c u) <| ok_then (nextPC_run ..) <| ok_then fields <| ok_then (rdD_run ..) ?_
  refine ok_then (trapIf_ok (by rw [inside]; rfl) ..) <| ok_then (op_get u) <| ok_then (op_get u) <| ok_then (op_set ..) ?_
  exact (congrFun (if_pos writable) _).trans (ok_then store rfl)

/-- ECAUSE and EINFO of a frame are left as they are (07 R271). -/
theorem mtbBody_frame_kept {pa : Nat} (fields : bankFields c f u = .ok (some (.frame pa)) u) (inside : memRange (pa + frameOff (fld f 12 6)) 8 = true)
    (fixed : fld f 12 6 = 34 ∨ fld f 12 6 = 35) :
    mtbBody c f u = .ok ((u.core c).pc + 4) (l2Touch u (pa + frameOff (fld f 12 6)) 8 false) := by
  unfold mtbBody
  refine ok_then (coreOf_run c u) <| ok_then (nextPC_run ..) <| ok_then fields <| ok_then (rdD_run ..) ?_
  refine ok_then (trapIf_ok (by rw [inside]; rfl) ..) <| ok_then (op_get u) <| ok_then (op_get u) <| ok_then (op_set ..) ?_
  exact (congrFun (if_neg (by omega)) _).trans rfl

/-! ### RTE from a frame -/

/-- RTE of a context that was spilled: it comes back from the frame at SSP (07 R268, R273). -/
theorem rteBody_frame {t b pa : Nat} (ht : (u.core c).rr.cur.toNat = t) (hb : fld (u.core c).bank.elink 0 2 = b)
    (hp : (vget (u.core c).rr.ssp t 0).toNat = pa) (ring : (u.core c).ring ≤ 2) (valid : bit (u.core c).bank.elink 5 = true)
    (spilled : bit (u.core c).bank.elink 4 = true) (room : (vget (u.core c).rr.sslim t 0).toNat ≤ pa) (inside : memRange pa 512 = true)
    (clean : u.poisoned pa 512 = false) {fb target : Bank} (hf : fb = bankOfFrame (fun i => n64 (leNat (u.bytes (pa + 8 * i) 8))))
    (hg : target = if b = t then fb else vget (u.core c).rr.banks b Bank.reset) (outer : (u.core c).ring ≤ target.ring.toNat)
    (sealed : fld (u.core c).bank.elink 2 2 ≤ target.ring.toNat) :
    rteBody c 0 u = .ok target.pc ((l2Touch u pa 512 false).modCore c (fun k => { k with rr := { k.rr with
      banks := vput k.rr.banks t fb, ssp := vput k.rr.ssp t (n64 (pa + 512)), cur := BitVec.ofNat 2 b,
      busy := k.rr.busy ||| BitVec.ofNat 3 (1 <<< b) } })) := by
  unfold rteBody
  refine ok_then (illegalIf_ok rfl u) <| ok_then (needRing_ok ring) <| ok_then (op_get u) ?_
  refine ok_then (trapIf_ok (by rw [valid]; rfl) _ _ _ u) ?_
  rw [ht, hb, hp, spilled]
  refine ok_then (trapIf_ok (Bool.and_false _) _ _ _ u) ?_
  rw [inside, Bool.not_true, Bool.and_false]
  refine (congrFun (if_neg Bool.false_ne_true) u).trans ?_
  simp only [← hf, ← hg]
  refine ok_then (trapIf_ok ?_ _ _ _ u) ?_
  · rw [Bool.or_eq_false_iff]
    exact ⟨decide_eq_false (Nat.not_lt.mpr outer), decide_eq_false (Nat.not_lt.mpr sealed)⟩
  have good : (u.core c).frameBad t (Int.ofNat pa) = false := by
    have above : ¬Int.ofNat pa < Int.ofNat (vget (u.core c).rr.sslim t 0).toNat := by
      simp only [Int.ofNat_eq_natCast]
      omega
    rw [Core.frameBad, decide_eq_false above]
    exact congrArg not inside
  refine (congrFun (if_neg (by rw [good]; exact Bool.false_ne_true)) u).trans ?_
  have touched : (l2Touch u pa 512 false).poisoned pa 512 = false := (poisoned_l2Touch ..).trans clean
  simp only [if_true, touched, Bool.and_false, Bool.false_eq_true, if_false]
  exact ok_then (op_set _ u) <| ok_then (modC_run ..) rfl

end

/-- Settles O21: each form of MFB and MTB by the context its fields name, RTE from a bank or from a frame. -/
theorem contextMovesComplete : Obligations.ContextMovesComplete := by
  refine ⟨fun s u c h ring => ⟨?_, ?_⟩, fun s u u1 c f b v bs h => ?_, fun s u c h => ?_⟩
  · exact congrArg Host.Outcome.next (issue_done h rfl (gmBody_run ring true) _)
  · exact congrArg Host.Outcome.next (issue_done h rfl (gmBody_run ring false) _)
  · intro k sel zero low gap
    have form : MoveForm f := ⟨zero, low, gap⟩
    have exec_mfb {t : State} (run : mfbBody c f u = .ok ((t.core c).pc + n64 4) t) : exec (.mfb c f) s = .next (t.done c 4) :=
      congrArg Host.Outcome.next (issue_done h rfl run _)
    have exec_mtb {t : State} {npc : U64} (run : mtbBody c f u = .ok npc t) : exec (.mtb c f) s = .next (retire t c npc false) :=
      congrArg Host.Outcome.next (issue_ok h run _)
    refine ⟨fun names => ?_, fun linked bank ring valid => ?_, fun linked bank ring valid => ?_⟩
    · have fields : bankFields c f u = .ok (some (.bank b)) u := by
        obtain ⟨named, rfl, other, ring⟩ | ⟨linked, bank, ring, valid, context⟩ := names
        · exact bankFields_named form named other ring
        · rw [bankFields_linked form linked bank ring, valid, ← context]
          rfl
      exact ⟨fun value => exec_mfb (mfbBody_bank fields value), exec_mtb (mtbBody_bank fields)⟩
    · intro pa a context
      have fields : bankFields c f u = .ok (some (.frame pa)) u := by
        rw [bankFields_linked form linked bank ring, valid, ← context]
        rfl
      exact ⟨fun load => exec_mfb (mfbBody_frame fields load), fun ne ne' inside store => exec_mtb (mtbBody_frame fields inside ⟨ne, ne'⟩ store),
        fun fixed inside => exec_mtb (mtbBody_frame_kept fields inside fixed)⟩
    · have fields : bankFields c f u = .ok none u := by
        rw [bankFields_linked form linked bank ring, valid]
        rfl
      exact ⟨exec_mfb (mfbBody_none fields), exec_mtb (mtbBody_none fields)⟩
  · intro k t e b pa fb target now ring valid outer sealed
    refine ⟨fun live other => ?_, fun spilled room inside clean => ?_⟩
    · have bank : target = vget k.rr.banks b Bank.reset := if_neg other
      rw [bank] at outer sealed ⊢
      exact congrArg Host.Outcome.next (issue_ok h (rteBody_bank rfl ring valid live other outer sealed) _)
    · exact congrArg Host.Outcome.next
        (issue_ok h (rteBody_frame rfl rfl rfl ring valid spilled room inside clean rfl rfl outer sealed) _)

end Sys2Proof.Machine
end

section
/-! CERTIFICATE. WAIT and the events of a core (06 R254; 07 R266, R275, R278, R281; 08 R314). -/

namespace Sys2Proof.Machine

/-! ### Discarding tile instructions -/

theorem undoTiles_rr (es : List TileEntry) (free : Nat) (k : Core) : (undoTiles es free k).rr = k.rr := by
  induction es generalizing free k with
  | nil => rfl
  | cons e es ih =>
    rw [undoTiles, ih]
    unfold undoTile
    split
    · rfl
    · rfl

/-- A core whose unretired tile instructions are discarded (03 R113). -/
def Core.discarded (k0 : Core) (free n : Nat) : Core :=
  let k := undoTiles k0.tile.queue.reverse free k0
  { k with tile := { k.tile with
    queue := [], waitPair := none, tustat := setFld k.tile.tustat 32 16 (min (fld k.tile.tustat 32 16 + n) 0xFFFF) } }

theorem Core.discarded_rr (k : Core) (free n : Nat) : (k.discarded free n).rr = k.rr := undoTiles_rr ..

theorem discardTiles_eq (s : State) (c : CoreId) (h : (s.core c).tile.unretired ≠ 0) : discardTiles s c =
    { s.setCore c ((s.core c).discarded s.free (s.core c).tile.unretired) with free := s.free + 256 * (s.core c).tile.queue.length } := if_neg h

/-- A discard leaves nothing in the queue, and nothing but the core's tile unit and pairs changed. -/
theorem discardTiles_frame (s : State) (c : CoreId) : ((discardTiles s c).core c).rr = (s.core c).rr ∧
    ((discardTiles s c).core c).tile.queue = [] ∧ (discardTiles s c).mem = s.mem ∧ s.othersSame (discardTiles s c) c := by
  by_cases none : (s.core c).tile.unretired = 0
  · have same : discardTiles s c = s := if_pos none
    rw [same]
    refine ⟨rfl, List.eq_nil_of_length_eq_zero ?_, rfl, fun _ _ => rfl⟩
    rw [TileRegs.unretired] at none
    omega
  · rw [discardTiles_eq s c none]
    have core := s.core_setCore c ((s.core c).discarded s.free (s.core c).tile.unretired)
    exact ⟨(congrArg Core.rr core).trans (Core.discarded_rr ..), congrArg (fun k : Core => k.tile.queue) core, rfl,
      fun d hd => s.core_setCore_ne _ hd⟩

/-- A core that goes on at the abort address of its task (08 R314). -/
def Core.redirected (k : Core) (a : U64) : Core :=
  let k := k.setBank (fun b => { b with pc := a })
  { k with mm := { k.mm with redirect := none }, tile := { k.tile with waitPair := none }, ex := { k.ex with bpSkip := false, hlog := [], hwait := none } }

theorem redirectTo_eq (s : State) (c : CoreId) (a : U64) : redirectTo s c a = (discardTiles s c).modCore c (fun k => k.redirected a) := rfl

theorem Core.redirected_bank (k : Core) (a : U64) : (k.redirected a).bank = { k.bank with pc := a } :=
  k.bank_setBank (fun b => { b with pc := a })

theorem Core.redirected_cur (k : Core) (a : U64) : (k.redirected a).rr.cur = k.rr.cur := rfl

/-- What the redirection leaves (08 R314). -/
theorem redirectTo_core (s : State) (c : CoreId) (a : U64) :
    ((redirectTo s c a).core c).bank = { (s.core c).bank with pc := a } ∧ ((redirectTo s c a).core c).rr.cur = (s.core c).rr.cur ∧
      ((redirectTo s c a).core c).mm.redirect = none ∧ ((redirectTo s c a).core c).tile.queue = [] := by
  obtain ⟨rr, queue, -, -⟩ := discardTiles_frame s c
  have bank : ((discardTiles s c).core c).bank = (s.core c).bank := by rw [Core.bank, Core.bank, rr]
  rw [redirectTo_eq, State.core_modCore]
  exact ⟨(Core.redirected_bank _ a).trans (by rw [bank]), (Core.redirected_cur _ a).trans (congrArg RingRegs.cur rr), rfl, queue⟩

/-- An eligible event is taken at a boundary where nothing holds it (07 R266). -/
theorem takeAsyncEvent_run {s v : State} {c : CoreId} {cause : Nat} (hv : ready s c = v) (boundary : (v.core c).atBoundary = true)
    (straight : (v.core c).redirectNow = none) (due : (v.core c).eligible = some cause) (free : (v.core c).held = false)
    (resumed : (v.core c).ex.afterRte = true → bit (v.core c).ex.rstat 0 = false ∧ bit (v.core c).vec.vresume 24 = false) :
    exec (.takeAsyncEvent c) s = .next (takeEvent v c cause) := by
  have first : ((v.core c).ex.afterRte && (bit (v.core c).ex.rstat 0 || bit (v.core c).vec.vresume 24)) = false := by
    cases after : (v.core c).ex.afterRte with
    | true =>
      obtain ⟨rep, vector⟩ := resumed after
      rw [rep, vector]
      rfl
    | false => rfl
  change execTakeAsyncEvent c s = _
  unfold execTakeAsyncEvent
  dsimp only
  rw [hv, boundary, straight, free, first, due]
  rfl

theorem timerEvent_run {s : State} {c : CoreId} (once : s.hall.once = true) (timer : (s.core c).rr.xtimer ≠ 0) : exec (.timerEvent c) s =
    .next ((s.toHall (s.core c).rr.xtimer).modCore c (fun k => { k with rr := { k.rr with xpend := setBit k.rr.xpend 0 true } })) := by
  change execTimerEvent c s = _
  unfold execTimerEvent
  rw [once, bne_iff_ne.mpr timer]
  rfl

/-- Settles O23: each event's conditions hold together, and the redirection keeps the context by `redirectTo_core`. -/
theorem coreEventsComplete : Obligations.CoreEventsComplete := by
  refine ⟨fun s u c h pends => ?_, fun s c => ?_, fun s c once timer => ?_, fun s c t run posted masked => ?_, fun s c a => ?_⟩
  · exact congrArg Host.Outcome.next (issue_done h rfl (ok_then (illegalIf_ok rfl u) <| ok_then (coreOf_run c u) <|
      ok_then (waitIf_ok (beq_eq_false_iff_ne.mpr pends) u) (nextPC_run ..)) _)
  · dsimp only
    generalize hv : ready s c = v
    intro boundary straight
    refine ⟨fun none tiles hit skip => ?_, fun cause due hold resumed => ?_⟩
    · change execBreakpointHalt c s = _
      unfold execBreakpointHalt
      dsimp only
      rw [hv, boundary, straight, none, tiles, hit, skip]
      rfl
    · exact takeAsyncEvent_run hv boundary straight due hold resumed
  · exact timerEvent_run once timer
  · change execWatchdog c s = _
    unfold execWatchdog
    dsimp only
    rw [masked, run, posted]
    rfl
  · dsimp only
    generalize hv : ready s c = v
    intro run waits due
    obtain ⟨bank, cur, redirect, queue⟩ := redirectTo_core v c a
    obtain ⟨-, -, mem, others⟩ := discardTiles_frame v c
    have next : exec (.taskAbortRedirect c) s = .next (redirectTo v c a) := by
      change execTaskAbortRedirect c s = _
      unfold execTaskAbortRedirect
      dsimp only
      rw [hv, run, waits, due]
      rfl
    have ring := congrArg (fun b : Bank => b.ring.toNat) bank
    have gm := congrArg Bank.gm bank
    refine ⟨_, next, congrArg Bank.pc bank, ring, cur, gm, redirect, queue, mem, fun d hd => ?_⟩
    rw [redirectTo_eq, State.core_modCore_ne _ _ hd, others d hd]

end Sys2Proof.Machine
end

section
/-! CERTIFICATE. Cache maintenance and translation (08 R290, R298, R300, R305, R306, R316). -/

namespace Sys2Proof.Machine

theorem dczlBody_run {u u1 u2 : State} {c : CoreId} {f : BitVec 22} {pa : Nat} (zero : fld f 0 18 = 0)
    (aligned : ((u.core c).readA (fld f 18 4)).toNat % 128 = 0) (here : bit ((u.core c).readA (fld f 18 4)) 63 = false)
    (xlate : xlateAt c (u.core c).ring .store ((u.core c).readA (fld f 18 4)) u = .ok pa u1) (plain : isDevice pa = false)
    (inside : u1.carrelShut c pa = false) (store : memStore c pa (List.replicate 128 0) ((u.core c).readA (fld f 18 4)) u1 = .ok () u2) :
    dczlBody c f u = .ok (((fillLines u2 c [pa / 128]).core c).pc + n64 4) (fillLines u2 c [pa / 128]) := by
  unfold dczlBody
  refine ok_then (illegalIf_ok (bne_eq_false_iff_eq.mpr zero) u) <| ok_then (rdA_run ..) ?_
  refine ok_then (trapIf_ok (bne_eq_false_iff_eq.mpr aligned) ..) <| ok_then (trapIf_ok here ..) <| ok_then (ringOf_run ..) ?_
  refine ok_then xlate <| ok_then (trapIf_ok plain ..) <| ok_then (op_get u1) <| ok_then (trapIf_ok inside ..) ?_
  exact ok_then store <| ok_then (op_modify ..) (nextPC_run ..)

/-- A PREF raises nothing, whatever becomes of its translation (08 R300). -/
theorem prefLine_ok (c : CoreId) (va : U64) (u : State) : ∃ r u1, prefLine c va u = .ok r u1 := by
  unfold prefLine
  split
  · exact ⟨_, _, rfl⟩
  · split
    · exact ⟨_, _, rfl⟩
    · exact ⟨_, _, rfl⟩

theorem exec_pref {s u u1 : State} {c : CoreId} {f : BitVec 22} {r : Option Nat} (h : s.issued c .plain = some u) (zero : fld f 0 17 = 0)
    (line : prefLine c ((u.core c).readA (fld f 18 4)) u = .ok r u1) : exec (.pref c f) s = .next ((match r with
      | some l => if bit f 17 then l2Line u1 l 0xF false else fillLine u1 c l 0xF
      | none => u1).done c 4) := by
  refine congrArg Host.Outcome.next (issue_done h rfl ?_ _)
  refine ok_then (illegalIf_ok (bne_eq_false_iff_eq.mpr zero) u) <| ok_then (rdA_run ..) <| ok_then line ?_
  cases r with
  | some l => exact ok_then (op_modify ..) (nextPC_run ..)
  | none => exact ok_then rfl (nextPC_run ..)

/-- Settles O24: each instruction's checks pass and its effect follows; a PREF's line, or none, comes of `prefLine_ok`. -/
theorem cacheInstructionsComplete : Obligations.CacheInstructionsComplete := by
  refine ⟨fun s u c f h zero some' => ?_, fun s u u1 u2 c f pa h zero => ?_, fun s u c f h zero => ?_, fun s u c h => ?_,
    fun s u c f h zero all ring => ?_⟩
  · refine congrArg Host.Outcome.next (issue_done h rfl (ok_then (illegalIf_ok ?_ u) (nextPC_run ..)) _)
    rw [zero, beq_eq_false_iff_ne.mpr some']
    rfl
  · intro va aligned here xlate plain inside store
    exact congrArg Host.Outcome.next (issue_done h rfl (dczlBody_run zero aligned here xlate plain inside store) _)
  · obtain ⟨r, u1, line⟩ := prefLine_ok c ((u.core c).readA (fld f 18 4)) u
    exact ⟨r, u1, line, exec_pref h zero line⟩
  · exact congrArg Host.Outcome.next (issue_done h rfl (ok_then (illegalIf_ok rfl u) <| ok_then (modC_run ..) (nextPC_run ..)) _)
  · intro left
    refine congrArg Host.Outcome.next (issue_done h rfl ?_ _)
    refine ok_then (illegalIf_ok ?_ u) <| ok_then (needRing_ok ring) <| ok_then (rdA_run ..) <| ok_then (modC_run ..) ?_
    · rw [zero]
      cases x : bit f 21 with
      | true => simp [all x]
      | false => rfl
    · refine (nextPC_run ..).trans ?_
      exact congrArg (fun t : State => EStateM.Result.ok ((t.core c).pc + n64 4) t) (u.modCore_congr c rfl)

end Sys2Proof.Machine
end

section
/-! CERTIFICATE. Speculative tasks (08 R309, R313 to R315). -/

namespace Sys2Proof.Machine

theorem tspecBegin_refused {u : State} {c : CoreId} {f : BitVec 22} (zero : fld f 0 10 = 0) (aligned : ((u.core c).readA (fld f 10 4)).toNat % 4 = 0)
    (none' : (List.range 4).find? (fun t => ((u.core c).task t).st == .free) = none ∨ (u.core c).openTask ≠ none) :
    tspecBegin c f u = .ok (((u.modCore c (fun k => k.writeD (fld f 18 4) 0xFFFFFFFFFFFFFFFF#64)).core c).pc + n64 4)
      (u.modCore c (fun k => k.writeD (fld f 18 4) 0xFFFFFFFFFFFFFFFF#64)) := by
  unfold tspecBegin
  refine ok_then (illegalIf_ok (bne_eq_false_iff_eq.mpr zero) u) <| ok_then (coreOf_run c u) <| ok_then (rdA_run ..) <| ok_then (rdD_run ..) ?_
  refine ok_then (checkTarget_ok aligned u) ?_
  cases free : (List.range 4).find? (fun t => ((u.core c).task t).st == .free) with
  | none => exact ok_then (wrD_run ..) (nextPC_run ..)
  | some t =>
    have opened : (u.core c).openTask.isSome = true := by
      rw [free] at none'
      exact Option.isSome_iff_ne_none.mpr (none'.resolve_left (by simp))
    exact (congrFun (if_pos opened) u).trans (ok_then (wrD_run ..) (nextPC_run ..))

theorem tspecBegin_opens {u : State} {c : CoreId} {f : BitVec 22} {t : Nat} (zero : fld f 0 10 = 0)
    (aligned : ((u.core c).readA (fld f 10 4)).toNat % 4 = 0) (free : (List.range 4).find? (fun t => ((u.core c).task t).st == .free) = some t)
    (closed : (u.core c).openTask = none) {v : State} (hv : u.modCore c (fun k =>
      let k1 := k.setTask t (fun _ => { Task.none with
        st := .opened, ring := k.bank.ring, step := k.readD (fld f 14 4), abortAt := (u.core c).readA (fld f 10 4), ord := k.mm.taskSeq + 1 })
      { k1 with mm := { k1.mm with taskSeq := k1.mm.taskSeq + 1 } }.writeD (fld f 18 4) (n64 t)) = v) :
    tspecBegin c f u = .ok ((v.core c).pc + n64 4) v := by
  subst hv
  unfold tspecBegin
  refine ok_then (illegalIf_ok (bne_eq_false_iff_eq.mpr zero) u) <| ok_then (coreOf_run c u) <| ok_then (rdA_run ..) <| ok_then (rdD_run ..) ?_
  refine ok_then (checkTarget_ok aligned u) ?_
  rw [free]
  refine (congrFun (if_neg (by rw [closed]; exact Bool.false_ne_true)) u).trans ?_
  refine ok_then (modC_run ..) <| ok_then (wrD_run ..) <| (nextPC_run ..).trans ?_
  rw [State.modCore_modCore]
  exact congrArg (fun t : State => EStateM.Result.ok ((t.core c).pc + n64 4) t) (u.modCore_congr c rfl)

/-! ### The tasks that are due -/

/-- A list whose one element satisfies a test is what the test leaves. -/
theorem filter_range_eq_singleton {p : Nat → Bool} {t : Nat} (ht : t < 4) (yes : p t = true) (no : ∀ i < 4, i ≠ t → p i = false) :
    (List.range 4).filter p = [t] := by
  have every (i : Nat) (hi : i < 4) : p i = decide (i = t) := by
    by_cases e : i = t
    · rw [e, yes, decide_eq_true rfl]
    · rw [no i hi e, decide_eq_false e]
  have only : (List.range 4).filter p = (List.range 4).filter (fun i => decide (i = t)) :=
    List.filter_congr (fun i hi => every i (List.mem_range.mp hi))
  rw [only]
  interval_cases t
  all_goals rfl

theorem Core.task_setTask (k : Core) {t : Nat} (ht : t < 4) (f : Task → Task) : (k.setTask t f).task t = f (k.task t) := vget_vput _ _ _ _ ht

theorem Core.task_setTask_ne (k : Core) {t i : Nat} (h : t ≠ i) (f : Task → Task) : (k.setTask t f).task i = k.task i := vget_vput_ne _ _ _ h

/-- The open task is one of the four. -/
theorem Core.openTask_lt {k : Core} {t : Nat} (h : k.openTask = some t) : t < 4 := List.mem_range.mp (List.mem_of_find?_eq_some h)

/-- A task that ends with no other left is due exactly where its step has sealed or is all ones (08 R313). -/
theorem dueTasks_ended {u : State} {c : CoreId} {t : Nat} (opened : (u.core c).openTask = some t)
    (alone : ∀ i, i < 4 → i ≠ t → ((u.core c).task i).st = .free) :
    (u.modCore c (fun k => k.setTask t (fun x => { x with st := .ended }))).dueTasks c =
      if ((u.core c).task t).step = 0xFFFFFFFFFFFFFFFF#64 ∨ (u.led.sealed = true ∧ ((u.core c).task t).step.toNat ≤ u.led.last.toNat) then [t]
      else [] := by
  have ht := Core.openTask_lt opened
  have mine := (u.core c).task_setTask ht (fun x => { x with st := .ended })
  have left : (List.range 4).filter (fun i => (((u.core c).setTask t (fun x => { x with st := .ended })).task i).st != .free) = [t] := by
    refine filter_range_eq_singleton ht (by rw [mine]; rfl) (fun i hi ne => ?_)
    rw [Core.task_setTask_ne _ ne.symm, alone i hi ne]
    rfl
  unfold State.dueTasks
  dsimp only
  rw [State.core_modCore, left]
  have due : (u.modCore c (fun k => k.setTask t (fun x => { x with st := .ended }))).due
      (((u.core c).setTask t (fun x => { x with st := .ended })).task t) = true ↔
      ((u.core c).task t).step = 0xFFFFFFFFFFFFFFFF#64 ∨ (u.led.sealed = true ∧ ((u.core c).task t).step.toNat ≤ u.led.last.toNat) := by
    rw [mine]
    simp only [State.due, State.sealedStep, Bool.and_eq_true, Bool.or_eq_true, beq_self_eq_true, true_and, beq_iff_eq]
    exact or_congr_right (and_congr_right fun _ => decide_eq_true_iff)
  refine (List.takeWhile_cons ..).trans ?_
  simp only [due, List.takeWhile_nil]

/-- Settles O25: BEGIN by whether a number is free, COMMIT and ABORT by whether a task is open. -/
theorem taskInstructionsComplete : Obligations.TaskInstructionsComplete := by
  refine ⟨fun s u c f h zero => ?_, fun s u c h => ⟨fun none' => ⟨?_, ?_⟩, fun t opened => ?_⟩, fun s u c f h zero => ?_⟩
  · intro k a free aligned
    exact ⟨fun t first closed => congrArg Host.Outcome.next (issue_done h rfl (tspecBegin_opens zero aligned first closed rfl) _),
      fun refused => congrArg Host.Outcome.next (issue_done h rfl (tspecBegin_refused zero aligned refused) _)⟩
  · have same : endTask u c = u := by
      rw [endTask, none']
    refine congrArg Host.Outcome.next (issue_done h rfl (ok_then (illegalIf_ok rfl u) <| ok_then (op_modify ..) ?_) _)
    rw [same]
    exact nextPC_run ..
  · refine congrArg Host.Outcome.next (issue_done h rfl (ok_then (illegalIf_ok rfl u) <| ok_then (coreOf_run c u) ?_) _)
    rw [none']
    exact ok_then rfl (nextPC_run ..)
  · intro u1 st
    have ends : endTask u c = commitTasks u1 ((u1.dueTasks c).map (fun t => (c, t))) := by
      rw [endTask, opened]
      rfl
    refine ⟨?_, dueTasks_ended opened, ?_⟩
    · refine congrArg Host.Outcome.next (issue_done h rfl (ok_then (illegalIf_ok rfl u) <| ok_then (op_modify ..) ?_) _)
      rw [ends]
      exact nextPC_run ..
    · refine congrArg Host.Outcome.next (issue_done h rfl (ok_then (illegalIf_ok rfl u) <| ok_then (coreOf_run c u) ?_) _)
      rw [opened]
      exact ok_then (op_modify ..) <| ok_then (modC_run ..) (nextPC_run ..)
  · intro x free
    refine congrArg Host.Outcome.next (issue_done h rfl ?_ _)
    refine ok_then (illegalIf_ok (bne_eq_false_iff_eq.mpr zero) u) <| ok_then (coreOf_run c u) <| ok_then (rdD_run ..) ?_
    rw [← n64_b01]
    exact ok_then (waitIf_ok (bne_eq_false_iff_eq.mpr free) u) <| ok_then (wrD_run ..) (nextPC_run ..)

end Sys2Proof.Machine
end

section
/-! CERTIFICATE. SETVL, predicate logic, vector reductions and permutes (05 R167, R172, R173, R177). -/

namespace Sys2Proof.Machine

theorem modV_run (c : CoreId) (f : VecRegs → VecRegs) (u : State) : modV c f u = .ok () (u.modCore c (fun k => { k with vec := f k.vec })) := rfl

theorem useFree_run (n : Nat) (u : State) : useFree n u = .ok () { u with free := u.free + n } := rfl

/-- A change of the vector registers that may take free values, as the end of an instruction. -/
theorem modV_thenUse_run (c : CoreId) (g : VecRegs → VecRegs) (p : Prop) [Decidable p] (n : Nat) (u : State) :
    (do
      modV c g
      if p then useFree n
      nextPC c 4) u =
      .ok ((State.core { u.modCore c (fun k => { k with vec := g k.vec }) with free := u.free + if p then n else 0 } c).pc + n64 4)
        { u.modCore c (fun k => { k with vec := g k.vec }) with free := u.free + if p then n else 0 } := by
  refine ok_then (modV_run ..) ?_
  by_cases h : p
  · simp only [if_pos h]
    rfl
  · simp only [if_neg h]
    rfl

/-- SEW is 8, 16, 32 or 64 (05 R166). -/
theorem Core.sew_cases (k : Core) (f : BitVec 26) : (k.vctxOf f).sew = 8 ∨ (k.vctxOf f).sew = 16 ∨ (k.vctxOf f).sew = 32 ∨ (k.vctxOf f).sew = 64 := by
  have low : fld k.vec.vtype 0 2 < 4 := fld_lt ..
  change 2 ^ (3 + fld k.vec.vtype 0 2) = 8 ∨ 2 ^ (3 + fld k.vec.vtype 0 2) = 16 ∨ 2 ^ (3 + fld k.vec.vtype 0 2) = 32 ∨
    2 ^ (3 + fld k.vec.vtype 0 2) = 64
  interval_cases fld k.vec.vtype 0 2
  all_goals decide

/-! ### SETVL and PLOG -/

theorem setvl_vtype (f : BitVec 23) : n64 (fld f 13 2 + fld f 11 2 <<< 2 + b01 (bit f 10) <<< 4) =
    n64 (fld f 13 2 + fld f 11 2 <<< 2 + (if bit f 10 then 16 else 0)) := by
  cases bit f 10
  all_goals rfl

theorem exec_setvl {s u : State} {c : CoreId} {f : BitVec 23} {vt : U64} {vl : Nat} (h : s.issued c .plain = some u) (zero : fld f 0 10 = 0)
    (half : bit f 10 = true → fld f 13 2 = 1) (hvt : vt = n64 (fld f 13 2 + fld f 11 2 <<< 2 + (if bit f 10 then 16 else 0)))
    (hvl : vl = min ((u.core c).readD (fld f 15 4)).toNat (vlmaxOf vt)) :
    exec (.setvl c f) s = .next ((u.modCore c (fun k =>
      { k with vec := { k.vec with vtype := vt, vl := BitVec.ofNat 12 vl } }.writeD (fld f 19 4) (n64 vl))).done c 4) := by
  rw [← setvl_vtype] at hvt
  subst hvl hvt
  refine congrArg Host.Outcome.next (issue_done h rfl ?_ _)
  refine ok_then (illegalIf_ok ?_ u) <| ok_then (rdD_run ..) <| ok_then (modV_run ..) <| ok_then (wrD_run ..) <| (nextPC_run ..).trans ?_
  · rw [zero]
    cases x : bit f 10 with
    | true => rw [half x]; rfl
    | false => rfl
  · rw [State.modCore_modCore]

theorem exec_plog {s u : State} {c : CoreId} {f : BitVec 23} (h : s.issued c .plain = some u) (zero : fld f 0 12 = 0) :
    exec (.plog c f) s = .next ((u.modCore c (fun k => { k with vec := { k.vec with
      p := vput k.vec.p (fld f 20 3) (plogOp (fld f 12 2) (vget k.vec.p (fld f 17 3) 0) (vget k.vec.p (fld f 14 3) 0)) } })).done c 4) :=
  congrArg Host.Outcome.next (issue_done h rfl (ok_then (illegalIf_ok (bne_eq_false_iff_eq.mpr zero) u) <| ok_then (modV_run ..) (nextPC_run ..)) _)

/-! ### Reductions and permutes -/

/-- A value under free bits above its width. -/
theorem fld_n64_free (r x : Nat) {w : Nat} (hw : w ≤ 64) : fld (n64 (r + x <<< w)) 0 w = r % 2 ^ w := by
  rw [fld_eq_div, n64, BitVec.toNat_ofNat, pow_zero, Nat.div_one, Nat.mod_mod_of_dvd _ (pow_dvd_pow 2 hw), Nat.shiftLeft_eq, Nat.add_mul_mod_self_right]

/-- The result of an integer reduction of a tree's value and the initial value (05 R177). -/
def intRedResult (fn w init : Nat) (tree : Option Nat) : Nat := tree.elim init (fun t => intRedOp fn w t init)

/-- The result of a floating-point reduction of a tree's value and the initial value (05 R177). -/
def fpRedResult (fn : Nat) (rf : Fmt) (init : Nat) (tree : Option FlagVal) : FlagVal :=
  tree.elim (if (decodeF rf init).isNan then rf.qnan else init, 0) (fun t => fpRedOp fn rf t (init, 0))

/-- The active elements of VS1, in order, with a hole for each that is not active. -/
def VCtx.sources (x : VCtx) (k : Core) (f : BitVec 26) : List (Option Nat) :=
  (List.range x.vl).map (fun i => if x.active k.vec i then some (vElem k.vec.v (vVS1 f) x.sew i) else none)

/-- The format a floating-point reduction of elements of width w and format fm works in (05 R177). -/
def redFmt (w : Nat) (fm : Fmt) : Fmt := if w = 16 then fp32 else fm

/-- The sources of a floating-point reduction in its format. -/
def VCtx.fpSources (x : VCtx) (k : Core) (f : BitVec 26) (fm : Fmt) : List (Option FlagVal) :=
  (x.sources k f).map (fun e => e.map (fun e => (if x.sew = 16 then widenF fm e else e, 0)))

theorem vecRedBody_fp {u : State} {c : CoreId} {f : BitVec 26} {fm : Fmt} {tree : Option FlagVal} {init : Nat}
    (legal : ((u.core c).vctxOf f).operandsOk 0 0 (vVS1 f) ((u.core c).vctxOf f).sew 0 0 = true) (fp : vFunct f ≤ 2)
    (hf : ((u.core c).vctxOf f).fmt = some fm) (hinit : (u.core c).readF (vVS2 f) (redFmt ((u.core c).vctxOf f).sew fm).width = init)
    (ht : treeFold (fpRedOp (vFunct f) (redFmt ((u.core c).vctxOf f).sew fm)) 11 (((u.core c).vctxOf f).fpSources (u.core c) f fm) = tree) :
    vecRedBody c f u = nextPC c 4 (u.modCore c (fun k =>
      (k.raiseFlags (fpRedResult (vFunct f) (redFmt ((u.core c).vctxOf f).sew fm) init tree).2).writeF (vVD f)
        (fpRedResult (vFunct f) (redFmt ((u.core c).vctxOf f).sew fm) init tree).1)) := by
  refine ok_then (op_get u) <| ok_then (illegalIf_ok (by rw [legal]; rfl) u) ?_
  refine (congrFun (if_pos fp) u).trans ?_
  rw [hf]
  unfold VCtx.fpSources VCtx.sources redFmt at ht
  unfold redFmt at hinit
  refine ok_then (modC_run ..) ?_
  simp only [ht, hinit]
  cases tree
  all_goals rfl

theorem vecRedBody_int {u : State} {c : CoreId} {f : BitVec 26} {tree : Option Nat} {init : Nat}
    (legal : ((u.core c).vctxOf f).operandsOk 0 0 (vVS1 f) ((u.core c).vctxOf f).sew 0 0 = true) (int : 3 ≤ vFunct f)
    (hinit : (u.core c).readF (vVS2 f) ((u.core c).vctxOf f).sew = init)
    (ht : treeFold (intRedOp (vFunct f) ((u.core c).vctxOf f).sew) 11 (((u.core c).vctxOf f).sources (u.core c) f) = tree) :
    vecRedBody c f u = nextPC c 4 { u.modCore c (fun k => k.writeD (vVD f % 16) (n64 (intRedResult (vFunct f) ((u.core c).vctxOf f).sew init tree +
      (Config.freeNat u.free % 2 ^ (64 - ((u.core c).vctxOf f).sew)) <<< ((u.core c).vctxOf f).sew))) with
      free := u.free + if ((u.core c).vctxOf f).sew = 64 then 0 else 1 } := by
  refine ok_then (op_get u) <| ok_then (illegalIf_ok (by rw [legal]; rfl) u) ?_
  refine (congrFun (if_neg (by omega)) u).trans ?_
  unfold VCtx.sources at ht
  refine ok_then (wrD_run ..) ?_
  simp only [ht, hinit]
  by_cases w64 : ((u.core c).vctxOf f).sew = 64
  · simp only [w64]
    cases tree
    all_goals rfl
  · simp only [if_neg w64, if_pos w64]
    cases tree
    all_goals rfl

/-- An integer reduction's or a floating-point one's body that ends with the next instruction is the instruction's effect. -/
theorem exec_vectorReduction {s u t : State} {c : CoreId} {f : BitVec 26} (h : s.issued c .plain = some u) (red : vFunct f ≤ 5)
    (body : vecRedBody c f u = nextPC c 4 t) : exec (.vectorReduction c f) s = .next (t.done c 4) :=
  congrArg Host.Outcome.next (issue_done h rfl (ok_then (illegalIf_ok (decide_eq_false (Nat.not_lt.mpr red)) u) (body.trans (nextPC_run ..))) _)

theorem exec_vectorPermute {s u t : State} {c : CoreId} {f : BitVec 26} (h : s.issued c .plain = some u) (lo : 6 ≤ vFunct f) (hi : vFunct f ≤ 0x0B)
    (body : vecPermBody c f u = nextPC c 4 t) : exec (.vectorPermute c f) s = .next (t.done c 4) :=
  congrArg Host.Outcome.next (issue_done h rfl (ok_then (illegalIf_ok (decide_eq_false (by omega)) u) (body.trans (nextPC_run ..))) _)

section
variable {u : State} {c : CoreId} {f : BitVec 26}
  (legal : ((u.core c).vctxOf f).operandsOk (vVD f) (if vFunct f = 0x0B then 0 else ((u.core c).vctxOf f).sew) (vVS1 f)
    (if 0x0A ≤ vFunct f then 0 else ((u.core c).vctxOf f).sew) (vVS2 f) (if vFunct f = 0x08 then ((u.core c).vctxOf f).sew else 0) = true)
include legal

theorem vecPermBody_empty (empty : ((u.core c).vctxOf f).vl = 0) : vecPermBody c f u = nextPC c 4 u := by
  refine ok_then (op_get u) <| ok_then (illegalIf_ok (by rw [legal]; rfl) u) ?_
  exact (congrFun (if_pos empty) u).trans (ok_then rfl rfl)

theorem vecPermBody_count (some' : ((u.core c).vctxOf f).vl ≠ 0) (count : vFunct f = 0x0B) : vecPermBody c f u =
    nextPC c 4 (u.modCore c (fun k => k.writeD (vVD f % 16) (n64 (((u.core c).vctxOf f).actives k.vec).length))) := by
  refine ok_then (op_get u) <| ok_then (illegalIf_ok (by rw [legal]; rfl) u) ?_
  refine (congrFun (if_neg some') u).trans <| (congrFun (if_pos count) u).trans ?_
  exact ok_then (wrD_run ..) (congrArg (nextPC c 4) (u.modCore_congr c rfl))

theorem vecPermBody_compress (some' : ((u.core c).vctxOf f).vl ≠ 0) (pack : vFunct f = 0x09) : vecPermBody c f u =
    nextPC c 4 (u.modCore c (fun k => { k with vec := compress ((u.core c).vctxOf f) k.vec f })) := by
  refine ok_then (op_get u) <| ok_then (illegalIf_ok (by rw [legal]; rfl) u) ?_
  refine (congrFun (if_neg some') u).trans <| (congrFun (if_neg (by omega)) u).trans <| (congrFun (if_pos pack) u).trans ?_
  exact ok_then (modV_run ..) rfl

theorem vecPermBody_elems {e : Nat → Option Nat} (some' : ((u.core c).vctxOf f).vl ≠ 0) (ne : vFunct f ≠ 0x0B) (ne' : vFunct f ≠ 0x09)
    (he : permElem (vFunct f) ((u.core c).vctxOf f) (u.core c).vec f ((u.core c).readD (vVS2 f % 16)).toNat u.free = e) :
    vecPermBody c f u = nextPC c 4 { u.modCore c (fun k => { k with vec := ((u.core c).vctxOf f).writeElems k.vec (vVD f) ((u.core c).vctxOf f).sew e }) with
      free := u.free + if vFunct f = 0x07 then ((u.core c).vctxOf f).vl else 0 } := by
  refine ok_then (op_get u) <| ok_then (illegalIf_ok (by rw [legal]; rfl) u) ?_
  refine (congrFun (if_neg some') u).trans <| (congrFun (if_neg ne) u).trans <| (congrFun (if_neg ne') u).trans ?_
  refine (modV_thenUse_run c (fun v => ((u.core c).vctxOf f).writeElems v (vVD f) ((u.core c).vctxOf f).sew
    (permElem (vFunct f) ((u.core c).vctxOf f) v f ((u.core c).readD (vVS2 f % 16)).toNat u.free)) (vFunct f = 0x07) _ u).trans ?_
  subst he
  exact congrArg (fun t : State => nextPC c 4 { t with free := u.free + if vFunct f = 0x07 then ((u.core c).vctxOf f).vl else 0 })
    (u.modCore_congr c rfl)

end

/-- Settles O26: each body with its checks passed, in the order of its branches. -/
theorem vectorSetupAndMovesComplete : Obligations.VectorSetupAndMovesComplete := by
  refine ⟨fun s u c f h zero half => ?_, fun s u c f g h zero ops => ?_, fun s u c f h => ?_, fun s u c f h => ?_⟩
  · intro vt vl
    exact exec_setvl h zero half rfl rfl
  · rw [exec_plog h zero]
    obtain ⟨op, rfl⟩ | ⟨op, rfl⟩ | ⟨op, rfl⟩ | ⟨op, rfl⟩ := ops
    all_goals rw [op]; rfl
  · intro k x w fn elems red legal
    have he : elems = x.sources k f := rfl
    refine ⟨fun fm hf fp => ?_, fun int => ?_⟩
    · intro rf xs init r
      have hxs : xs = x.fpSources k f fm := rfl
      obtain ⟨tree, ht⟩ : ∃ t, treeFold (fpRedOp fn rf) 11 (x.fpSources k f fm) = t := ⟨_, rfl⟩
      have hr : r = fpRedResult fn rf init tree := by
        simp only [r, hxs, ht]
        cases tree
        all_goals rfl
      rw [hr]
      exact exec_vectorReduction h red (vecRedBody_fp legal fp hf rfl ht)
    · obtain ⟨tree, ht⟩ : ∃ t, treeFold (intRedOp fn w) 11 (x.sources k f) = t := ⟨_, rfl⟩
      rw [he, ht]
      refine ⟨_, (fld_n64_free (intRedResult fn w (k.readF (vVS2 f) w) tree) (Config.freeNat u.free % 2 ^ (64 - w)) ?_).trans ?_,
        exec_vectorReduction h red (vecRedBody_int legal int rfl ht)⟩
      · have sew : w = 8 ∨ w = 16 ∨ w = 32 ∨ w = 64 := k.sew_cases f
        omega
      · cases tree
        all_goals rfl
  · intro k x w fn lo hi legal
    exact ⟨fun empty => exec_vectorPermute h lo hi (vecPermBody_empty legal empty),
      fun some' count => exec_vectorPermute h lo hi (vecPermBody_count legal some' count),
      fun some' pack => exec_vectorPermute h lo hi (vecPermBody_compress legal some' pack),
      fun some' ne ne' => exec_vectorPermute h lo hi (vecPermBody_elems legal some' ne ne' rfl)⟩

end Sys2Proof.Machine
end

section
/-! CERTIFICATE. Vector integer, floating-point, transcendental and conversion instructions (05 R169 to R180). -/

namespace Sys2Proof.Machine

theorem three_iff (n lo : Nat) : (n = lo ∨ n = lo + 1 ∨ n = lo + 2) ↔ decide (lo ≤ n ∧ n ≤ lo + 2) = true := by
  rw [decide_eq_true_iff]
  omega

/-- The width of an integer operation's destination (05 R173): 0 for a compare's predicate. -/
def vecIntWidth (fn w : Nat) : Nat :=
  if fn = 0x11 ∨ fn = 0x12 ∨ fn = 0x13 then 0 else if fn = 0x15 then 2 * w else if fn = 0x16 then w / 2 else w

theorem vecInt_legal {x : VCtx} {f : BitVec 26} {fn w : Nat}
    (legal : x.operandsOk (vVD f) (vecIntWidth fn w) (vVS1 f) (if fn = 0x14 ∧ vSX f then 0 else w) (vVS2 f)
      (if fn ≤ 0x13 ∧ vSX f = false then w else 0) = true)
    (dest : fn = 0x11 ∨ fn = 0x12 ∨ fn = 0x13 → x.predDestOk f = true) :
    (!x.operandsOk (vVD f) (if decide (0x11 ≤ fn ∧ fn ≤ 0x13) = true then 0 else if fn = 0x15 then 2 * w else if fn = 0x16 then w / 2 else w) (vVS1 f)
        (if fn = 0x14 ∧ vSX f then 0 else w) (vVS2 f) (if (decide (fn ≤ 0x13) && !vSX f) = true then w else 0) ||
      (decide (0x11 ≤ fn ∧ fn ≤ 0x13) && !x.predDestOk f)) = false := by
  have two : (decide (fn ≤ 0x13) && !vSX f) = true ↔ fn ≤ 0x13 ∧ vSX f = false := by
    rw [Bool.and_eq_true, decide_eq_true_iff, Bool.not_eq_true']
  rw [if_congr (three_iff fn 0x11).symm rfl rfl, if_congr two rfl rfl]
  unfold vecIntWidth at legal
  rw [legal]
  by_cases cmp : fn = 0x11 ∨ fn = 0x12 ∨ fn = 0x13
  · rw [dest cmp, Bool.not_true, Bool.and_false]
    rfl
  · rw [Bool.eq_false_iff.mpr (mt (three_iff fn 0x11).mpr cmp)]
    rfl

theorem vecFp_legal {x : VCtx} {f : BitVec 26} {fn w wd w2 : Nat}
    (legal : x.operandsOk (vVD f) (if fn = 0x10 ∨ fn = 0x11 ∨ fn = 0x12 then 0 else if fn = 0x13 then wd else w) (vVS1 f) w (vVS2 f)
      (if fpUnary fn ∨ vSX f then 0 else w2) = true)
    (dest : fn = 0x10 ∨ fn = 0x11 ∨ fn = 0x12 → x.predDestOk f = true) :
    (!x.operandsOk (vVD f) (if decide (0x10 ≤ fn ∧ fn ≤ 0x12) = true then 0 else if (fn == 0x13) = true then wd else w) (vVS1 f) w (vVS2 f)
        (if (fpUnary fn || vSX f) = true then 0 else w2) ||
      (decide (0x10 ≤ fn ∧ fn ≤ 0x12) && !x.predDestOk f)) = false := by
  rw [if_congr (three_iff fn 0x10).symm rfl rfl, if_congr beq_iff_eq rfl rfl, if_congr (Bool.or_eq_true ..).to_iff rfl rfl, legal]
  by_cases cmp : fn = 0x10 ∨ fn = 0x11 ∨ fn = 0x12
  · rw [dest cmp, Bool.not_true, Bool.and_false]
    rfl
  · rw [Bool.eq_false_iff.mpr (mt (three_iff fn 0x10).mpr cmp)]
    rfl

/-- The form of a floating-point operation (05 R173): no reserved FUNCT, no transcendental at SEW 64, VFWMA at SEW 16 alone. -/
theorem vecFp_form {fn w : Nat} (fits : fn ≤ 0x14) (no64 : w = 64 → fn < 0x0A ∨ 0x0F < fn) (wide : fn = 0x13 → w = 16) :
    (decide (0x14 < fn) || (w == 64 && decide (0x0A ≤ fn ∧ fn ≤ 0x0F)) || (fn == 0x13 && w != 16)) = false := by
  have trans : (w == 64 && decide (0x0A ≤ fn ∧ fn ≤ 0x0F)) = false := by
    rw [Bool.and_eq_false_iff, beq_eq_false_iff_ne, decide_eq_false_iff_not]
    omega
  have fma : (fn == 0x13 && w != 16) = false := by
    rw [Bool.and_eq_false_iff, beq_eq_false_iff_ne, bne_eq_false_iff_eq]
    omega
  rw [trans, fma, decide_eq_false (Nat.not_lt.mpr fits)]
  rfl

/-- What major 0x1A does after its checks (05 R173, R175, R178). -/
def vecFpRest (c : CoreId) (f : BitVec 26) (fm : Fmt) (k : Core) : Op U64 := do
  let x := k.vctxOf f
  let fn := vFunct f
  let v := k.vec
  let a (i : Nat) : Nat := vElem v.v (vVS1 f) x.sew i
  let b (i : Nat) : Nat := if vSX f then k.readF (vVS2 f) x.sew else vElem v.v (vVS2 f) x.sew i
  if x.vl = 0 then pure ()
  else if decide (0x10 ≤ fn ∧ fn ≤ 0x12) then
    let r (i : Nat) := fpCompare fn fm (a i) (b i)
    addFlags c (x.flagsOf v (fun i => (r i).2))
    modV c (fun v => x.writePred v (fld f 21 3) (fun i => (r i).1))
  else
    let r (i : Nat) : Nat × FFlags :=
      if fn == 0x13 then fFma fp32 k.vrm (decodeF fp32 (vElem v.v (vVD f) 32 i)) (decodeF fm (a i)) (decodeF fm (b i))
      else fpArith fn fm k.vrm (vElem v.v (vVD f) x.sew i) (a i) (b i)
    addFlags c (x.flagsOf v (fun i => (r i).2))
    modV c (fun v => x.writeElems v (vVD f) (if fn == 0x13 then 32 else x.sew) (fun i => some (r i).1))
  nextPC c 4

theorem countConversion_run (c : CoreId) (x : Counts) (fmt cls chan : Nat) (u : State) : countConversion c x fmt cls chan u =
    .ok () (addCounts (u.modCore c (fun k => { k with num := { k.num with nlast := nlastWord x fmt cls chan } })) c
      ((u.modCore c (fun k => { k with num := { k.num with nlast := nlastWord x fmt cls chan } })).core c).accTask chan fmt x) := rfl

/-- Settles O27: each body with its checks passed, in the order of its branches. -/
theorem vectorArithmeticComplete : Obligations.VectorArithmeticComplete := by
  refine ⟨fun s u c f h => ?_, fun s u c f fm h => ?_, fun s u c p f h => ?_⟩
  · intro k x w fn scalar a b cmp wd fits legal dest
    have run {t : State} (body : vecIntBody c f u = .ok ((t.core c).pc + n64 4) t) : exec (.vectorIntegerOp c f) s = .next (t.done c 4) :=
      congrArg Host.Outcome.next (issue_done h rfl body _)
    refine ⟨fun empty => run ?_, fun some' isCmp => run ?_, fun some' notCmp => ?_⟩
    · refine ok_then (op_get u) <| ok_then (illegalIf_ok (decide_eq_false (by omega)) u) <| ok_then (illegalIf_ok (vecInt_legal legal dest) u) ?_
      exact (congrFun (if_pos empty) u).trans (ok_then rfl (nextPC_run ..))
    · refine ok_then (op_get u) <| ok_then (illegalIf_ok (decide_eq_false (by omega)) u) <| ok_then (illegalIf_ok (vecInt_legal legal dest) u) ?_
      refine (congrFun (if_neg some') u).trans <| (congrFun (if_pos ((three_iff fn 0x11).mp isCmp)) u).trans ?_
      exact ok_then (modV_run ..) (nextPC_run ..)
    · intro r
      refine run ?_
      have notBit := mt (three_iff fn 0x11).mpr notCmp
      have width : (if decide (0x11 ≤ fn ∧ fn ≤ 0x13) = true then 0 else if fn = 0x15 then 2 * w else if fn = 0x16 then w / 2 else w) = wd :=
        if_congr (three_iff fn 0x11).symm rfl rfl
      refine ok_then (op_get u) <| ok_then (illegalIf_ok (decide_eq_false (by omega)) u) <| ok_then (illegalIf_ok (vecInt_legal legal dest) u) ?_
      refine (congrFun (if_neg some') u).trans <| (congrFun (if_neg notBit) u).trans ?_
      rw [← width]
      exact modV_thenUse_run c (fun v => x.writeElems v (vVD f) _ r) (0x08 ≤ fn ∧ fn ≤ 0x0A) x.vl u
  · intro k x w fn a b cmp wd hf fits no64 wide legal dest
    have both {v : State} (body : vecFpBody c f u = .ok ((v.core c).pc + n64 4) v) : exec (.vectorFpOp c f) s = .next (v.done c 4) ∧
        ∀ hi g lo, f = transBits hi g lo → exec (.vectorTranscendental c hi g lo) s = .next (v.done c 4) := by
      refine ⟨congrArg Host.Outcome.next (issue_done h rfl body _), ?_⟩
      rintro hi g lo rfl
      exact congrArg Host.Outcome.next (issue_done h rfl body _)
    have checked {r : EStateM.Result Stop State U64} (rest : vecFpRest c f fm (u.core c) u = r) : vecFpBody c f u = r := by
      refine ok_then (coreOf_run c u) ?_
      change ((u.core c).vctxOf f).fmt = some fm at hf
      dsimp only
      rw [hf]
      exact ok_then (illegalIf_ok (vecFp_form fits no64 wide) u) <| ok_then (illegalIf_ok (vecFp_legal legal dest) u) rest
    intro t ht
    by_cases empty : x.vl = 0
    · rw [if_pos empty] at ht
      subst ht
      exact both (checked ((congrFun (if_pos empty) u).trans (ok_then rfl (nextPC_run ..))))
    · rw [if_neg empty] at ht
      by_cases isCmp : cmp
      · rw [if_pos isCmp] at ht
        subst ht
        refine both (checked ?_)
        refine (congrFun (if_neg empty) u).trans <| (congrFun (if_pos ((three_iff fn 0x10).mp isCmp)) u).trans ?_
        refine ok_then (addFlags_run ..) <| ok_then (modV_run ..) <| (nextPC_run ..).trans ?_
        rw [State.modCore_modCore]
        exact congrArg (fun t : State => EStateM.Result.ok ((t.core c).pc + n64 4) t) (u.modCore_congr c rfl)
      · rw [if_neg isCmp] at ht
        subst ht
        refine both (checked ?_)
        refine (congrFun (if_neg empty) u).trans <| (congrFun (if_neg (mt (three_iff fn 0x10).mpr isCmp)) u).trans ?_
        refine ok_then (addFlags_run ..) <| ok_then (modV_run ..) <| (nextPC_run ..).trans ?_
        simp only [State.modCore_modCore, beq_iff_eq]
        exact congrArg (fun t : State => EStateM.Result.ok ((t.core c).pc + n64 4) t) (u.modCore_congr c rfl)
  · intro k x sf h' chan out conv r zero src legal destOk mx df direct
    have run {t : State} (body : vcvtBody c p f u = .ok ((t.core c).pc + n64 (codeBytes p)) t) : exec (.vcvt c p f) s = .next (t.done c (codeBytes p)) :=
      congrArg Host.Outcome.next (issue_done h rfl body _)
    have source : (fld h' 0 14 != 0 || decide (0xE ≤ sf) || !x.operandsOk 0 0 (vVS1 f) (cvtSrcWidth x.sew sf) 0 0) = false := by
      rw [legal, zero, decide_eq_false (Nat.not_le.mpr src)]
      rfl
    have chosen : (bit f 0 && (isMX out.1 || decide (0xE ≤ out.1) || !x.cvtDestOk (vVD f) out.1)) = false := by
      rw [mx, destOk, decide_eq_false (Nat.not_le.mpr df), Bool.or_self, Bool.not_true, Bool.or_self, Bool.and_false]
    have keep : (!bit f 0 && fld f 6 2 == 3 && isMX sf) = false := by
      cases ovr : bit f 0 with
      | true => rfl
      | false =>
        rw [Bool.not_false, Bool.true_and, Bool.and_eq_false_iff, beq_eq_false_iff_ne]
        exact or_iff_not_imp_left.mpr fun three => (direct ovr).2 (not_not.mp three)
    refine ⟨fun empty => run ?_, fun some' => ?_⟩
    · refine ok_then (coreOf_run c u) <| ok_then (illegalIf_ok source u) <| ok_then (illegalIf_ok chosen u) <| ok_then (illegalIf_ok keep u) ?_
      exact (congrFun (if_pos empty) u).trans (ok_then rfl (nextPC_run ..))
    · intro t
      refine run ?_
      have produced : (!bit f 0 && (isMX out.1 || !canProduce sf out.1)) = false := by
        cases ovr : bit f 0 with
        | true => rfl
        | false => rw [mx, (direct ovr).1]; rfl
      refine ok_then (coreOf_run c u) <| ok_then (illegalIf_ok source u) <| ok_then (illegalIf_ok chosen u) <| ok_then (illegalIf_ok keep u) ?_
      refine (congrFun (if_neg some') u).trans <| ok_then (trapIf_ok produced ..) <| ok_then (illegalIf_ok (by rw [destOk]; rfl) u) ?_
      refine ok_then (modV_run ..) <| ok_then (countConversion_run ..) <| (nextPC_run ..).trans ?_
      rw [State.modCore_modCore, State.core_modCore]
      rfl

end Sys2Proof.Machine
end

section
/-! CERTIFICATE. Vector loads, stores, gathers, scatters and structure accesses (05 R165 to R192). -/

namespace Sys2Proof.Machine

/-- A vector memory instruction whose elements have all been done goes to the next word, and is no longer resumed (05 R190). -/
theorem VMem.perform_run {m : VMem} {c : CoreId} {u u1 t : State} {resumed : Bool}
    (hr : resumed = ((u.core c).ex.afterRte && bit (u.core c).vec.vresume 24))
    (run : m.run c (m.ctx.vl - (if resumed then fld (u.core c).vec.vresume 0 11 else 0)) false u = .ok () u1)
    (ht : t = if resumed then u1.modCore c (fun k => { k with vec := { k.vec with vresume := setBit k.vec.vresume 24 false } }) else u1) :
    m.perform c u = .ok ((t.core c).pc + n64 4) t := by
  subst hr
  refine ok_then (coreOf_run c u) <| ok_then run ?_
  by_cases resumed : ((u.core c).ex.afterRte && bit (u.core c).vec.vresume 24) = true
  · rw [if_pos resumed] at ht
    subst ht
    exact (congrFun (if_pos resumed) u1).trans (ok_then (modV_run ..) (nextPC_run ..))
  · rw [if_neg resumed] at ht
    rw [ht]
    exact (congrFun (if_neg resumed) u1).trans (nextPC_run ..)

/-- Settles O28: the checks of each form pass, and its elements are then those of `VMem.run`. -/
theorem vectorMemoryComplete : Obligations.VectorMemoryComplete := by
  intro s u u1 c f m h k x base resumed t low mok run
  refine ⟨fun zero hm => ?_, fun iw hiw zero group apart hm => ?_, fun zero zero' many hm => ?_⟩
  · subst hm
    refine congrArg Host.Outcome.next (issue_done h rfl ?_ _)
    refine ok_then (coreOf_run c u) <| ok_then (illegalIf_ok ?_ u) (VMem.perform_run rfl run rfl)
    rw [zero, low, mok]
    rfl
  · subst hm hiw
    refine congrArg Host.Outcome.next (issue_done h rfl ?_ _)
    refine ok_then (coreOf_run c u) <| ok_then (illegalIf_ok ?_ u) <| ok_then (illegalIf_ok ?_ u) (VMem.perform_run rfl run rfl)
    · rw [zero, low, mok, group]
      rfl
    · cases store : bit f 11 with
      | true => rfl
      | false => exact apart store
  · subst hm
    refine congrArg Host.Outcome.next (issue_done h rfl ?_ _)
    refine ok_then (coreOf_run c u) <| ok_then (illegalIf_ok ?_ u) (VMem.perform_run rfl run rfl)
    have more : (fld f 10 2 + 1 == 1) = false := by
      rw [beq_eq_false_iff_ne]
      omega
    rw [zero, zero', low, mok, more]
    rfl

end Sys2Proof.Machine
end

section
/-! CERTIFICATE. TLD, TST, ZLD, ZST and a TLD's completion (03 R97 to R104, R113, R121, R122). -/

namespace Sys2Proof.Machine

theorem needTile_run {c : CoreId} (h : c.val < 128) (u : State) : needTile c u = .ok () u := by
  refine illegalIf_ok ?_ u
  rw [isCompute, decide_eq_true h]
  rfl

theorem queueRoom_run {c : CoreId} {u : State} (h : (u.core c).tile.queue.length < 16) : queueRoom c u = .ok () u :=
  ok_then rfl (waitIf_ok (decide_eq_false (Nat.not_le.mpr h)) u)

theorem waitFed_run {c : CoreId} {u : State} {reg : Nat} (h : (u.core c).tile.unfed reg (u.clkOf c) = false) : waitFed c reg u = .ok () u :=
  ok_then (op_get u) (waitIf_ok h u)

theorem modT_run (c : CoreId) (f : TileRegs → TileRegs) (u : State) : modT c f u = .ok () (u.modCore c (fun k => { k with tile := f k.tile })) := rfl

theorem enqueue_run (c : CoreId) (op : TileOp) (sem : Option Nat) (u : State) :
    enqueue c op sem u = .ok () (u.modCore c (fun k => k.queued op sem)) :=
  ok_then (pcOf_run c u) ((modC_run ..).trans (congrArg (EStateM.Result.ok ()) (u.modCore_congr c rfl)))

theorem Core.behind_of_empty {k : Core} (h : k.tile.queue.isEmpty = true) (op : TileOp) : k.behind op = k := if_pos (List.isEmpty_iff.mp h)

theorem Core.behind_of_queue {k : Core} (h : k.tile.queue.isEmpty = false) (op : TileOp) : k.behind op = k.queued op none :=
  if_neg fun empty => by rw [empty] at h; exact Bool.noConfusion h

theorem enqueueBehind_run (c : CoreId) (op : TileOp) (u : State) : enqueueBehind c op u = .ok () (u.modCore c (fun k => k.behind op)) := by
  refine ok_then (f := fun t : TileRegs => if t.queue.isEmpty then pure () else enqueue c op none) (x := tileOf c) (a := (u.core c).tile) rfl ?_
  cases h : (u.core c).tile.queue.isEmpty with
  | true =>
    rw [u.modCore_same c (Core.behind_of_empty h op)]
    rfl
  | false =>
    refine (enqueue_run ..).trans (congrArg (EStateM.Result.ok ()) (u.modCore_congr c (Core.behind_of_queue h op).symm))

theorem freshTile_run {c : CoreId} {u : State} {p : Nat} {ps : List Nat} (adding : (u.core c).tile.adding none = false)
    (pool : (u.core c).tile.pool = p :: ps) : freshTile c u = .ok p u := by
  refine ok_then (x := tileOf c) (a := (u.core c).tile) rfl <| ok_then (waitIf_ok adding u) ?_
  rw [pool]
  rfl

theorem eccErrors_run (c : CoreId) (es : List Bool) (u : State) : eccErrors c es u = .ok () (es.foldl (eccError c) u) := rfl

theorem tileMemOf_run {u : State} {c : CoreId} {p : Option (BitVec 26)} {isTld : Bool} {f : BitVec 26} (compute : c.val < 128) (low : fld f 0 7 = 0)
    (low' : fld (p.getD 0) 0 21 = 0) (conv : fld f 9 2 ≠ 3) (plain : isTld = false → fld f 9 2 = 0 ∧ bit f 11 = false) :
    tileMemOf c p isTld f u = .ok { reg := fld f 23 3, base := (u.core c).readA (fld f 19 4), stride := (u.core c).readA (fld f 15 4),
                                    sem := fld f 12 3, semen := bit f 11, conv := fld f 9 2, scv := bit (p.getD 0) 21,
                                    asc := (u.core c).readA (fld (p.getD 0) 22 4) } u := by
  refine ok_then (needTile_run compute u) <| ok_then (illegalIf_ok ?_ u) rfl
  rw [low, low', beq_eq_false_iff_ne.mpr conv]
  cases isTld with
  | true => rfl
  | false =>
    rw [(plain rfl).1, (plain rfl).2]
    rfl

/-- The end of a TLD: it stands in the queue while its unit is reserved or others are at work, and its register is loaded (03 R98, R102, R113). -/
theorem tldEnd_run (c : CoreId) (op : TileOp) (semen : Bool) (sem n : Nat) (f : TileRegs → TileRegs) {u t : State}
    (ht : t = (u.modCore c (fun k => if semen = true then k.queued op (some sem) else k.behind op)).modCore c (fun k => { k with tile := f k.tile })) :
    (do
      let q ← tileOf c
      if semen || !q.queue.isEmpty then enqueue c op (if semen then some sem else none)
      modT c f
      nextPC c n) u = .ok ((t.core c).pc + n64 n) t := by
  refine ok_then (x := tileOf c) (a := (u.core c).tile) rfl ?_
  cases semen with
  | true =>
    subst ht
    exact ok_then (enqueue_run ..) <| ok_then (modT_run ..) (nextPC_run ..)
  | false =>
    cases h : (u.core c).tile.queue.isEmpty with
    | true =>
      have same : u.modCore c (fun k => k.behind op) = u := u.modCore_same c (Core.behind_of_empty h op)
      rw [ht.trans (congrArg (fun s : State => s.modCore c _) same)]
      exact ok_then (modT_run ..) (nextPC_run ..)
    | false =>
      have same : u.modCore c (fun k => k.behind op) = u.modCore c (fun k => k.queued op none) := u.modCore_congr c (Core.behind_of_queue h op)
      rw [ht.trans (congrArg (fun s : State => s.modCore c _) same)]
      exact ok_then (enqueue_run ..) <| ok_then (modT_run ..) (nextPC_run ..)

/-- An accumulator tile of z's shape with rows of raw bytes as its contents (03 R99, R103). -/
def ZTile.loaded (z : ZTile) (rows : List (List Byte)) : ZTile :=
  { shape := setBit z.shape 26 false,
    data := (List.range z.nrows).flatMap (fun r => spFrom 0 (64 * r) ((List.range 64).map (fun n =>
      n64 (bitsOf (leNat (nth [] rows r)) (8 * z.ebytes * n) (8 * z.ebytes))))) }

/-- Settles O29. -/
theorem tileLoadsAndStoresComplete : Obligations.TileLoadsAndStoresComplete := by
  refine ⟨fun u c p isTld f compute low low' conv plain => tileMemOf_run compute low low' conv plain,
    fun s u u1 u2 c p hi lo m x h read => ?_, fun s u u1 c p hi lo ecc m h => ?_, fun s u u1 c hi lo m rows p ps h read => ?_,
    fun s c e rest p => ?_⟩
  · intro k t w room split mx aligned fed sem rows reserve u3
    refine congrArg Host.Outcome.next (issue_done h rfl ?_ _)
    have code : ((m.conv != 0 && t.code != 0) || (isMX t.code && !m.scv)) = false := by
      rw [Bool.or_eq_false_iff, Bool.and_eq_false_iff, Bool.and_eq_false_iff, bne_eq_false_iff_eq, bne_eq_false_iff_eq, Bool.not_eq_false',
        ← Bool.not_eq_true (isMX t.code)]
      exact ⟨or_iff_not_imp_left.mpr split, or_iff_not_imp_left.mpr fun h => mx (not_not.mp h)⟩
    have opened : (m.semen && bit w 32) = false := Bool.and_eq_false_iff.mpr (or_iff_not_imp_left.mpr fun h => (sem (Bool.eq_true_of_not_eq_false h)).1)
    have free : ¬(m.semen = true ∧ fld w 0 16 ≤ vget k.str.resv m.sem 0) := fun h => absurd (sem h.1).2 (Nat.not_lt.mpr h.2)
    refine ok_then read <| ok_then (queueRoom_run room) <| ok_then (x := tileOf c) (a := k.tile) rfl <| ok_then (trapIf_ok code ..) <|
      ok_then aligned <| ok_then (waitFed_run fed) <| ok_then (coreOf_run c u) <| ok_then (trapIf_ok opened ..) ?_
    refine (congrFun (if_neg free) u).trans <| ok_then rows <| ok_then reserve ?_
    exact tldEnd_run _ _ _ _ _ _ rfl
  · intro k t z u0 aligned
    refine ⟨fun read mx store => ?_, fun read store => ?_⟩
    · refine congrArg Host.Outcome.next (issue_done h rfl ?_ _)
      have code : (isMX t.code && !m.scv) = false := by
        rw [Bool.and_eq_false_iff, Bool.not_eq_false', ← Bool.not_eq_true (isMX t.code)]
        exact or_iff_not_imp_left.mpr fun h => mx (not_not.mp h)
      exact ok_then read <| ok_then (x := tileOf c) (a := k.tile) rfl <| ok_then (trapIf_ok code ..) <| ok_then aligned <|
        ok_then (eccErrors_run ..) <| ok_then store (nextPC_run ..)
    · refine congrArg Host.Outcome.next (issue_done h rfl ?_ _)
      exact ok_then read <| ok_then (x := tileOf c) (a := k.tile) rfl <| ok_then aligned <|
        ok_then (eccErrors_run ..) <| ok_then store (nextPC_run ..)
  · intro k z room aligned adding pool rows'
    refine ⟨z.loaded rows, congrArg Host.Outcome.next (issue_done h rfl ?_ _), rfl, rfl⟩
    refine ok_then read <| ok_then (queueRoom_run room) <| ok_then (x := tileOf c) (a := k.tile) rfl <| ok_then aligned <|
      ok_then (freshTile_run adding pool) <| ok_then rows' <| ok_then (x := tileOf c) (a := (u1.core c).tile) rfl <|
      ok_then (enqueueBehind_run ..) <| ok_then (modT_run ..) <| (nextPC_run ..).trans ?_
    rw [State.modCore_modCore]
    exact congrArg (fun t : State => EStateM.Result.ok ((t.core c).pc + n64 4) t) (u1.modCore_congr c rfl)
  · intro v queue sem run op
    have done : ({ e with sem := none } : TileEntry).complete = true := by
      obtain ⟨reg, old, op⟩ | ⟨b, op⟩ := op
      all_goals
        unfold TileEntry.complete
        rw [op]
        rfl
    have ready : (({ e with sem := none } : TileEntry).complete && (v.core c).ex.run != .halted) = true := by
      rw [done, bne_iff_ne.mpr run]
      rfl
    change execTldComplete c s = _
    unfold execTldComplete
    dsimp only
    rw [queue]
    dsimp only
    rw [sem]
    dsimp only
    rw [if_pos ready]
    refine congrArg (fun t => Host.Outcome.next (stepDone t c)) (v.modCore_congr c ?_)
    dsimp only [Core.modPair]
    rw [queue]

end Sys2Proof.Machine
end

section
/-! CERTIFICATE. TCFG, TLW, TMMA4, TSTZ and the tile engine's events (02 R39 to R72; 03 R89 to R117). -/

namespace Sys2Proof.Machine

/-! ### ECC errors of the tile state -/

/-- Nothing but TU_STAT and what a machine check leaves pending differs (03 R84). -/
def Core.EccOnly (k k' : Core) : Prop := ∃ tustat xpend mcInfo,
  k' = { k with tile := { k.tile with tustat := tustat }, rr := { k.rr with xpend := xpend, mcInfo := mcInfo } }

theorem Core.EccOnly.trans {a b d : Core} (h : a.EccOnly b) (g : b.EccOnly d) : a.EccOnly d := by
  obtain ⟨_, _, _, rfl⟩ := h
  obtain ⟨_, _, _, rfl⟩ := g
  exact ⟨_, _, _, rfl⟩

theorem State.LedOnly.core {s t : State} (h : s.LedOnly t) (d : CoreId) : t.core d = s.core d := by
  obtain ⟨_, _, _, rfl⟩ := h
  rfl

theorem State.LedOnly.mem {s t : State} (h : s.LedOnly t) : t.mem = s.mem := by
  obtain ⟨_, _, _, rfl⟩ := h
  rfl

theorem machineCheck_ledOnly (s : State) (c : CoreId) (source addr : Nat) : (s.modCore c (fun k => { k with rr := { k.rr with
    xpend := setBit k.rr.xpend 4 true, mcInfo := n64 (source + addr % 2 ^ 56 * 256) } })).LedOnly (machineCheck s c source addr) := by
  unfold machineCheck
  exact State.LedOnly.trans ⟨_, _, _, rfl⟩ (State.earlyVote_ledOnly _)

theorem eccError_only (c : CoreId) (s : State) (double : Bool) :
    (eccError c s double).mem = s.mem ∧ (s.core c).EccOnly ((eccError c s double).core c) := by
  cases double with
  | true =>
    have only := machineCheck_ledOnly (s.modCore c (fun k => { k with tile := { k.tile with tustat := setBit k.tile.tustat 1 true } })) c 1 0
    have core := only.core c
    rw [State.core_modCore, State.core_modCore] at core
    exact ⟨only.mem, _, _, _, core⟩
  | false =>
    refine ⟨rfl, ?_⟩
    exact ⟨_, _, _, s.core_modCore c (fun k => { k with tile := { k.tile with tustat := bumpField k.tile.tustat 16 1 } })⟩

theorem eccErrors_only (c : CoreId) (es : List Bool) (s : State) :
    (es.foldl (eccError c) s).mem = s.mem ∧ (s.core c).EccOnly ((es.foldl (eccError c) s).core c) := by
  induction es generalizing s with
  | nil => exact ⟨rfl, _, _, _, rfl⟩
  | cons e es ih =>
    obtain ⟨mem, only⟩ := eccError_only c s e
    obtain ⟨mem', only'⟩ := ih (eccError c s e)
    exact ⟨mem'.trans mem, only.trans only'⟩

/-! ### Feeding -/

/-- What feeding does at one entry of the queue: the fold of `TileRegs.schedule`. -/
def feedStep (t : TileRegs) (base : Nat) (a : TileRegs × FeedAt) (e : TileEntry) : TileRegs × FeedAt :=
  let keep (g : FeedAt) (e : TileEntry) : TileRegs × FeedAt := ({ a.1 with queue := a.1.queue ++ [e] }, g)
  match e.op with
  | .tld r _ => keep (if e.sem.isSome then { a.2 with pend := r :: a.2.pend } else a.2) e
  | .tlw _ d => keep { a.2 with ok := a.2.ok && d } e
  | .tmma x =>
    if x.fed then keep (a.2.after x) e
    else if a.2.ok && !a.2.pend.any (fun r => decide (r / 4 = b01 x.tg)) then
      let n := if x.rep then e.cnt else a.1.count
      let y := (x.place t.arrays n (max base t.pathAt) a.2).1
      ({ a.1 with queue := a.1.queue ++ [{ e with op := .tmma y, cnt := n }], count := n + 4 }, a.2.after y)
    else keep { a.2 with ok := false } e
  | _ => keep a.2 e

theorem schedule_eq (t : TileRegs) (base : Nat) (gate : Bool) : t.schedule base gate =
    (t.queue.foldl (feedStep t base) ({ t with queue := [] }, { arr := t.feedAt, ok := gate, done0 := 0, done1 := 0, pend := [] })).1 := rfl

theorem Tmma.place_feeds (x : Tmma) (as : List Nat) (count base : Nat) (g : FeedAt) :
    ∃ feeds, (x.place as count base g).1 = { x with feeds := feeds } := by
  refine State.foldl_rel (R := fun a b : Tmma × Vector Nat 4 => ∃ feeds, b.1 = { a.1 with feeds := feeds }) (fun b => ⟨_, rfl⟩) ?_ ?_ _ (x, g.arr)
  · rintro a b d ⟨_, h⟩ ⟨_, h'⟩
    rw [h] at h'
    exact ⟨_, h'⟩
  · exact fun a q => ⟨_, rfl⟩

/-- An entry that feeding leaves of another: the same instruction, a TMMA4 with its feeds. -/
def TileEntry.Fed (e e' : TileEntry) : Prop := e'.pc = e.pc ∧ ∀ x, e.op = .tmma x → ∃ feeds, e'.op = .tmma { x with feeds := feeds }

/-- The registers and tiles that feeding leaves as they are. -/
def TileRegs.SameTiles (a b : TileRegs) : Prop := b.t = a.t ∧ b.z = a.z ∧ b.zmap = a.zmap ∧ b.w = a.w

theorem feedStep_queue (t : TileRegs) (base : Nat) (a : TileRegs × FeedAt) (e : TileEntry) :
    a.1.SameTiles (feedStep t base a e).1 ∧ ∃ e', (feedStep t base a e).1.queue = a.1.queue ++ [e'] ∧ e.Fed e' := by
  have same : e.Fed e := ⟨rfl, fun x h => ⟨x.feeds, h⟩⟩
  unfold feedStep
  dsimp only
  split
  · exact ⟨⟨rfl, rfl, rfl, rfl⟩, e, rfl, same⟩
  · exact ⟨⟨rfl, rfl, rfl, rfl⟩, e, rfl, same⟩
  next x op =>
    split
    · exact ⟨⟨rfl, rfl, rfl, rfl⟩, e, rfl, same⟩
    · split
      · refine ⟨⟨rfl, rfl, rfl, rfl⟩, _, rfl, rfl, fun y h => ?_⟩
        obtain rfl : x = y := TileOp.tmma.inj (op.symm.trans h)
        obtain ⟨feeds, placed⟩ := x.place_feeds t.arrays (if x.rep = true then e.cnt else a.1.count) (max base t.pathAt) a.2
        exact ⟨feeds, congrArg TileOp.tmma placed⟩
      · exact ⟨⟨rfl, rfl, rfl, rfl⟩, e, rfl, same⟩
  · exact ⟨⟨rfl, rfl, rfl, rfl⟩, e, rfl, same⟩

theorem feedSteps_length (t : TileRegs) (base : Nat) (q : List TileEntry) (a : TileRegs × FeedAt) :
    a.1.SameTiles (q.foldl (feedStep t base) a).1 ∧ (q.foldl (feedStep t base) a).1.queue.length = a.1.queue.length + q.length := by
  induction q generalizing a with
  | nil => exact ⟨⟨rfl, rfl, rfl, rfl⟩, rfl⟩
  | cons e q ih =>
    obtain ⟨⟨ht, hz, hm, hw⟩, e', queue, -⟩ := feedStep_queue t base a e
    obtain ⟨⟨ht', hz', hm', hw'⟩, length⟩ := ih (feedStep t base a e)
    refine ⟨⟨ht'.trans ht, hz'.trans hz, hm'.trans hm, hw'.trans hw⟩, length.trans ?_⟩
    rw [queue, List.length_append, List.length_singleton, List.length_cons, Nat.add_right_comm, Nat.add_assoc]

/-- Feeding keeps the youngest instruction of the queue the youngest, and the queue as long as it was. -/
theorem schedule_last {t : TileRegs} {q : List TileEntry} {e : TileEntry} (h : t.queue = q ++ [e]) (base : Nat) (gate : Bool) :
    t.SameTiles (t.schedule base gate) ∧ (t.schedule base gate).queue.length = q.length + 1 ∧
      ∃ e', (t.schedule base gate).queue.getLast? = some e' ∧ e.Fed e' := by
  rw [schedule_eq, h, List.foldl_append]
  obtain ⟨⟨ht, hz, hm, hw⟩, length⟩ := feedSteps_length t base q
    ({ t with queue := [] }, { arr := t.feedAt, ok := gate, done0 := 0, done1 := 0, pend := [] })
  obtain ⟨⟨ht', hz', hm', hw'⟩, e', queue, fed⟩ := feedStep_queue t base (q.foldl (feedStep t base)
    ({ t with queue := [] }, { arr := t.feedAt, ok := gate, done0 := 0, done1 := 0, pend := [] })) e
  refine ⟨⟨ht'.trans ht, hz'.trans hz, hm'.trans hm, hw'.trans hw⟩, ?_, e', ?_, fed⟩
  · rw [List.foldl_cons, List.foldl_nil, queue, List.length_append, length, List.length_singleton]
    exact congrArg (· + 1) (Nat.zero_add _)
  · rw [List.foldl_cons, List.foldl_nil, queue, List.getLast?_append, List.getLast?_singleton]
    rfl

/-! ### Checks -/

theorem needArray_run {c : CoreId} {u : State} (h : (u.core c).tile.inuse ≠ 0) : needArray c u = .ok () u :=
  ok_then (x := tileOf c) (a := (u.core c).tile) rfl ((congrFun (if_neg h) u).trans rfl)

theorem freeBuf_run {c : CoreId} {u : State} {b : Nat} (h : (List.range 2).find? (fun b => (vget (u.core c).tile.bufs b none).isNone) = some b) :
    freeBuf c u = .ok b u := by
  refine ok_then (x := tileOf c) (a := (u.core c).tile) rfl ?_
  rw [h]
  rfl

theorem tlw_format {wf exp : Nat} (h : wf < 0xC) (expands : exp ≠ 0 → wf = 0 ∨ wf = 2 ∨ wf = 3) :
    (decide (0xC ≤ wf) || (exp != 0 && !(wf == 0 || wf == 2 || wf == 3))) = false := by
  rw [decide_eq_false (Nat.not_le.mpr h), Bool.false_or, Bool.and_eq_false_iff, bne_eq_false_iff_eq]
  refine or_iff_not_imp_left.mpr fun some' => ?_
  obtain rfl | rfl | rfl := expands some'
  all_goals rfl

theorem tstz_shape {can mx : Bool} {split fmt layout bits rows : Nat} (produce : can = true) (hi : split ≠ 0 → fmt = 0)
    (one : layout = 1 → bits ≠ 64 ∧ (mx = true → rows % 32 = 0)) (two : layout = 2 → rows % 64 = 0) :
    (!can || (split != 0 && fmt != 0) || (layout == 1 && bits == 64) || (layout == 1 && mx && rows % 32 != 0) ||
      (layout == 2 && rows % 64 != 0)) = false := by
  simp only [Bool.or_eq_false_iff, Bool.and_eq_false_iff, Bool.not_eq_false', bne_eq_false_iff_eq, beq_eq_false_iff_ne]
  cases mx with
  | true => exact ⟨⟨⟨⟨produce, by omega⟩, by tauto⟩, by tauto⟩, by omega⟩
  | false => exact ⟨⟨⟨⟨produce, by omega⟩, by tauto⟩, .inl (.inr rfl)⟩, by omega⟩

theorem Core.accTask_numbers (k : Core) (tile : TileRegs) (num : NumRegs) : Core.accTask { k with tile := tile, num := num } = k.accTask := rfl

/-- TSTZ's records of what it converted: TAMAX, NLAST and the counter sets (03 R117, 04 R154 to R156). -/
theorem tstzEnd_run (c : CoreId) (x : Counts) (fmt cls chan n : Nat) {u t : State} (ht : t = addCounts (u.modCore c (fun k => { k with
      tile := { k.tile with tamax := n64 (x.amax.toNat + chan <<< 32 + 1 <<< 38) },
      num := { k.num with nlast := nlastWord x fmt cls chan } })) c (u.core c).accTask chan fmt x) :
    (do
      modT c (fun t => { t with tamax := n64 (x.amax.toNat + chan <<< 32 + 1 <<< 38) })
      countConversion c x fmt cls chan
      nextPC c n) u = .ok ((t.core c).pc + n64 n) t := by
  have both (tamax nlast : U64) : (u.modCore c (fun k => { k with tile := { k.tile with tamax := tamax } })).modCore c
      (fun k => { k with num := { k.num with nlast := nlast } }) =
      u.modCore c (fun k => { k with tile := { k.tile with tamax := tamax }, num := { k.num with nlast := nlast } }) := u.modCore_modCore c _ _
  refine ok_then (modT_run ..) <| ok_then (countConversion_run ..) <| (nextPC_run ..).trans ?_
  rw [both, State.core_modCore, Core.accTask_numbers, ht]

theorem headTmma_eq {k : Core} {e : TileEntry} {x : Tmma} {rest : List TileEntry} (queue : k.tile.queue = e :: rest) (op : e.op = .tmma x) :
    k.headTmma = some (e, x, rest) := by
  unfold Core.headTmma
  rw [queue]
  dsimp only
  rw [op]

/-! ### TMMA4 -/

/-- A retired core with tile instructions at work does not halt after a step (06 R253, R254). -/
theorem State.done_of_queue {u : State} {c : CoreId} (queue : (u.core c).tile.queue ≠ []) (n : Nat) :
    u.done c n = u.modCore c (fun k => k.retired ((u.core c).pc + n64 n) u.now) := by
  have work : ((u.core c).retired ((u.core c).pc + n64 n) u.now).tile.queue.isEmpty = false := by
    rw [((u.core c).retired_sameRegs _ _).tile]
    exact Bool.eq_false_iff.mpr (mt List.isEmpty_iff.mp queue)
  rw [State.done, retire_eq, stepDone, u.core_modCore c (fun k => k.retired ((u.core c).pc + n64 n) u.now), work, Bool.and_false]
  rfl

/-- The state after a TMMA4 has been put in the queue and what may be fed is fed (02 R70, R71; 03 R113). -/
def State.accepted (u : State) (c : CoreId) (x : Tmma) : State :=
  (u.modCore c (fun k => k.queued (.tmma x) none)).modCore c (fun k => { k with tile := k.tile.schedule (u.clkOf c) (u.gateOpen c) })

/-- The arrays count as fed where the youngest instruction is (14 R527). -/
def State.countFed (t : State) (c : CoreId) : State := if (t.core c).tile.lastFed then feedArrays t c else t

theorem State.countFed_same (t : State) (c : CoreId) : (t.countFed c).mem = t.mem ∧ (t.countFed c).core c = t.core c := by
  unfold countFed
  split
  · exact ⟨rfl, rfl⟩
  · exact ⟨rfl, rfl⟩

theorem exec_tmma4 {s u : State} {c : CoreId} {f : BitVec 26} (h : s.issued c .tile = some u) (compute : c.val < 128) (zero : fld f 0 22 = 0)
    (room : (u.core c).tile.queue.length < 16) (inuse : (u.core c).tile.inuse ≠ 0) (us : List Upset)
    (ok : tmmaOk (u.core c).tile (u.core c).tile.weights (bit f 25) (bit f 24) = true) : exec (.tmma4 c f us) s =
    .next (((eccOf us).foldl (eccError c) ((u.accepted c ((u.core c).tile.accept f us (u.clkOf c))).countFed c)).done c 4) := by
  have pairs : (!tmmaOk (u.core c).tile (u.core c).tile.weights (bit f 25) (bit f 24)) = false := by
    rw [ok]
    rfl
  refine congrArg Host.Outcome.next (issue_done h rfl ?_ _)
  refine ok_then (needTile_run compute u) <| ok_then (illegalIf_ok (bne_eq_false_iff_eq.mpr zero) u) <| ok_then (queueRoom_run room) <|
    ok_then (needArray_run inuse) <| ok_then (op_get u) <| ok_then (trapIf_ok pairs _ _ _ u) ?_
  exact ok_then (enqueue_run ..) <| ok_then (modT_run ..) <| ok_then (op_modify ..) <| ok_then (eccErrors_run ..) (nextPC_run ..)

theorem State.accepted_core (u : State) (c : CoreId) (x : Tmma) : (u.accepted c x).core c =
    { (u.core c).queued (.tmma x) none with tile := ((u.core c).queued (.tmma x) none).tile.schedule (u.clkOf c) (u.gateOpen c) } := by
  unfold accepted
  rw [core_modCore, core_modCore]

/-- Settles O30. -/
theorem tileComputeComplete : Obligations.TileComputeComplete := by
  refine ⟨fun s u c f h compute zero => ?_, fun s u u1 u2 u3 c f b bs par h compute => ?_, fun s c ecc q b => ?_,
    fun s u c f us h compute zero => ?_, fun s c e x rest run => ?_, fun s u u1 c p f ecc rows x h compute => ?_⟩
  · intro w i
    refine ⟨fun z shape => ?_, fun t shape => ?_⟩
    · refine congrArg Host.Outcome.next (issue_done h rfl ?_ _)
      refine ok_then (needTile_run compute u) <| ok_then (illegalIf_ok (bne_eq_false_iff_eq.mpr zero) u) <| ok_then (rdD_run ..) ?_
      refine (congrFun (if_pos z) u).trans <| ok_then (trapIf_ok (by rw [shape]; rfl) ..) <| ok_then (modT_run ..) (nextPC_run ..)
    · refine congrArg Host.Outcome.next (issue_done h rfl ?_ _)
      refine ok_then (needTile_run compute u) <| ok_then (illegalIf_ok (bne_eq_false_iff_eq.mpr zero) u) <| ok_then (rdD_run ..) ?_
      refine (congrFun (if_neg (Bool.eq_false_iff.mp t)) u).trans <| ok_then (trapIf_ok (by rw [shape]; rfl) ..) <|
        ok_then (modT_run ..) (nextPC_run ..)
  · intro k exp wf side low known room inuse format expands aligned aligned' free reserve weights params w
    refine congrArg Host.Outcome.next (issue_done h rfl ?_ _)
    have exp3 : (fld f 0 6 != 0 || exp == 3) = false := by
      rw [low, beq_eq_false_iff_ne.mpr known]
      rfl
    have ac : (side != 0 && (k.readA (fld f 18 4)).toNat % 64 != 0) = false := by
      rw [Bool.and_eq_false_iff, bne_eq_false_iff_eq, bne_eq_false_iff_eq]
      exact or_iff_not_imp_left.mpr aligned'
    refine ok_then (needTile_run compute u) <| ok_then (illegalIf_ok exp3 u) <| ok_then (queueRoom_run room) <|
      ok_then (needArray_run inuse) <| ok_then (trapIf_ok (tlw_format format expands) ..) <| ok_then (rdA_run ..) <| ok_then (rdA_run ..) <|
      ok_then (trapIf_ok (bne_eq_false_iff_eq.mpr aligned) ..) <| ok_then (trapIf_ok ac ..) <| ok_then (freeBuf_run free) <|
      ok_then reserve <| ok_then weights <| ok_then params <| ok_then (x := tileOf c) (a := (u3.core c).tile) rfl <|
      ok_then (modT_run ..) <| ok_then (enqueue_run ..) <| (nextPC_run ..).trans ?_
    rw [State.modCore_modCore]
  · intro v w0 first gate run t
    have go : (v.gateOpen c && (v.core c).ex.run != .halted) = true := by
      rw [gate, bne_iff_ne.mpr run]
      rfl
    change execTlwDelivery ⟨c, ecc⟩ s = _
    unfold execTlwDelivery
    dsimp only
    rw [first]
    dsimp only
    exact congrArg Host.Outcome.next (if_pos go)
  · intro k g live room inuse ok
    let x := k.tile.accept f us (u.clkOf c)
    obtain ⟨⟨ht, hz, hm, hw⟩, length, e, last, pc, op⟩ :=
      schedule_last (t := (k.queued (.tmma x) none).tile) (q := k.tile.queue) rfl (u.clkOf c) (u.gateOpen c)
    obtain ⟨feeds, op⟩ := op x rfl
    obtain ⟨fedMem, fedCore⟩ := (u.accepted c x).countFed_same c
    obtain ⟨mem, tustat, xpend, mcInfo, core⟩ := eccErrors_only c (eccOf us) ((u.accepted c x).countFed c)
    rw [fedCore, u.accepted_core c x] at core
    have queue : (((eccOf us).foldl (eccError c) ((u.accepted c x).countFed c)).core c).tile.queue ≠ [] := by
      rw [core]
      exact List.ne_nil_of_length_eq_add_one length
    have retired := congrArg (fun t : State => t.core c) (State.done_of_queue queue 4)
    rw [State.core_modCore] at retired
    have regs := Core.retired_sameRegs (((eccOf us).foldl (eccError c) ((u.accepted c x).countFed c)).core c)
      ((((eccOf us).foldl (eccError c) ((u.accepted c x).countFed c)).core c).pc + n64 4) ((eccOf us).foldl (eccError c) ((u.accepted c x).countFed c)).now
    rw [← retired] at regs
    have tile := regs.tile
    rw [core] at tile
    refine ⟨_, e, { x with feeds := feeds }, exec_tmma4 h compute zero room inuse us ok, ?_, ?_, pc, op, rfl, rfl, rfl, rfl, rfl, rfl, rfl,
      ?_, ?_, ?_, ?_, ?_, ?_, ?_, ?_⟩
    · rw [tile]
      exact length
    · rw [tile]
      exact last
    · rw [tile]
      exact ht
    · rw [tile]
      exact hz
    · rw [tile]
      exact hm
    · rw [tile]
      exact hw
    · rw [retired, Core.retired_pc, core]
      rfl
    · rw [regs.d, core]
      rfl
    · rw [regs.a, core]
      rfl
    · rw [State.done_of_queue queue]
      exact mem.trans fedMem
  · intro v fs y t1 t queue op fed run'
    have start : (if (s.core c).ex.run == .halted then s else toDone (toDone (tileSync s c) c) c) = v := if_neg (mt beq_iff_eq.mp run)
    have go : (x.fed && (v.core c).ex.run != .halted) = true := by
      rw [fed, bne_iff_ne.mpr run']
      rfl
    have body : exec (.tmma4Complete c) s = .next (
        if y.isSome && bit (t.core c).tile.mgctl 8 then raiseSync (discardTiles t c) c 0x15 0 (t.core c).tile.mgpc (e.pc + 4)
        else if (t.core c).tile.inuse = 0 then
          (match (t.core c).tile.queue with
           | n :: _ => (discardTiles t c).modCore c (fun k => k.setBank (fun b => { b with pc := n.pc }))
           | [] => stepDone t c)
        else stepDone (tileSync t c) c) := by
      change execTmma4Complete c s = _
      unfold execTmma4Complete
      dsimp only
      rw [start, headTmma_eq queue op]
      dsimp only
      exact congrArg Host.Outcome.next (if_pos go)
    have keep (h : y = none ∨ bit (t.core c).tile.mgctl 8 = false) : ¬(y.isSome && bit (t.core c).tile.mgctl 8) = true := by
      obtain none' | zero := h
      · rw [none']
        exact Bool.false_ne_true
      · rw [zero, Bool.and_false]
        exact Bool.false_ne_true
    refine ⟨fun h arrays => ?_, fun h arrays => ⟨fun empty => ?_, fun n r more => ?_⟩, fun h trap => ?_⟩
    · rw [body, if_neg (keep h), if_neg arrays]
    · rw [body, if_neg (keep h), if_pos arrays, empty]
    · rw [body, if_neg (keep h), if_pos arrays, more]
    · rw [body, if_pos]
      rw [trap, Option.isSome_iff_ne_none.mpr h]
      rfl
  · intro k u0 hd layout z cls src out chan scales ab stride asc elem lines cnt low low' layout3 split3 produce split one two alignB alignS alignC hx hrows
      store u2
    refine congrArg Host.Outcome.next (issue_done h rfl ?_ _)
    have form : (fld f 0 11 != 0 || fld hd 0 3 != 0 || layout == 3 || fld hd 7 2 == 3) = false := by
      rw [low, low', beq_eq_false_iff_ne.mpr layout3, beq_eq_false_iff_ne.mpr split3]
      rfl
    have shape : (!canProduce src out.1 || (fld hd 7 2 != 0 && out.1 != 0) || (layout == 1 && codeBits out.1 == 64)
        || (layout == 1 && isMX out.1 && z.nrows % 32 != 0) || (layout == 2 && z.nrows % 64 != 0)) = false := tstz_shape produce split one two
    have asc' : (scales && asc.toNat % 4 != 0) = false := by
      rw [Bool.and_eq_false_iff, bne_eq_false_iff_eq]
      exact or_iff_not_imp_left.mpr fun h => alignC (Bool.eq_true_of_not_eq_false h)
    refine ok_then (needTile_run compute u) <| ok_then (illegalIf_ok form u) <| ok_then (coreOf_run c u) <| ok_then (trapIf_ok shape ..) <|
      ok_then (rdA_run ..) <| ok_then (rdA_run ..) <| ok_then (rdA_run ..) <| ok_then (trapIf_ok (bne_eq_false_iff_eq.mpr alignB) ..) <|
      ok_then (trapIf_ok (bne_eq_false_iff_eq.mpr alignS) ..) <| ok_then (trapIf_ok asc' ..) ?_
    rw [hrows, ← List.length_map (as := lines) x.line] at store
    subst hx
    refine ok_then (eccErrors_run ..) <| ok_then (op_get u0) <| ok_then (useFree_run ..) ?_
    exact ok_then store (tstzEnd_run c cnt out.1 cls chan _ rfl)

end Sys2Proof.Machine
end

section
/-! CERTIFICATE. TZERO, TMOV and ZMOV (03 R84, R113, R120 to R122). -/

namespace Sys2Proof.Machine

/-- The end of a tile move: it stands in the queue behind others, and its effect is made (03 R113). -/
theorem moveEnd_run (c : CoreId) (op : TileOp) (g : TileRegs → TileRegs) {u t : State}
    (ht : t = u.modCore c (fun k => { k.behind op with tile := g (k.behind op).tile })) :
    (enqueueBehind c op >>= fun _ => modT c g >>= fun _ => nextPC c 4) u = .ok ((t.core c).pc + n64 4) t := by
  have both : (u.modCore c (fun k => k.behind op)).modCore c (fun k => { k with tile := g k.tile }) =
      u.modCore c (fun k => { k.behind op with tile := g (k.behind op).tile }) := u.modCore_modCore c _ _
  refine ok_then (enqueueBehind_run ..) <| ok_then (modT_run ..) <| (nextPC_run ..).trans ?_
  rw [both, ht]

/-- Settles O31: the checks of each form pass, and its body is its end. -/
theorem tileMovesComplete : Obligations.TileMovesComplete := by
  intro s u c f h compute zero k dst src td ts zd zs phys put room
  have form {b : Bool} (hb : b = false) : (fld f 0 17 != 0 || false || b) = false := by
    rw [zero, hb]
    rfl
  refine ⟨fun src0 fed => ?_, fun src0 adding => ?_, fun ecc shape loaded fed => ?_, fun ecc p ps rows fmt adding pool => ?_⟩
  · refine congrArg Host.Outcome.next (issue_done h rfl ?_ _)
    refine ok_then (needTile_run compute u) <| ok_then (illegalIf_ok (form (bne_eq_false_iff_eq.mpr src0)) u) <| ok_then (queueRoom_run room) <|
      ok_then (x := tileOf c) (a := k.tile) rfl <| ok_then (waitFed_run fed) (moveEnd_run _ _ _ rfl)
  · refine congrArg Host.Outcome.next (issue_done h rfl ?_ _)
    refine ok_then (needTile_run compute u) <| ok_then (illegalIf_ok (form (bne_eq_false_iff_eq.mpr src0)) u) <| ok_then (queueRoom_run room) <|
      ok_then (x := tileOf c) (a := k.tile) rfl <| ok_then (waitIf_ok adding u) (moveEnd_run _ _ _ rfl)
  · refine congrArg Host.Outcome.next (issue_done h rfl ?_ _)
    refine ok_then (needTile_run compute u) <| ok_then (illegalIf_ok (form rfl) u) <| ok_then (queueRoom_run room) <|
      ok_then (x := tileOf c) (a := k.tile) rfl <| ok_then (trapIf_ok (bne_eq_false_iff_eq.mpr shape) ..) <|
      ok_then (x := waitLoaded c src) (a := ()) (t := u) (ok_then (x := tileOf c) (a := k.tile) rfl (waitIf_ok loaded u)) <|
      ok_then (waitFed_run fed) <| ok_then (eccErrors_run ..) (moveEnd_run _ _ _ rfl)
  · have shape : (zs.nrows != zd.nrows || zs.zfmt != zd.zfmt) = false := by
      rw [rows, fmt, bne_self_eq_false, bne_self_eq_false]
      rfl
    refine congrArg Host.Outcome.next (issue_done h rfl ?_ _)
    refine ok_then (needTile_run compute u) <| ok_then (illegalIf_ok (form rfl) u) <| ok_then (queueRoom_run room) <|
      ok_then (x := tileOf c) (a := k.tile) rfl <| ok_then (trapIf_ok shape ..) <| ok_then (freshTile_run adding pool) <|
      ok_then (eccErrors_run ..) (moveEnd_run _ _ _ rfl)

end Sys2Proof.Machine
end

section
/-! CERTIFICATE. SSTART, SRESUME, SCANCEL, SWAIT and SWAITB (09 R336 to R340, R355 to R357). -/

namespace Sys2Proof.Machine

theorem modE_run (c : CoreId) (e : Nat) (f : StreamEng → StreamEng) (u : State) : modE c e f u = .ok () (u.modCore c (fun k => k.modEng e f)) := rfl

theorem engOf_run (c : CoreId) (e : Nat) (u : State) : engOf c e u = .ok ((u.core c).eng e) u := rfl

/-- The ring may name the stream of an engine that is IDLE or whose stream is of its own or an outer ring (09 R357). -/
theorem engRing_run {c : CoreId} {e : Nat} {u : State}
    (h : fld ((u.core c).eng e).stat 0 2 = 0 ∨ (u.core c).ring ≤ fld ((u.core c).eng e).stat 2 2) : engRing c e u = .ok () u := by
  refine ok_then (coreOf_run c u) (trapIf_ok ?_ ..)
  rw [Bool.and_eq_false_iff, decide_eq_false_iff_not, decide_eq_false_iff_not]
  exact h.imp not_not.mpr Nat.not_lt.mpr

theorem needRing_run {c : CoreId} {maxRing : Nat} {info : U64} {u : State} (h : (u.core c).ring ≤ maxRing) : needRing c maxRing info u = .ok () u :=
  ok_then (ringOf_run c u) (trapIf_ok (decide_eq_false (Nat.not_lt.mpr h)) ..)

theorem streamForm {c : CoreId} {n : Nat} (compute : isCompute c = true) (zero : n = 0) : (!isCompute c || n != 0) = false := by
  rw [compute, zero]
  rfl

/-- What SWAITB answers (09 R339). -/
theorem blockDone_iff {b : Nat} {x : StreamEng} :
    (decide (b < x.nblk) && bit x.stat 48 && !(fld x.stat 0 2 == 0 && fld x.stat 7 2 == 2) && decide (b ≤ fld x.stat 32 16)) = true ↔
      b < x.nblk ∧ bit x.stat 48 = true ∧ ¬(fld x.stat 0 2 = 0 ∧ fld x.stat 7 2 = 2) ∧ b ≤ fld x.stat 32 16 := by
  rw [Bool.and_eq_true, Bool.and_eq_true, Bool.and_eq_true, decide_eq_true_iff, decide_eq_true_iff, Bool.not_eq_true', ← Bool.not_eq_true,
    Bool.and_eq_true, beq_iff_eq, beq_iff_eq, and_assoc, and_assoc]

/-- SSTART of a list that is turned away (09 R336, R340). -/
theorem rejected_run (c : CoreId) (e : Nat) (g : StreamEng → StreamEng) (reason dd : Nat) (u : State) :
    (modE c e g >>= fun _ => modify (fun s => endStream s c e 2 reason) >>= fun _ => wrD c dd 2 >>= fun _ => nextPC c 4) u =
      .ok ((((endStream (u.modCore c (fun k => k.modEng e g)) c e 2 reason).modCore c (fun k => k.writeD dd 2)).core c).pc + n64 4)
        ((endStream (u.modCore c (fun k => k.modEng e g)) c e 2 reason).modCore c (fun k => k.writeD dd 2)) := rfl

/-- SWAITB once it need not wait any longer (09 R339). -/
theorem swaitb_run {c : CoreId} {e r b : Nat} {u : State} {x : StreamEng} {done : Bool} (dd : Nat) (hx : (u.core c).eng e = x)
    (hb : ((u.core c).readD r).toNat = b)
    (hd : (decide (b < x.nblk) && bit x.stat 48 && !(fld x.stat 0 2 == 0 && fld x.stat 7 2 == 2) && decide (b ≤ fld x.stat 32 16)) = done)
    (go : (bit x.stat 0 && !done && decide (b < x.nblk)) = false) :
    (do
      let x ← engOf c e
      let b := (← rdD c r).toNat
      let done := decide (b < x.nblk) && bit x.stat 48 && !(fld x.stat 0 2 == 0 && fld x.stat 7 2 == 2) && decide (b ≤ fld x.stat 32 16)
      let running := bit x.stat 0
      waitIf (running && !done && decide (b < x.nblk))
      wrD c dd (n64 (b01 done))
      nextPC c 4) u =
      .ok (((u.modCore c (fun k => k.writeD dd (n64 (b01 done)))).core c).pc + n64 4) (u.modCore c (fun k => k.writeD dd (n64 (b01 done)))) := by
  refine ok_then (engOf_run ..) <| ok_then (rdD_run ..) ?_
  rw [hx, hb, hd]
  exact ok_then (waitIf_ok go u) <| ok_then (wrD_run ..) (nextPC_run ..)

/-- Settles O32. -/
theorem streamInstructionsComplete : Obligations.StreamInstructionsComplete := by
  intro s u c f h compute k e x may
  have ring : engRing c e u = .ok () u := engRing_run may
  refine ⟨fun low => ⟨fun busy => ?_, fun idle => ?_⟩, fun low => ⟨fun inner => ?_, ?_⟩, fun low stopped => ?_, fun low => ?_⟩
  · refine congrArg Host.Outcome.next (issue_done h rfl ?_ _)
    refine ok_then (illegalIf_ok (streamForm compute low) u) <| ok_then ring <| ok_then (engOf_run ..) ?_
    exact (congrFun (if_pos busy) u).trans (ok_then (wrD_run ..) (nextPC_run ..))
  · intro list u1
    refine ⟨fun u2 n cr checks => ?_, fun u2 r checks => ?_⟩
    · refine congrArg Host.Outcome.next (issue_done h rfl ?_ _)
      refine ok_then (illegalIf_ok (streamForm compute low) u) <| ok_then ring <| ok_then (engOf_run ..) ?_
      refine (congrFun (if_neg (not_not.mpr idle)) u).trans ?_
      refine ok_then (rdA_run ..) ?_
      refine ok_then (modC_run ..) ?_
      refine ok_then (x := startChecks c e list) (s := u1) checks ?_
      exact ok_then (modE_run ..) <| ok_then (wrD_run ..) (nextPC_run ..)
    · refine congrArg Host.Outcome.next (issue_done h rfl ?_ _)
      refine ok_then (illegalIf_ok (streamForm compute low) u) <| ok_then ring <| ok_then (engOf_run ..) ?_
      refine (congrFun (if_neg (not_not.mpr idle)) u).trans ?_
      refine ok_then (rdA_run ..) ?_
      refine ok_then (modC_run ..) ?_
      refine ok_then (x := startChecks c e list) (s := u1) checks ?_
      obtain ⟨reason, blk, record⟩ := r
      cases blk with
      | none => exact rejected_run c e _ reason (fld f 13 4) u2
      | some b => exact rejected_run c e _ reason (fld f 13 4) u2
  · have run {r : EStateM.Result Stop State U64} (rest : (if fld x.stat 0 2 = 2 then
        if x.recPend then (do
          modE c e (fun x => { x with stat := setFld x.stat 0 2 1, hrec := setBit x.hrec 24 false, recPend := false, hlog := [] })
          modify (fun s => finishEnd s c e)
          nextPC c 4)
        else modE c e resumeEng >>= fun _ => nextPC c 4
      else nextPC c 4 : Op U64) u = r) : sresumeBody c f u = r :=
      ok_then (illegalIf_ok (streamForm compute low) u) <| ok_then (needRing_run inner) <| ok_then ring <| ok_then (engOf_run ..) rest
    refine ⟨fun other => ?_, fun halted noRec => ?_, fun halted recPend => ?_⟩
    · refine congrArg Host.Outcome.next (issue_done h rfl (run ?_) _)
      exact (congrFun (if_neg other) u).trans (nextPC_run ..)
    · refine congrArg Host.Outcome.next (issue_done h rfl (run ?_) _)
      refine (congrFun (if_pos halted) u).trans <| (congrFun (if_neg (Bool.eq_false_iff.mp noRec)) u).trans ?_
      exact ok_then (modE_run ..) (nextPC_run ..)
    · refine congrArg Host.Outcome.next (issue_done h rfl (run ?_) _)
      refine (congrFun (if_pos halted) u).trans <| (congrFun (if_pos recPend) u).trans ?_
      exact ok_then (modE_run ..) <| ok_then (op_modify ..) (nextPC_run ..)
  · exact congrArg Host.Outcome.next (issue_done h rfl (ok_then (illegalIf_ok (streamForm compute low) u) <| ok_then ring <|
      ok_then (op_modify ..) (nextPC_run ..)) _)
  · exact congrArg Host.Outcome.next (issue_done h rfl (ok_then (illegalIf_ok (streamForm compute low) u) <| ok_then ring <|
      ok_then (engOf_run ..) <| ok_then (waitIf_ok (beq_eq_false_iff_ne.mpr stopped) u) <| ok_then (wrD_run ..) (nextPC_run ..)) _)
  · intro b complete
    have run {done : Bool} (hd : (decide (b < x.nblk) && bit x.stat 48 && !(fld x.stat 0 2 == 0 && fld x.stat 7 2 == 2) &&
        decide (b ≤ fld x.stat 32 16)) = done) (go : (bit x.stat 0 && !done && decide (b < x.nblk)) = false) :
        exec (.swaitb c f) s = .next ((u.modCore c (fun k => k.writeD (fld f 13 4) (if done then 1 else 0))).done c 4) := by
      rw [← n64_b01]
      refine congrArg Host.Outcome.next (issue_done h rfl ?_ _)
      exact ok_then (illegalIf_ok (streamForm compute low) u) <| ok_then ring (swaitb_run (fld f 13 4) rfl rfl hd go)
    refine ⟨fun yes => ?_, fun no stop => ?_⟩
    · refine run (done := true) (blockDone_iff.mpr yes) ?_
      rw [Bool.not_true, Bool.and_false, Bool.false_and]
    · refine run (done := false) (Bool.eq_false_iff.mpr (mt blockDone_iff.mp no)) ?_
      obtain stat | past := stop
      · rw [stat]
        rfl
      · rw [decide_eq_false (Nat.not_lt.mpr past), Bool.and_false]

end Sys2Proof.Machine
end

section
/-! CERTIFICATE. A stream engine's block issue, granule, block completion and halt (09 R322 to R354). -/

namespace Sys2Proof.Machine

/-- The engine that runs and neither ends nor is being cancelled. -/
theorem StreamEng.active_of {x : StreamEng} (running : fld x.stat 0 2 = 1) (kept : x.cancelled = false) (going : x.ending = none) : x.active = true := by
  rw [StreamEng.active, running, kept, going]
  rfl

/-! ### Issue -/

/-- The conditions under which the next block is looked at. -/
theorem mayIssue {s : State} {c : CoreId} {x : StreamEng} (active : x.active = true) (enabled : vget s.cur.fns (coreFn c) .enabled = .enabled)
    (clean : x.poisoned = false) (sound : x.faults = []) (more : x.nextBlk < x.nblk) (room : ∀ q ∈ x.blocks, x.nextBlk < q.blk + 4) :
    ¬(vget s.cur.fns (coreFn c) .enabled ≠ .enabled ∨ !x.active ∨ x.poisoned ∨ !x.faults.isEmpty ∨ x.nblk ≤ x.nextBlk ∨
      x.blocks.any (fun q => decide (q.blk + 4 ≤ x.nextBlk))) := by
  rw [enabled, active, clean, sound]
  rintro (h | h | h | h | h | h)
  · exact h rfl
  · exact Bool.noConfusion h
  · exact Bool.noConfusion h
  · exact Bool.noConfusion h
  · exact absurd more (Nat.not_lt.mpr h)
  · obtain ⟨q, hq, far⟩ := List.any_eq_true.mp h
    exact absurd (room q hq) (Nat.not_lt.mpr (of_decide_eq_true far))

/-- What the checks of a descriptor find in TRANSLATED mode (09 R329). -/
def StreamEng.verdict (x : StreamEng) (s : State) (d : Desc) : Option (Nat × Option U64) :=
  if x.cmode then none
  else match Desc.reason d (Desc.out d x.cmod x.cprof).1 (engPhys s x .load) with
    | some r => some r
    | none => if Desc.badOverlap d (Desc.out d x.cmod x.cprof).1 then some (0x14, none) else none

section
variable {s s1 : State} {c : CoreId} {e : Fin 2} {d : Desc}

theorem exec_issue_read (may : ¬(vget s.cur.fns (coreFn c) .enabled ≠ .enabled ∨ !((s.core c).eng e.val).active ∨ ((s.core c).eng e.val).poisoned ∨
      !((s.core c).eng e.val).faults.isEmpty ∨ ((s.core c).eng e.val).nblk ≤ ((s.core c).eng e.val).nextBlk ∨
      ((s.core c).eng e.val).blocks.any (fun q => decide (q.blk + 4 ≤ ((s.core c).eng e.val).nextBlk))))
    (read : readDesc c e.val ((s.core c).eng e.val).list ((s.core c).eng e.val).nextBlk s = .ok d s1) :
    exec (.streamBlockIssue c e) s = .next (match ((s.core c).eng e.val).verdict s1 d with
      | some (r, a) => faultBlock { s1 with free := s1.free + 1 } c e.val ((s.core c).eng e.val).nextBlk r (a.getD (n64 (Config.freeNat s1.free)))
      | none => issueBlock s1 c e.val ((s.core c).eng e.val).nextBlk d) := by
  change execStreamBlockIssue c e s = _
  unfold execStreamBlockIssue
  dsimp only
  rw [if_neg may, read]
  rfl

theorem verdict_pass {x : StreamEng} (h : x.cmode = true ∨ (Desc.reason d (Desc.out d x.cmod x.cprof).1 (engPhys s x .load) = none ∧
    Desc.badOverlap d (Desc.out d x.cmod x.cprof).1 = false)) : x.verdict s d = none := by
  unfold StreamEng.verdict
  obtain cmode | ⟨why, apart⟩ := h
  · rw [if_pos cmode]
  · rw [why, apart]
    exact ite_self _

theorem verdict_reason {x : StreamEng} {r : Nat × Option U64} (cmode : x.cmode = false)
    (why : Desc.reason d (Desc.out d x.cmod x.cprof).1 (engPhys s x .load) = some r) : x.verdict s d = some r := by
  unfold StreamEng.verdict
  rw [if_neg (Bool.eq_false_iff.mp cmode), why]

theorem verdict_overlap {x : StreamEng} (cmode : x.cmode = false) (why : Desc.reason d (Desc.out d x.cmod x.cprof).1 (engPhys s x .load) = none)
    (meet : Desc.badOverlap d (Desc.out d x.cmod x.cprof).1 = true) : x.verdict s d = some (0x14, none) := by
  unfold StreamEng.verdict
  rw [if_neg (Bool.eq_false_iff.mp cmode), why]
  exact if_pos meet

end

section
variable {s : State} {c : CoreId} {e b : Nat} {d : Desc}

/-- How many generations a barrier is behind the one a block waits for (09 R345). -/
def State.genBehind (s : State) (d : Desc) : Nat := ((vget s.barriers (Desc.bid d) Barrier.reset).gen - BitVec.ofNat 16 (Desc.bgen d)).toNat

/-- The pair a block names. -/
def State.pairOf (s : State) (c : CoreId) (d : Desc) : U64 := vget (s.core c).str.sem (Desc.pair d) 0

theorem issueBlock_poisoned (free : Desc.freew d = true) (poisoned : bit (s.pairOf c d) 32 = true) :
    issueBlock s c e b d = endIfDone (s.modCore c (fun k => k.modEng e (fun x => { x with poisoned := true }))) c e := by
  refine if_pos ?_
  rw [free]
  exact poisoned

theorem issueBlock_waits (sound : Desc.freew d = true → bit (s.pairOf c d) 32 = false)
    (wait : (Desc.freew d = true ∧ fld (s.pairOf c d) 16 16 = 0) ∨ (Desc.bwait d = true ∧ 32768 ≤ s.genBehind d)) : issueBlock s c e b d = s := by
  refine (if_neg ?_).trans (if_pos ?_)
  · rw [Bool.and_eq_true]
    exact fun h => Bool.false_ne_true ((sound h.1).symm.trans h.2)
  · rw [Bool.or_eq_true, Bool.and_eq_true, Bool.and_eq_true, beq_iff_eq, decide_eq_true_iff]
    exact wait

theorem issueBlock_issues (pair : Desc.freew d = true → bit (s.pairOf c d) 32 = false ∧ fld (s.pairOf c d) 16 16 ≠ 0)
    (barrier : Desc.bwait d = true → s.genBehind d < 32768) : issueBlock s c e b d = s.modCore c (fun k =>
      (if Desc.freew d then k.modPair (Desc.pair d) (fun w => setFld w 16 16 (fld w 16 16 - 1)) else k).modEng e (fun x => { x with
        blocks := x.blocks ++ [BlockProg.fresh b d true (Desc.freew d)], nextBlk := b + 1 })) := by
  refine (if_neg ?_).trans (if_neg ?_)
  · rw [Bool.and_eq_true]
    exact fun h => Bool.false_ne_true ((pair h.1).1.symm.trans h.2)
  · rw [Bool.or_eq_true, Bool.and_eq_true, Bool.and_eq_true, beq_iff_eq, decide_eq_true_iff]
    rintro (⟨free, empty⟩ | ⟨wait, behind⟩)
    · exact (pair free).2 empty
    · exact absurd (barrier wait) (Nat.not_lt.mpr behind)

end

/-! ### Granules -/

/-- The conditions under which a granule is looked at (09 R322, R327, R348, R349). -/
theorem mayLand {s : State} {x : StreamEng} {b : BlockProg} {g : Nat} (active : x.active = true) (ok : b.ok = true)
    (inside : g < (Desc.granules b.ws).length) (opened : b.has g = false) (sound : x.faulted b.blk g = false) (flight : (b.blk, g) ∈ inFlight s x)
    (order : b.reads.any (fun r => r.1 == g) = true ∨ (b.isRead (x.conv b.ws) g = false ∧ mustWait s x b g = false)) :
    ¬(!x.active ∨ !b.ok ∨ (Desc.granules b.ws).length ≤ g ∨ b.has g ∨ x.faulted b.blk g ∨ !(inFlight s x).contains (b.blk, g) ∨
      (b.isRead (x.conv b.ws) g ∧ !b.reads.any (fun r => r.1 == g)) ∨ (!b.isRead (x.conv b.ws) g ∧ mustWait s x b g)) := by
  rw [active, ok, opened, sound, List.contains_iff_mem.mpr flight]
  rintro (h | h | h | h | h | h | ⟨read, unread⟩ | ⟨unread, wait⟩)
  · exact Bool.noConfusion h
  · exact Bool.noConfusion h
  · exact absurd inside (Nat.not_lt.mpr h)
  · exact Bool.noConfusion h
  · exact Bool.noConfusion h
  · exact Bool.noConfusion h
  · obtain has | ⟨fresh, -⟩ := order
    · rw [has] at unread
      exact Bool.noConfusion unread
    · rw [fresh] at read
      exact Bool.noConfusion read
  · obtain has | ⟨-, free⟩ := order
    · rw [BlockProg.isRead, has, Bool.or_true, Bool.true_or] at unread
      exact Bool.noConfusion unread
    · rw [free] at wait
      exact Bool.noConfusion wait

/-! ### Halting -/

/-- A field reads what was put in it. -/
theorem fld_setFld (w : U64) {lo n : Nat} (h : lo + n ≤ 64) (v : Nat) : fld (setFld w lo n v) lo n = v % 2 ^ n := by
  refine Nat.eq_of_testBit_eq fun i => ?_
  rw [fld, setFld, fmask, Nat.testBit_mod_two_pow, Nat.testBit_shiftRight, BitVec.testBit_toNat, BitVec.getLsbD_or, BitVec.getLsbD_and,
    BitVec.getLsbD_not, BitVec.getLsbD_ofNat, BitVec.getLsbD_ofNat, Nat.testBit_shiftLeft, Nat.testBit_shiftLeft, Nat.testBit_two_pow_sub_one,
    Nat.testBit_mod_two_pow, Nat.add_sub_cancel_left, decide_eq_true (Nat.le_add_right lo i)]
  by_cases hi : i < n
  · rw [decide_eq_true hi, decide_eq_true (show lo + i < 64 by omega)]
    simp [hi]
  · rw [decide_eq_false hi]
    simp [hi]

section
variable (s : State) (c : CoreId) (e : Fin 2) (blk subc : Nat) (pos off addr : U64)

theorem haltEng_core : (haltEng s c e.val blk subc pos off addr).core c = { (s.core c).modEng e.val (fun x => { x with
      stat := setFld x.stat 0 2 2, hrec := n64 (blk + subc <<< 16 + 1 <<< 24), hpos := pos, hoff := off, haddr := addr }) with
    rr := { (s.core c).rr with xpend := setBit (s.core c).rr.xpend 3 true, shInfo := n64 (2 * c.val + e.val) } } := s.core_modCore c _

theorem haltEng_eng : ((haltEng s c e.val blk subc pos off addr).core c).eng e.val = { (s.core c).eng e.val with
    stat := setFld ((s.core c).eng e.val).stat 0 2 2, hrec := n64 (blk + subc <<< 16 + 1 <<< 24), hpos := pos, hoff := off, haddr := addr } := by
  rw [haltEng_core]
  exact vget_vput _ _ _ _ e.isLt

end

/-- Settles O33. -/
theorem streamEventsComplete : Obligations.StreamEventsComplete := by
  intro s c e x running kept going
  have active : x.active = true := StreamEng.active_of running kept going
  refine ⟨fun enabled clean sound more room => ?_, fun n g b block ok inside opened sound flight order => ?_, fun b r blocks full => ?_,
    fun q b r first blocks full stuck quiet => ?_⟩
  · have may := mayIssue (s := s) (c := c) active enabled clean sound more room
    refine ⟨fun d s1 read => ?_, fun cause sub info b s1 read => ?_⟩
    · intro df why pair behind
      have issue := exec_issue_read may read
      refine ⟨fun pass => ?_, fun r a cmode hwhy => ?_, fun cmode hwhy meet => ?_⟩
      · rw [verdict_pass pass] at issue
        exact ⟨fun hp hb => issue.trans (congrArg Host.Outcome.next (issueBlock_issues hp hb)),
          fun hp hb => issue.trans (congrArg Host.Outcome.next (issueBlock_waits hp hb)),
          fun free hp => issue.trans (congrArg Host.Outcome.next (issueBlock_poisoned free hp))⟩
      · rw [verdict_reason cmode hwhy] at issue
        refine ⟨a.getD (n64 (Config.freeNat s1.free)), ?_, issue⟩
        rintro b rfl
        rfl
      · rw [verdict_overlap cmode hwhy meet] at issue
        exact ⟨_, issue⟩
    · change execStreamBlockIssue c e s = _
      unfold execStreamBlockIssue
      dsimp only
      rw [if_neg may, read]
  · intro w
    have may := mayLand active ok inside opened sound flight order
    refine ⟨fun plain y s1 read s2 finish => ?_, fun plain cause sub info q s1 read => ?_, fun square s1 swap => ?_⟩
    · change execGranuleLands c e n g s = _
      unfold execGranuleLands
      dsimp only
      rw [block]
      dsimp only
      rw [if_neg may, if_neg (Bool.eq_false_iff.mp plain), read]
      dsimp only
      rw [finish]
    · change execGranuleLands c e n g s = _
      unfold execGranuleLands
      dsimp only
      rw [block]
      dsimp only
      rw [if_neg may, if_neg (Bool.eq_false_iff.mp plain), read]
      rfl
    · change execGranuleLands c e n g s = _
      unfold execGranuleLands
      dsimp only
      rw [block]
      dsimp only
      rw [if_neg may, if_pos square, swap]
  · have ready : x.ready = some b := by
      unfold StreamEng.ready
      rw [blocks]
      exact if_pos full
    change execStreamBlockComplete c e s = _
    unfold execStreamBlockComplete
    dsimp only
    rw [if_neg (by rw [active]; exact Bool.false_ne_true), ready]
  · have go : x.active ∧ !b.full ∧ (inFlight s x).all (stuckGran s x) ∧ !s.fab.reqs.any (fun r => r.who == .stream c e.val) := by
      refine ⟨active, by rw [full]; rfl, List.all_eq_true.mpr stuck, ?_⟩
      rw [Bool.not_eq_true', List.any_eq_false]
      exact fun a ha => mt beq_iff_eq.mp (quiet a ha)
    obtain ⟨pos, off, halts⟩ : ∃ pos off, exec (.streamHalt c e) s = .next (haltEng s c e.val b.blk q.subc pos off q.addr) := by
      change ∃ pos off, execStreamHalt c e s = .next (haltEng s c e.val b.blk q.subc pos off q.addr)
      unfold execStreamHalt
      dsimp only
      rw [first, blocks]
      exact ⟨_, _, congrArg Host.Outcome.next (if_pos go)⟩
    refine ⟨_, halts, ?_, ?_, ?_, ?_, ?_, rfl, fun d hd => s.core_modCore_ne _ hd⟩
    · rw [haltEng_eng]
      exact fld_setFld _ (by decide) 2
    · rw [haltEng_eng]
    · rw [haltEng_eng]
    · rw [haltEng_core]
    · rw [haltEng_core]

end Sys2Proof.Machine
end

section
/-! CERTIFICATE. Semaphore pairs and module barriers (09 R341, R343 to R345, R360). -/

namespace Sys2Proof.Machine

/-- A count that BARCFG takes (09 R360). -/
theorem barrierCount_ok {v : U64} (low : 1 ≤ v.toNat) (high : v.toNat ≤ 4095) : (v == 0 || decide (4095 < v.toNat)) = false := by
  rw [Bool.or_eq_false_iff, beq_eq_false_iff_ne, decide_eq_false_iff_not]
  refine ⟨?_, Nat.not_lt.mpr high⟩
  rintro rfl
  exact Nat.not_succ_le_zero 0 low

/-- Settles O34. -/
theorem semaphoresAndBarriersComplete : Obligations.SemaphoresAndBarriersComplete := by
  intro s u c f h
  refine ⟨fun compute => ⟨fun low => ?_, fun low => ?_⟩, ?_⟩
  · exact congrArg Host.Outcome.next (issue_done h rfl (ok_then (illegalIf_ok (streamForm compute low) u) <| ok_then (op_modify ..) (nextPC_run ..)) _)
  · intro lo w
    refine ⟨fun poisoned => ?_, fun sound unit => ?_⟩
    · refine congrArg Host.Outcome.next (issue_done h rfl ?_ _)
      refine ok_then (illegalIf_ok (streamForm compute low) u) <| ok_then (coreOf_run c u) ?_
      exact (congrFun (if_pos poisoned) u).trans (ok_then (wrD_run ..) (nextPC_run ..))
    · refine congrArg Host.Outcome.next (issue_done h rfl ?_ _)
      refine ok_then (illegalIf_ok (streamForm compute low) u) <| ok_then (coreOf_run c u) ?_
      refine (congrFun (if_neg (Bool.eq_false_iff.mp sound)) u).trans ?_
      exact ok_then (waitIf_ok (beq_eq_false_iff_ne.mpr unit) u) <| ok_then (modC_run ..) <| ok_then (wrD_run ..) (nextPC_run ..)
  · intro b x
    refine ⟨fun low => ⟨?_, fun released => ?_⟩, fun low => ⟨?_, ?_⟩⟩
    · exact congrArg Host.Outcome.next (issue_done h rfl (ok_then (illegalIf_ok (bne_eq_false_iff_eq.mpr low) u) <| ok_then (op_get u) <|
        ok_then (op_modify ..) <| ok_then (modC_run ..) (nextPC_run ..)) _)
    · exact congrArg Host.Outcome.next (issue_done h rfl (ok_then (illegalIf_ok (bne_eq_false_iff_eq.mpr low) u) <| ok_then (op_get u) <|
        ok_then (coreOf_run c u) <| ok_then (waitIf_ok (beq_eq_false_iff_ne.mpr released) u) <| ok_then (modC_run ..) (nextPC_run ..)) _)
    · intro v one most ring
      exact congrArg Host.Outcome.next (issue_done h rfl (ok_then (illegalIf_ok (bne_eq_false_iff_eq.mpr low) u) <| ok_then (rdD_run ..) <|
        ok_then (illegalIf_ok (barrierCount_ok one most) u) <| ok_then (needRing_run ring) <| ok_then (op_modify ..) (nextPC_run ..)) _)
    · exact congrArg Host.Outcome.next (issue_done h rfl (ok_then (illegalIf_ok (bne_eq_false_iff_eq.mpr low) u) <| ok_then (op_get u) <|
        ok_then (wrD_run ..) (nextPC_run ..)) _)

end Sys2Proof.Machine
end

section
/-! CERTIFICATE. Gather jobs (10 R375 to R377, R382 to R386). -/

namespace Sys2Proof.Machine

/-- The job GSUBMIT forms of a descriptor's bytes (10 R374, R375). -/
def State.gatherJob (s : State) (c : CoreId) (a : U64) (bs : List Byte) : GJob :=
  let j0 : GJob := {
    id := s.gather.seq, core := c, ring := (s.core c).bank.ring, task := (s.core c).accTask, tord := ((s.core c).task ((s.core c).accTask.getD 0)).ord,
    addr := a, desc := (List.range 8).map (fun i => n64 (leNat ((bs.drop (8 * i)).take 8))), next := [], complete := [], skipped := 0, fail := none,
    hlog := [] }
  { j0 with next := List.replicate j0.engines.length 0 }

/-- What GSUBMIT does with the job it has formed (10 R375, R386). -/
def submitRest (s : State) (c : CoreId) (dd : Nat) (j : GJob) : Op U64 := do
  match j.code s (s.core c).str with
  | some r => wrD c dd (n64 r)
  | none =>
    if vget s.cur.fns 8 .enabled != .enabled || j.engines.any (fun e => decide (16 ≤ (vget s.gather.queue e []).length)) then wrD c dd 1
    else do
      modify (fun s => submitJob s j)
      wrD c dd 0
  nextPC c 4

theorem exec_gsubmit {s u u1 t : State} {c : CoreId} {f : BitVec 22} {bs : List Byte} (h : s.issued c .plain = some u) (low : fld f 0 14 = 0)
    (aligned : ((u.core c).readA (fld f 18 4)).toNat % 64 = 0) (read : tileRead c ((u.core c).readA (fld f 18 4)) 64 u = .ok bs u1)
    (rest : submitRest u1 c (fld f 14 4) (u1.gatherJob c ((u.core c).readA (fld f 18 4)) bs) u1 = .ok ((t.core c).pc + n64 4) t) :
    exec (.gsubmit c f) s = .next (t.done c 4) :=
  congrArg Host.Outcome.next (issue_done h rfl (ok_then (illegalIf_ok (bne_eq_false_iff_eq.mpr low) u) <| ok_then (rdA_run ..) <|
    ok_then (trapIf_ok (bne_eq_false_iff_eq.mpr aligned) ..) <| ok_then read <| ok_then (op_get u1) rest) _)

section
variable {s : State} {c : CoreId} {dd : Nat} {j : GJob}

theorem submitRest_rejected {r : Nat} (code : j.code s (s.core c).str = some r) :
    submitRest s c dd j s = .ok (((s.modCore c (fun k => k.writeD dd (n64 r))).core c).pc + n64 4) (s.modCore c (fun k => k.writeD dd (n64 r))) := by
  unfold submitRest
  rw [code]
  exact ok_then (wrD_run ..) (nextPC_run ..)

theorem full_iff : (vget s.cur.fns 8 .enabled != .enabled || j.engines.any (fun e => decide (16 ≤ (vget s.gather.queue e []).length))) = true ↔
    vget s.cur.fns 8 .enabled ≠ .enabled ∨ ∃ e ∈ j.engines, 16 ≤ (vget s.gather.queue e []).length := by
  rw [Bool.or_eq_true, bne_iff_ne, List.any_eq_true]
  simp only [decide_eq_true_iff]

theorem submitRest_full (code : j.code s (s.core c).str = none)
    (full : vget s.cur.fns 8 .enabled ≠ .enabled ∨ ∃ e ∈ j.engines, 16 ≤ (vget s.gather.queue e []).length) :
    submitRest s c dd j s = .ok (((s.modCore c (fun k => k.writeD dd 1)).core c).pc + n64 4) (s.modCore c (fun k => k.writeD dd 1)) := by
  unfold submitRest
  rw [code]
  exact (congrFun (if_pos (full_iff.mpr full)) s).trans (ok_then (wrD_run ..) (nextPC_run ..))

theorem submitRest_queued (code : j.code s (s.core c).str = none)
    (room : ¬(vget s.cur.fns 8 .enabled ≠ .enabled ∨ ∃ e ∈ j.engines, 16 ≤ (vget s.gather.queue e []).length)) :
    submitRest s c dd j s = .ok ((((submitJob s j).modCore c (fun k => k.writeD dd 0)).core c).pc + n64 4)
      ((submitJob s j).modCore c (fun k => k.writeD dd 0)) := by
  unfold submitRest
  rw [code]
  exact (congrFun (if_neg (mt full_iff.mp room)) s).trans (ok_then (op_modify ..) <| ok_then (wrD_run ..) (nextPC_run ..))

end

/-- What GCANCEL does with the job it finds (10 R384). -/
theorem exec_gcancel {s u : State} {c : CoreId} {f : BitVec 22} {found : Option GJob} {t : State} (h : s.issued c .plain = some u) (low : fld f 0 18 = 0)
    (find : u.gather.jobs.find? (fun j => j.core == c && j.addr == (u.core c).readA (fld f 18 4) && !(j.fail.isNone && j.done)) = found)
    (rest : (match found with
      | none => nextPC c 4
      | some j => (do
        trapIf (decide (j.ring.toNat < (u.core c).ring)) 0x02
        modify (fun s => endJob s j 1 0 j.lowest)
        nextPC c 4) : Op U64) u = .ok ((t.core c).pc + n64 4) t) : exec (.gcancel c f) s = .next (t.done c 4) := by
  refine congrArg Host.Outcome.next (issue_done h rfl ?_ _)
  refine ok_then (illegalIf_ok (bne_eq_false_iff_eq.mpr low) u) <| ok_then (rdA_run ..) <| ok_then (coreOf_run c u) <| ok_then (op_get u) ?_
  rw [find]
  cases found
  all_goals exact rest

/-- Settles O35. -/
theorem gatherJobsComplete : Obligations.GatherJobsComplete := by
  refine ⟨fun s u c f h => ⟨fun low => ?_, fun low => ⟨fun j find ring => ?_, fun none' => ?_⟩⟩, fun s e j at' => ?_, fun s n j job done => ?_⟩
  · intro a aligned bs u1 read
    refine ⟨u1.gatherJob c a bs, rfl, rfl, rfl, rfl, rfl, rfl, rfl, rfl, rfl, fun r code => ?_, fun code => ⟨fun full => ?_, fun enabled room => ?_⟩⟩
    · exact exec_gsubmit h low aligned read (submitRest_rejected code)
    · exact exec_gsubmit h low aligned read (submitRest_full code full)
    · refine exec_gsubmit h low aligned read (submitRest_queued code ?_)
      rintro (off | ⟨e, he, full⟩)
      · exact off enabled
      · exact absurd (room e he) (Nat.not_lt.mpr full)
  · exact exec_gcancel h low find (ok_then (trapIf_ok (decide_eq_false (Nat.not_lt.mpr ring)) ..) <| ok_then (op_modify ..) (nextPC_run ..))
  · refine exec_gcancel h low (List.find?_eq_none.mpr fun j hj => ?_) (nextPC_run ..)
    rw [Bool.and_eq_true, Bool.and_eq_true, beq_iff_eq, beq_iff_eq]
    rintro ⟨⟨core, addr⟩, opened⟩
    rw [(none' j hj core addr).1, (none' j hj core addr).2] at opened
    exact Bool.noConfusion opened
  · intro r p
    refine ⟨fun mine s1 pos => ?_, fun cause sub info b s1 pos => ?_⟩
    · change execGatherPosition e s = _
      unfold execGatherPosition
      rw [at']
      dsimp only
      rw [pos]
    · change execGatherPosition e s = _
      unfold execGatherPosition
      rw [at']
      dsimp only
      rw [pos]
  · refine ⟨fun sound => ?_, fun x fail quiet => ?_⟩
    · change execGatherJobComplete n s = _
      unfold execGatherJobComplete
      rw [job]
      dsimp only
      rw [sound, done]
      rfl
    · have answered : s.jobAsks n = false := by
        refine List.any_eq_false.mpr fun q hq => ?_
        cases who : q.who with
        | gather i r =>
          rintro same
          obtain rfl := beq_iff_eq.mp same
          exact quiet q hq r who
        | core d => exact Bool.false_ne_true
        | stream d e => exact Bool.false_ne_true
      change execGatherJobRefused n s = _
      unfold execGatherJobRefused
      rw [job]
      dsimp only
      rw [fail]
      dsimp only
      rw [done, answered]
      rfl

end Sys2Proof.Machine
end

section
/-! SUPPORT. Time passing, and what sending leaves of a port that is down. CERTIFICATE. Ports train, retry, fall, replay and acknowledge
(11 R389, R394, R404, R420, R424, R427). -/

namespace Sys2Proof.Machine

namespace State

/-! ### Time -/

/-- Nothing but the clocks, the hall clock and the count of free values differs; the hall clock's state word is as it was. -/
def TimeOnly (s t : State) : Prop := ∃ now hall clk free, t = { s with now := now, hall := hall, clk := clk, free := free } ∧ hall.stat = s.hall.stat

theorem TimeOnly.refl (s : State) : s.TimeOnly s := ⟨_, _, _, _, rfl, rfl⟩

theorem advance_timeOnly (s : State) (n : Nat) : s.TimeOnly (s.advance n) :=
  ⟨_, _, _, _, rfl, rfl⟩

theorem advanceTo_timeOnly (s : State) (x : Nat) : s.TimeOnly (s.advanceTo x) := by
  unfold advanceTo
  split
  · exact s.advance_timeOnly _
  · exact .refl s

theorem advanceTo_now (s : State) (x : Nat) : (s.advanceTo x).now = max s.now x := by
  unfold advanceTo
  split
  next h => exact (Nat.add_sub_cancel' (Nat.le_of_lt h)).trans (Nat.max_eq_right (Nat.le_of_lt h)).symm
  next h => exact (Nat.max_eq_left (Nat.not_lt.mp h)).symm

section
variable {s t : State} (h : s.TimeOnly t)
include h

theorem TimeOnly.mem : t.mem = s.mem := by
  obtain ⟨_, _, _, _, rfl, _⟩ := h
  rfl

theorem TimeOnly.cores : t.cores = s.cores := by
  obtain ⟨_, _, _, _, rfl, _⟩ := h
  rfl

theorem TimeOnly.fab : t.fab = s.fab := by
  obtain ⟨_, _, _, _, rfl, _⟩ := h
  rfl

theorem TimeOnly.stat : t.hall.stat = s.hall.stat := by
  obtain ⟨_, _, _, _, rfl, stat⟩ := h
  exact stat

theorem TimeOnly.port (p : PortId) : t.port p = s.port p := congrArg (fun f : FabState => f.ports.get p) h.fab

theorem TimeOnly.parentPort : t.parentPort = s.parentPort := by
  unfold State.parentPort
  rw [h.stat]

end

/-! ### A port that is down -/

/-- Sending has been confined to the fabric, and a port that was down is as it was, but for the credits it owes; no plan has been mended. -/
def PastDown (p : PortId) (s t : State) : Prop := s.FabOnly t ∧ ((s.port p).up = false →
  (t.port p).up = false ∧ (t.port p).fell = (s.port p).fell ∧ (t.port p).retry = (s.port p).retry ∧ (t.port p).txq = (s.port p).txq) ∧
  t.fab.broken = s.fab.broken

variable {p : PortId} {s t u : State}

theorem PastDown.refl (s : State) : PastDown p s s := ⟨.refl s, fun down => ⟨down, rfl, rfl, rfl⟩, rfl⟩

theorem PastDown.trans (h : PastDown p s t) (g : PastDown p t u) : PastDown p s u := by
  obtain ⟨only, same, broken⟩ := h
  obtain ⟨only', same', broken'⟩ := g
  refine ⟨only.trans only', fun down => ?_, broken'.trans broken⟩
  obtain ⟨up, fell, retry, txq⟩ := same down
  obtain ⟨up', fell', retry', txq'⟩ := same' up
  exact ⟨up', fell'.trans fell, retry'.trans retry, txq'.trans txq⟩

/-- What leaves every port and the broken plans as they were. -/
theorem pastDown_of_ports (only : s.FabOnly t) (ports : t.fab.ports = s.fab.ports) (broken : t.fab.broken = s.fab.broken) : PastDown p s t := by
  have port : t.port p = s.port p := congrArg (fun v : Vector PortSt 24 => v.get p) ports
  exact ⟨only, fun down => ⟨port ▸ down, by rw [port], by rw [port], by rw [port]⟩, broken⟩

/-- A change of a port's credits alone, or of another port. -/
theorem setPort_pastDown (s : State) (q : PortId) {f : PortSt → PortSt}
    (hf : q = p → ∀ x, (f x).up = x.up ∧ (f x).fell = x.fell ∧ (f x).retry = x.retry ∧ (f x).txq = x.txq) : PastDown p s (s.setPort q f) := by
  refine ⟨s.setPort_fabOnly q f, fun down => ?_, rfl⟩
  by_cases same : p = q
  · subst same
    obtain ⟨up, fell, retry, txq⟩ := hf rfl (s.port p)
    rw [port_setPort]
    exact ⟨up.trans down, fell, retry, txq⟩
  · rw [port_setPort_ne s f same]
    exact ⟨down, rfl, rfl, rfl⟩

theorem owe_pastDown (s : State) (from' : Option PortId) (k : Packet) : PastDown p s (s.owe from' k) := by
  cases from' with
  | none => exact .refl s
  | some q =>
    unfold owe
    exact s.setPort_pastDown q fun _ x => ⟨rfl, rfl, rfl, rfl⟩

theorem notePlan_pastDown (s : State) (q : PortId) (k : Packet) : PastDown p s (s.notePlan q k) := by
  unfold notePlan
  split
  · exact pastDown_of_ports ⟨_, _, rfl⟩ rfl rfl
  · exact .refl s

section
variable {q : PortId} (other : q ≠ p)
include other

theorem transmit_pastDown (s : State) (x : TxEnt) : PastDown p s (s.transmit q x) := by
  refine ((s.owe_pastDown x.from' x.pkt).trans (notePlan_pastDown _ q x.pkt)).trans ?_
  unfold transmit
  exact setPort_pastDown _ q fun same => absurd same other

theorem drainSome_pastDown (n : Nat) (s : State) : PastDown p s (drainSome q n s) := by
  induction n generalizing s with
  | zero => exact .refl s
  | succ n ih =>
    unfold drainSome
    split
    · exact .refl s
    · exact ((s.setPort_pastDown q fun same => absurd same other).trans (transmit_pastDown other _ _)).trans (ih _)

end

theorem sendFrom_pastDown (down : (s.port p).up = false) (from' : Option PortId) (q : PortId) (k : Packet) : PastDown p s (s.sendFrom from' q k) := by
  unfold sendFrom
  split
  next up =>
    have other : q ≠ p := by
      rintro rfl
      rw [down] at up
      exact Bool.noConfusion up
    exact (s.setPort_pastDown q fun same => absurd same other).trans (drainSome_pastDown other _ _)
  · exact s.owe_pastDown from' k

/-- A step that keeps a port that is down down composes with another. -/
theorem PastDown.then (down : (s.port p).up = false) (h : PastDown p s t) (g : (t.port p).up = false → PastDown p t u) : PastDown p s u :=
  h.trans (g (h.2.1 down).1)

theorem feCount_pastDown (s : State) (lo : Nat) : PastDown p s (s.feCount lo) := pastDown_of_ports ⟨_, _, rfl⟩ rfl rfl

theorem route_pastDown (s : State) (k : Packet) : PastDown p s (s.route k).2 := by
  obtain same | drawn := s.route_state k
  · rw [same]
    exact .refl s
  · rw [drawn]
    exact pastDown_of_ports ⟨_, _, rfl⟩ rfl rfl

theorem emit_pastDown (down : (s.port p).up = false) (k : Packet) : PastDown p s (s.emit k) := by
  unfold emit
  dsimp only
  split
  · exact s.feCount_pastDown _
  · have routed := s.route_pastDown (p := p) (s.stamp k)
    split
    next q s1 e =>
      rw [e] at routed
      exact routed.then down fun down => sendFrom_pastDown down none q _
    next s1 e =>
      rw [e] at routed
      split
      · exact routed
      · exact routed.trans (s1.feCount_pastDown _)

theorem send_pastDown (down : (s.port p).up = false) (k : Packet) : PastDown p s (s.send k) := by
  unfold send
  split
  · exact .refl s
  · exact emit_pastDown down k

theorem sendAlong_pastDown (down : (s.port p).up = false) (from' : Option PortId) (k : Packet) : PastDown p s (sendAlong s from' k) := by
  have routed := s.route_pastDown (p := p) k
  unfold sendAlong
  split
  next q s1 e =>
    rw [e] at routed
    exact routed.then down fun down => sendFrom_pastDown down from' q _
  next s1 e =>
    rw [e] at routed
    have owed := routed.trans (s1.owe_pastDown from' k)
    split
    · exact owed.then down fun down => emit_pastDown down _
    · exact owed.trans (feCount_pastDown _ _)

theorem rerouted_pastDown (down : (s.port p).up = false) (x : TxEnt) : PastDown p s (rerouted s x) := by
  unfold rerouted
  split
  · exact s.owe_pastDown x.from' x.pkt
  · split
    · exact sendAlong_pastDown down _ _
    · have routed := s.route_pastDown (p := p) x.pkt
      split
      next q s1 e =>
        rw [e] at routed
        exact routed.then down fun down => sendFrom_pastDown down none q _
      next s1 e =>
        rw [e] at routed
        split
        · exact routed.trans (pastDown_of_ports ⟨_, _, rfl⟩ rfl rfl)
        · exact routed.trans (s1.feCount_pastDown _)

/-- What every step of a fold keeps of a port that is down, the fold keeps. -/
theorem foldl_pastDown {α : Type} {f : State → α → State} (step : ∀ s x, (s.port p).up = false → PastDown p s (f s x)) (l : List α)
    (down : (s.port p).up = false) : PastDown p s (l.foldl f s) := by
  induction l generalizing s with
  | nil => exact .refl s
  | cons x l ih => exact (step s x down).then down fun down => ih down

theorem noteLink_pastDown (s : State) (shelf : BitVec 32) (q : BitVec 5) (far : Option (BitVec 32)) (up fit : Bool) :
    PastDown p s (noteLink s shelf q far up fit) := by
  unfold noteLink
  dsimp only
  split
  · exact pastDown_of_ports ⟨_, _, rfl⟩ rfl rfl
  · exact pastDown_of_ports ⟨_, _, rfl⟩ rfl rfl

theorem flushReports_pastDown (down : (s.port p).up = false) : PastDown p s (flushReports s) := by
  unfold flushReports
  dsimp only
  have cleared : PastDown p s { s with fab := { s.fab with reports := [] } } := pastDown_of_ports ⟨_, _, rfl⟩ rfl rfl
  split
  · exact cleared.then down fun down => foldl_pastDown (fun s r _ => s.noteLink_pastDown ..) _ down
  · split
    · exact cleared.then down fun down => foldl_pastDown (fun s r down => send_pastDown down _) _ down
    · exact .refl s

theorem reportPort_pastDown (down : (s.port p).up = false) (q : PortId) (up : Bool) : PastDown p s (reportPort s q up) := by
  unfold reportPort
  exact PastDown.then down (pastDown_of_ports ⟨_, _, rfl⟩ rfl rfl) fun down => flushReports_pastDown down

end State

theorem State.FabOnly.mem {s t : State} (h : s.FabOnly t) : t.mem = s.mem := by
  obtain ⟨_, _, rfl⟩ := h
  rfl

theorem State.FabOnly.now {s t : State} (h : s.FabOnly t) : t.now = s.now := by
  obtain ⟨_, _, rfl⟩ := h
  rfl

theorem State.FabOnly.hall {s t : State} (h : s.FabOnly t) : t.hall = s.hall := by
  obtain ⟨_, _, rfl⟩ := h
  rfl

/-- The time at which a port is found down (11 R394, R427). -/
def State.fallTime (s : State) (p : PortId) : State :=
  if (s.port p).retry.any (fun r => decide (8 ≤ r.replays)) then s else s.advanceTo ((s.port p).lastGood + 16000)

/-- A port taken down: nothing waits at it, and the plans that use it are broken (11 R394, R420, R427). -/
def State.takeDown (v : State) (p : PortId) : State :=
  let w := v.setPort p (fun x => { x with
    up := false, fell := true, retryAt := v.now, txq := [], retry := [], parts := none, liveRx := none, liveTx := [] })
  let w := breakPlans w (plansVia w p) true
  { w with fab := { w.fab with planPorts := w.fab.planPorts.filter (fun x => x.2 != p) } }

/-- Holdover begins where the port that has fallen was the time parent's (11 R424). -/
def State.inHoldover (s : State) (p : PortId) : State := if s.parentPort = some p then holdover s else s

theorem exec_portDown {s : State} {p : PortId} (up : (s.port p).up = true) : exec (.portDown p) s = .next
    (reportPort (((((s.fallTime p).port p).txq.foldl rerouted ((s.fallTime p).takeDown p)).inHoldover p)) p false) := by
  refine congrArg Host.Outcome.next (if_neg ?_)
  rw [up]
  exact Bool.false_ne_true

theorem State.fallTime_timeOnly (s : State) (p : PortId) : s.TimeOnly (s.fallTime p) := by
  unfold fallTime
  split
  · exact .refl s
  · exact s.advanceTo_timeOnly _

theorem State.fallTime_now (s : State) (p : PortId) [Decidable (∃ r ∈ (s.port p).retry, 8 ≤ r.replays)] : (s.fallTime p).now =
    if ∃ r ∈ (s.port p).retry, 8 ≤ r.replays then s.now else max s.now ((s.port p).lastGood + 16000) := by
  unfold fallTime
  by_cases stuck : ∃ r ∈ (s.port p).retry, 8 ≤ r.replays
  · rw [if_pos stuck, if_pos]
    obtain ⟨r, hr, many⟩ := stuck
    exact List.any_eq_true.mpr ⟨r, hr, decide_eq_true many⟩
  · rw [if_neg stuck, if_neg, s.advanceTo_now]
    rintro any
    obtain ⟨r, hr, many⟩ := List.any_eq_true.mp any
    exact stuck ⟨r, hr, of_decide_eq_true many⟩

theorem plansVia_congr {s t : State} (h : t.fab = s.fab) (p : PortId) : plansVia t p = plansVia s p := by
  unfold plansVia State.catOf
  rw [h]

theorem mem_setAdd (x y : Nat) (l : List Nat) : y ∈ setAdd x l ↔ y = x ∨ y ∈ l := by
  induction l with
  | nil => exact List.mem_singleton.trans (or_iff_left List.not_mem_nil).symm
  | cons z l ih =>
    unfold setAdd
    split
    · exact List.mem_cons
    · split
      next same =>
        subst same
        rw [List.mem_cons, ← or_assoc, or_self]
      · rw [List.mem_cons, ih, List.mem_cons, or_left_comm]

theorem mem_foldl_setAdd (ps l : List Nat) {y : Nat} (h : y ∈ ps ∨ y ∈ l) : y ∈ ps.foldl (fun l p => setAdd p l) l := by
  induction ps generalizing l with
  | nil => exact h.resolve_left List.not_mem_nil
  | cons p ps ih =>
    refine ih _ ?_
    rw [mem_setAdd]
    obtain h | h := h
    · obtain rfl | h := List.mem_cons.mp h
      · exact .inr (.inl rfl)
      · exact .inl h
    · exact .inr (.inr h)

theorem State.takeDown_port (v : State) (p : PortId) : ((v.takeDown p).port p).up = false ∧ ((v.takeDown p).port p).fell = true ∧
    ((v.takeDown p).port p).retry = [] ∧ ((v.takeDown p).port p).txq = [] := by
  have port : (v.takeDown p).port p = _ := v.port_setPort p (fun x => { x with
    up := false, fell := true, retryAt := v.now, txq := [], retry := [], parts := none, liveRx := none, liveTx := [] })
  rw [port]
  exact ⟨rfl, rfl, rfl, rfl⟩

/-- Holdover changes the hall clock alone. -/
theorem State.inHoldover_fields (s : State) (p : PortId) : (s.inHoldover p).fab = s.fab ∧ (s.inHoldover p).mem = s.mem ∧ (s.inHoldover p).now = s.now ∧
    (s.parentPort = some p → bit (s.inHoldover p).hall.stat 1 = true) := by
  unfold inHoldover holdover
  split
  · split
    next hold => exact ⟨rfl, rfl, rfl, fun _ => hold⟩
    · exact ⟨rfl, rfl, rfl, fun _ => bit_setBit_true _ (by decide)⟩
  next other => exact ⟨rfl, rfl, rfl, fun parent => absurd parent other⟩

/-- Settles O36. -/
theorem portEventsComplete : Obligations.PortEventsComplete := by
  intro s p
  refine ⟨fun down => ⟨fun main stage halted recovery => ?_, ?_⟩, fun up => ⟨?_, ?_⟩, fun r rs retry => ?_⟩
  · refine congrArg Host.Outcome.next (if_neg ?_)
    rw [down, main, halted, recovery, decide_eq_false (Nat.not_lt.mpr stage)]
    exact Bool.false_ne_true
  · have time := s.advanceTo_timeOnly (s.port p).retryAt
    refine ⟨_, congrArg Host.Outcome.next (if_neg (Bool.eq_false_iff.mp down)), s.advanceTo_now _, ?_, time.mem, time.cores, fun q other => ?_⟩
    · rw [State.port_setPort]
      rfl
    · rw [State.port_setPort_ne _ _ other]
      exact time.port q
  · let v := s.fallTime p
    have time : s.TimeOnly v := s.fallTime_timeOnly p
    let b := v.takeDown p
    obtain ⟨bUp, bFell, bRetry, bTxq⟩ := v.takeDown_port p
    obtain ⟨only, sent, broken⟩ := State.foldl_pastDown (fun t x down => State.rerouted_pastDown down x) (v.port p).txq bUp
    obtain ⟨fab, mem, now, held⟩ := State.inHoldover_fields ((v.port p).txq.foldl rerouted b) p
    have port : (((v.port p).txq.foldl rerouted b).inHoldover p).port p = ((v.port p).txq.foldl rerouted b).port p :=
      congrArg (fun f : FabState => f.ports.get p) fab
    obtain ⟨only', sent', broken'⟩ := State.reportPort_pastDown (s := ((v.port p).txq.foldl rerouted b).inHoldover p) (p := p)
      (by rw [port]; exact (sent bUp).1) p false
    obtain ⟨up1, fell1, retry1, txq1⟩ := sent bUp
    obtain ⟨up2, fell2, retry2, txq2⟩ := sent' (by rw [port]; exact up1)
    rw [port] at fell2 retry2 txq2
    refine ⟨_, exec_portDown up, up2, fell2.trans (fell1.trans bFell), retry2.trans (retry1.trans bRetry), txq2.trans (txq1.trans bTxq), ?_, ?_, ?_, ?_⟩
    · exact (only'.now.trans (now.trans only.now)).trans (s.fallTime_now p)
    · intro n hn
      rw [broken', fab, broken]
      refine mem_foldl_setAdd _ _ (.inl ?_)
      rw [← plansVia_congr time.fab p] at hn
      exact hn
    · intro parent
      rw [only'.hall]
      refine held ?_
      have stat : ((v.port p).txq.foldl rerouted b).hall.stat = s.hall.stat := (congrArg HallClock.stat only.hall).trans time.stat
      rw [State.parentPort, stat]
      exact parent
    · exact only'.mem.trans (mem.trans (only.mem.trans time.mem))
  · refine ⟨_, congrArg Host.Outcome.next (if_pos up), ?_, ?_, rfl, rfl, fun q other => s.port_setPort_ne _ other⟩
    · rw [State.port_setPort]
      rfl
    · rw [State.port_setPort]
      rfl
  · have time := s.advanceTo_timeOnly (r.sent + 1000)
    have body : exec (.linkReplay p) s = .next ((s.advanceTo (r.sent + 1000)).setPort p (fun x => { x with
        retry := x.retry.map (fun y => { y with sent := (s.advanceTo (r.sent + 1000)).now, replays := y.replays + 1 }) })) := by
      change execLinkReplay p s = _
      unfold execLinkReplay
      rw [retry]
    refine ⟨_, body, s.advanceTo_now _, ?_, time.mem, time.cores, fun q other => ?_⟩
    · rw [State.port_setPort, time.port p]
      rfl
    · rw [State.port_setPort_ne _ _ other]
      exact time.port q

end Sys2Proof.Machine
end

section
/-! CERTIFICATE. Hall time over the links and the catalogue (11 R401, R402, R421 to R431): each event runs its own effect under the condition
it names; a received packet that is taken in has the effect of its type. -/

namespace Sys2Proof.Machine

/-- A packet of its type that is taken in has its effect on the state its reception leaves. -/
theorem onPacket_takes {s u : State} {p : PortId} {k : Packet} {ty : BitVec 5} (h : s.takes p k ty u) (f : State → State) :
    onPacket s p k ty f = .next (f u) := by
  obtain ⟨kind, taken⟩ := h
  unfold onPacket
  rw [if_neg (not_not_intro kind), taken]
  exact congrArg Host.Outcome.next (if_pos rfl)

/-- Clearing a bit clears it. -/
theorem bit_setBit_false (w : U64) {n : Nat} (h : n + 1 ≤ 64) : bit (setBit w n false) n = false := by
  have clear : fld (setBit w n false) n 1 = 0 := fld_setFld w h 0
  rw [fld, Nat.shiftRight_eq_div_pow, pow_one] at clear
  rw [bit, ← BitVec.testBit_toNat, Nat.testBit_eq_decide_div_mod_eq, clear]
  rfl

/-- Settles O37: each event by its own condition; a HELLO and a LIVE by what their reception leaves. -/
theorem hallTimeEventsComplete : Obligations.HallTimeEventsComplete := by
  unfold Obligations.HallTimeEventsComplete
  refine ⟨fun s u p k h => ?_, fun s p up => ?_, fun s notRoot hold => ?_, fun s hold => ?_, fun s u p k sh call ed gen rk ft h body => ?_⟩
  · have same (f : PortSt → PortSt) : (u.setPort p f).parentPort = u.parentPort := rfl
    refine ⟨fun none' => ?_, fun l echo parent sent => ⟨fun none' => ?_, fun t1 t2 some' => ?_⟩⟩
    · change execLive p k s = _
      unfold execLive
      rw [onPacket_takes h]
      dsimp only
      obtain zero | other | unsent := none'
      · rw [zero]
        rfl
      · rw [same, beq_eq_false_iff_ne.mpr other, Bool.and_false]
        rfl
      · rw [unsent, ite_self]
    · change execLive p k s = _
      unfold execLive
      rw [onPacket_takes h]
      dsimp only
      rw [same, echo, parent, beq_self_eq_true, sent, Bool.and_self, if_pos rfl]
      dsimp only
      rw [none']
    · change execLive p k s = _
      unfold execLive
      rw [onPacket_takes h]
      dsimp only
      rw [same, echo, parent, beq_self_eq_true, sent, Bool.and_self, if_pos rfl]
      dsimp only
      rw [some']
  · change execLiveSend p s = _
    unfold execLiveSend
    rw [up]
    rfl
  · change execHtHoldover s = _
    unfold execHtHoldover
    rw [notRoot, hold]
    rfl
  · have run : exec .htSyncLost s = .next (
        let u := s.advanceTo (s.hall.holdFrom + 1000000 * fld s.hall.ctl 8 8)
        { u with hall := { u.hall with stat := setBit u.hall.stat 0 false, good := 0 } }) :=
      congrArg Host.Outcome.next (if_pos hold)
    have kept := State.advanceTo_timeOnly s (s.hall.holdFrom + 1000000 * fld s.hall.ctl 8 8)
    exact ⟨_, run, State.advanceTo_now .., bit_setBit_false _ (by decide), rfl, kept.mem, kept.cores⟩
  · intro v lacks w
    refine ⟨fun none' => ?_, fun c some' => ?_⟩
    · change execHello p k s = _
      unfold execHello
      rw [onPacket_takes h, body]
      change Host.Outcome.next (drainTx (match w.fab.claim with
        | some c => sendLocal w p (.claim c.1 c.2.1)
        | none => w) p) = _
      rw [none']
    · change execHello p k s = _
      unfold execHello
      rw [onPacket_takes h, body]
      change Host.Outcome.next (drainTx (match w.fab.claim with
        | some c => sendLocal w p (.claim c.1 c.2.1)
        | none => w) p) = _
      rw [some']

/-- Settles O38: each event by the conditions it names. -/
theorem catalogueEventsComplete : Obligations.CatalogueEventsComplete := by
  unfold Obligations.CatalogueEventsComplete
  refine ⟨fun s v p k h => ⟨fun r sh body => ?_, fun u body => ?_⟩, fun s k u body cat ok => ?_, fun s u m t mark claim rank cat gen ok => ?_,
    fun s u next => ?_, fun s n e known cat state links down suspects => ?_,
    fun s n u cat draws => ⟨fun x found => ?_, fun none' wants ⟨e, mem, call, active⟩ => ?_⟩⟩
  · change execCatalogueClaim p k s = _
    unfold execCatalogueClaim
    rw [body]
    exact onPacket_takes h _
  · change execCatalogueUpdate (some p) k s = _
    unfold execCatalogueUpdate
    rw [body]
    exact onPacket_takes h _
  · change execCatalogueUpdate none k s = _
    unfold execCatalogueUpdate
    rw [body]
    exact congrArg Host.Outcome.next (if_pos ⟨cat, ok⟩)
  · change execCataloguerElected u s = _
    unfold execCataloguerElected
    rw [mark, claim]
    dsimp only
    rw [if_neg]
    simpa [cat, gen, ok] using rank
  · change execCatalogueUpdateApply s = _
    unfold execCatalogueUpdateApply
    rw [next]
  · change execModuleSuspect n s = _
    unfold execModuleSuspect
    rw [known]
    dsimp only
    rw [if_neg]
    obtain ⟨l, mem, shelf⟩ := links
    have some' : (s.fab.links.filter (fun l => l.2.2.1 == some e.shelf)).isEmpty = false :=
      List.isEmpty_eq_false_iff_exists_mem.mpr ⟨l, List.mem_filter.mpr ⟨mem, beq_iff_eq.mpr shelf⟩⟩
    have none' : (s.fab.links.filter (fun l => l.2.2.1 == some e.shelf)).any (fun l => l.2.2.2) = false := by
      refine List.any_eq_false.mpr fun l mem => ?_
      obtain ⟨known', far⟩ := List.mem_filter.mp mem
      exact Bool.eq_false_iff.mp (down l known' (beq_iff_eq.mp far))
    have fresh : s.fab.suspects.any (fun x => x.call == n) = false :=
      List.any_eq_false.mpr fun x mem => mt beq_iff_eq.mp (suspects x mem)
    simp [cat, state, some', none', fresh]
  · change execModuleWithdrawn n u s = _
    unfold execModuleWithdrawn
    rw [cat, draws, found]
    rfl
  · have takes : u.entries.any (fun e => e.call == n && e.state == .active) = true :=
      List.any_eq_true.mpr ⟨e, mem, by rw [call, active]; exact Bool.and_eq_true_iff.mpr ⟨beq_self_eq_true n, rfl⟩⟩
    change execModuleWithdrawn n u s = _
    unfold execModuleWithdrawn
    rw [cat, draws, none', wants, takes]
    rfl

end Sys2Proof.Machine
end

section
/-! CERTIFICATE. Stores of a core at ring 0 to the device registers (08 R285): what the store comes to by the register block, and each row of the
opcode table by its register. -/

namespace Sys2Proof.Machine

/-! ### The bytes of a number -/

theorem length_leBytes (n x : Nat) : (leBytes n x).length = n := by
  induction n generalizing x with
  | zero => rfl
  | succ n ih => exact congrArg (· + 1) (ih (x / 256))

theorem leNat_leBytes (n x : Nat) : leNat (leBytes n x) = x % 2 ^ (8 * n) := by
  induction n generalizing x with
  | zero => exact (Nat.mod_one x).symm
  | succ n ih =>
    have low : (BitVec.ofNat 8 x).toNat = x % 256 := BitVec.toNat_ofNat x 8
    have split : 2 ^ (8 * (n + 1)) = 256 * 2 ^ (8 * n) := by rw [Nat.mul_add, Nat.add_comm, pow_add]; rfl
    rw [leBytes, leNat, ih, low, split, Nat.mod_mul]

/-! ### A store to the device registers -/

/-- At ring 0 an address is not translated (08 R286). -/
theorem xlateAt_zero (u : State) (c : CoreId) (acc : Acc) (va : U64) : xlateAt c 0 acc va u = .ok va.toNat u := by
  have flat : (u.core c).translated 0 = false := Bool.and_false _
  unfold xlateAt
  refine ok_then rfl ?_
  rw [flat]
  rfl

/-- What a store of n bytes to the device registers does by a core at ring 0 outside any task is the device's own (08 R285). -/
theorem scalarStore_device {u t : State} {c : CoreId} {off x : Nat} {va : U64} {bs : List Byte} (direct : (u.core c).direct)
    (addr : va.toNat = 0xE000000000 + off) (inside : off < 0x700000) (size : 4 ≤ bs.length) (aligned : va.toNat % bs.length = 0)
    (bytes : leNat bs = x) (write : deviceWrite c 0 off bs.length x va u = .ok () t) : scalarStore c va bs u = .ok () t := by
  obtain ⟨ring, task⟩ := direct
  have near : bit va 63 = false := by
    rw [bit, ← BitVec.testBit_toNat]
    exact Nat.testBit_lt_two_pow (by omega)
  have device : isDevice va.toNat = true := by
    rw [addr, isDevice, Bool.and_eq_true_iff, decide_eq_true_iff, decide_eq_true_iff]
    omega
  have wide : decide (bs.length < 4) = false := decide_eq_false (Nat.not_lt.mpr size)
  have free : (u.core c).accTask.isSome = false := by rw [task]; rfl
  have place : va.toNat - 0xE000000000 = off := by omega
  unfold scalarStore
  refine ok_then (trapIf_ok (bne_eq_false_iff_eq.mpr aligned) _ _ _ u) ?_
  refine (congrFun (if_neg (Bool.eq_false_iff.mp near)) u).trans ?_
  refine ok_then (ringOf_run c u) ?_
  rw [ring]
  refine ok_then (xlateAt_zero u c .store _) ?_
  refine (congrFun (if_pos device) u).trans ?_
  refine ok_then (trapIf_ok wide _ _ _ u) ?_
  refine ok_then (coreOf_run c u) ?_
  refine (congrFun (if_neg (Bool.eq_false_iff.mp free)) u).trans ?_
  rw [place, bytes]
  exact write

theorem devStore_done {s u t : State} {c : CoreId} {off n : Nat} {v : U64} (h : s.issued c .plain = some u) (direct : (u.core c).direct)
    (size : n = 4 ∨ n = 8) (inside : off < 0x700000) (aligned : off % n = 0)
    (write : deviceWrite c 0 off n (v.toNat % 2 ^ (8 * n)) (n64 (0xE000000000 + off)) u = .ok () t) : devStore c off n v s = .next (t.done c 4) := by
  have addr : (n64 (0xE000000000 + off)).toNat = 0xE000000000 + off := (BitVec.toNat_ofNat _ 64).trans (Nat.mod_eq_of_lt (by omega))
  have even : (0xE000000000 + off) % n = 0 := by
    obtain rfl | rfl := size <;> omega
  rw [← length_leBytes n v.toNat, ← addr] at even
  refine congrArg Host.Outcome.next (issue_done h rfl (ok_then (scalarStore_device direct addr inside ?_ even (leNat_leBytes n v.toNat) ?_) (nextPC_run ..)) _)
  · rw [length_leBytes]
    omega
  · rw [length_leBytes]
    exact write

/-- The word that a store of 8 bytes at an aligned offset writes. -/
theorem storedWord_eq (v : U64) : n64 ((v.toNat % 2 ^ (8 * 8) % 2 ^ (8 * 8)) <<< (8 * 0)) = v := by
  refine BitVec.eq_of_toNat_eq ((BitVec.toNat_ofNat _ 64).trans ?_)
  rw [Nat.mod_mod, Nat.mod_eq_of_lt v.isLt]
  exact Nat.mod_eq_of_lt v.isLt

/-- A store of a word to the ledger engine block at ring 0 (12 R468). -/
theorem devStore_led {s u : State} {c : CoreId} {o : Nat} {v : U64} (h : s.issued c .plain = some u) (direct : (u.core c).direct)
    (inside : o < 0x100000) (aligned : o % 8 = 0) : devStore c (lgBase + o) 8 v s = .next ((lgWrite u o 0xFFFFFFFFFFFFFFFF#64 v).done c 4) := by
  have block : (lgBase + o) / 0x100000 = 5 := by unfold lgBase; omega
  have offset : (lgBase + o) / 8 * 8 % 0x100000 = o := by unfold lgBase; omega
  have shift : (lgBase + o) % 8 = 0 := by unfold lgBase; omega
  refine devStore_done h direct (.inr rfl) (by unfold lgBase; omega) shift ?_
  unfold deviceWrite
  refine ok_then rfl ?_
  dsimp only
  rw [block, offset, shift, storedWord_eq]
  refine (congrFun (if_neg (by unfold lgBase; omega)) u).trans ?_
  exact ok_then rfl rfl

/-- A store of a trigger at ring 0 while FN6 is enabled (11 R414, R415). -/
theorem devStore_plan {s u t : State} {c : CoreId} {v : U64} (h : s.issued c .plain = some u) (direct : (u.core c).direct)
    (enabled : vget u.cur.fns 6 .enabled = .enabled)
    (write : (if u.led.quiet.isSome then set { u with fab := { u.fab with planErr := true } }
      else do
        waitIf (decide (256 ≤ u.fab.planQ.length))
        set { u with fab := { u.fab with planQ := u.fab.planQ ++ [v] } } : Op Unit) u = .ok () t) :
    devStore c 0x400400 8 v s = .next (t.done c 4) := by
  have on : (vget u.cur.fns 6 .enabled != .enabled) = false := bne_eq_false_iff_eq.mpr enabled
  refine devStore_done h direct (.inr rfl) (by omega) rfl ?_
  unfold deviceWrite
  refine ok_then rfl ?_
  refine ok_then (trapIf_ok on _ _ _ u) ?_
  rw [← storedWord_eq v] at write
  exact write

/-- A store of a word to a mailbox window that serves the core (15 R534). -/
theorem devStore_box {s u : State} {c : CoreId} {mb : MailId} {v : U64} {o : Nat} (h : s.issued c .plain = some u) (direct : (u.core c).direct)
    (serves : boxServes mb.val c 0 = true) (inside : o < 0x10000) (aligned : o % 8 = 0) :
    devStore c (0x10000 * mb.val + o) 8 v s = .next ((boxWrite u mb.val o 8 (v.toNat % 2 ^ 64)).done c 4) := by
  have some' := mb.isLt
  have window : (0x10000 * mb.val + o) / 0x10000 = mb.val := by omega
  have offset : (0x10000 * mb.val + o) % 0x10000 = o := by omega
  refine devStore_done h direct (.inr rfl) (by omega) (by omega) ?_
  unfold deviceWrite
  refine ok_then rfl ?_
  refine (congrFun (if_pos (by omega)) u).trans ?_
  rw [window, offset]
  refine ok_then (trapIf_ok (by rw [serves]; rfl) _ _ _ u) rfl

/-- A store of a job tag (14 R528). -/
theorem devStore_jobtag {s u : State} {c : CoreId} {v : U64} (h : s.issued c .plain = some u) (direct : (u.core c).direct) :
    devStore c 0x200030 8 v s = .next ((setJobtag u v).done c 4) := by
  refine devStore_done h direct (.inr rfl) (by omega) rfl ?_
  have word : n64 ((v.toNat % 2 ^ (8 * 8) % 2 ^ (8 * 8)) <<< (8 * (0x200030 % 8))) = v := storedWord_eq v
  unfold deviceWrite
  refine ok_then rfl ?_
  rw [word]
  rfl

/-- A store of a 1 to a mailbox's door (15 R536). -/
theorem boxWrite_door {u : State} {mb : Nat} {v : U64} (one : bit v 0 = true) : boxWrite u mb 0 8 (v.toNat % 2 ^ 64) = postSlip u mb := by
  rw [← storedWord_eq v] at one
  exact if_pos one

/-- A store of a 1 to a mailbox's NPOP (15 R535). -/
theorem boxWrite_pop {u : State} {mb : Nat} {v : U64} (one : bit v 0 = true) : boxWrite u mb 0x18 8 (v.toNat % 2 ^ 64) = popNotice u mb := by
  rw [← storedWord_eq v] at one
  exact if_pos one

/-! ### The rows of the ledger engine block (12 R468; 13 R476, R480, R500) -/

/-- A post of counts alone (12 R465). -/
theorem lgPost_twin (u : State) {t3 tx : BitVec 16} (some' : t3 ≠ 0 ∨ tx ≠ 0) :
    lgPost u (n64 (t3.toNat <<< 16 + tx.toNat <<< 32)) = postTwin u t3.toNat tx.toNat := by
  have h3 := t3.isLt
  have hx := tx.isLt
  have word : (n64 (t3.toNat <<< 16 + tx.toNat <<< 32)).toNat = t3.toNat * 65536 + tx.toNat * 4294967296 := by
    refine (BitVec.toNat_ofNat _ 64).trans ?_
    rw [Nat.shiftLeft_eq, Nat.shiftLeft_eq]
    omega
  have low (i : Nat) (hi : i < 3) : bit (n64 (t3.toNat <<< 16 + tx.toNat <<< 32)) i = false := by
    rw [bit, ← BitVec.testBit_toNat, word, Nat.testBit_eq_decide_div_mod_eq, decide_eq_false_iff_not]
    obtain rfl | rfl | rfl : i = 0 ∨ i = 1 ∨ i = 2 := by omega
    all_goals omega
  have third : fld (n64 (t3.toNat <<< 16 + tx.toNat <<< 32)) 16 16 = t3.toNat := by
    rw [fld_eq_div, word]
    omega
  have excess : fld (n64 (t3.toNat <<< 16 + tx.toNat <<< 32)) 32 16 = tx.toNat := by
    rw [fld_eq_div, word]
    omega
  have counts : fld (n64 (t3.toNat <<< 16 + tx.toNat <<< 32)) 16 32 ≠ 0 := by
    rw [fld_eq_div, word]
    obtain h | h := some' <;> rw [ne_eq, ← BitVec.toNat_inj] at h <;> change _ ≠ 0 at h <;> omega
  unfold lgPost
  rw [if_pos counts, low 0 (by decide), low 1 (by decide), low 2 (by decide), third, excess]
  rfl

/-- A store to LG_START while IDLE with nothing sealed (12 R468). -/
theorem lgWrite_start {u : State} (k : U64) (idle : u.led.st = 0) (fresh : u.led.sealed = false) :
    lgWrite u 0x010 0xFFFFFFFFFFFFFFFF#64 k = shareCap (lgStart u k) := by
  have closed : ¬(u.led.st ≠ 0 ∨ u.led.sealed = true) := by simp [idle, fresh]
  exact if_neg closed

/-- A store to LG_SEAL (12 R446). -/
theorem lgWrite_seal (u : State) (d : Bool) : lgWrite u 0x018 0xFFFFFFFFFFFFFFFF#64 (n64 (1 + 2 * b01 d)) = lgSealGo u d := by
  cases d <;> rfl

/-- Settles O39: each row is the store of its word to its register. -/
theorem deviceStoresComplete : Obligations.DeviceStoresComplete := by
  unfold Obligations.DeviceStoresComplete
  refine ⟨fun s u c h direct => ?_, fun s u c mb v h direct serves set' => ⟨?_, ?_⟩⟩
  · have store (o : Nat) (v : U64) (inside : o < 0x100000) (aligned : o % 8 = 0) := devStore_led (o := o) (v := v) h direct inside aligned
    refine ⟨fun v on => ⟨fun quiet room => ?_, fun quiet => ?_⟩, fun k idle fresh => ?_, fun d => ?_, ?_, ?_, ?_, fun t3 tx some' => ?_, ?_, ?_, ?_, ?_, ?_,
      fun k => ?_, fun v => ?_, fun off wide v t => ?_⟩
    · refine devStore_plan h direct on ?_
      rw [quiet]
      exact ok_then (waitIf_ok (decide_eq_false (Nat.not_le.mpr room)) u) rfl
    · refine devStore_plan h direct on ?_
      rw [Option.isSome_iff_ne_none.mpr quiet]
      rfl
    · rw [← lgWrite_start k idle fresh]
      exact store 0x010 k (by decide) (by decide)
    · rw [← lgWrite_seal u d]
      exact store 0x018 _ (by decide) (by decide)
    · exact store 0x080 1 (by decide) (by decide)
    · exact store 0x080 2 (by decide) (by decide)
    · exact store 0x080 4 (by decide) (by decide)
    · rw [← lgPost_twin u some']
      exact store 0x080 _ (by decide) (by decide)
    · exact store 0x238 1 (by decide) (by decide)
    · exact store 0x238 2 (by decide) (by decide)
    · exact store 0x238 4 (by decide) (by decide)
    · exact store 0x238 8 (by decide) (by decide)
    · exact store 0x238 16 (by decide) (by decide)
    · exact store 0x268 k (by decide) (by decide)
    · exact devStore_jobtag h direct
    · intro n inside aligned write
      refine devStore_done h direct ?_ inside aligned write
      cases wide
      · exact .inl rfl
      · exact .inr rfl
  · refine (devStore_box (o := 0) h direct serves (by decide) rfl).trans ?_
    rw [boxWrite_door set']
  · refine (devStore_box (o := 0x18) h direct serves (by decide) rfl).trans ?_
    rw [boxWrite_pop set']

end Sys2Proof.Machine
end

section
/-! CERTIFICATE. Requests from the hall, answers to this module's own, and circulation plans (11 R404 to R419, R428). -/

namespace Sys2Proof.Machine

/-- A packet for another module that its link accepts goes on from the state its link leaves (11 R404, R405). -/
theorem receive_forwards {s u : State} {p : PortId} {k : Packet} (link : linkIn s p k = (u, true)) (form : formOk k = true)
    (other : forHere s k = false) (current : s.overtaken k.scall.toNat k.sed.toNat = false) :
    receive s p k = (forward (u.notePlan p k) p k, false) := by
  have checks : s.SameChecks (u.notePlan p k) := by
    have left := linkIn_sameChecks s p k
    rw [link] at left
    exact left.trans (u.notePlan_sameLinks p k).toSameChecks
  obtain ⟨kind, bits⟩ := Bool.and_eq_true_iff.mp form
  unfold receive
  dsimp only
  rw [link, kind, bits, checks.overtaken, current, checks.forHere, other]
  simp only [Bool.not_true, Bool.false_eq_true, if_false, and_false]

/-- Settles O40: each request by what its reception leaves; what is for another module by the checks of its link. -/
theorem receivedRequestsComplete : Obligations.ReceivedRequestsComplete := by
  unfold Obligations.ReceivedRequestsComplete
  refine fun s u p k => ⟨fun h => ?_, fun h => ?_, fun h => ?_, fun h => ?_, fun link form other current _ => ?_⟩
  · exact show execRdreq p k s = _ from onPacket_takes h _
  · exact show execWrreq p k s = _ from onPacket_takes h _
  · exact show execAtomreq p k s = _ from onPacket_takes h _
  · exact show execProbe p k s = _ from onPacket_takes h _
  · change execPacketForward p k s = _
    unfold execPacketForward
    dsimp only
    rw [other, receive_forwards link form other current, Bool.and_false]
    rfl

/-- Settles O41: each answer by the request it names. -/
theorem receivedAnswersComplete : Obligations.ReceivedAnswersComplete := by
  unfold Obligations.ReceivedAnswersComplete
  refine ⟨fun s u p k q => ⟨fun h asked read => ⟨fun status => ?_, fun status none' => ?_, fun c t status some' => ?_⟩, fun h asked read atomic => ?_,
    fun h asked atomic => ?_, fun h => ?_, fun known lost => ?_, fun h => ?_, fun h => ?_,
    fun h => ?_⟩, fun s tag q known => ?_⟩
  · change execRdresp p k s = _
    unfold execRdresp
    rw [onPacket_takes h, asked]
    dsimp only
    rw [read, beq_eq_false_iff_ne.mpr status]
    rfl
  · change execRdresp p k s = _
    unfold execRdresp
    rw [onPacket_takes h, asked]
    dsimp only
    rw [read, none', beq_iff_eq.mpr status]
    rfl
  · change execRdresp p k s = _
    unfold execRdresp
    rw [onPacket_takes h, asked]
    dsimp only
    rw [read, some', beq_iff_eq.mpr status]
    rfl
  · change execWrack p k s = _
    unfold execWrack
    rw [onPacket_takes h, asked]
    dsimp only
    rw [read, atomic]
    rfl
  · change execAtomresp p k s = _
    unfold execAtomresp
    rw [onPacket_takes h, asked]
    dsimp only
    rw [if_pos atomic]
  · change execRefuse (some p) k s = _
    unfold execRefuse
    exact onPacket_takes h _
  · change execRefuse none k s = _
    unfold execRefuse
    dsimp only
    rw [known]
    dsimp only
    rw [if_pos lost]
  · exact show execProberesp p k s = _ from onPacket_takes h _
  · exact show execWatchrel p k s = _ from onPacket_takes h _
  · exact show execWatchbreak p k s = _ from onPacket_takes h _
  · change execRequestTimeout tag s = _
    unfold execRequestTimeout
    rw [known]

/-- Settles O42: a trigger by its plan's kind, a packet by the plan it names. -/
theorem planEventsComplete : Obligations.PlanEventsComplete := by
  unfold Obligations.PlanEventsComplete
  refine ⟨fun s w r queue => ?_, fun s u p k e => ?_, fun s p e t plan rel => ?_⟩
  · intro p len off
    refine ⟨fun none' => ?_, fun e plan => ⟨fun bad => ?_, fun whole quiet => ⟨fun some' inside => ⟨fun kind home => ?_, fun kind root => ?_⟩,
      fun kind home ready' => ?_⟩⟩⟩
    · change execPlanTrigger s = _
      unfold execPlanTrigger
      rw [queue]
      dsimp only
      rw [none']
    · change execPlanTrigger s = _
      unfold execPlanTrigger
      rw [queue]
      dsimp only
      rw [plan]
      dsimp only
      rw [if_pos]
      obtain broken | quiet | wrong := bad
      · rw [broken]
        rfl
      · rw [quiet, Bool.or_true]
        rfl
      · refine Bool.or_eq_true_iff.mpr (.inr ?_)
        simpa using wrong
    · change execPlanTrigger s = _
      unfold execPlanTrigger
      rw [queue]
      dsimp only
      rw [plan]
      dsimp only
      rw [whole, quiet, kind, if_neg, home]
      · rfl
      · simpa using ⟨some', inside⟩
    · change execPlanTrigger s = _
      unfold execPlanTrigger
      rw [queue]
      dsimp only
      rw [plan]
      dsimp only
      rw [whole, quiet, kind, if_neg, root]
      · rfl
      · simpa using ⟨some', inside⟩
    · change execPlanTrigger s = _
      unfold execPlanTrigger
      rw [queue]
      dsimp only
      rw [plan]
      dsimp only
      rw [whole, quiet, kind, if_neg, home, ready']
      · rfl
      · simp
  · intro n plan whole
    have named : u.plan k.plan.toNat = some e := plan
    have intact : ¬u.fab.broken.contains k.plan.toNat = true := Bool.eq_false_iff.mp whole
    refine ⟨fun j kid => ⟨fun h kind => ?_, fun h kind => ?_⟩, fun root parent => ⟨fun h kind => ?_, fun h kind => ?_⟩⟩
    · change execReduce p k s = _
      unfold execReduce
      rw [onPacket_takes h]
      dsimp only
      rw [named]
      dsimp only
      rw [kid]
      dsimp only
      rw [if_neg (not_or.mpr ⟨not_not_intro kind, intact⟩)]
    · change execHarrive p k s = _
      unfold execHarrive
      rw [onPacket_takes h]
      dsimp only
      rw [named]
      dsimp only
      rw [kid]
      dsimp only
      rw [if_neg (not_or.mpr ⟨not_not_intro kind, intact⟩)]
    · change execMcast p k s = _
      unfold execMcast
      rw [onPacket_takes h]
      dsimp only
      rw [named]
      dsimp only
      rw [if_neg]
      simpa [kind, root, parent] using intact
    · change execHrelease p k s = _
      unfold execHrelease
      rw [onPacket_takes h]
      dsimp only
      rw [named]
      dsimp only
      rw [if_neg]
      simpa [kind, root, parent] using intact
  · change execHallBarrierArrive p s = _
    unfold execHallBarrierArrive
    rw [plan, rel]

end Sys2Proof.Machine
end

section
/-! CERTIFICATE. The seal (12 R447 to R464; 13 R488, R489): the vote, the messages of the seal tree, the outcomes and the tests. -/

namespace Sys2Proof.Machine

/-- A LEDGER packet of its kind that is taken in comes to the ledger engine. -/
theorem ledPacket_takes {s v : State} {p : PortId} {k : Packet} {kind : Nat} (h : s.takes p k tyLEDGER v) (plan : k.plan.toNat = kind) :
    ledPacket s p k kind = .next (ledReceive v p k) :=
  (if_pos plan).trans (onPacket_takes h _)

/-- A LEDGER packet that is not for the step is dropped (12 R462). -/
theorem ledPacket_drops {s v : State} {p : PortId} {k : Packet} {kind : Nat} (h : s.takes p k tyLEDGER v) (stranger : ledAdmits v k = false)
    (plan : k.plan.toNat = kind) : ledPacket s p k kind = .next (v.owe (some p) k).drop := by
  rw [ledPacket_takes h plan, ledReceive, stranger]
  rfl

/-- A LEDGER packet that is for the step acts while FN7 takes packets (12 R462). -/
theorem ledPacket_acts {s v : State} {p : PortId} {k : Packet} {kind : Nat} (h : s.takes p k tyLEDGER v) (admits : ledAdmits v k = true)
    (works : vget v.cur.fns 7 .enabled = .enabled) (plan : k.plan.toNat = kind) :
    ledPacket s p k kind = .next (ledMessage (v.owe (some p) k) k) := by
  rw [ledPacket_takes h plan, ledReceive, admits, works]
  rfl

/-- Settles O43: each event by the conditions it names, each message by its kind. -/
theorem sealEventsComplete : Obligations.SealEventsComplete := by
  unfold Obligations.SealEventsComplete
  refine ⟨fun s opened vote st post kids => ?_, fun s v p k h => ?_, fun s works => ⟨fun o outcome => ⟨fun clean => ?_, fun dirty => ?_⟩, fun t quiet => ?_,
    fun t window => ?_⟩, fun s => ?_⟩
  · have ready' : (s.led.post.isNone || s.led.fresh) = true := by
      obtain none' | fresh := post
      · rw [none']
        rfl
      · rw [fresh, Bool.or_true]
    have all' : s.led.voting.all (fun c => s.led.kidVotes.any (fun v => v.1 == c)) = true := by
      refine List.all_eq_true.mpr fun c mem => ?_
      obtain ⟨v, mem', call⟩ := kids c mem
      exact List.any_eq_true.mpr ⟨v, mem', beq_iff_eq.mpr call⟩
    change execVoteSend s = _
    unfold execVoteSend
    rw [opened, vote, st, ready', all']
    rfl
  · have plan (n : BitVec 12) (is : k.plan = n) : k.plan.toNat = n.toNat := congrArg BitVec.toNat is
    refine ⟨fun stranger => ?_, fun admits acts works => ?_⟩
    · exact ⟨fun is => ledPacket_drops h stranger (plan _ is), fun is => ledPacket_drops h stranger (plan _ is),
        fun is => ledPacket_drops h stranger (plan _ is), fun is => ledPacket_drops h stranger (plan _ is),
        fun is => ledPacket_drops h stranger (plan _ is), fun is => ledPacket_drops h stranger (plan _ is)⟩
    · have act {n : BitVec 12} (is : k.plan = n) : ledPacket s p k n.toNat = .next (ledMessage (v.owe (some p) k) k) :=
        ledPacket_acts h admits works (plan n is)
      refine ⟨fun is => (act is).trans ?_, fun is => (act is).trans ?_, fun is => (act is).trans ?_, fun is => (act is).trans ?_,
        fun is => (act is).trans ?_, fun is => (act is).trans ?_⟩
      all_goals
        unfold ledMessage
        rw [acts, plan _ is]
        rfl
  · change execSealedOutcomeApply s = _
    unfold execSealedOutcomeApply
    rw [outcome]
    dsimp only
    rw [clean, works]
    rfl
  · change execReplayOutcomeApply s = _
    unfold execReplayOutcomeApply
    rw [outcome]
    dsimp only
    rw [dirty, works]
    rfl
  · change execReplayQuietFlush s = _
    unfold execReplayQuietFlush
    rw [quiet]
    dsimp only
    rw [works]
    rfl
  · refine ⟨fun none' => ?_, fun some' => ?_⟩
    · change execFieldTestWindowEnd s = _
      unfold execFieldTestWindowEnd
      rw [window]
      dsimp only
      rw [works, none']
      rfl
    · change execFieldTestWindowEnd s = _
      unfold execFieldTestWindowEnd
      rw [window]
      dsimp only
      rw [works, if_pos (Option.isSome_iff_ne_none.mpr some')]
      rfl
  · refine ⟨fun reserve none' => ?_, fun mb seq some' => ?_⟩
    · change execReserveTestCycle s = _
      unfold execReserveTestCycle
      rw [if_neg (fun both => both.1 reserve), none']
    · change execReserveTestCycle s = _
      unfold execReserveTestCycle
      rw [some', if_neg (fun both => Bool.false_ne_true both.2)]

end Sys2Proof.Machine
end

section
/-! SUPPORT. Time passing to a hall time or a tick. CERTIFICATE. Power measurements, limiters, droop, the thermal reading, array gates and the broker
(14 R511 to R529). -/

namespace Sys2Proof.Machine

/-! ### Time -/

theorem State.toHall_timeOnly (s : State) (x : U64) : s.TimeOnly (s.toHall x) := by
  unfold State.toHall
  dsimp only
  split
  · exact .refl s
  · exact ⟨_, _, _, _, rfl, rfl⟩

theorem State.advanceTo_eq (s : State) (x : Nat) :
    ∃ hall clk free, s.advanceTo x = { s with now := max s.now x, hall := hall, clk := clk, free := free } := by
  obtain ⟨now, hall, clk, free, eq, _⟩ := s.advanceTo_timeOnly x
  have time : max s.now x = now := by rw [← s.advanceTo_now x, eq]
  exact ⟨hall, clk, free, by rw [eq, time]⟩

/-- The next tick of a periodic measurement moves the clocks and notes the tick. -/
theorem State.tickTo_eq (s : State) (i period : Nat) : ∃ hall clk free ticks, s.tickTo i period =
    { s with now := max s.now (vget s.pow.ticks i 0 + period), hall := hall, clk := clk, free := free, pow := { s.pow with ticks := ticks } } := by
  obtain ⟨hall, clk, free, eq⟩ := s.advanceTo_eq (vget s.pow.ticks i 0 + period)
  unfold State.tickTo
  dsimp only
  rw [eq]
  exact ⟨hall, clk, free, _, rfl⟩

/-! ### Stretches -/

/-- A stretch that may begin is counted in PW_STAT and noted in the ledger state. -/
theorem stretchIf_eq (c : Prop) [Decidable c] (s : State) :
    ∃ stat led, (if c then stretchEpisode s else s) = { s with pow := { s.pow with stat := stat }, led := led } := by
  split
  · exact ⟨_, _, rfl⟩
  · exact ⟨_, _, rfl⟩

section
variable (c : Prop) [Decidable c] (s : State)

theorem stretchIf_mem : (if c then stretchEpisode s else s).mem = s.mem := by
  obtain ⟨_, _, eq⟩ := stretchIf_eq c s
  rw [eq]

theorem stretchIf_cores : (if c then stretchEpisode s else s).cores = s.cores := by
  obtain ⟨_, _, eq⟩ := stretchIf_eq c s
  rw [eq]

theorem stretchIf_plat : (if c then stretchEpisode s else s).plat = s.plat := by
  obtain ⟨_, _, eq⟩ := stretchIf_eq c s
  rw [eq]

end

/-! ### The events -/

theorem powerMeasurement_runs (s : State) (w : BitVec 16) : ∃ t, exec (.powerMeasurement w) s = .next t ∧
    (let nj := s.pow.energyFrac + w.toNat * (t.now - vget s.pow.ticks 0 0)
     t.pow.energy = s.pow.energy + n64 (nj / 1000000) ∧ t.pow.energyFrac = nj % 1000000) ∧
    t.pow.full = (decide (2800 < w.toNat) || (s.pow.full && w.toNat == 2800)) ∧ t.now = max s.now (vget s.pow.ticks 0 0 + 1000) ∧
    t.mem = s.mem ∧ t.cores = s.cores := by
  change ∃ t, execPowerMeasurement w s = .next t ∧ _
  unfold execPowerMeasurement
  dsimp only
  obtain ⟨hall, clk, free, ticks, tick⟩ := s.tickTo_eq 0 1000
  rw [tick]
  obtain ⟨stat, led, stretch⟩ := stretchIf_eq (2800 < w.toNat ∧ !s.pow.full) { s with
    now := max s.now (vget s.pow.ticks 0 0 + 1000), hall := hall, clk := clk, free := free, pow := { s.pow with ticks := ticks } }
  rw [stretch]
  exact ⟨_, rfl, ⟨rfl, rfl⟩, rfl, rfl, rfl, rfl⟩

theorem averageLimiterTick_runs (s : State) (w : BitVec 16) : ∃ t, exec (.averageLimiterTick w) s = .next t ∧ t.pow.pin10 = w.toNat ∧
    t.pow.lim = (if 2400 < w.toNat then min 8 (s.pow.lim + 1) else if w.toNat ≤ 2375 then s.pow.lim - 1 else s.pow.lim) ∧
    t.mem = s.mem ∧ t.cores = s.cores := by
  change ∃ t, execAverageLimiterTick w s = .next t ∧ _
  unfold execAverageLimiterTick
  obtain ⟨hall, clk, free, ticks, tick⟩ := s.tickTo_eq 2 100000
  rw [tick]
  dsimp only
  obtain ⟨stat, led, stretch⟩ := stretchIf_eq (s.pow.lim = 0) (State.modPow { s with
    now := max s.now (vget s.pow.ticks 2 0 + 100000), hall := hall, clk := clk, free := free, pow := { s.pow with ticks := ticks } }
    (fun p => { p with pin10 := w.toNat }))
  split
  · exact ⟨_, congrArg (fun u : State => Host.Outcome.next (u.modPow (fun p => { p with lim := min 8 (p.lim + 1) }))) stretch, rfl, rfl, rfl, rfl⟩
  · split
    · exact ⟨_, rfl, rfl, rfl, rfl, rfl⟩
    · exact ⟨_, rfl, rfl, rfl, rfl, rfl⟩

theorem capStretchTick_runs (s : State) (w : BitVec 16) (fixed : s.pow.fixed = true) : ∃ t, exec (.capStretchTick w) s = .next t ∧
    t.pow.pin = w.toNat ∧
    t.pow.capStr = (if s.pow.cap64 < 64 * w.toNat then min 8 (s.pow.capStr + 1)
      else if 64 * (w.toNat + 25) ≤ s.pow.cap64 then s.pow.capStr - 1 else s.pow.capStr) ∧ t.mem = s.mem ∧ t.cores = s.cores := by
  change ∃ t, execCapStretchTick w s = .next t ∧ _
  unfold execCapStretchTick
  obtain ⟨hall, clk, free, ticks, tick⟩ := s.tickTo_eq 3 1000000
  rw [tick]
  dsimp only
  obtain ⟨stat, led, stretch⟩ := stretchIf_eq (s.pow.capStr = 0) (State.modPow { s with
    now := max s.now (vget s.pow.ticks 3 0 + 1000000), hall := hall, clk := clk, free := free, pow := { s.pow with ticks := ticks } }
    (fun p => { p with pin := w.toNat }))
  have acts : ¬(!s.pow.fixed) = true := by rw [fixed]; exact Bool.false_ne_true
  by_cases hot : s.pow.cap64 < 64 * w.toNat
  · have run := congrArg (fun u : State => Host.Outcome.next (φ := Fault) (ρ := Refusal) (u.modPow (fun p => { p with capStr := min 8 (p.capStr + 1) }))) stretch
    exact ⟨_, (congrArg Host.Outcome.next ((if_neg acts).trans (if_pos hot))).trans run, rfl, (if_pos hot).symm, rfl, rfl⟩
  · by_cases cool : 64 * (w.toNat + 25) ≤ s.pow.cap64
    · exact ⟨_, congrArg Host.Outcome.next ((if_neg acts).trans ((if_neg hot).trans (if_pos cool))), rfl, ((if_neg hot).trans (if_pos cool)).symm, rfl, rfl⟩
    · exact ⟨_, congrArg Host.Outcome.next ((if_neg acts).trans ((if_neg hot).trans (if_neg cool))), rfl, ((if_neg hot).trans (if_neg cool)).symm, rfl, rfl⟩

/-- A trip leaves the depths of the other detectors, and sets one of 1 to 8 (14 R523). -/
theorem droopTrip_runs (s : State) (q : Fin 5) (d : BitVec 8) (deep : 40 < d.toNat) (within : d.toNat ≤ 100) :
    ∃ t, exec (.droopTrip q d) s = .next t ∧ (t.pow.droop.get q).tripped = true ∧ 1 ≤ (t.pow.droop.get q).depth ∧
    (t.pow.droop.get q).depth ≤ 8 ∧ (∀ r, r ≠ q → t.pow.droop.get r = s.pow.droop.get r) ∧ t.mem = s.mem ∧ t.cores = s.cores := by
  have run : ∃ (p : PowState) (n : Nat), p.droop = s.pow.droop ∧ exec (.droopTrip q d) s = .next { s with
      free := s.free + 1, pow := { p with droop := p.droop.set q { tripped := true, depth := n % 8 + 1 } } } := by
    refine ⟨_, _, ?_, (if_neg (Nat.not_lt.mpr within)).trans (congrArg Host.Outcome.next (if_neg (Nat.not_le.mpr deep)))⟩
    split
    · split
      · split <;> rfl
      · split <;> rfl
    · split <;> rfl
  obtain ⟨p, n, same, run⟩ := run
  have at' : (p.droop.set q { tripped := true, depth := n % 8 + 1 }).get q = { tripped := true, depth := n % 8 + 1 } :=
    Vector.getElem_set_self q.isLt
  refine ⟨_, run, congrArg (·.tripped) at', ?_, ?_, fun r other => ?_, rfl, rfl⟩
  · rw [congrArg (·.depth) at']
    exact Nat.le_add_left 1 _
  · rw [congrArg (·.depth) at']
    exact Nat.mod_lt n (by decide)
  · refine (Vector.getElem_set_ne q.isLt r.isLt fun e => other (Fin.ext e.symm)).trans ?_
    exact congrArg (fun v : Vector _ 5 => v.get r) same

theorem droopClear_runs (s : State) (q : Fin 5) (tripped : (s.pow.droop.get q).tripped = true) : ∃ t, exec (.droopClear q) s = .next t ∧
    (t.pow.droop.get q).tripped = false ∧ (t.pow.droop.get q).depth = 0 ∧ t.mem = s.mem ∧ t.cores = s.cores := by
  have at' : (s.pow.droop.set q { tripped := false, depth := 0 }).get q = { tripped := false, depth := 0 } := Vector.getElem_set_self q.isLt
  have run : ∃ at'', exec (.droopClear q) s = .next { s with
      pow := { s.pow with droop := s.pow.droop.set q { tripped := false, depth := 0 }, clearAt := at'' } } := by
    change ∃ at'', execDroopClear q s = _
    unfold execDroopClear
    rw [tripped]
    by_cases clear : PowState.clear { s.pow with droop := s.pow.droop.set q { tripped := false, depth := 0 } } = true
    · exact ⟨s.now, congrArg (fun p => Host.Outcome.next { s with pow := p }) (if_pos clear)⟩
    · exact ⟨s.pow.clearAt, congrArg (fun p => Host.Outcome.next { s with pow := p }) (if_neg clear)⟩
  obtain ⟨_, run⟩ := run
  exact ⟨_, run, congrArg (·.tripped) at', congrArg (·.depth) at', rfl, rfl⟩

/-- The state that a reading `x` of the hottest junction has been latched in (17 R597). -/
def heated (x : BitVec 8) (u : State) : State := { u with plat := { u.plat with
  tjLast := Int.ofNat x.toNat, stTemp := if decide (u.pow.throt.toNat < x.toNat) then u.plat.stTemp ||| 0x40#8 else u.plat.stTemp } }

/-- What a reading `x` at `now` makes of the power unit, by whether it is hot, whether it is cool and whether a step is due (14 R529). -/
def throttled (x : BitVec 8) (now : Nat) (hot cool due : Bool) (p : PowState) : PowState :=
  let p := { p with tj := x }
  let p := if !due then p
    else if hot then { p with
      thStep := now, thDrop := if p.fixed then p.thDrop else min 750 (p.thDrop + 25), thStr := if p.fixed then min 8 (p.thStr + 1) else p.thStr }
    else if cool then { p with thStep := now, thDrop := p.thDrop - 25, thStr := p.thStr - 1 }
    else p
  { p with thr := hot || p.thDrop != 0 || p.thStr != 0 }

theorem throttled_tj (x : BitVec 8) (now : Nat) (hot cool due : Bool) (p : PowState) : (throttled x now hot cool due p).tj = x := by
  cases due
  · rfl
  · cases hot
    · cases cool <;> rfl
    · rfl

theorem throttled_hot (x : BitVec 8) (now : Nat) (cool due : Bool) (p : PowState) : (throttled x now true cool due p).thr = true := rfl

/-- A reading, after the tick to its time. -/
theorem execThermalRead_ticked (s u : State) (x : BitVec 8) (main : s.plat.main = true) (tick : s.tickTo 4 100000 = u) :
    ∃ (c cool due : Bool) (now : Nat), execThermalRead x s = .next ((if c then stretchEpisode (heated x u) else heated x u).modPow
      (throttled x now (decide (u.pow.throt.toNat < x.toNat)) cool due)) := by
  have on : ¬(!s.plat.main) = true := by rw [main]; exact Bool.false_ne_true
  unfold execThermalRead
  rw [if_neg on, tick]
  exact ⟨_, decide (x.toNat + 3 ≤ u.pow.throt.toNat), decide (u.pow.thStep + 1000000 ≤ u.now), _, rfl⟩

theorem thermalRead_runs (s : State) (x : BitVec 8) (main : s.plat.main = true) : ∃ t, exec (.thermalRead x) s = .next t ∧ t.pow.tj = x ∧
    (s.pow.throt.toNat < x.toNat → t.pow.thr = true ∧ t.plat.stTemp = s.plat.stTemp ||| 0x40#8) ∧ t.mem = s.mem ∧ t.cores = s.cores := by
  obtain ⟨hall, clk, free, ticks, tick⟩ := s.tickTo_eq 4 100000
  obtain ⟨u, is⟩ : ∃ u, s.tickTo 4 100000 = u := ⟨_, rfl⟩
  rw [is] at tick
  have throt : u.pow.throt = s.pow.throt := congrArg (·.pow.throt) tick
  have plat : u.plat = s.plat := congrArg (·.plat) tick
  obtain ⟨c, cool, due, now, run⟩ := execThermalRead_ticked s u x main is
  refine ⟨_, run, throttled_tj .., fun hot => ⟨?_, ?_⟩, (stretchIf_mem ..).trans (congrArg (·.mem) tick),
    (stretchIf_cores ..).trans (congrArg (·.cores) tick)⟩
  · rw [throt, decide_eq_true hot]
    exact throttled_hot ..
  · have latched : (heated x u).plat.stTemp = s.plat.stTemp ||| 0x40#8 := by
      unfold heated
      rw [throt, plat, decide_eq_true hot]
      rfl
    exact (congrArg PlatState.stTemp (stretchIf_plat ..)).trans latched

theorem arrayGateOpen_runs (s : State) (q : QuadId) (x : U64) (opens : (s.pow.gates.get q).opens = some x) :
    ∃ t, exec (.arrayGateOpen q) s = .next t ∧
    t.pow.gates.get q = { s.pow.gates.get q with opens := none, step := 1, stepEnd := t.hall.now + 250 } ∧ t.mem = s.mem ∧ t.cores = s.cores := by
  obtain ⟨now, hall, clk, free, eq, _⟩ := s.toHall_timeOnly x
  change ∃ t, execArrayGateOpen q s = .next t ∧ _
  unfold execArrayGateOpen
  rw [opens]
  dsimp only
  rw [eq]
  exact ⟨_, rfl, Vector.getElem_set_self q.isLt, rfl, rfl⟩

theorem rampStep_runs (s : State) (q : QuadId) (ramps : (s.pow.gates.get q).step ≠ 0) (opened : (s.pow.gates.get q).opens = none) :
    ∃ t, exec (.rampStep q) s = .next t ∧
    (t.pow.gates.get q).step = (if (s.pow.gates.get q).step = 8 then 0 else (s.pow.gates.get q).step + 1) ∧ t.mem = s.mem ∧ t.cores = s.cores := by
  obtain ⟨now, hall, clk, free, eq, _⟩ := s.toHall_timeOnly (s.pow.gates.get q).stepEnd
  have moves : ¬((s.pow.gates.get q).step = 0 ∨ (s.pow.gates.get q).opens.isSome = true) := by
    rw [opened]
    exact not_or.mpr ⟨ramps, Bool.false_ne_true⟩
  change ∃ t, execRampStep q s = .next t ∧ _
  unfold execRampStep
  dsimp only
  rw [if_neg moves, eq]
  exact ⟨_, rfl, congrArg ArrayGate.step (Vector.getElem_set_self q.isLt), rfl, rfl⟩

theorem brokerMeanTimeout_runs (s : State) (a : Nat) (ms : List (Nat × Nat × Nat)) (broker : s.pow.broker = some (a, ms)) :
    ∃ t, exec .brokerMeanTimeout s = .next t ∧ t.pow.broker = none ∧ t.now = max s.now (a + 1000000) ∧ t.mem = s.mem ∧ t.cores = s.cores := by
  obtain ⟨hall, clk, free, eq⟩ := s.advanceTo_eq (a + 1000000)
  change ∃ t, execBrokerMeanTimeout s = .next t ∧ _
  unfold execBrokerMeanTimeout
  rw [broker]
  dsimp only
  rw [eq]
  exact ⟨_, rfl, rfl, rfl, rfl, rfl⟩

/-- Settles O47: each event by its own lemma. -/
theorem powerEventsComplete : Obligations.PowerEventsComplete := by
  unfold Obligations.PowerEventsComplete
  refine ⟨powerMeasurement_runs, averageLimiterTick_runs, capStretchTick_runs, droopTrip_runs, droopClear_runs, thermalRead_runs, arrayGateOpen_runs,
    rampStep_runs, brokerMeanTimeout_runs, fun s u p k ws h body => ?_⟩
  change execMeanSlack p k s = _
  unfold execMeanSlack
  rw [body]
  exact onPacket_takes h _

end Sys2Proof.Machine
end

section
/-! CERTIFICATE. The input and its trips, HALL_REF, PMBus and JTAG (14 R530; 17 R588 to R602). -/

namespace Sys2Proof.Machine

/-! ### The input (14 R530; 17 R588 to R597) -/

/-- Settles O48: each event under its threshold. -/
theorem inputEventsComplete : Obligations.InputEventsComplete := by
  unfold Obligations.InputEventsComplete
  refine ⟨fun s mv present => ⟨fun low => ?_, fun high => ?_, fun above trip => ?_, ?_⟩, fun s mv absent above => ?_, fun s x main hot => ?_,
    fun s en => ?_, fun s present => ?_⟩
  · change execUndervoltageLockout mv s = _
    unfold execUndervoltageLockout
    rw [present, decide_eq_false (Nat.not_le.mpr low)]
    rfl
  · change execOvervoltageShutdown mv s = _
    unfold execOvervoltageShutdown
    rw [present, decide_eq_false (Nat.not_le.mpr high)]
    rfl
  · change execUndervoltageLockoutClear mv s = _
    unfold execUndervoltageLockoutClear
    rw [present, trip, decide_eq_false (Nat.not_le.mpr above)]
    rfl
  · change execVinWarning mv s = _
    unfold execVinWarning
    rw [present]
    rfl
  · change execInputPresent mv s = _
    have high : (if 20000 ≤ mv.toNat then none else some (s.plat.lowSince.getD s.now)) = none := if_pos (Nat.le_of_lt above)
    unfold execInputPresent
    rw [absent, decide_eq_false (Nat.not_le.mpr above)]
    exact congrArg (fun x => Host.Outcome.next (s.modPlat (fun p => { p with present := true, vin := mv.toNat, lowSince := x }))) high
  · change execThermtrip x s = _
    unfold execThermtrip
    rw [main, decide_eq_false (Nat.not_le.mpr hot)]
    rfl
  · change execPwrEnDeassert s = _
    unfold execPwrEnDeassert
    rw [en]
    rfl
  · change ∃ t, execInputRemoved s = .next t ∧ _
    unfold execInputRemoved
    rw [present]
    exact ⟨_, rfl, rfl, rfl, rfl, rfl, rfl, rfl, rfl, rfl⟩

/-! ### HALL_REF (17 R599, R600) -/

/-- Without REFLOCK after it clears (17 R599). -/
theorem HallClock.unlock_reflock (h : HallClock) : bit h.unlock.stat 3 = false := bit_setBit_false h.stat (by decide)

section
variable (c : Prop) [Decidable c] (h : HallClock)

theorem HallClock.unlockIf_refNew : (if c then h.unlock else h).refNew = h.refNew := by split <;> rfl

theorem HallClock.unlockIf_refSec : (if c then h.unlock else h).refSec = h.refSec := by split <;> rfl

theorem HallClock.unlockIf_refSeq : (if c then h.unlock else h).refSeq = h.refSeq := by split <;> rfl

theorem HallClock.unlockIf_refBad : (if c then h.unlock else h).refBad = h.refBad := by split <;> rfl

end

theorem hallRefEdge_runs (s : State) (n : BitVec 32) (main : s.plat.main = true) :
    ∃ t, exec (.hallRefEdge n) s = .next t ∧ t.now = s.now + n.toNat ∧
    t.hall.refEdge = some t.now ∧ t.hall.refNew = false ∧
    (∀ e, s.hall.refEdge = some e → e + 999999000 ≤ t.now → t.now ≤ e + 1000001000 → s.hall.refNew = true → s.hall.refSec ≠ none →
      s.hall.refSeq = true → t.hall.refGood = s.hall.refGood + 1 ∧ t.hall.refCur = s.hall.refSec) ∧
    (s.hall.refNew = false → t.hall.refGood = 0) ∧ (bit s.hall.stat 3 = true → bit t.hall.stat 3 = true) ∧ t.mem = s.mem ∧ t.cores = s.cores := by
  change ∃ t, execHallRefEdge n s = .next t ∧ _
  unfold execHallRefEdge
  rw [main]
  refine ⟨_, rfl, rfl, rfl, rfl, fun e edge early late new some' seq => ?_, fun stale => ?_, fun lock => ?_, rfl, rfl⟩
  · have period : (match s.hall.refEdge with
        | some e => decide (e + 999999000 ≤ s.now + n.toNat) && decide (s.now + n.toNat ≤ e + 1000001000)
        | none => false) = true := by
      rw [edge]
      exact Bool.and_eq_true_iff.mpr ⟨decide_eq_true early, decide_eq_true late⟩
    have known : (s.hall.refNew && s.hall.refSec.isSome) = true := Bool.and_eq_true_iff.mpr ⟨new, Option.isSome_iff_ne_none.mpr some'⟩
    have good := Bool.and_eq_true_iff.mpr ⟨Bool.and_eq_true_iff.mpr ⟨Bool.and_eq_true_iff.mpr ⟨period, new⟩, Option.isSome_iff_ne_none.mpr some'⟩, seq⟩
    exact ⟨if_pos good, if_pos known⟩
  · refine if_neg ?_
    change ¬(_ && s.hall.refNew && s.hall.refSec.isSome && s.hall.refSeq) = true
    rw [stale, Bool.and_false]
    exact Bool.false_ne_true
  · change bit (setBit s.hall.stat 3 (bit s.hall.stat 3 || _)) 3 = true
    rw [lock, Bool.true_or]
    exact bit_setBit_true _ (by decide)

theorem hallRefTimeCode_runs (s : State) (bs : List Byte) (main : s.plat.main = true) :
    ∃ t, exec (.hallRefTimeCode bs) s = .next t ∧ t.hall.refNew = true ∧
    t.hall.refSec = timeCode bs ∧
    (∀ x y, timeCode bs = some x → s.hall.refSec = some y → t.hall.refSeq = (x == y + 1)) ∧
    (timeCode bs = none → t.hall.refBad = s.hall.refBad + 1 ∧ (1 ≤ s.hall.refBad → bit t.hall.stat 3 = false)) ∧
    t.mem = s.mem ∧ t.cores = s.cores := by
  change ∃ t, execHallRefTimeCode bs s = .next t ∧ _
  unfold execHallRefTimeCode
  rw [main]
  cases code : timeCode bs with
  | some x =>
    refine ⟨_, rfl, HallClock.unlockIf_refNew _ _, HallClock.unlockIf_refSec _ _, fun x' y eq known => ?_,
      fun none' => absurd none'.symm (Option.some_ne_none x).symm, rfl, rfl⟩
    refine (HallClock.unlockIf_refSeq _ _).trans ?_
    dsimp only
    rw [known, Option.some.inj eq]
  | none =>
    refine ⟨_, rfl, HallClock.unlockIf_refNew _ _, HallClock.unlockIf_refSec _ _, fun x y eq => absurd eq.symm (Option.some_ne_none x),
      fun _ => ⟨HallClock.unlockIf_refBad _ _, fun before => ?_⟩, rfl, rfl⟩
    refine (congrArg (fun h : HallClock => bit h.stat 3) (if_pos ?_)).trans (HallClock.unlock_reflock _)
    exact Nat.succ_le_succ before

/-- Settles O56: an edge, a time code and the loss by their own lemmas. -/
theorem hallReferenceComplete : Obligations.HallReferenceComplete := by
  unfold Obligations.HallReferenceComplete
  refine ⟨hallRefEdge_runs, hallRefTimeCode_runs, fun s e edge => ?_⟩
  obtain ⟨hall, clk, free, eq⟩ := s.advanceTo_eq (e + 1500000000)
  change ∃ t, execHallRefLoss s = .next t ∧ _
  unfold execHallRefLoss
  rw [edge]
  dsimp only
  rw [eq]
  exact ⟨_, rfl, rfl, HallClock.unlock_reflock _, rfl, rfl, rfl⟩

/-! ### PMBus (17 R594 to R598) -/

/-- PMBus answers a powered module with the bytes (17 R596). -/
theorem pmbus_present {s : State} (present : s.plat.present = true) (bs : List Byte) : pmbus s bs = .next (s.modPlat (fun p => { p with pmb := bs })) :=
  congrArg Host.Outcome.next (if_pos present)

/-- A measuring command answers with the average it has read (17 R594). -/
theorem pmbus_reads {s : State} (present : s.plat.present = true) (f : PlatState → PlatState) (kept : (f s.plat).present = s.plat.present) (bs : List Byte) :
    pmbus (if s.plat.present then s.modPlat f else s) bs = .next (s.modPlat (fun p => { f p with pmb := bs })) := by
  rw [if_pos present]
  exact pmbus_present (kept.trans present) bs

/-- The bit of THERMTRIP stands in every mask of CLEAR_FAULTS (17 R598). -/
theorem bit_seven_kept (w : BitVec 8) (warm : Bool) : bit (w &&& (0x80#8 ||| (if warm then 0x40#8 else 0))) 7 = bit w 7 := by
  cases warm
  · exact (BitVec.getLsbD_and).trans (Bool.and_true _)
  · exact (BitVec.getLsbD_and).trans (Bool.and_true _)

/-- Settles O57: each command by what the interface answers. -/
theorem pmbusCommandsComplete : Obligations.PmbusCommandsComplete := by
  unfold Obligations.PmbusCommandsComplete
  intro s present
  have ans := pmbus_present present
  have put (f : PlatState → PlatState) (kept : (f s.plat).present = s.plat.present) := pmbus_reads present f kept
  refine ⟨?_, ans _, ans _, ans _, ans _, ans _, ans _, ans _, ans _, ans _, fun mv => put _ rfl _, fun ma => put _ rfl _, ans _,
    fun x => ⟨put _ rfl _, put _ rfl _⟩, fun mw => put _ rfl _, ans _, ans _, ans _, ans _⟩
  change ∃ t, execClearFaults s = .next t ∧ _
  unfold execClearFaults
  rw [present]
  exact ⟨_, rfl, rfl, bit_seven_kept .., rfl, rfl⟩

/-! ### JTAG (17 R601, R602) -/

/-- Settles O58: each instruction of a live TAP. -/
theorem jtagInstructionsComplete : Obligations.JtagInstructionsComplete := by
  unfold Obligations.JtagInstructionsComplete
  intro s live
  refine ⟨fun cells => ⟨fun high => ?_, fun low => ?_⟩, fun ext => congrArg _ (if_pos live),
    congrArg _ (if_pos live), congrArg _ (if_pos live), fun code zero one two mbx => ?_, fun dr => ⟨fun bad => ?_,
    fun word on => ⟨fun write => ?_, fun read => ?_⟩⟩⟩
  · exact congrArg Host.Outcome.next ((if_pos live).trans (if_neg (Bool.eq_false_iff.mp high)))
  · exact congrArg Host.Outcome.next ((if_pos live).trans (if_pos low))
  · exact congrArg Host.Outcome.next ((if_pos live).trans (if_neg (not_or.mpr ⟨zero, not_or.mpr ⟨one, not_or.mpr ⟨two, mbx⟩⟩⟩)))
  · refine congrArg Host.Outcome.next ((if_pos live).trans (if_pos ?_))
    obtain odd | off := bad
    · exact .inl odd
    · exact .inr (by change (!s.portLive) = true; rw [off]; rfl)
  · have reach : ¬(fld dr 64 16 % 8 ≠ 0 ∨ (!s.portLive) = true) := by
      rw [word, on]
      exact not_or.mpr ⟨not_not_intro rfl, Bool.false_ne_true⟩
    exact congrArg Host.Outcome.next ((if_pos live).trans ((if_neg reach).trans (if_pos write)))
  · have reach : ¬(fld dr 64 16 % 8 ≠ 0 ∨ (!s.portLive) = true) := by
      rw [word, on]
      exact not_or.mpr ⟨not_not_intro rfl, Bool.false_ne_true⟩
    exact congrArg Host.Outcome.next ((if_pos live).trans ((if_neg reach).trans (if_neg (Bool.eq_false_iff.mp read))))

end Sys2Proof.Machine
end

section
/-! SUPPORT. A command that runs on a slip. CERTIFICATE. Mailboxes and ownership (15 R534 to R552; 17 R593). -/

namespace Sys2Proof.Machine

/-- A command runs on a slip without a payload (15 R543). -/
theorem onSlip_bare {s : State} {mb : MailId} {cmd : Nat} {sl : Slip} (h : s.slipFor mb.val cmd = some (sl, []))
    (f : Slip → List Byte → State → State) : onSlip s mb cmd f = .next (f sl [] s) := by
  unfold onSlip
  rw [h]
  rfl

/-- A command that takes a payload runs on its slip (15 R543, R544). -/
theorem onSlip_whole {s : State} {mb : MailId} {cmd : Nat} {sl : Slip} {pay : List Byte} (h : s.slipFor mb.val cmd = some (sl, pay))
    (takes : takesPayload cmd = true) (f : Slip → List Byte → State → State) : onSlip s mb cmd f = .next (f sl pay s) := by
  unfold onSlip
  rw [h, takes]
  exact congrArg Host.Outcome.next (if_pos (Bool.or_true _))

/-! ### Mailboxes -/

/-- Settles O49: a frame by whether MB1 is busy, an answer by what the slip waits for, a binding by its call number. -/
theorem mailboxEventsComplete : Obligations.MailboxEventsComplete := by
  unfold Obligations.MailboxEventsComplete
  refine ⟨fun s bs live kind short => ?_, fun s mb sl slip => ⟨fun r some' => ?_, fun none' fresh => ⟨fun st d judged => ?_, fun judged => ?_⟩⟩,
    fun s mb sl h => ?_, fun s mb bound => ?_⟩
  · have enters : ¬(!s.portLive || leNat (bs.take 1) != 1 || decide (4232 < bs.length)) = true := by
      rw [live, kind, decide_eq_false (Nat.not_lt.mpr short)]
      exact Bool.false_ne_true
    refine ⟨fun busy => ?_, fun idle => ?_⟩
    · exact congrArg Host.Outcome.next ((if_neg enters).trans (congrArg (fun u => postSlip u 1) (if_pos busy)))
    · exact congrArg Host.Outcome.next ((if_neg enters).trans (congrArg (fun u => postSlip u 1) (if_neg (Bool.eq_false_iff.mp idle))))
  · change execSlipAnswered mb s = _
    unfold execSlipAnswered
    rw [slip]
    dsimp only
    rw [some']
  · change execSlipAnswered mb s = _
    unfold execSlipAnswered
    rw [slip]
    dsimp only
    rw [none']
    dsimp only
    rw [fresh, judged]
    rfl
  · change execSlipAnswered mb s = _
    unfold execSlipAnswered
    rw [slip]
    dsimp only
    rw [none']
    dsimp only
    rw [fresh, judged]
    rfl
  · intro m c two five
    have named : ¬(m < 2 ∨ 5 < m) := not_or.mpr ⟨Nat.not_lt.mpr two, Nat.not_lt.mpr five⟩
    refine ⟨fun none' => ?_, fun call key => ?_⟩
    · change execMbBind mb s = _
      exact (onSlip_bare h _).trans (congrArg Host.Outcome.next ((if_neg named).trans (if_pos none')))
    · have bound : ¬(c = 0xFFFFF ∨ c = 0xFFFFFFFFFFFFFFFF) := by omega
      have fits : ¬(2 ^ 20 ≤ c ∨ 2 ^ 16 ≤ (sl.arg 2).toNat) := by omega
      change execMbBind mb s = _
      exact (onSlip_bare h _).trans (congrArg Host.Outcome.next ((if_neg named).trans ((if_neg bound).trans (if_neg fits))))
  · exact congrArg Host.Outcome.next (if_pos (Option.isSome_iff_ne_none.mpr bound))

/-! ### Ownership -/

/-- Settles O50: each command by the rule that admits it. -/
theorem ownershipCommandsComplete : Obligations.OwnershipCommandsComplete := by
  unfold Obligations.OwnershipCommandsComplete
  refine ⟨fun s mb sl pay => ?_, fun s x l contest => ?_, fun s o owner lapsed => ?_⟩
  · intro ok no st
    refine ⟨fun h => ⟨fun none' => ?_, fun o some' => ?_⟩, fun h standing => ?_, fun h => ⟨fun o owner own key => ?_, fun none' => ?_⟩,
      fun h => ⟨fun owner => ?_, fun other => ?_⟩, fun h box groups => ?_, fun h => ⟨fun none' => ?_, fun key some' valid => ?_⟩,
      fun h => ⟨fun none' size => ?_, fun key some' size valid => ?_⟩⟩
    · change execOwnQuery mb s = _
      unfold execOwnQuery
      rw [onSlip_bare h, none']
    · change execOwnQuery mb s = _
      unfold execOwnQuery
      rw [onSlip_bare h, some']
    · intro u
      have run : exec (.ownClaim mb) s = .next (if u.isOwner sl.key then reply (renewLease u st) mb.val stOK [] []
          else match sl.rival.or u.cur.owner with
          | some o => reply u mb.val stHELD [o.key, o.standing.setWidth 64] []
          | none =>
            let x := u.cur.contest.getD (sl.at' + 1000000, [])
            if x.1 ≤ sl.at' then u
            else takeSlip { u with cur := { u.cur with contest := some (x.1, x.2 ++ [(mb.val, sl.key, st)]) } } mb.val) := by
        change execOwnClaim mb s = _
        exact (onSlip_bare h _).trans (congrArg Host.Outcome.next (if_neg (Nat.not_le.mpr standing)))
      refine ⟨fun owner => ?_, fun o other held => ?_, fun other rival owner => ⟨fun none' => ?_, fun x l contest before => ?_⟩⟩
      · exact run.trans (congrArg Host.Outcome.next (if_pos owner))
      · have by' : sl.rival.or u.cur.owner = some o := by
          obtain rival | ⟨none', owner⟩ := held
          · rw [rival, Option.some_or]
          · rw [none', owner, Option.none_or]
        rw [run, if_neg (Bool.eq_false_iff.mp other), by']
      · rw [run, if_neg (Bool.eq_false_iff.mp other), rival, owner, none']
        exact congrArg Host.Outcome.next (if_neg (Nat.not_le.mpr (Nat.lt_add_of_pos_right (by decide))))
      · rw [run, if_neg (Bool.eq_false_iff.mp other), rival, owner, contest]
        exact congrArg Host.Outcome.next (if_neg (Nat.not_le.mpr before))
    · change execOwnRenew mb s = _
      unfold execOwnRenew
      rw [onSlip_bare h, owner]
      exact congrArg Host.Outcome.next (if_pos ⟨own, key⟩)
    · change execOwnRenew mb s = _
      unfold execOwnRenew
      rw [onSlip_bare h, none']
    · change execOwnRelease mb s = _
      exact (onSlip_bare h _).trans (congrArg Host.Outcome.next (if_pos owner))
    · change execOwnRelease mb s = _
      exact (onSlip_bare h _).trans (congrArg Host.Outcome.next (if_neg (Bool.eq_false_iff.mp other)))
    · have fits : ¬(8 ≤ (sl.arg 0).toNat ∨ 64 ≤ (sl.arg 1).toNat) := by omega
      refine ⟨fun two five unbound => ?_, fun served => ?_⟩
      · change execOwnGrant mb s = _
        refine (onSlip_bare h _).trans (congrArg Host.Outcome.next ((if_neg fits).trans (if_pos ⟨two, five, ?_⟩)))
        rw [unbound]
        rfl
      · change execOwnGrant mb s = _
        refine (onSlip_bare h _).trans (congrArg Host.Outcome.next ((if_neg fits).trans (if_neg fun ⟨two, five, unbound⟩ => ?_)))
        obtain low | high | bound := served
        · omega
        · omega
        · exact bound (Option.isNone_iff_eq_none.mp unbound)
    · change execOwnForce mb s = _
      unfold execOwnForce
      rw [onSlip_whole h rfl, none']
    · change execOwnForce mb s = _
      unfold execOwnForce
      rw [onSlip_whole h rfl, some']
      dsimp only
      rw [valid]
      rfl
    · change execOwnKeyset mb s = _
      unfold execOwnKeyset
      rw [onSlip_whole h rfl, none']
      exact congrArg Host.Outcome.next (if_neg (not_not_intro size))
    · change execOwnKeyset mb s = _
      unfold execOwnKeyset
      rw [onSlip_whole h rfl, some']
      dsimp only
      rw [if_neg (not_not_intro size), valid]
      rfl
  · refine ⟨fun none' => ?_, fun c cs some' => ?_⟩
    · change execOwnershipContestClose s = _
      unfold execOwnershipContestClose
      rw [contest]
      dsimp only
      rw [none']
    · change execOwnershipContestClose s = _
      unfold execOwnershipContestClose
      rw [contest]
      dsimp only
      rw [some']
  · change execLeaseExpiry s = _
    unfold execLeaseExpiry
    rw [owner]
    dsimp only
    rw [lapsed]
    rfl

end Sys2Proof.Machine
end

section
/-! CERTIFICATE. The Curator's reading commands (11 R412; 14 R531; 15 R543, R544, R561, R562; 16 R566, R574, R576). -/

namespace Sys2Proof.Machine

/-- Settles O51: each command on the slip it runs on, with its arguments in range. -/
theorem curatorReadsComplete : Obligations.CuratorReadsComplete := by
  unfold Obligations.CuratorReadsComplete
  refine fun s mb sl pay => ⟨fun h => ?_, fun h => ?_, fun h aligned => ?_, fun h => ⟨fun new size => ?_, fun q part aligned inside empty kept => ?_⟩,
    fun h => ?_, fun h ps plans => ?_, fun h count inside => ?_, fun h => ?_, fun h => ?_, fun h count inside => ⟨fun step sealed => ?_, fun other => ?_⟩⟩
  · exact show execInfo mb s = _ from onSlip_bare h _
  · exact show execArrayMap mb s = _ from onSlip_bare h _
  · change execBookplate mb s = _
    exact (onSlip_bare h _).trans (congrArg Host.Outcome.next (if_neg (not_not_intro aligned)))
  · have zero : (sl.arg 0).toNat = 0 := congrArg BitVec.toNat new
    change execQuote mb s = _
    exact (onSlip_whole h rfl _).trans (congrArg Host.Outcome.next ((if_pos zero).trans (if_neg (not_not_intro size))))
  · have later : (sl.arg 0).toNat ≠ 0 := fun zero => part (BitVec.eq_of_toNat_eq zero)
    have fits : ¬((sl.arg 0).toNat % 4096 ≠ 0 ∨ quoteLen ≤ (sl.arg 0).toNat) :=
      not_or.mpr ⟨not_not_intro aligned, Nat.not_le.mpr inside⟩
    change execQuote mb s = _
    unfold execQuote
    rw [onSlip_whole h rfl]
    dsimp only
    rw [if_neg later, if_neg fits, empty, kept]
    rfl
  · exact show execPwRead mb s = _ from onSlip_bare h _
  · change execPlanRead mb s = _
    unfold execPlanRead
    rw [onSlip_bare h, plans]
  · have fits : ¬(256 < (sl.arg 1).toNat ∨ 2 ^ 20 < (sl.arg 0).toNat + (sl.arg 1).toNat) := by omega
    change execCatRead mb s = _
    exact (onSlip_bare h _).trans (congrArg Host.Outcome.next (if_neg fits))
  · exact show execWeedRead mb s = _ from onSlip_bare h _
  · exact show execTelemRead mb s = _ from onSlip_bare h _
  · have fits : ¬(4096 < (sl.arg 2).toNat ∨ 0x10000 < (sl.arg 1).toNat + (sl.arg 2).toNat) := by omega
    have here : ¬(s.ledWord (sl.arg 0) 0 ≠ sl.arg 0 ∨ fld (s.ledWord (sl.arg 0) 8) 0 2 = 0) := not_or.mpr ⟨not_not_intro step, sealed⟩
    change execLedgerRead mb s = _
    exact (onSlip_bare h _).trans (congrArg Host.Outcome.next ((if_neg fits).trans (if_neg here)))
  · have fits : ¬(4096 < (sl.arg 2).toNat ∨ 0x10000 < (sl.arg 1).toNat + (sl.arg 2).toNat) := by omega
    change execLedgerRead mb s = _
    exact (onSlip_bare h _).trans (congrArg Host.Outcome.next ((if_neg fits).trans (if_pos other)))

end Sys2Proof.Machine
end

section
/-! CERTIFICATE. Function commands, core control and device reset, and the firmware's update (06 R254; 15 R544, R554 to R560; 16 R564 to R570). -/

namespace Sys2Proof.Machine

/-! ### Functions and cores -/

/-- A core number that names a core. -/
theorem coreArg_some {a : U64} (h : a.toNat < 144) : coreArg a = some ⟨a.toNat, h⟩ := dif_pos h

section
variable {s : State} {mb : MailId} {sl : Slip}

theorem fnCommands_run (named : 1 ≤ (sl.arg 0).toNat) (known : (sl.arg 0).toNat ≤ 9) :
    let ok (t : State) : Host.Outcome State Fault Refusal := .next (reply t mb.val stOK [] [])
    let fn := (sl.arg 0).toNat
    let d := (sl.arg 1).toNat
    let limit := if d = 0 then 1000 else d
    (s.slipFor mb.val 0x21 = some (sl, []) → d ≤ 100000 →
      (s.fnState fn = .enabled → exec (.fnDisable mb) s = .next (startDrain (takeSlip s mb.val) fn limit [(mb.val, false)] false false)) ∧
      (s.fnState fn = .disabled → exec (.fnDisable mb) s = .next (reply s mb.val stOK [0] []))) ∧
    (s.slipFor mb.val 0x22 = some (sl, []) →
      (s.fnState fn = .enabled → exec (.fnEnable mb) s = ok s) ∧
      (s.fnState fn = .disabled →
        let u := s.setFn fn .enabled
        exec (.fnEnable mb) s = ok (if fn = 6 ∨ fn = 7 then ledgerPairs u else if fn = 1 ∧ s.plat.hubUp = false then startHub u else u)) ∧
      (s.fnState fn = .draining ∨ s.fnState fn = .resetting → exec (.fnEnable mb) s = .next (reply s mb.val stBUSY [] []))) ∧
    (s.slipFor mb.val 0x23 = some (sl, []) → d ≤ 100000 → fld (sl.arg 2) 1 63 = 0 → s.fnState fn = .enabled →
      exec (.fnReset mb) s = .next (startDrain (takeSlip s mb.val) fn limit [(mb.val, true)] true (bit (sl.arg 2) 0))) := by
  intro ok fn d limit
  have exists' : ¬(fn < 1 ∨ 9 < fn) := by omega
  refine ⟨fun h short => ⟨fun st => ?_, fun st => ?_⟩, fun h => ⟨fun st => ?_, fun st => ?_, fun st => ?_⟩, fun h short rsv st => ?_⟩
  · have fits : ¬(fn < 1 ∨ 9 < fn ∨ 100000 < d) := by omega
    change execFnDisable mb s = _
    unfold execFnDisable
    rw [onSlip_bare h]
    dsimp only
    rw [if_neg fits, st]
  · have fits : ¬(fn < 1 ∨ 9 < fn ∨ 100000 < d) := by omega
    change execFnDisable mb s = _
    unfold execFnDisable
    rw [onSlip_bare h]
    dsimp only
    rw [if_neg fits, st]
  · change execFnEnable mb s = _
    unfold execFnEnable
    rw [onSlip_bare h]
    dsimp only
    rw [if_neg exists', st]
  · intro u
    change execFnEnable mb s = _
    unfold execFnEnable
    rw [onSlip_bare h]
    dsimp only
    rw [if_neg exists', st]
    dsimp only
    by_cases ledger : fn = 6 ∨ fn = 7
    · have other : ¬(fn = 1 ∧ (!(s.setFn fn .enabled).plat.hubUp) = true) := by omega
      rw [if_neg other, if_pos ledger, if_pos ledger]
    · rw [if_neg ledger, if_neg ledger]
      have hub : ((sl.arg 0).toNat = 1 ∧ (!(s.setFn (sl.arg 0).toNat .enabled).plat.hubUp) = true) = (fn = 1 ∧ s.plat.hubUp = false) := by
        rw [Bool.not_eq_true']
        rfl
      simp only [hub]
      rfl
  · change execFnEnable mb s = _
    unfold execFnEnable
    rw [onSlip_bare h]
    dsimp only
    rw [if_neg exists']
    obtain st | st := st
    · rw [st]
    · rw [st]
  · have fits : ¬(fn < 1 ∨ 9 < fn ∨ 100000 < d ∨ fld (sl.arg 2) 1 63 ≠ 0) := by omega
    change execFnReset mb s = _
    unfold execFnReset
    rw [onSlip_bare h]
    dsimp only
    rw [if_neg fits, st]

theorem coreCommands_run (named : (sl.arg 0).toNat < 144) :
    let ok (t : State) : Host.Outcome State Fault Refusal := .next (reply t mb.val stOK [] [])
    let c : CoreId := ⟨(sl.arg 0).toNat, named⟩
    let x := (s.core c).ex
    (s.slipFor mb.val 0x25 = some (sl, []) →
      (x.stop.valid = true → exec (.coreStoprec mb) s = .next (reply s mb.val stOK [stopWord x.stop, x.stop.pc, x.stop.time] [])) ∧
      (x.stop.valid = false → exec (.coreStoprec mb) s = .next (reply s mb.val stNOTFOUND [] []))) ∧
    (s.slipFor mb.val 0x26 = some (sl, []) → x.run ≠ .parked → s.fnState (coreFn c) = .enabled → x.stop.valid = true → (sl.arg 1).toNat % 4 = 0 →
      exec (.coreRestart mb) s = ok (startCore s c (sl.arg 1))) ∧
    (s.slipFor mb.val 0x27 = some (sl, []) → exec (.coreStop mb) s = ok (haltByOrder s c .command)) ∧
    (s.slipFor mb.val 0x29 = some (sl, []) →
      (x.run = .running → ∃ t, exec (.dbgHalt mb) s = ok t ∧ (t.core c).ex.run = .halted ∧ (t.core c).tile.queue = []) ∧
      (x.run = .halted → exec (.dbgHalt mb) s = ok s)) ∧
    (s.slipFor mb.val 0x2A = some (sl, []) → x.run = .halted →
      exec (.dbgResume mb) s = ok (s.modCore c (fun k => Core.syncMask { k with ex := { k.ex with run := .running, bpSkip := true } } s.now))) := by
  intro ok c x
  have core : coreArg (sl.arg 0) = some c := coreArg_some named
  refine ⟨fun h => ⟨fun valid => ?_, fun valid => ?_⟩, fun h run fn valid aligned => ?_, fun h => ?_,
    fun h => ⟨fun run => ?_, fun run => ?_⟩, fun h run => ?_⟩
  · change execCoreStoprec mb s = _
    unfold execCoreStoprec
    rw [onSlip_bare h]
    dsimp only
    rw [core]
    exact congrArg Host.Outcome.next (if_pos valid)
  · change execCoreStoprec mb s = _
    unfold execCoreStoprec
    rw [onSlip_bare h]
    dsimp only
    rw [core]
    exact congrArg Host.Outcome.next (if_neg (Bool.eq_false_iff.mp valid))
  · have starts : ¬((s.core c).ex.run == .parked || s.fnState (coreFn c) != .enabled || !(s.core c).ex.stop.valid) = true := by
      rw [beq_eq_false_iff_ne.mpr run, bne_eq_false_iff_eq.mpr fn, valid]
      exact Bool.false_ne_true
    change execCoreRestart mb s = _
    unfold execCoreRestart
    rw [onSlip_bare h]
    dsimp only
    rw [core]
    exact congrArg Host.Outcome.next ((if_neg starts).trans (if_neg (not_not_intro aligned)))
  · change execCoreStop mb s = _
    unfold execCoreStop
    rw [onSlip_bare h, core]
  · change ∃ t, execDbgHalt mb s = ok t ∧ _
    unfold execDbgHalt
    rw [onSlip_bare h, core]
    refine ⟨_, congrArg Host.Outcome.next (if_pos (beq_iff_eq.mpr run)), haltCore_run _ c, (congrArg TileRegs.queue (haltCore_sameRegs _ c c).tile).trans ?_⟩
    rw [State.core_modCore]
    obtain ⟨-, queue, -, -⟩ := discardTiles_frame s c
    exact queue
  · have still : ¬((s.core c).ex.run == .running) = true := by
      rw [show (s.core c).ex.run = .halted from run]
      exact Bool.false_ne_true
    change execDbgHalt mb s = _
    unfold execDbgHalt
    rw [onSlip_bare h]
    dsimp only
    rw [core]
    exact congrArg Host.Outcome.next ((if_neg still).trans (if_pos (beq_iff_eq.mpr run)))
  · change execDbgResume mb s = _
    unfold execDbgResume
    rw [onSlip_bare h]
    dsimp only
    rw [core]
    exact congrArg Host.Outcome.next (if_pos (beq_iff_eq.mpr run))

end

theorem fnDrainEnd_run {s : State} {fn : Fin 10} {w : FnWork} (work : s.fnWork fn.val = some w) (st : s.fnState fn.val = .draining) :
    exec (.fnDrainEnd fn) s = .next (endDrain (if drainBusy s fn.val then s.advanceTo w.limit else s) fn.val) := by
  change execFnDrainEnd fn s = _
  unfold execFnDrainEnd
  rw [work]
  dsimp only
  rw [if_neg (not_not_intro st)]
  exact congrArg Host.Outcome.next (apply_ite (fun u => endDrain u fn.val) _ _ _).symm

theorem fnResetDone_run {s : State} {fn : Fin 10} {w : FnWork} (work : s.fnWork fn.val = some w) (st : s.fnState fn.val = .resetting) :
    let u := ((clearFn s fn.val).setFn fn.val (if w.stay then .disabled else .enabled)).setWork fn.val none
    let v := if fn.val = 6 ∨ fn.val = 7 then ledgerPairs u else u
    exec (.fnResetDone fn) s = .next (answerWaits (if fn.val = 1 ∧ w.stay = false then startHub v else v) w.waits w.aborts) := by
  intro u v
  have same : (fn.val = 1 ∧ (!w.stay) = true) = (fn.val = 1 ∧ w.stay = false) := by rw [Bool.not_eq_true']
  change execFnResetDone fn s = _
  unfold execFnResetDone
  rw [work]
  dsimp only
  rw [if_neg (not_not_intro st)]
  simp only [same, u, v]

/-- Settles O52: each command by the state of its function or core. -/
theorem functionCommandsComplete : Obligations.FunctionCommandsComplete := by
  unfold Obligations.FunctionCommandsComplete
  refine ⟨fun s mb sl => ?_, fun s fn w work => ⟨fnDrainEnd_run work, fnResetDone_run work⟩, fun s t due => ?_⟩
  · intro ok fn d limit
    refine ⟨fun h => ?_, fnCommands_run, fun h none' => ?_, fun h named short => ?_, coreCommands_run⟩
    · exact show execFnQuery mb s = _ from onSlip_bare h _
    · change execDevReset mb s = _
      refine (onSlip_bare h _).trans (congrArg Host.Outcome.next (if_neg ?_))
      rw [none']
      exact Bool.false_ne_true
    · have fits : ¬((sl.arg 0).toNat < 1 ∨ 100000 < (sl.arg 0).toNat) := by omega
      change execWdog mb s = _
      exact (onSlip_bare h _).trans (congrArg Host.Outcome.next (if_neg fits))
  · change execDeviceReset s = _
    unfold execDeviceReset
    rw [due]

end Sys2Proof.Machine
end

section
/-! CERTIFICATE. The firmware's update, its copy and the recovery loader (16 R567 to R570). -/

namespace Sys2Proof.Machine

/-- An operation of FW_UPDATE runs on its slip (16 R569). -/
theorem onFw_takes {s : State} {mb : MailId} {sl : Slip} {pay : List Byte} (h : s.slipFor mb.val 0x80 = some (sl, pay)) {op : Nat → Bool} {n : Nat}
    (arg : (sl.arg 0).toNat = n) (this : op n = true) (f : Slip → List Byte → State → State) : onFw s mb op f = .next (f sl pay s) := by
  subst arg
  exact (onSlip_whole h rfl _).trans (congrArg Host.Outcome.next (if_pos this))

/-- Settles O54: each operation by its checks, the copy's end and the recovery loader by their conditions. -/
theorem firmwareUpdateComplete : Obligations.FirmwareUpdateComplete := by
  unfold Obligations.FirmwareUpdateComplete
  refine ⟨fun s mb sl pay h => ?_, fun s f mb seq rst fw ending => ?_, fun s recovery valid => ?_⟩
  · intro ok n
    have arg (k : U64) (is : sl.arg 0 = k) : (sl.arg 0).toNat = k.toNat := congrArg BitVec.toNat is
    refine ⟨fun begins some' fits idle may => ?_, fun len data fw short aligned inside => ?_, fun len ended flag fw => ?_⟩
    · have named : ¬(sl.arg 0 ≠ 0 ∨ n = 0 ∨ stagingSize < n) := not_or.mpr ⟨not_not_intro begins, by omega⟩
      change execFwUpdateBegin mb s = _
      unfold execFwUpdateBegin
      rw [onFw_takes h (arg _ begins) rfl]
      dsimp only
      rw [if_neg named, idle, may]
      rfl
    · have placed : ¬(n % 4096 ≠ 0 ∨ len < n + pay.length) := by omega
      change execFwUpdateData mb s = _
      unfold execFwUpdateData
      rw [onFw_takes h (arg _ data) rfl, fw]
      exact congrArg Host.Outcome.next ((if_neg (Nat.not_lt.mpr short)).trans (if_neg placed))
    · intro u
      have run : exec (.fwUpdateEnd mb) s = .next (if imgValid u.plat.stagedByte u.plat.arc then
            { u with plat := { u.plat with torn := true, fw := some { len := len, ending := some (mb.val, sl.seq, bit (sl.arg 1) 0) } } }
          else fwDone { u with plat := { u.plat with fw := none } } mb.val sl.seq stBADTOKEN) := by
        change execFwUpdateEnd mb s = _
        unfold execFwUpdateEnd
        rw [onFw_takes h (arg _ ended) rfl, fw]
        exact congrArg Host.Outcome.next (if_neg (Nat.not_le.mpr flag))
      refine ⟨fun valid => ?_, fun broken => ?_⟩
      · exact run.trans (congrArg Host.Outcome.next (if_pos valid))
      · exact run.trans (congrArg Host.Outcome.next (if_neg (Bool.eq_false_iff.mp broken)))
  · have copy : s.plat.fw.bind (fun f => f.ending) = some (mb, seq, rst) := by rw [fw, Option.bind_some, ending]
    change execImageSlotVerified s = _
    unfold execImageSlotVerified
    rw [copy]
  · change execRecoveryLoader s = _
    unfold execRecoveryLoader
    rw [recovery, valid]
    rfl

end Sys2Proof.Machine
end

section
/-! SUPPORT. What sending on a port leaves of the module. CERTIFICATE. The Curator's setting commands and the telemetry latch (11 R397 to R413;
13 R485 to R505; 14 R518 to R522; 15 R544, R561, R563). -/

namespace Sys2Proof.Machine

namespace State

/-! ### Links -/

/-- Nothing but the ports and the notes of the plans that cross them differs. -/
def LinksOnly (s t : State) : Prop := ∃ ports planPorts, t = { s with fab := { s.fab with ports := ports, planPorts := planPorts } }

theorem LinksOnly.refl (s : State) : s.LinksOnly s := ⟨_, _, rfl⟩

theorem LinksOnly.trans {s t u : State} (h : s.LinksOnly t) (g : t.LinksOnly u) : s.LinksOnly u := by
  obtain ⟨_, _, rfl⟩ := h
  obtain ⟨_, _, rfl⟩ := g
  exact ⟨_, _, rfl⟩

theorem owe_linksOnly (s : State) (from' : Option PortId) (k : Packet) : s.LinksOnly (s.owe from' k) := by
  cases from' with
  | none => exact .refl s
  | some p => exact ⟨_, _, rfl⟩

theorem notePlan_linksOnly (s : State) (p : PortId) (k : Packet) : s.LinksOnly (s.notePlan p k) := by
  unfold notePlan
  split
  · exact ⟨_, _, rfl⟩
  · exact .refl s

theorem transmit_linksOnly (s : State) (p : PortId) (x : TxEnt) : s.LinksOnly (s.transmit p x) :=
  ((s.owe_linksOnly x.from' x.pkt).trans (notePlan_linksOnly _ p x.pkt)).trans ⟨_, _, rfl⟩

theorem drainSome_linksOnly (p : PortId) (n : Nat) (s : State) : s.LinksOnly (drainSome p n s) := by
  induction n generalizing s with
  | zero => exact .refl s
  | succ n ih =>
    unfold drainSome
    split
    · exact .refl s
    · exact (LinksOnly.trans ⟨_, _, rfl⟩ (transmit_linksOnly _ p _)).trans (ih _)

theorem sendOn_linksOnly (s : State) (p : PortId) (k : Packet) : s.LinksOnly (s.sendOn p k) := by
  unfold sendOn sendFrom
  split
  · exact LinksOnly.trans ⟨_, _, rfl⟩ (drainSome_linksOnly p _ _)
  · exact s.owe_linksOnly none k

/-! ### What a module presents -/

/-- The module presents the same shelf mark, rank and reserve mark; memory is as it was. -/
structure SamePlate (s t : State) : Prop where
  shelf : t.fab.shelf = s.fab.shelf
  rank : t.fab.rank = s.fab.rank
  reserve : t.fab.reserve = s.fab.reserve
  mem : t.mem = s.mem

theorem SamePlate.refl (s : State) : s.SamePlate s := ⟨rfl, rfl, rfl, rfl⟩

theorem SamePlate.trans {s t u : State} (h : s.SamePlate t) (g : t.SamePlate u) : s.SamePlate u :=
  ⟨g.shelf.trans h.shelf, g.rank.trans h.rank, g.reserve.trans h.reserve, g.mem.trans h.mem⟩

theorem LinksOnly.samePlate {s t : State} (h : s.LinksOnly t) : s.SamePlate t := by
  obtain ⟨_, _, rfl⟩ := h
  exact ⟨rfl, rfl, rfl, rfl⟩

end State

theorem sendLocal_samePlate (s : State) (p : PortId) (b : Body) : s.SamePlate (sendLocal s p b) := (s.sendOn_linksOnly p _).samePlate

theorem sendHello_samePlate (s : State) (p : PortId) : s.SamePlate (sendHello s p) := (s.sendOn_linksOnly p _).samePlate

theorem hearClaim_samePlate (s : State) (from' : Option PortId) (rank : BitVec 3) (shelf : BitVec 32) : s.SamePlate (hearClaim s from' rank shelf) := by
  have claims (u : State) (h : s.SamePlate u) (low : Bool) (l : List PortId) : s.SamePlate (if (!low) = true then u
      else l.foldl (fun s q => sendLocal s q (.claim rank shelf)) { u with fab := { u.fab with claim := some (rank, shelf, u.now) } }) := by
    split
    · exact h
    · refine .trans ?_ (State.foldl_rel State.SamePlate.refl State.SamePlate.trans (fun t q => sendLocal_samePlate t q _) l _)
      exact h.trans ⟨rfl, rfl, rfl, rfl⟩
  unfold hearClaim
  refine claims _ ?_ _ _
  split
  · exact ⟨rfl, rfl, rfl, rfl⟩
  · exact ⟨rfl, rfl, rfl, rfl⟩

/-! ### The commands -/

section
variable {s : State} {mb : MailId} {sl : Slip}

theorem fabShelf_run (h : s.slipFor mb.val 0x40 = some (sl, [])) (number : (sl.arg 0).toNat < 2 ^ 24) (rsv : sl.arg 1 &&& ~~~0x107#64 = 0) :
    ∃ t, exec (.fabShelf mb) s = .next (reply t mb.val stOK [] []) ∧
      t.fab.shelf = n64 (fld s.fab.shelf 0 8 + (sl.arg 0).toNat <<< 8 + 2 ^ 32) ∧ t.fab.rank = (sl.arg 1).setWidth 3 ∧
      t.fab.reserve = bit (sl.arg 1) 8 ∧ t.mem = s.mem := by
  have accepted : ¬(2 ^ 24 ≤ (sl.arg 0).toNat ∨ sl.arg 1 &&& ~~~0x107#64 ≠ 0) := not_or.mpr ⟨Nat.not_le.mpr number, not_not_intro rsv⟩
  let u : State := { s with fab := { s.fab with
    shelf := n64 (fld s.fab.shelf 0 8 + (sl.arg 0).toNat <<< 8 + 2 ^ 32), rank := (sl.arg 1).setWidth 3, reserve := bit (sl.arg 1) 8 } }
  have hello : u.SamePlate ((u.otherPorts none).foldl sendHello u) :=
    State.foldl_rel .refl .trans sendHello_samePlate _ _
  have claim (v : State) : v.SamePlate (if v.fab.rank = 7 then v else hearClaim v none v.fab.rank (v.fab.shelf.setWidth 32)) := by
    split
    · exact .refl v
    · exact hearClaim_samePlate ..
  have kept := hello.trans (claim _)
  refine ⟨_, ?_, kept.shelf, kept.rank, kept.reserve, kept.mem⟩
  change execFabShelf mb s = _
  exact (onSlip_bare h _).trans (congrArg Host.Outcome.next (if_neg accepted))

theorem planWrite_run {pay : List Byte} (h : s.slipFor mb.val 0x42 = some (sl, pay)) {ps : List Nat} (plans : sl.plans = some ps)
    (size : pay.length = 64 * ps.length) :
    let es := (List.range ps.length).map (fun i => (((items 8 (8 * ps.length) pay).map n64).drop (8 * i)).take 8)
    (∀ e ∈ es, planEntryOk e = true) → (∀ p ∈ ps, s.planBusy p = false) →
      exec (.planWrite mb) s = .next (reply (writePlans s (ps.zip es)) mb.val stOK [] []) := by
  intro es ok free
  have all' : ¬(!es.all planEntryOk) = true := by
    rw [List.all_eq_true.mpr ok]
    exact Bool.false_ne_true
  have idle : ¬ps.any s.planBusy = true := by
    rw [List.any_eq_false.mpr fun p mem => Bool.eq_false_iff.mp (free p mem)]
    exact Bool.false_ne_true
  change execPlanWrite mb s = _
  unfold execPlanWrite
  rw [onSlip_whole h rfl, plans]
  exact congrArg Host.Outcome.next ((if_neg (not_not_intro size)).trans ((if_neg all').trans (if_neg idle)))

end

theorem telemetryLatch_run {s : State} (due : s.cur.tmNext ≠ 0) :
    let u := s.toHall s.cur.tmNext
    ∃ t, exec .telemetryLatchTaken s = .next t ∧ t.cur.tm = (if u.fnState 9 = .enabled then u.tmRecord else s.cur.tm) ∧
      t.cur.tmNext = (if s.cur.tmPeriod = 0 then 0 else s.cur.tmNext + s.cur.tmPeriod) ∧ t.mem = s.mem ∧ t.cores = s.cores := by
  intro u
  have moved : u.cur = s.cur ∧ u.mem = s.mem ∧ u.cores = s.cores := by
    obtain ⟨_, _, _, _, eq, _⟩ := s.toHall_timeOnly s.cur.tmNext
    unfold u
    rw [eq]
    exact ⟨rfl, rfl, rfl⟩
  obtain ⟨cur, mem, cores⟩ := moved
  have next : (if u.cur.tmPeriod = 0 then 0 else u.cur.tmNext + u.cur.tmPeriod) = if s.cur.tmPeriod = 0 then 0 else s.cur.tmNext + s.cur.tmPeriod := by
    rw [cur]
  change ∃ t, execTelemetryLatchTaken s = .next t ∧ _
  unfold execTelemetryLatchTaken
  rw [if_neg due]
  dsimp only
  by_cases on : u.fnState 9 = .enabled
  · rw [if_pos (beq_iff_eq.mpr on), if_pos on]
    exact ⟨_, rfl, rfl, next, mem, cores⟩
  · rw [if_neg (mt beq_iff_eq.mp on), if_neg on]
    exact ⟨_, rfl, (congrArg CurState.tm cur :), next, mem, cores⟩

/-- Settles O53: each command with arguments it accepts, and the latch. -/
theorem curatorSettingsComplete : Obligations.CuratorSettingsComplete := by
  unfold Obligations.CuratorSettingsComplete
  refine ⟨fun s mb sl pay => ?_, fun s due => telemetryLatch_run due⟩
  intro ok a b
  refine ⟨fun h rsv share core => ?_, fun h n low high step one most => ?_, fun h group low high => ?_, fun h fits => ⟨fun opened => ?_, fun busy voted => ?_⟩,
    fabShelf_run, fun h whole => ?_, fun h ps plans size => planWrite_run h plans size, fun h => ?_, fun h key installed named valid => ?_,
    fun h idle => ?_, fun h mem => ?_, fun h two => ?_, fun h synced => ?_⟩
  · have accepted : ¬(sl.arg 0 &&& ~~~0xFF07#64 ≠ 0 ∨ (bit (sl.arg 0) 2 = true ∧ (!bit (sl.arg 0) 0) = true) ∨ 143 < fld (sl.arg 0) 8 8) := by
      refine not_or.mpr ⟨not_not_intro rsv, not_or.mpr ⟨fun ⟨two, zero⟩ => ?_, Nat.not_lt.mpr core⟩⟩
      rw [share two] at zero
      exact Bool.false_ne_true zero
    change execPwMode mb s = _
    exact (onSlip_bare h _).trans (congrArg Host.Outcome.next (if_neg accepted))
  · have accepted : ¬(16 ≤ a ∨ b < 600 ∨ 1350 < b ∨ b % 25 ≠ 0 ∨ (sl.arg 2).toNat < 1 ∨ 64 < (sl.arg 2).toNat) := by omega
    change execPwOpp mb s = _
    exact (onSlip_bare h _).trans (congrArg Host.Outcome.next (if_neg accepted))
  · have accepted : ¬(2 ^ 16 ≤ a ∨ (sl.arg 2).toNat < 1600 ∨ 2400 < (sl.arg 2).toNat) := by omega
    change execPwGroup mb s = _
    exact (onSlip_bare h _).trans (congrArg Host.Outcome.next (if_neg accepted))
  · have first : s.led.st = 0 ∨ (s.led.fresh = true ∧ (!s.led.voted) = true) := by
      obtain idle | ⟨fresh, vote⟩ := opened
      · exact .inl idle
      · exact .inr ⟨fresh, by rw [vote]; rfl⟩
    change execPwShareset mb s = _
    exact (onSlip_bare h _).trans (congrArg Host.Outcome.next ((if_neg (Nat.not_le.mpr fits)).trans (if_pos first)))
  · have later : ¬(s.led.st = 0 ∨ (s.led.fresh = true ∧ (!s.led.voted) = true)) :=
      not_or.mpr ⟨busy, fun both => Bool.false_ne_true (voted.symm.trans both.1)⟩
    change execPwShareset mb s = _
    exact (onSlip_bare h _).trans (congrArg Host.Outcome.next ((if_neg (Nat.not_le.mpr fits)).trans (if_neg later)))
  · change execFabLayout mb s = _
    exact (onSlip_whole h rfl _).trans (congrArg Host.Outcome.next (if_neg (not_not_intro whole)))
  · exact show execWithdraw mb s = _ from onSlip_bare h _
  · change ∃ t, execWeedClear mb s = ok t ∧ _
    unfold execWeedClear
    rw [onSlip_whole h rfl, installed]
    exact ⟨_, congrArg Host.Outcome.next ((if_neg (Nat.not_le.mpr named)).trans (if_neg (by rw [valid]; exact Bool.false_ne_true))), rfl, rfl, rfl⟩
  · change execFtest mb s = _
    exact (onSlip_bare h _).trans (congrArg Host.Outcome.next (if_neg (by rw [idle]; exact Bool.false_ne_true)))
  · change execStandbySet mb s = _
    exact (onSlip_bare h _).trans (congrArg Host.Outcome.next (if_neg (by rw [show isMem (sl.arg 0).toNat = true from mem]; exact Bool.false_ne_true)))
  · change execHbmMode mb s = _
    exact (onSlip_bare h _).trans (congrArg Host.Outcome.next (if_neg (Nat.not_le.mpr two)))
  · change execTelemLatch mb s = _
    exact (onSlip_bare h _).trans (congrArg Host.Outcome.next (if_neg (by rw [synced]; exact Bool.false_ne_true)))

end Sys2Proof.Machine
end

section
/-! CERTIFICATE. Power-good, MOD_RESET_N, the stages of bring-up and the hub boot image (16 R564 to R575; 17 R589, R591). -/

namespace Sys2Proof.Machine

theorem get_vmap {α β : Type} {n : Nat} (f : α → β) (v : Vector α n) (i : Fin n) : (vmap f v).get i = f (v.get i) := Vector.getElem_ofFn i.isLt

/-- What stage 5 leaves of a module whose carrels hold zeros (03 R83; 08 R301). -/
def afterZeroing (z : State) : State :=
  endStage (invalidateL1 { z with cores := vmap (fun k => { k with tile := { TileRegs.reset with fused := k.tile.fused, weeded := k.tile.weeded } }) z.cores }) 5

theorem afterZeroing_core (z : State) (c : CoreId) : ((afterZeroing z).core c).mm.l1d = [] ∧ ((afterZeroing z).core c).mm.l1i = [] ∧
    ∃ old : TileRegs, ((afterZeroing z).core c).tile = { TileRegs.reset with fused := old.fused, weeded := old.weeded } := by
  simp only [afterZeroing, endStage, invalidateL1, State.core, get_vmap, true_and]
  exact ⟨(z.cores.get c).tile, rfl⟩

/-- What the end of stage 8 adds to a module whose cores are held (16 R564, R575). -/
def afterHolding (u : State) : State :=
  let v := endStage { u with plat := { u.plat with tready := (u.now - u.plat.pgood) / 1000 } } 8
  extendState v 1 v.mr1Data

theorem afterHolding_core (u : State) (c : CoreId) : (afterHolding u).core c = u.core c := rfl

theorem afterHolding_stage (u : State) : (afterHolding u).plat.stage = 8 := rfl

/-- Every core holds a stop record at READY (16 R572). -/
theorem holdRecords_held (u : State) (c : CoreId) : ((holdRecords u).core c).ex.stop.valid = true ∧ ((holdRecords u).core c).ex.stop.pc = 0 := by
  simp only [holdRecords, State.core, get_vmap, StopRec.none, and_self]

section
variable {s : State}

/-- Bring-up goes on at a stage. -/
theorem onStage {n : Nat} (stage : s.atStage n = true) : ¬(!s.atStage n) = true := by
  rw [stage]
  exact Bool.false_ne_true

theorem powerGood_run {mv : BitVec 16} {st : BitVec 8} (present : s.plat.present = true) (high : 38000 ≤ mv.toNat) (uv : s.plat.uvTrip = false)
    (ov : s.plat.ovTrip = false) (hot : s.plat.thermTrip = false) (off : s.plat.main = false ∨ s.plat.modReset = true ∨ s.plat.vin < 38000) :
    ∃ t, exec (.powerGood mv st) s = .next t ∧ t.plat.main = true ∧ t.plat.pwrEn = true ∧ t.plat.modReset = false ∧ t.plat.stage = 0 ∧
      t.fab.shelf = st.setWidth 64 := by
  have rises : (s.plat.main && !s.plat.modReset && decide (38000 ≤ s.plat.vin)) = false := by
    obtain off | reset | low := off
    · rw [off]
      rfl
    · rw [reset, Bool.not_true, Bool.and_false]
      rfl
    · rw [decide_eq_false (Nat.not_le.mpr low), Bool.and_false]
  change ∃ t, execPowerGood mv st s = .next t ∧ _
  unfold execPowerGood
  dsimp only
  rw [present, decide_eq_false (Nat.not_lt.mpr high), uv, ov, hot, rises]
  exact ⟨_, rfl, rfl, rfl, rfl, rfl, rfl⟩

theorem carrelZeroing_run (stage : s.atStage 4 = true) : ∃ t, exec (.carrelZeroing none) s = .next t ∧ t.plat.stage = 5 ∧
    ∀ c, (t.core c).mm.l1d = [] ∧ (t.core c).mm.l1i = [] ∧
      ∃ old : TileRegs, (t.core c).tile = { TileRegs.reset with fused := old.fused, weeded := old.weeded } := by
  refine ⟨afterZeroing (zeroRange s 0xC000000000 0xC00C000000), ?_, rfl, afterZeroing_core _⟩
  change execCarrelZeroing none s = _
  unfold execCarrelZeroing
  rw [stage]
  rfl

theorem selfTest_run (stage : s.atStage 5 = true) (l : List CoreTest) : ∃ t, exec (.selfTest none l) s = .next t ∧ t.plat.stage = 6 ∧
    t.plat.fit = decide (t.plat.weededCores ≤ 16) ∧ t.plat.live = (t.compute.map (fun k => k.tile.liveCount)).sum := by
  change ∃ t, execSelfTest none l s = .next t ∧ _
  unfold execSelfTest
  rw [stage]
  exact ⟨_, rfl, rfl, decide_not.symm.trans (decide_eq_decide.mpr Nat.not_lt), rfl⟩

theorem linkTrainingStage_run (stage : s.atStage 6 = true) (ps : BitVec 24) :
    ((∀ p : PortId, bit ps p.val = true → (s.port p).up = true) → exec (.linkTrainingStage ps) s = .next (endStage s 7)) ∧
    ((∃ p : PortId, bit ps p.val = true ∧ (s.port p).up = false) →
      exec (.linkTrainingStage ps) s = .next (endStage (s.advanceTo (s.plat.stageAt + 14000000000)) 7)) := by
  have run : exec (.linkTrainingStage ps) s = .next (endStage (if (List.finRange 24).all (fun p => !bit ps p.val || (s.port p).up) then s
      else s.advanceTo (s.plat.stageAt + 14000000000)) 7) := by
    change execLinkTrainingStage ps s = _
    unfold execLinkTrainingStage
    rw [stage]
    rfl
  refine ⟨fun trained => ?_, fun ⟨p, partner, down⟩ => ?_⟩
  · rw [run, if_pos (List.all_eq_true.mpr fun p _ => ?_)]
    cases partner : bit ps p.val with
    | false => rfl
    | true => exact trained p partner
  · rw [run, if_neg fun all => ?_]
    have this := List.all_eq_true.mp all p (List.mem_finRange p)
    rw [partner, down] at this
    exact Bool.false_ne_true this

theorem ready_run (stage : s.atStage 7 = true) : ∃ t, exec .ready s = .next t ∧ t.plat.stage = 8 ∧ ∀ c : CoreId, (t.core c).ex.stop.valid = true ∧
    (t.core c).ex.stop.pc = 0 := by
  refine ⟨afterHolding (holdRecords ((List.finRange 144).foldl loadGlosses { s with plat := s.plat.blow })), congrArg Host.Outcome.next (if_neg (onStage stage)),
    afterHolding_stage _, fun c => ?_⟩
  rw [afterHolding_core]
  exact holdRecords_held _ c

end

/-- Settles O55: each stage by what it finds. -/
theorem bringupStagesComplete : Obligations.BringupStagesComplete := by
  unfold Obligations.BringupStagesComplete
  refine ⟨fun s mv st present high uv ov hot off => powerGood_run present high uv ov hot off, fun s ns main reset long => ?_,
    fun s => ⟨fun stage => ⟨fun bad => ?_, fun valid => ?_⟩,
    fun stage => ⟨?_, ?_⟩, fun stage => ⟨?_, ?_⟩, fun stage => ⟨fun k => ?_, ?_⟩, fun stage => ⟨fun k => ?_, carrelZeroing_run stage⟩,
    fun stage => ⟨fun k l => ?_, selfTest_run stage⟩, fun stage => linkTrainingStage_run stage, fun stage => ready_run stage,
    fun stage => ⟨fun img entry try' => ?_, fun img x try' => ?_⟩⟩⟩
  · change execModResetN ns s = _
    unfold execModResetN
    rw [main, reset, decide_eq_false (Nat.not_lt.mpr long)]
    rfl
  · change execFirmwareVerify s = _
    unfold execFirmwareVerify
    rw [stage, bad]
    rfl
  · change execFirmwareVerify s = _
    unfold execFirmwareVerify
    rw [stage, valid]
    rfl
  · exact congrArg Host.Outcome.next (if_neg (onStage stage))
  · exact congrArg Host.Outcome.next (if_neg (onStage stage))
  · exact congrArg Host.Outcome.next (if_neg (onStage stage))
  · exact congrArg Host.Outcome.next (if_neg (onStage stage))
  · exact congrArg Host.Outcome.next (if_neg (onStage stage))
  · exact congrArg Host.Outcome.next (if_neg (onStage stage))
  · exact congrArg Host.Outcome.next (if_neg (onStage stage))
  · exact congrArg Host.Outcome.next (if_neg (onStage stage))
  · change execHubBootFetch img s = _
    unfold execHubBootFetch
    rw [stage, entry, try']
    rfl
  · change execHubBootRetry img s = _
    unfold execHubBootRetry
    rw [try']
    dsimp only
    rw [stage]
    rfl

end Sys2Proof.Machine
end
